-- ==== Sys2Proof/Word.lean ====
section
/-!
DEFINITION. The word types of the module: bytes, 32-bit registers (R525) and 64-bit counts.
-/
namespace Sys2Proof

/-- One byte of memory, of a frame or of a record. -/
abbrev Byte := BitVec 8

/-- One register of BAR0 (R525): 32 bits, little-endian. -/
abbrev Word := BitVec 32

/-- A bit string held as bytes, lowest address first. -/
abbrev Bytes := List Byte

/-- The bytes of `n`, least significant first, `k` of them (R525, R451: little-endian). -/
def leBytes : Nat → Nat → Bytes
  | 0, _ => []
  | k + 1, n => BitVec.ofNat 8 n :: leBytes k (n / 256)

/-- The bytes of `n`, most significant first, `k` of them. -/
def beBytes (k n : Nat) : Bytes := (leBytes k n).reverse

/-- The number a little-endian byte string spells. -/
def leNat : Bytes → Nat
  | [] => 0
  | b :: bs => b.toNat + 256 * leNat bs

/-- The number a big-endian byte string spells. -/
def beNat (bs : Bytes) : Nat := leNat bs.reverse

/-- Two's complement reading of the low `w` bits of `n`. -/
def signedOf (w n : Nat) : Int :=
  let v := n % 2 ^ w
  if v < 2 ^ (w - 1) then (v : Int) else (v : Int) - (2 ^ w : Nat)

/-- Two's complement coding of `i` in `w` bits. -/
def codedOf (w : Nat) (i : Int) : Nat := (i % ((2 ^ w : Nat) : Int)).toNat

/-- The bits `hi` down to `lo` of a number. -/
def bitsOf (n hi lo : Nat) : Nat := (n >>> lo) % 2 ^ (hi - lo + 1)

/-- The bytes of an ASCII text. -/
def ascii (s : String) : Bytes := s.toList.map fun c => BitVec.ofNat 8 c.toNat

end Sys2Proof
end

