-- ==== Sys2Proof/Syntax.lean ====
section
/-!
DEFINITION. The commands of the block: the operand types and `Instr`, one constructor per row of
spec/opcode_table.json. The table gives a row no field; the operands are those the rules name (log 4).
-/
namespace Sys2Proof

/-! ## Modes -/

/-- The Time axis (R64), in the order of PTP_STAT.MODE (R337). -/
inductive TimeMode where
  | slave | master | boundary | holdover | freeRun
  deriving DecidableEq, Repr, Inhabited

/-- The Role axis (R64), in the order of OUT_STAT.ROLE. -/
inductive Role where
  | standalone | active | standby | referee
  deriving DecidableEq, Repr, Inhabited

/-- The Test axis (R64, R65). -/
inductive TestVal where
  | off | test | testBlocked | simulation
  deriving DecidableEq, Repr, Inhabited

/-! ## PTP messages (R330) -/

/-- A PTP port identity: clockIdentity and port number. -/
structure PtpPortId where
  clock : Nat
  port : Nat
  deriving DecidableEq, Repr, Inhabited

/-- The body of an Announce message. -/
structure AnnounceData where
  gmId : Nat
  gmClass : Nat
  gmAcc : Nat
  gmVar : Nat
  prio1 : Nat
  prio2 : Nat
  steps : Nat
  utcOffset : Int
  utcValid : Bool
  leap61 : Bool
  leap59 : Bool
  timeSource : Nat
  /-- totalTimeInaccuracy (ns) of the IEEE C37.238-2017 profile TLV, none without that TLV (R330). -/
  inaccuracy : Option Nat
  deriving DecidableEq, Repr, Inhabited

/-- PTP message types; `other` stands for every message outside the limits of R330. -/
inductive PtpKind where
  | sync | followUp | delayReq | delayResp | pdelayReq | pdelayResp | pdelayRespFollowUp | announce | other
  deriving DecidableEq, Repr, Inhabited

/-- A PTP message. Timestamps are in units of 2^-16 ns since the PTP epoch, the correction field in the same unit. -/
structure PtpMsg where
  kind : PtpKind
  domain : Nat
  udp : Bool
  twoStep : Bool
  src : PtpPortId
  seq : Nat
  corr : Int
  origin : Nat
  /-- requestingPortIdentity of a response. -/
  req : PtpPortId
  ann : AnnounceData
  deriving DecidableEq, Repr, Inhabited

/-! ## Process-bus messages -/

/-- IEC 62351-6 extension of an SV or GOOSE frame (R474): key identifier, algorithm and the MAC it carries. -/
structure SecExt where
  kid : Nat
  /-- Supported MAC algorithm: false for AES-GMAC or encryption, which fail authentication. -/
  hmac : Bool
  mac : Bytes
  deriving DecidableEq, Repr, Inhabited

/-- One ASDU of an SV frame (R155). -/
structure SvAsdu where
  svId : Bytes
  smpCnt : Nat
  confRev : Nat
  smpSynch : Nat
  smpRate : Option Nat
  smpMod : Option Nat
  /-- Values and their 32-bit IEC 61850 qualities, in channel order. -/
  chans : List (Int × Nat)
  deriving DecidableEq, Repr, Inhabited

/-- An IEC 61850-9-2 frame as decoded (R155); `malformed` when it fails to decode or its length fields disagree. -/
structure SvFrame where
  appid : Nat
  sim : Bool
  noAsdu : Nat
  asdus : List SvAsdu
  malformed : Bool
  sec : Option SecExt
  deriving DecidableEq, Repr, Inhabited

/-- A GOOSE member value with its optional quality (R258): 13-bit IEC 61850 quality. -/
inductive GooseVal where
  | bool (v : Bool)
  | int32 (v : Int)
  | float32 (v : Nat)
  | uint32 (v : Nat)
  | quality (q : Nat)
  deriving DecidableEq, Repr, Inhabited

/-- A GOOSE frame as decoded (R258). -/
structure GooseFrame where
  appid : Nat
  gocbRef : Bytes
  datSet : Bytes
  goId : Bytes
  /-- timeAllowedtoLive in ms. -/
  tal : Nat
  stNum : Nat
  sqNum : Nat
  /-- t: TAI seconds and nanoseconds as the module counts them, and its TimeQuality octet. -/
  tSec : Nat
  tNs : Nat
  tQual : Nat
  sim : Bool
  confRev : Nat
  ndsCom : Bool
  vals : List GooseVal
  malformed : Bool
  sec : Option SecExt
  deriving DecidableEq, Repr, Inhabited

/-! ## Phasor frames (chapter 06) -/

/-- What a phasor frame is: data, a CFG-2 frame with its bytes, or one that is ignored (CFG-1, CFG-3, header; R201). -/
inductive PmuKind where
  | data
  | cfg2 (body : Bytes)
  | ignored
  deriving DecidableEq, Repr, Inhabited

/-- One PMU block of a phasor frame as it stands on the line: STAT, phasors (two words each), FREQ, DFREQ, analogue values
and digital words, 16-bit or binary32 as the FORMAT of the stored CFG-2 says (R200, R201). -/
structure PmuBlock where
  stat : Nat
  phasors : List (Nat × Nat)
  freq : Nat
  dfreq : Nat
  analogs : List Nat
  digitals : List Nat
  deriving DecidableEq, Repr, Inhabited

/-- A phasor frame of C37.118.2, or of IEC 61850-90-5 (R201, R202). -/
structure PmuFrame where
  kind : PmuKind
  /-- IEC 61850-90-5: refrTm as UTC seconds and nanoseconds is in `soc` and `fracsec`, and `locked` is smpSynch ≠ 0. -/
  v905 : Bool
  version : Nat
  idcode : Nat
  soc : Nat
  fracsec : Nat
  /-- Time-quality byte, FRACSEC [31:24]. -/
  tq : Nat
  locked : Bool
  blocks : List PmuBlock
  crcBad : Bool
  malformed : Bool
  sec : Option SecExt
  len : Nat
  deriving DecidableEq, Repr, Inhabited

/-- Body of a UDP datagram. -/
inductive UdpBody where
  | pmu (f : PmuFrame)
  /-- A C37.118.2 command frame: IDCODE and command word. -/
  | c37cmd (idcode cmd : Nat) (crcBad : Bool)
  /-- Any other datagram, as its bytes: federation and Referee messages are parsed from them. -/
  | raw (b : Bytes)
  deriving DecidableEq, Repr, Inhabited

/-- Decoded payload of an Ethernet frame. -/
inductive Payload where
  | sv (f : SvFrame)
  | goose (f : GooseFrame)
  | ptp (m : PtpMsg)
  | supervision (node : Nat) (seq : Nat)
  | arpRequest (targetIp senderIp senderMac : Nat)
  | arpReply (ip mac : Nat)
  | igmpQuery
  | igmpReport (group : Nat)
  | udp (srcIp dstIp sport dport : Nat) (body : UdpBody)
  /-- An IPv4 fragment the module sends (R201): `len` bytes at `off` of the datagram, its UDP header counted. -/
  | fragment (srcIp dstIp sport dport : Nat) (body : UdpBody) (off len : Nat)
  | tcp (srcIp dstIp sport dport : Nat) (data : Bytes)
  | pause (quanta : Nat)
  | other (etype : Nat)
  deriving DecidableEq, Repr, Inhabited

/-- PRP trailer or HSR tag of a frame: sequence number and LAN (0 A, 1 B). -/
structure RedTag where
  hsr : Bool
  seq : Nat
  lan : Nat
  deriving DecidableEq, Repr, Inhabited

/-- An Ethernet frame at a port. `raw` is the frame as it stands on the line from destination through FCS without
trailer or tag, `len` its length in bytes. -/
structure Frame where
  dst : Nat
  src : Nat
  /-- IEEE 802.1Q tags, outermost first: PCP and VID. -/
  tags : List (Nat × Nat)
  len : Nat
  fcsBad : Bool
  codeErr : Bool
  red : Option RedTag
  payload : Payload
  raw : Bytes
  deriving DecidableEq, Repr, Inhabited

/-! ## Task faults -/

/-- What a task faults on (R96, R124). -/
inductive TaskFaultKind where
  | scratchEcc | flowEcc | paramEcc | overrun | parity
  deriving DecidableEq, Repr, Inhabited

/-! ## Keeper requests -/

/-- How a mailbox command reached Keeper (R485): its TAG, and the PCIe mailbox or an M0 session. -/
structure KReq where
  tag : Nat
  pcie : Bool
  deriving DecidableEq, Repr, Inhabited

/-! ## Health and start -/

/-- A memory word as a scrubber names it (R499): a row of the capture ring, Keeper's memory, the rest of DRAM, a cluster's
flow-state memory, an engine's resident parameters, its write log or scratch, the matching store with the in-flight entries by
partition, the coefficient store by group, and MRAM: an energy copy, a position of the event ring, the rest. -/
inductive ScrubWord where
  | ringRow (i : Nat)
  | keeperMem
  | dram
  | flowState (cl flow : Nat)
  | resident (cl engine : Nat)
  | scratch (cl engine : Nat)
  | store (part : Nat)
  | coef (group : Nat)
  | energyCopy (b : Bool)
  | eventPos (pos : Nat)
  | mram
  deriving DecidableEq, Repr, Inhabited

/-- What a scrubber finds in a word. -/
inductive ScrubFind where
  | clean | corrected | bad
  deriving DecidableEq, Repr, Inhabited

/-- How a start step ends (R495). -/
structure StepOutcome where
  ok : Bool
  /-- Failure code of class-6 detail 10. -/
  code : Nat
  /-- Step 3: the firmware copy that failed while the other served. -/
  badCopy : Option Nat
  /-- Step 2: the battery-domain SRAM was found invalid. -/
  bdomLost : Bool
  /-- Step 5: energy copies A and B found invalid, positions of the event ring whose CRC fails. -/
  copyBad : Bool × Bool
  torn : List Nat
  /-- Step 6: clusters that fail, and those of them whose flow-state memory fails, as masks. -/
  failed : Nat
  flowFailed : Nat
  deriving DecidableEq, Repr, Inhabited

/-- What a full self-test of a cluster gives: cluster, pass, failing unit (R488, R504). -/
structure FullTest where
  cl : Nat
  pass : Bool
  unit : Nat
  deriving DecidableEq, Repr, Inhabited

/-! ## DMA, compression and mailboxes -/

/-- What a descriptor meets outside the module: nothing wrong, a failed or poisoned completion, an uncorrectable error on a
source read; the bytes written before it. -/
inductive DmaMeet where
  | ok
  | pcie (done : Nat)
  | memUe (done : Nat)
  deriving DecidableEq, Repr, Inhabited

/-- What a job meets: nothing wrong, an uncorrectable DRAM error, or a self-verify mismatch. -/
inductive CmpMeet where
  | ok | memUe | mismatch
  deriving DecidableEq, Repr, Inhabited

/-- A wide-value mailbox by its block (R536). -/
inductive WideBox where
  | host | ptp | mtr | evr
  deriving DecidableEq, Repr, Inhabited

/-! ## COMTRADE exports -/

/-- An analogue channel of an export (R385): its reference or channel number, unit code, the factor `a` as |PEAK| (binary32
word) over a divisor, 0 for the factor 1, and EXTDELAY as a word. -/
structure ExportChan where
  name : Bytes
  chan : Nat
  kind : Nat
  peak : Nat
  div : Nat
  skew : Nat
  deriving DecidableEq, Repr, Inhabited

/-- A row of an export: time in units of 2^-48 ns after the first, analogue values as coded (none for missing), digital
channels. -/
structure ExportRow where
  n : Nat
  time : Nat
  vals : List (Option Nat)
  digs : List Bool
  deriving DecidableEq, Repr, Inhabited

/-- One part of an export as R385 and R386 state its content; the text form of its files is that of IEEE C37.111. -/
structure ExportSet where
  part : Nat
  fileType : Nat
  cff : Bool
  station : Bytes
  device : Bytes
  chans : List ExportChan
  digs : List (Nat × Nat × Nat)
  lf : Nat
  rate : Nat
  /-- First row and trigger point, UTC seconds and nanoseconds. -/
  start : Int × Nat
  trigger : Int × Nat
  timemult : Nat
  timeCode : Int
  tmq : Nat
  leapsec : Nat
  rows : List ExportRow
  /-- .HDR: record number, IMAGE_ID, definition, trigger list, gaps (reason, first instant, rows), measurements, close
  reason, flags. -/
  hdr : List (List Nat)
  deriving DecidableEq, Repr, Inhabited

/-! ## What leaves the module -/

/-- Records of a state copy (R283), each in its committed form. -/
inductive CopyRec where
  /-- A flow-state segment: flow, segment template, its words. -/
  | segment (flow tmpl : Nat) (words : List Nat)
  /-- A delay-list entry: list, target, operand, effective tag, value and quality words, or its removal. -/
  | delay (list target op : Nat) (etag : Nat) (val : List Nat) (live : Bool)
  /-- A sticky token: target, operand, effective tag, value words, quality. -/
  | sticky (target op etag : Nat) (val : List Nat) (q : Nat)
  | group (part etag group : Nat)
  | slip (sub tag : Nat) (insert : Bool)
  | svBlock (sub tag : Nat) (blocked : Bool)
  | palette (group tag : Nat) (pal : Nat)
  | quarantine (isFlow : Bool) (n tag : Nat)
  deriving DecidableEq, Repr, Inhabited

/-- Content of a Towpath HELLO (R281). -/
structure HelloData where
  imageId : Nat
  unitId : Nat
  side : Nat
  rank : Nat
  pref : Bool
  role : Role
  epoch : Nat
  sync : Nat
  fit : Bool
  deriving DecidableEq, Repr, Inhabited

/-- Content of a Towpath HEARTBEAT (R281). -/
structure HeartbeatData where
  role : Role
  epoch : Nat
  tag : Nat
  fit : Bool
  flags : Nat
  /-- The unit's Test value: the spec names no frame that carries it (R69 I4, log 50). -/
  test : TestVal
  deriving DecidableEq, Repr, Inhabited

/-- Towpath frames (R281). -/
inductive TowFrame where
  | hello (d : HelloData)
  | heartbeat (d : HeartbeatData)
  | digest (tag : Nat) (out state : Nat)
  | copy (tag : Nat) (recs : List CopyRec)
  | copyEnd (tag count bytes crc : Nat)
  | sweep (recs : List CopyRec) (last : Bool)
  | fault (reason tag : Nat)
  | revertReq (tag : Nat)
  | revertAck (tag : Nat)
  | revertNak (tag : Nat)
  deriving DecidableEq, Repr, Inhabited

/-- One thing that left the module (log 7). -/
inductive Sent where
  | frame (port : Nat) (f : Frame)
  | tow (f : TowFrame)
  /-- An MSI-X message: vector, address and data of its table entry. -/
  | msix (vec addr data : Nat)
  /-- A reply of Keeper on M0 or on a TCP connection: connection or port and its bytes. -/
  | m0 (conn : Nat) (b : Bytes)
  /-- What Keeper sends for C37.118.2 over TCP to input `obj` (true), or in answer to a command for output `obj` (64 for the
  alarm stream): a command word, or the frame the command asked for with its configuration or header text (R201, R215,
  R219, R248). -/
  | c37 (tcp : Bool) (obj kind : Nat) (body : Bytes)
  /-- PWR_CYCLE_REQ_N asserted (true) or released. -/
  | powerCycleReq (on : Bool)
  /-- A pulse output driven (R425). -/
  | pulse (out : Nat) (on : Bool)
  deriving DecidableEq, Repr, Inhabited

/-! ## The commands -/

/-- The commands of the block: one constructor per row of spec/opcode_table.json, those with operands first (log 4). -/
inductive Instr where
  /-- HOLD_OK_CHANGE (R438). -/
  | holdOkChange (ok : Bool) (cv : Nat)
  /-- PCIE_LINK_TRAINED (R522). -/
  | pcieLinkTrained (gen : Nat) (width : Nat)
  /-- TAMPER_DETECTED (R475). -/
  | tamperDetected (cause : Nat)
  /-- BATT_LOW_DETECTED (R477). -/
  | battLowDetected (mv : Nat)
  /-- THERMAL_READING (R560). -/
  | thermalReading (plate : Int) (junctions : List Int)
  /-- IMAGE_STAGE (R58). -/
  | imageStage (rq : KReq) (off : Nat) (len : Nat)
  /-- IMAGE_COMMIT (R59). -/
  | imageCommit (rq : KReq) (id : Nat)
  /-- IMAGE_DISCARD (R488). -/
  | imageDiscard (rq : KReq)
  /-- PARTITION_START (R112). -/
  | partitionStart (rq : KReq) (part : Nat)
  /-- PARTITION_HALT (R59). -/
  | partitionHalt (rq : KReq) (part : Nat)
  /-- PARTITION_HALT_POINT (R112). -/
  | partitionHaltPoint (part : Nat)
  /-- PARTITION_HALTED (R59). -/
  | partitionHalted (part : Nat)
  /-- PARTITION_LOAD_COMPLETE (R60). -/
  | partitionLoadComplete (part : Nat) (ok : Bool)
  /-- PARTITION_GO_LIVE (R59). -/
  | partitionGoLive (part : Nat)
  /-- ROLE_SET (R64). -/
  | roleSet (rq : KReq) (role : Role)
  /-- TIME_MODE (R66). -/
  | timeMode (rq : KReq) (mode : TimeMode)
  /-- TEST_MODE (R65). -/
  | testMode (rq : KReq) (value : TestVal)
  /-- COMPAT_SET (R528). -/
  | compatSet (rq : KReq) (vz20 : Bool)
  /-- STATUS (R489). -/
  | status (rq : KReq)
  /-- STATS (R488). -/
  | stats (rq : KReq) (block : Nat) (obj : Nat)
  /-- NAME_LOOKUP (R498). -/
  | nameLookup (rq : KReq) (kind : Nat) (num : Nat)
  /-- FILE_READ (R488). -/
  | fileRead (rq : KReq) (handle : Nat) (off : Nat) (len : Nat) (dst : Nat)
  /-- TD_SNAPSHOT (R114). -/
  | tdSnapshot (rq : KReq) (part : Nat)
  /-- REC_LIST (R488). -/
  | recList (rq : KReq) (first : Nat) (count : Nat)
  /-- REC_INFO (R488). -/
  | recInfo (rq : KReq) (num : Nat)
  /-- REC_EXPORT (R385). -/
  | recExport (rq : KReq) (num : Nat) (format : Nat) (timeCode : Int) (off : Nat) (len : Nat)
  /-- REC_DELETE (R488). -/
  | recDelete (rq : KReq) (num : Nat)
  /-- MTR_LOG_READ (R446). -/
  | mtrLogRead (rq : KReq) (first : Nat) (count : Nat) (off : Nat)
  /-- KEY_COMMISSION (R469). -/
  | keyCommission (rq : KReq) (sig : Bytes)
  /-- KEY_CLOSE (R469). -/
  | keyClose (rq : KReq)
  /-- KEY_LOAD (R470). -/
  | keyLoad (rq : KReq) (slot : Nat) (policy : Nat) (type : Nat) (kid : Nat) (mat : Bytes) (auth : Bytes) (backupOk : Bool)
  /-- KEY_COMMIT (R471). -/
  | keyCommit (rq : KReq) (slot : Nat)
  /-- KEY_ERASE (R472). -/
  | keyErase (rq : KReq) (slot : Nat)
  /-- KEY_SIGN_LOG (R465). -/
  | keySignLog (rq : KReq) (slot : Nat) (first : Nat) (count : Nat)
  /-- KEY_UNSEAL (R478). -/
  | keyUnseal (rq : KReq) (kid : Nat) (mac : Bytes)
  /-- SELFTEST_REQ (R503). -/
  | selftestReq (rq : KReq) (mask : Nat)
  /-- SELFTEST_FULL (R504). -/
  | selftestFull (rq : KReq) (mask : Nat) (results : List FullTest)
  /-- RECOVER (R510). -/
  | recover (rq : KReq) (rung : Nat) (part : Nat)
  /-- HEALTH_REPORT (R488). -/
  | healthReport (rq : KReq)
  /-- HLTH_RECOVER_RUNG2 (R512). -/
  | hlthRecoverRung2 (part : Nat) (be : BitVec 4)
  /-- HLTH_RECOVER_RUNG3 (R512). -/
  | hlthRecoverRung3 (be : BitVec 4)
  /-- HLTH_RECOVER_RUNG4 (R512). -/
  | hlthRecoverRung4 (be : BitVec 4)
  /-- SHED_LEVEL_UPDATE (R491). -/
  | shedLevelUpdate (core0 : Nat) (core1 : Nat) (core2 : Nat) (core3 : Nat)
  /-- SCRUB_PASS (R499). -/
  | scrubPass (word : ScrubWord) (find : ScrubFind)
  /-- RESIDENT_SET_REWRITE (R500). -/
  | residentSetRewrite (cluster : Nat) (engine : Nat) (part : Nat)
  /-- PALETTE_REWRITE (R500). -/
  | paletteRewrite (group : Nat)
  /-- CLUSTER_DRAINED (R106). -/
  | clusterDrained (cluster : Nat)
  /-- CLUSTER_SELFTEST_COMPLETE (R502). -/
  | clusterSelftestComplete (cluster : Nat) (pass : Bool) (flowOk : Bool) (ms : Nat)
  /-- AGEING_READING (R505). -/
  | ageingReading (clusters : List Int) (islands : List Int)
  /-- HELD_TOKEN_ENTRY (R84). -/
  | heldTokenEntry (tmpl : Nat) (op : Nat)
  /-- TASK_ISSUE (R90). -/
  | taskIssue (cluster : Nat)
  /-- STEAL_DECISION (R103). -/
  | stealDecision (cluster : Nat)
  /-- TASK_RETIRE (R91). -/
  | taskRetire (tmpl : Nat) (tag : Nat)
  /-- DELAY_EXPIRY (R98). -/
  | delayExpiry (list : Nat)
  /-- TASK_FAULT (R96). -/
  | taskFault (tmpl : Nat) (tag : Nat) (kind : TaskFaultKind)
  /-- ADD (R147). -/
  | add (tmpl : Nat) (tag : Nat)
  /-- SUB (R147). -/
  | sub (tmpl : Nat) (tag : Nat)
  /-- MUL (R147). -/
  | mul (tmpl : Nat) (tag : Nat)
  /-- DIV (R147). -/
  | div (tmpl : Nat) (tag : Nat)
  /-- MAC (R147). -/
  | mac (tmpl : Nat) (tag : Nat)
  /-- ABS_NEG (R147). -/
  | absNeg (tmpl : Nat) (tag : Nat)
  /-- MINMAX (R147). -/
  | minmax (tmpl : Nat) (tag : Nat)
  /-- SQRT (R147). -/
  | sqrt (tmpl : Nat) (tag : Nat)
  /-- SCALE (R147). -/
  | scale (tmpl : Nat) (tag : Nat)
  /-- CONVERT (R147). -/
  | convert (tmpl : Nat) (tag : Nat)
  /-- SELECT (R147). -/
  | select (tmpl : Nat) (tag : Nat)
  /-- LIMIT (R147). -/
  | limit (tmpl : Nat) (tag : Nat)
  /-- INT_OP (R147). -/
  | intOp (tmpl : Nat) (tag : Nat)
  /-- POLY (R147). -/
  | poly (tmpl : Nat) (tag : Nat)
  /-- CPX_MAG (R147). -/
  | cpxMag (tmpl : Nat) (tag : Nat)
  /-- CPX_ANG (R147). -/
  | cpxAng (tmpl : Nat) (tag : Nat)
  /-- POLAR (R147). -/
  | polar (tmpl : Nat) (tag : Nat)
  /-- ROTATE (R147). -/
  | rotate (tmpl : Nat) (tag : Nat)
  /-- SEQ_COMP (R147). -/
  | seqComp (tmpl : Nat) (tag : Nat)
  /-- DELTA_PH (R147). -/
  | deltaPh (tmpl : Nat) (tag : Nat)
  /-- POWER (R147). -/
  | power (tmpl : Nat) (tag : Nat)
  /-- IMPEDANCE (R147). -/
  | impedance (tmpl : Nat) (tag : Nat)
  /-- LOOP_IMP (R147). -/
  | loopImp (tmpl : Nat) (tag : Nat)
  /-- ANGLE_DIFF (R147). -/
  | angleDiff (tmpl : Nat) (tag : Nat)
  /-- TS_COMP (R147). -/
  | tsComp (tmpl : Nat) (tag : Nat)
  /-- FREQ_EST (R147). -/
  | freqEst (tmpl : Nat) (tag : Nat)
  /-- MHO (R147). -/
  | mho (tmpl : Nat) (tag : Nat)
  /-- QUAD (R147). -/
  | quad (tmpl : Nat) (tag : Nat)
  /-- DIRECTIONAL (R147). -/
  | directional (tmpl : Nat) (tag : Nat)
  /-- IDMT (R147). -/
  | idmt (tmpl : Nat) (tag : Nat)
  /-- LOAD_ENC (R147). -/
  | loadEnc (tmpl : Nat) (tag : Nat)
  /-- PSWING (R147). -/
  | pswing (tmpl : Nat) (tag : Nat)
  /-- DIFF_BIAS (R147). -/
  | diffBias (tmpl : Nat) (tag : Nat)
  /-- DIFF_BIAS_N (R147). -/
  | diffBiasN (tmpl : Nat) (tag : Nat)
  /-- HARM_RESTR (R147). -/
  | harmRestr (tmpl : Nat) (tag : Nat)
  /-- CMP_OVER (R147). -/
  | cmpOver (tmpl : Nat) (tag : Nat)
  /-- CMP_UNDER (R147). -/
  | cmpUnder (tmpl : Nat) (tag : Nat)
  /-- CMP_BAND (R147). -/
  | cmpBand (tmpl : Nat) (tag : Nat)
  /-- CMP_RATE (R147). -/
  | cmpRate (tmpl : Nat) (tag : Nat)
  /-- CMP_DELTA (R147). -/
  | cmpDelta (tmpl : Nat) (tag : Nat)
  /-- LOGIC64 (R148). -/
  | logic64 (tmpl : Nat) (tag : Nat)
  /-- BIT_PACK (R148). -/
  | bitPack (tmpl : Nat) (tag : Nat)
  /-- BIT_EXTRACT (R147). -/
  | bitExtract (tmpl : Nat) (tag : Nat)
  /-- EDGE (R148). -/
  | edge (tmpl : Nat) (tag : Nat)
  /-- TIMER_ON (R147). -/
  | timerOn (tmpl : Nat) (tag : Nat)
  /-- TIMER_OFF (R147). -/
  | timerOff (tmpl : Nat) (tag : Nat)
  /-- PULSE (R147). -/
  | pulse (tmpl : Nat) (tag : Nat)
  /-- LATCH_SR (R147). -/
  | latchSr (tmpl : Nat) (tag : Nat)
  /-- COUNT_CONSEC (R149). -/
  | countConsec (tmpl : Nat) (tag : Nat)
  /-- COUNT_EVENT (R147). -/
  | countEvent (tmpl : Nat) (tag : Nat)
  /-- TIMER_INTEG (R147). -/
  | timerInteg (tmpl : Nat) (tag : Nat)
  /-- SAMPLE_HOLD (R147). -/
  | sampleHold (tmpl : Nat) (tag : Nat)
  /-- MEAN_WIN (R147). -/
  | meanWin (tmpl : Nat) (tag : Nat)
  /-- RMS_WIN (R147). -/
  | rmsWin (tmpl : Nat) (tag : Nat)
  /-- MINMAX_WIN (R147). -/
  | minmaxWin (tmpl : Nat) (tag : Nat)
  /-- EW_STAT (R147). -/
  | ewStat (tmpl : Nat) (tag : Nat)
  /-- CORR_EW (R147). -/
  | corrEw (tmpl : Nat) (tag : Nat)
  /-- SPREAD (R147). -/
  | spread (tmpl : Nat) (tag : Nat)
  /-- INTEGRATE (R147). -/
  | integrate (tmpl : Nat) (tag : Nat)
  /-- MODAL_ACC (R150). -/
  | modalAcc (tmpl : Nat) (tag : Nat)
  /-- MODAL_FIT (R150). -/
  | modalFit (tmpl : Nat) (tag : Nat)
  /-- MODAL_TRACK (R150). -/
  | modalTrack (tmpl : Nat) (tag : Nat)
  /-- PGRAM_ACC (R150). -/
  | pgramAcc (tmpl : Nat) (tag : Nat)
  /-- PGRAM_PEAK (R150). -/
  | pgramPeak (tmpl : Nat) (tag : Nat)
  /-- GOOSE_PUB (R151). -/
  | goosePub (tmpl : Nat) (tag : Nat)
  /-- GOOSE_STAGE (R151). -/
  | gooseStage (tmpl : Nat) (tag : Nat)
  /-- CLAIM (R152). -/
  | claim (tmpl : Nat) (tag : Nat)
  /-- REC_TRIGGER (R373). -/
  | recTrigger (tmpl : Nat) (tag : Nat)
  /-- ALARM (R241). -/
  | alarm (tmpl : Nat) (tag : Nat)
  /-- METER_ACC (R420). -/
  | meterAcc (tmpl : Nat) (tag : Nat)
  /-- PMU_PUB (R221). -/
  | pmuPub (tmpl : Nat) (tag : Nat)
  /-- EVENT_WRITE (R454). -/
  | eventWrite (tmpl : Nat) (tag : Nat)
  /-- SETTINGS_GROUP_REQUEST (R145). -/
  | settingsGroupRequest (v : Word) (be : BitVec 4)
  /-- MAC_FRAME_RECEIVED (R342). -/
  | macFrameReceived (port : Nat) (frame : Frame)
  /-- LINK_DOWN (R341). -/
  | linkDown (port : Nat) (cut : Bool)
  /-- LINK_UP (R341). -/
  | linkUp (port : Nat) (speedOk : Bool)
  /-- PAUSE_EXPIRY (R350). -/
  | pauseExpiry (port : Nat)
  /-- FRAME_TRANSMIT (R348). -/
  | frameTransmit (port : Nat)
  /-- ARP_REFRESH (R347). -/
  | arpRefresh (port : Nat)
  /-- SUPERVISION_FRAME_TIMER (R354). -/
  | supervisionFrameTimer (pair : Nat)
  /-- NODE_FORGET (R354). -/
  | nodeForget (pair : Nat)
  /-- PARSER_HOLD_RELEASE (R107). -/
  | parserHoldRelease (port : Nat)
  /-- HOST_RX_RING_TAIL (R351). -/
  | hostRxRingTail (ring : Nat) (v : Word) (be : BitVec 4)
  /-- HOST_TX_RING_TAIL (R351). -/
  | hostTxRingTail (ring : Nat) (v : Word) (be : BitVec 4)
  /-- HOST_TX_DESCRIPTOR (R353). -/
  | hostTxDescriptor (ring : Nat)
  /-- HOST_TX_QUEUE_TIMEOUT (R353). -/
  | hostTxQueueTimeout (ring : Nat)
  /-- RING_BASE_SIZE_WRITE (R361). -/
  | ringBaseSizeWrite (ring : Nat) (size : Bool) (v : Word) (be : BitVec 4)
  /-- M0_FRAME_RECEIVED (R359). -/
  | m0FrameReceived (bytes : Bytes) (full : Bool)
  /-- SV_FRAME_RECEIVED (R165). -/
  | svFrameReceived (port : Nat)
  /-- SV_TAG_MISSING (R168). -/
  | svTagMissing (sub : Nat)
  /-- SV_SLIP (R162). -/
  | svSlip (sub : Nat)
  /-- SV_BLOCK (R172). -/
  | svBlock (v : Word) (be : BitVec 4)
  /-- PQ_EVENT_TIMEOUT (R431). -/
  | pqEventTimeout (pq : Nat)
  /-- PALETTE_FADE_END (R189). -/
  | paletteFadeEnd (group : Nat)
  /-- PMU_FRAME_RECEIVED (R207). -/
  | pmuFrameReceived (port : Nat)
  /-- PMU_TCP_FRAME (R207). -/
  | pmuTcpFrame (input : Nat) (frame : PmuFrame)
  /-- PMU_TCP_RECONNECT (R201). -/
  | pmuTcpReconnect (input : Nat) (ok : Bool)
  /-- PMU_TCP_DOWN (R208). -/
  | pmuTcpDown (input : Nat)
  /-- PMU_INPUT_LOST (R208). -/
  | pmuInputLost (input : Nat)
  /-- C37_COMMAND_FRAME (R201). -/
  | c37CommandFrame (port : Nat)
  /-- SLUICE_RELEASE (R210). -/
  | sluiceRelease (out : Nat)
  /-- SLUICE_RELEASE_RESUME (R214). -/
  | sluiceReleaseResume (out : Nat)
  /-- CONFIG_CHANGE_FLAG_EXPIRY (R218). -/
  | configChangeFlagExpiry (out : Nat)
  /-- BSN_IN_BLOCK (R226). -/
  | bsnInBlock (v : Word) (be : BitVec 4)
  /-- WAD_ALM_ACK (R243). -/
  | wadAlmAck (v : Word) (be : BitVec 4)
  /-- FEDERATION_MESSAGE_RECEIVED (R252). -/
  | federationMessageReceived (port : Nat)
  /-- FEDERATION_REPEAT (R251). -/
  | federationRepeat (alarm : Nat)
  /-- GOOSE_FRAME_RECEIVED (R264). -/
  | gooseFrameReceived (port : Nat)
  /-- GOOSE_TAL_EXPIRY (R264). -/
  | gooseTalExpiry (sub : Nat)
  /-- GOOSE_RETRANSMIT (R262). -/
  | gooseRetransmit (pub : Nat)
  /-- HELLO (R281). -/
  | hello (crcOk : Bool) (data : HelloData)
  /-- HEARTBEAT (R281). -/
  | heartbeat (crcOk : Bool) (data : HeartbeatData)
  /-- DIGEST (R287). -/
  | digest (crcOk : Bool) (tag : Nat) (output : Nat) (state : Nat)
  /-- COPY (R283). -/
  | copy (crcOk : Bool) (tag : Nat) (recs : List CopyRec)
  /-- COPY_END (R284). -/
  | copyEnd (crcOk : Bool) (tag : Nat) (count : Nat) (bytes : Nat) (crc : Nat)
  /-- SWEEP (R285). -/
  | sweep (crcOk : Bool) (recs : List CopyRec) (last : Bool)
  /-- FAULT (R296). -/
  | fault (crcOk : Bool) (reason : Nat) (tag : Nat)
  /-- REVERT_REQ (R304). -/
  | revertReq (crcOk : Bool) (tag : Nat)
  /-- REVERT_ACK (R304). -/
  | revertAck (crcOk : Bool) (tag : Nat)
  /-- REVERT_NAK (R304). -/
  | revertNak (crcOk : Bool) (tag : Nat)
  /-- REFEREE_STATUS (R292). -/
  | refereeStatus (port : Nat)
  /-- REPORT (R291). -/
  | report (port : Nat)
  /-- TAKEOVER_REQ (R292). -/
  | takeoverReq (port : Nat)
  /-- VERDICT (R291). -/
  | verdict (port : Nat)
  /-- GRANT (R289). -/
  | grant (port : Nat)
  /-- REF_STATUS (R294). -/
  | refStatus (port : Nat)
  /-- VERDICT_WAIT_EXPIRY (R287). -/
  | verdictWaitExpiry (tag : Nat)
  /-- COPY_BOUND_MISS (R284). -/
  | copyBoundMiss (tag : Nat)
  /-- OUT_UNIT_WRITE (R275). -/
  | outUnitWrite (v : Word) (be : BitVec 4)
  /-- OUT_EPOCH_SET (R273). -/
  | outEpochSet (v : Word) (be : BitVec 4)
  /-- PTP_MESSAGE_RECEIVED (R329). -/
  | ptpMessageReceived (port : Nat)
  /-- PTP_MESSAGE_TIMER (R330). -/
  | ptpMessageTimer (port : Nat) (kind : Nat)
  /-- EXT_1PPS_EDGE (R318). -/
  | ext1ppsEdge (tenOk : Bool)
  /-- EXT_REFERENCE_LOST (R318). -/
  | extReferenceLost (ten : Bool)
  /-- PTP_SET_CMD (R320). -/
  | ptpSetCmd (v : Word) (be : BitVec 4)
  /-- PTP_UTC_WRITE (R322). -/
  | ptpUtcWrite (v : Word) (be : BitVec 4)
  /-- PTP_FREQ_WRITE (R337). -/
  | ptpFreqWrite (v : Word) (be : BitVec 4)
  /-- PTP_MBOX_SEL (R334). -/
  | ptpMboxSel (v : Word) (be : BitVec 4)
  /-- MTR_MBOX_SEL (R450). -/
  | mtrMboxSel (v : Word) (be : BitVec 4)
  /-- EVR_MBOX_SEL (R481). -/
  | evrMboxSel (v : Word) (be : BitVec 4)
  /-- HOST_MBOX_SEL (R536). -/
  | hostMboxSel (v : Word) (be : BitVec 4)
  /-- MBOX_DATA3_READ (R536). -/
  | mboxData3Read (box : WideBox) (be : BitVec 4)
  /-- REC_MANUAL (R371). -/
  | recManual (half : Nat) (v : Word) (be : BitVec 4)
  /-- REC_ARM (R375). -/
  | recArm (v : Word) (be : BitVec 4)
  /-- RECORD_CLOSE (R379). -/
  | recordClose (defn : Nat)
  /-- HOLD_OFF_EXPIRY (R380). -/
  | holdOffExpiry (defn : Nat)
  /-- RECORD_COPY (R381). -/
  | recordCopy (num : Nat)
  /-- RECORD_MEASURE (R384). -/
  | recordMeasure (num : Nat)
  /-- DMA_CHAIN (R395). -/
  | dmaChain (ch : Nat) (v : Word) (be : BitVec 4) (byKeeper : Bool)
  /-- DMA_ABORT (R401). -/
  | dmaAbort (ch : Nat) (v : Word) (be : BitVec 4) (byKeeper : Bool)
  /-- DMA_RETRY (R401). -/
  | dmaRetry (ch : Nat) (v : Word) (be : BitVec 4) (byKeeper : Bool)
  /-- DMA_DESCRIPTOR_COMPLETE (R397). -/
  | dmaDescriptorComplete (ch : Nat) (meet : DmaMeet)
  /-- DMA_TIMEOUT (R399). -/
  | dmaTimeout (ch : Nat) (done : Nat)
  /-- CMP_RING_TAIL (R403). -/
  | cmpRingTail (lane : Nat) (v : Word) (be : BitVec 4) (byKeeper : Bool)
  /-- CMP_JOB_COMPLETE (R412). -/
  | cmpJobComplete (lane : Nat) (meet : CmpMeet)
  /-- PULSE_START (R425). -/
  | pulseStart (out : Nat)
  /-- PULSE_END (R425). -/
  | pulseEnd (out : Nat)
  /-- MTR_SAVE_CMD (R436). -/
  | mtrSaveCmd (v : Word) (be : BitVec 4)
  /-- SAVE_VERIFY (R435). -/
  | saveVerify (ok : Bool)
  /-- MTR_CLEAR_TEST_SET (R450). -/
  | mtrClearTestSet (pt : Nat) (be : BitVec 4)
  /-- MTR_CLEAR_SERVICE_SET (R444). -/
  | mtrClearServiceSet (pt : Nat) (be : BitVec 4)
  /-- MTR_CLEAR_WRAP (R450). -/
  | mtrClearWrap (pt : Nat) (be : BitVec 4)
  /-- MTR_CLEAR_OVER_LOST (R450). -/
  | mtrClearOverLost (pt : Nat) (be : BitVec 4)
  /-- MTR_LOG_ACK (R446). -/
  | mtrLogAck (v : Word) (be : BitVec 4)
  /-- KEY_SEAL_CMD (R478). -/
  | keySealCmd (v : Word) (be : BitVec 4)
  /-- EVR_RD_CMD (R462). -/
  | evrRdCmd (v : Word) (be : BitVec 4)
  /-- GRACE_EXPIRY (R471). -/
  | graceExpiry (slot : Nat)
  /-- TAG_BACKGROUND_PASS (R466). -/
  | tagBackgroundPass (slot : Nat)
  /-- KEYGATE_WRITE (R535). -/
  | keygateWrite (block : Nat) (v : Word) (be : BitVec 4)
  /-- KEYGATE_RELOCK (R535). -/
  | keygateRelock (block : Nat)
  /-- HOST_STROBE (R532). -/
  | hostStrobe (v : Word) (be : BitVec 4)
  /-- BLOCK_APPLY_POINT (R532). -/
  | blockApplyPoint (block : Nat) (unit : Nat)
  /-- HOST_SGRP_WRITE (R531). -/
  | hostSgrpWrite (num : Nat) (v : Word) (be : BitVec 4)
  /-- CLEAR_ON_READ_READ (R529). -/
  | clearOnReadRead (addr : Nat) (be : BitVec 4)
  /-- RESERVED_ACCESS (R527). -/
  | reservedAccess (addr : Nat) (write : Bool)
  /-- REGISTER_WRITE (R525). -/
  | registerWrite (addr : Nat) (v : Word) (be : BitVec 4)
  /-- MSIX_VECTOR_UNMASK (R537). -/
  | msixVectorUnmask (vec : Nat)
  /-- RING_INT_HOLDOFF_EXPIRY (R538). -/
  | ringIntHoldoffExpiry (ring : Nat)
  /-- START_STEP_COMPLETE (R495). -/
  | startStepComplete (outcome : StepOutcome)
  /-- CYCLE_BOUNDARY_AT_INSTANT (R57). -/
  | cycleBoundaryAtInstant (part : Nat)
  /-- DMA_DESCRIPTOR_FETCH (R400). -/
  | dmaDescriptorFetch (ch : Nat)
  /-- FOREIGN_MASTER_RECORD_TIMEOUT (R331). -/
  | foreignMasterRecordTimeout (port : Nat)
  /-- EVR_RD_DATA15_READ (R462). -/
  | evrRdData15Read (be : BitVec 4)
  /-- POWER_GOOD (R495). -/
  | powerGood
  /-- PFAIL_N_ASSERT (R438). -/
  | pfailNAssert
  /-- INPUT_UNDERVOLTAGE (R438). -/
  | inputUndervoltage
  /-- HOLD_LOW_CHECK (R545). -/
  | holdLowCheck
  /-- PCIE_RESET (R522). -/
  | pcieReset
  /-- POWER_CYCLE_TIMEOUT (R513). -/
  | powerCycleTimeout
  /-- WATCHDOG_EXPIRY (R493). -/
  | watchdogExpiry
  /-- KEEPER_RESTART_COMPLETE (R493). -/
  | keeperRestartComplete
  /-- KEEPER_READY_TIMEOUT (R512). -/
  | keeperReadyTimeout
  /-- SELFTEST_ROTATION_SLOT (R501). -/
  | selftestRotationSlot
  /-- TOKEN_MATCH (R83). -/
  | tokenMatch
  /-- PRECEDENCE_INTERVAL_END (R93). -/
  | precedenceIntervalEnd
  /-- FILTER_LANE_SAMPLE (R174). -/
  | filterLaneSample
  /-- PALETTE_SWITCH_START (R189). -/
  | paletteSwitchStart
  /-- ALARM_STREAM_SECOND (R248). -/
  | alarmStreamSecond
  /-- HELLO_TIMER (R281). -/
  | helloTimer
  /-- HEARTBEAT_TIMER (R281). -/
  | heartbeatTimer
  /-- STATUS_TIMER (R290). -/
  | statusTimer
  /-- REF_STATUS_TIMER (R293). -/
  | refStatusTimer
  /-- TOWPATH_LANE_LOCK_LOSS (R286). -/
  | towpathLaneLockLoss
  /-- TOWPATH_LOST (R282). -/
  | towpathLost
  /-- TAKEOVER_REQ_RETRY (R279). -/
  | takeoverReqRetry
  /-- START_PEER_WAIT_EXPIRY (R279). -/
  | startPeerWaitExpiry
  /-- REFEREE_ABSENT (R295). -/
  | refereeAbsent
  /-- HB_WAIT_EXPIRY (R302). -/
  | hbWaitExpiry
  /-- TAKEOVER_INTERVAL_END (R298). -/
  | takeoverIntervalEnd
  /-- REVERT_HOLD_EXPIRY (R303). -/
  | revertHoldExpiry
  /-- REFERENCE_LOST (R314). -/
  | referenceLost
  /-- SLEW_COMPLETE (R319). -/
  | slewComplete
  /-- PPS_EDGE (R310). -/
  | ppsEdge
  /-- LEAP_SECOND_APPLY (R323). -/
  | leapSecondApply
  /-- COMTRADE_EXPORT (R385). -/
  | comtradeExport
  /-- PERIODIC_SAVE (R436). -/
  | periodicSave
  /-- EVENT_COMMIT (R456). -/
  | eventCommit
  /-- COMMISSIONING_TIMEOUT (R469). -/
  | commissioningTimeout
  /-- TOWPATH_LANE_LOCK_REGAIN (R286). -/
  | towpathLaneLockRegain
  /-- TEST_DRAIN_RETURN_TIMEOUT (R494). -/
  | testDrainReturnTimeout
  /-- RUNG3_START_STEP9_TIMEOUT (R512). -/
  | rung3StartStep9Timeout
  /-- CLOCK_SECONDS_RETAIN (R312). -/
  | clockSecondsRetain
  deriving DecidableEq, Repr

end Sys2Proof
end

