-- ==== Sys2Proof/Decode.lean ====
section
/-!
DEFINITION. Commands spelt by a word of the opcode table.
-/
namespace Sys2Proof

/-- The command a word of `nbits` bits spells. spec/opcode_table.json gives no row any bits, so no word spells one (log 4). -/
def decodeTableWord (_nbits _w : Nat) : Option Instr := none

end Sys2Proof
end

