-- ==== Sys2Proof/Machine/Crc.lean ====
section
/-!
DEFINITION. CRC-32C and the IEEE CRC-32, by their reflected polynomials.
-/
namespace Sys2Proof.Machine

/-- One bit of a reflected CRC. -/
def crcBit (poly c : Nat) : Nat := if c % 2 = 1 then (c / 2) ^^^ poly else c / 2

/-- One byte of a reflected CRC. -/
def crcByte (poly c : Nat) (b : Byte) : Nat := (List.range 8).foldl (fun x _ => crcBit poly x) (c ^^^ b.toNat)

/-- A reflected CRC with initial and final value all-ones, continued from `c` (the value before the final inversion). -/
def crcRun (poly c : Nat) (bs : Bytes) : Nat := bs.foldl (crcByte poly) c

/-- CRC-32C (Castagnoli), as R397 and R451 use it. -/
def crc32c (bs : Bytes) : Nat := crcRun 0x82F63B78 0xFFFFFFFF bs ^^^ 0xFFFFFFFF

/-- CRC-32 of IEEE 802.3, as gzip uses it. -/
def crc32 (bs : Bytes) : Nat := crcRun 0xEDB88320 0xFFFFFFFF bs ^^^ 0xFFFFFFFF

/-- Adler-32, as zlib uses it. -/
def adler32 (bs : Bytes) : Nat :=
  let r := bs.foldl (fun (ab : Nat × Nat) b =>
    let a := (ab.1 + b.toNat) % 65521
    (a, (ab.2 + a) % 65521)) (1, 0)
  r.2 * 65536 + r.1

end Sys2Proof.Machine
end

