-- ==== Sys2Proof/Machine/Inflate.lean ====
section
/-!
DEFINITION. Decompression of RFC 1951 streams with the zlib and gzip wrappers (R406, R409, R411, R412).
-/
namespace Sys2Proof.Machine

/-- How a decoding ends: at the end of the stream, for want of input, at the output limit, or with a CODE of R412. -/
inductive InfEnd where
  | ended | needInput | full
  | fault (code : Nat)
  deriving DecidableEq, Repr, Inhabited

/-- A decoding in progress: position in bits and output, newest byte first. -/
structure Inf where
  pos : Nat
  out : List Byte
  deriving DecidableEq, Repr, Inhabited

/-- `n` bits from position `p`, the first the least significant; none past the end. -/
def bitsAt (b : Array Byte) : Nat → Nat → Option Nat
  | _, 0 => some 0
  | p, n + 1 =>
    if p / 8 < b.size then
      (bitsAt b (p + 1) n).map fun r => ((b.getD (p / 8) 0).toNat / 2 ^ (p % 8)) % 2 + 2 * r
    else none

/-- A canonical code: symbols of each length from 1 to 15, ascending. -/
abbrev Code := List (List Nat)

def codeOf (lens : List Nat) : Code :=
  (List.range 15).map fun l => ((lens.zip (List.range lens.length)).filter fun x => x.1 == l + 1).map (·.2)

/-- A set of code lengths is over-subscribed, or incomplete with more than one code. -/
def codeBad (lens : List Nat) : Bool :=
  let used := (lens.filter (· ≠ 0)).length
  let sum := lens.foldl (fun n l => if l = 0 then n else n + 2 ^ (15 - l)) 0
  decide (2 ^ 15 < sum) || (decide (1 < used) && decide (sum < 2 ^ 15))

/-- A symbol at bit position `p`: none for want of input, `some none` for no such code. -/
def symbolAt (b : Array Byte) : Code → Nat → Nat → Nat → Nat → Option (Option (Nat × Nat))
  | [], _, _, _, _ => some none
  | syms :: rest, p, code, first, idx =>
    match bitsAt b p 1 with
    | none => none
    | some x =>
      let code := code + x
      let n := syms.length
      if code < first + n then some (some (syms.getD (code - first) 0, p + 1))
      else symbolAt b rest (p + 1) (2 * code) (2 * (first + n)) (idx + n)

def lenBase : List Nat := [3, 4, 5, 6, 7, 8, 9, 10, 11, 13, 15, 17, 19, 23, 27, 31, 35, 43, 51, 59, 67, 83, 99, 115, 131, 163, 195, 227, 258]
def lenExtra : List Nat := [0, 0, 0, 0, 0, 0, 0, 0, 1, 1, 1, 1, 2, 2, 2, 2, 3, 3, 3, 3, 4, 4, 4, 4, 5, 5, 5, 5, 0]
def distBase : List Nat := [1, 2, 3, 4, 5, 7, 9, 13, 17, 25, 33, 49, 65, 97, 129, 193, 257, 385, 513, 769, 1025, 1537, 2049, 3073, 4097,
  6145, 8193, 12289, 16385, 24577]
def distExtra : List Nat := [0, 0, 0, 0, 1, 1, 2, 2, 3, 3, 4, 4, 5, 5, 6, 6, 7, 7, 8, 8, 9, 9, 10, 10, 11, 11, 12, 12, 13, 13]

/-- `n` bytes copied from distance `d` back. -/
def copyBack : Nat → Nat → List Byte → List Byte
  | 0, _, out => out
  | n + 1, d, out => copyBack n d (out.getD (d - 1) 0 :: out)

/-- The symbols of one block; `n` bounds their number. The output may pass the limit by the rest of one match. -/
def infBlock (b : Array Byte) (lit dist : Code) (limit : Nat) : Nat → Inf → Option InfEnd × Inf
  | 0, s => (some .needInput, s)
  | n + 1, s =>
    if limit ≤ s.out.length then (some .full, s)
    else match symbolAt b lit s.pos 0 0 0 with
      | none => (some .needInput, s)
      | some none => (some (.fault 0x22), s)
      | some (some (sym, p)) =>
        if sym < 256 then infBlock b lit dist limit n ⟨p, BitVec.ofNat 8 sym :: s.out⟩
        else if sym = 256 then (none, ⟨p, s.out⟩)
        else if 285 < sym then (some (.fault 0x22), s)
        else
          let eb := lenExtra.getD (sym - 257) 0
          match bitsAt b p eb with
          | none => (some .needInput, s)
          | some ex =>
            match symbolAt b dist (p + eb) 0 0 0 with
            | none => (some .needInput, s)
            | some none => (some (.fault 0x22), s)
            | some (some (ds, p)) =>
              if 29 < ds then (some (.fault 0x22), s)
              else
                let db := distExtra.getD ds 0
                match bitsAt b p db with
                | none => (some .needInput, s)
                | some dx =>
                  let d := distBase.getD ds 0 + dx
                  if min s.out.length 32768 < d then (some (.fault 0x23), s)
                  else infBlock b lit dist limit n ⟨p + db, copyBack (lenBase.getD (sym - 257) 0 + ex) d s.out⟩

/-- The code lengths of a dynamic block, `n` bounding the symbols read: none for want of input, `some none` for a bad table. -/
def readLens (b : Array Byte) (code : Code) (total : Nat) : Nat → Nat → List Nat → Option (Option (List Nat × Nat))
  | 0, _, _ => some none
  | n + 1, p, ls =>
    if total < ls.length then some none
    else if ls.length = total then some (some (ls, p))
    else match symbolAt b code p 0 0 0 with
      | none => none
      | some none => some none
      | some (some (s, p)) =>
        if s < 16 then readLens b code total n p (ls ++ [s])
        else
          let (bits, base) := if s = 16 then (2, 3) else if s = 17 then (3, 3) else (7, 11)
          match bitsAt b p bits with
          | none => none
          | some x =>
            if s = 16 ∧ ls.isEmpty then some none
            else
              let v := if s = 16 then ls.getLastD 0 else 0
              readLens b code total n (p + bits) (ls ++ List.replicate (base + x) v)

def clOrder : List Nat := [16, 17, 18, 0, 8, 7, 9, 6, 10, 5, 11, 4, 12, 3, 13, 2, 14, 1, 15]

/-- The two codes of a dynamic block (RFC 1951, 3.2.7). -/
def dynCodes (b : Array Byte) (p : Nat) : Option (Option (Code × Code × Nat)) :=
  match bitsAt b p 14 with
  | none => none
  | some h =>
    let nlit := h % 32 + 257
    let ndist := h / 32 % 32 + 1
    let ncl := h / 1024 + 4
    match bitsAt b (p + 14) (3 * ncl) with
    | none => none
    | some cl =>
      let lens := (List.range 19).map fun s =>
        let i := clOrder.findIdx (· == s)
        if i < ncl then cl / 8 ^ i % 8 else 0
      if codeBad lens ∨ 286 < nlit then some none
      else match readLens b (codeOf lens) (nlit + ndist) 400 (p + 14 + 3 * ncl) [] with
        | none => none
        | some none => some none
        | some (some (ls, p)) =>
          let l := ls.take nlit
          let d := ls.drop nlit
          if codeBad l ∨ codeBad d ∨ l.getD 256 0 = 0 then some none else some (some (codeOf l, codeOf d, p))

def fixedLit : Code := codeOf (List.replicate 144 8 ++ List.replicate 112 9 ++ List.replicate 24 7 ++ List.replicate 8 8)
def fixedDist : Code := codeOf (List.replicate 30 5)

/-- Blocks up to the final one; `n` bounds their number. -/
def infBlocks (b : Array Byte) (limit : Nat) : Nat → Inf → InfEnd × Inf
  | 0, s => (.needInput, s)
  | n + 1, s =>
    if limit ≤ s.out.length then (.full, s)
    else match bitsAt b s.pos 3 with
      | none => (.needInput, s)
      | some h =>
        let last := h % 2 == 1
        let p := s.pos + 3
        let go (r : Option InfEnd × Inf) : InfEnd × Inf :=
          match r with
          | (some e, s) => (e, s)
          | (none, s) => if last then (.ended, s) else infBlocks b limit n s
        let k := 8 * b.size + 1
        match h / 2 with
        | 0 =>
          let p := (p + 7) / 8 * 8
          match bitsAt b p 32 with
          | none => (.needInput, s)
          | some w =>
            let len := w % 65536
            if len + w / 65536 ≠ 65535 then (.fault 0x24, s)
            else
              let i := p / 8 + 4
              let av := (b.toList.drop i).take len
              if av.length < len then (.needInput, ⟨8 * (i + av.length), av.reverse ++ s.out⟩)
              else go (none, ⟨8 * (i + len), av.reverse ++ s.out⟩)
        | 1 => go (infBlock b fixedLit fixedDist limit k ⟨p, s.out⟩)
        | 2 =>
          match dynCodes b p with
          | none => (.needInput, s)
          | some none => (.fault 0x21, s)
          | some (some (l, d, p)) => go (infBlock b l d limit k ⟨p, s.out⟩)
        | _ => (.fault 0x21, s)

/-- A zero-terminated field of a gzip header: the position after it. -/
def skipText (b : Array Byte) : Nat → Nat → Option Nat
  | 0, _ => none
  | n + 1, p => if b.size ≤ p then none else if b.getD p 0 = 0 then some (p + 1) else skipText b n (p + 1)

/-- The header of a wrapper: its length in bytes, none for want of input, or CODE 0x20 (R409). -/
def wrapHeader (wrap : Nat) (b : Array Byte) : Option (Option Nat) :=
  let at_ (i : Nat) : Nat := (b.getD i 0).toNat
  match wrap with
  | 0 => some (some 0)
  | 1 =>
    if b.size < 2 then none
    else if at_ 0 % 16 ≠ 8 ∨ 7 < at_ 0 / 16 ∨ (at_ 0 * 256 + at_ 1) % 31 ≠ 0 ∨ (at_ 1).testBit 5 then some none
    else some (some 2)
  | _ =>
    if b.size < 10 then none
    else if at_ 0 ≠ 0x1F ∨ at_ 1 ≠ 0x8B ∨ at_ 2 ≠ 8 ∨ 32 ≤ at_ 3 then some none
    else
      let f := at_ 3
      let p : Option Nat := if f.testBit 2 then (if b.size < 12 then none else
          let p := 12 + at_ 10 + 256 * at_ 11
          if b.size < p then none else some p)
        else some 10
      let p := p.bind fun p => if f.testBit 3 then skipText b b.size p else some p
      let p := p.bind fun p => if f.testBit 4 then skipText b b.size p else some p
      match p with
      | none => none
      | some p =>
        if f.testBit 1 then
          if b.size < p + 2 then none
          else if at_ p + 256 * at_ (p + 1) = crc32 (b.toList.take p) % 65536 then some (some (p + 2)) else some none
        else some (some p)

/-- The check value of data under a wrapper (R409). -/
def checkOf (wrap : Nat) (data : Bytes) : Nat := if wrap = 1 then adler32 data else crc32 data

/-- The trailer of a wrapper (R409). -/
def trailerOf (wrap : Nat) (data : Bytes) : Bytes :=
  match wrap with
  | 0 => []
  | 1 => beBytes 4 (adler32 data)
  | _ => leBytes 4 (crc32 data) ++ leBytes 4 (data.length % 2 ^ 32)

/-- A whole stream decoded as far as its input and the output limit allow: how it ends, the output, bytes of input read. -/
def inflate (wrap : Nat) (input : Bytes) (limit : Nat) : InfEnd × Bytes × Nat :=
  let b := input.toArray
  match wrapHeader wrap b with
  | none => (.needInput, [], input.length)
  | some none => (.fault 0x20, [], 0)
  | some (some h) =>
    let (e, s) := infBlocks b limit (8 * b.size + 1) ⟨8 * h, []⟩
    let out := s.out.reverse
    let used := (s.pos + 7) / 8
    match e with
    | .ended =>
      let t := trailerOf wrap out
      if t = [] then (.ended, out, used)
      else
        let got := (input.drop used).take t.length
        if got.length < t.length then (.needInput, out, input.length)
        else if got = t then (.ended, out, used + t.length) else (.fault 0x25, out, used)
    | .needInput => (.needInput, out, input.length)
    | e => (e, out, used)

end Sys2Proof.Machine
end

