-- ==== Sys2Proof/Config.lean ====
section
/-!
DEFINITION. What an implementation fixes and the free values: constants without a body, each for a value that the
spec leaves open. Each takes the values it may depend on, or `State.free`, the count of free values drawn so far.
-/
namespace Sys2Proof.Config

/-- RATE after the servo has accepted an offset: the control law is not given (R310, R314, R319). Arguments: free
count, RATE in force, offset in ns. -/
opaque servoRate : Nat → Int → Int → Int

/-- Drift compensation added to RATE at the entry into Holdover, learned over the last hour of Locked (R317). -/
opaque driftComp : Nat → Int

/-- RATE with which the clock follows a valid 10 MHz input in Holdover (R317). Arguments: free count, RATE in force. -/
opaque tenRate : Nat → Int → Int

/-- The number of an axis or object in a class-3 event: R454 names "axis or object code" and numbers none. Argument:
the model's index of the axis or object. -/
opaque axisCode : Nat → Nat

/-- Length in bytes, destination address through FCS, of a frame the module forms: the encodings of its payloads are
those of their standards and not of the spec. -/
opaque wireLen : Payload → Nat

/-- Bytes of a frame the module forms, as they stand on the line. -/
opaque wireBytes : Payload → Bytes

/-- The bytes that an IEC 62351-6 MAC covers in an SV frame and in a GOOSE frame (R474: as the standard states). -/
opaque svSigned : SvFrame → Bytes
opaque gooseSigned : GooseFrame → Bytes

/-- The bytes that an IEC 62351-6 MAC covers in an IEC 61850-90-5 frame. -/
opaque pmuSigned : PmuFrame → Bytes

/-- clockIdentity and offsetScaledLogVariance of the module's own PTP data set. -/
opaque clockIdentity : Nat
opaque clockVariance : Nat

/-- clockAccuracy code of IEEE 1588-2019 for an error in ns (R332). -/
opaque accuracyCode : Nat → Nat

/-- A new root secret from the module's random source: 32 bytes (R469). Argument: free count. -/
opaque randomRoot : Nat → List Byte

/-- The widths and byte order in which a slot's fields enter its integrity tag, and in which the command bytes, the
serial number and GEN enter an authenticator, are not given (R466, R470): the bytes covered, from the fields in order. -/
opaque keyTagBytes : List Nat → List Byte → List Byte
opaque keyAuthBytes : List Nat → List Byte → List Byte

/-- Rounding of the window statistics and the modal kernels, which do not follow R130 bit for bit (R132). Arguments: the
primitive, and the exact value as numerator and denominator. A use holds it to the accuracy the primitive states. -/
opaque kernelRound : Nat → Int → Nat → BitVec 32

/-- Samples that a lane's input store holds, less one (R107, R193 give no size). -/
opaque laneStore : Nat

/-- Source port of a UDP datagram of the module, by its destination port: the spec names none. -/
opaque udpSource : Nat → Nat

/-- TIME_BASE of the alarm stream's frames: R248 gives none. -/
opaque alarmTimeBase : Nat

/-- Channel names (16 characters each) and unit words of a block's digital words in the alarm stream's CFG-2: R248 names the
blocks alone. -/
opaque alarmChannels : Nat → Bytes
opaque alarmUnits : Nat → Bytes

/-- The bytes that the output digest and the state digest cover after the tag (R269: the widths and encodings of what enters
are not given): publications with their members as (type, low word, high word, quality), and copy records; and the bytes of
copy records on the Towpath, whose frame formats the spec does not give (R281, R283). -/
opaque outDigestBytes : Nat → List (Nat × List (Nat × Nat × Nat × Nat)) → List Byte
opaque stateDigestBytes : Nat → List CopyRec → List Byte
opaque copyBytes : List CopyRec → List Byte

/-- Reason codes of FAULT and TAKEOVER_REQ (R281, R290 name the field and no code), by the model's index of the reason. -/
opaque faultReason : Nat → Nat
opaque takeoverReason : Nat → Nat

/-- The code of the Test value that the Active's STATUS stands for at a Referee (R69 I4 names no message that carries it), by
the body of that STATUS. -/
opaque statusTest : List Byte → Nat

/-- The files of one part of an export, in the text and binary forms of IEEE C37.111. -/
opaque exportFiles : ExportSet → List (List Byte)

/-- The bytes of REC_INFO's answer, from its fields in the order R488 names them; and of each row of REC_LIST from number,
definition, state and seconds (20 bytes; the fields' widths and the state's codes are not given). -/
opaque recInfoBytes : List (List Nat) → List Byte
opaque recListBytes : Nat → Nat → Bool → Nat → Vector Byte 20

/-- A byte that a descriptor reads from a range an earlier one of its channel has yet to write, without FENCE (R414).
Arguments: free count and index. -/
opaque dmaByte : Nat → Nat → Byte

/-- The RFC 1951 bytes of a compression stream from its jobs, each with its CTRL and input (R408 names what they depend on and
not every choice of match and code). -/
opaque deflate : List (Nat × List Byte) → List Byte

/-- Input bytes a lane has taken when its output is full: on compression, of a job of the given length; on decompression, the
compressed bytes held unread, of which at most eight count (R411). Argument: free count. -/
opaque cmpTaken : Nat → Nat → Nat
opaque cmpHeld : Nat → Nat

/-- A state area's content (R407: its format is no customer interface). Arguments: direction, wrapper, bytes written,
suspended, and the jobs. -/
opaque cmpState : List Nat → List (Nat × List Byte) → List Byte

/-- Class and detail of the event that MTR_CTRL.SAVE_EVT asks for at each periodic save, and of a power-quality end record with
its argument bytes from type, start seconds and ns, duration in µs, extreme, flagged, incomplete (R432, R450 give none). -/
opaque saveEvent : Nat × Nat
opaque pqEndEvent : Nat × Nat
opaque pqEndArg : List Nat → List Byte

/-- Argument bytes of the gap record of class 2, detail 5 past its object: W and the bound (R441, R454). -/
opaque gapArg : Nat → Nat → List Byte

/-- Rounding of a pulse credit to 2^-32 of a pulse: up when odd (R425). Argument: free count. -/
opaque creditUp : Nat → Nat

/-- Duration in µs of a last-gasp save (R438 bounds it by 6,000). Argument: free count. -/
opaque saveMicros : Nat → Nat

/-- What a position of the event ring holds whose record was torn (R461). -/
opaque tornBytes : Nat → Vector Byte 64

/-- Code of a save kind (4 for no copy) in entry 0x06 of the metrological log, of the kind of a configuration change in entry 0x0D by the
model's index, and the arguments of the entry codes for which R445 names none, from the values concerned. -/
opaque saveKindCode : Nat → Nat
opaque cfgKind : Nat → Nat
opaque logArg : Nat → List Nat → List Nat

/-- Bytes of the metering-seal slot's number in the seal digest (R443 gives no width), and the operation code of the seal
command in the audit class (R454). -/
opaque sealSlotBytes : Nat → List Byte
opaque sealOpCode : Nat

/-- Section 0x0001 of a partition: R46 names its content (master SV rate, home clusters, priorities, reservation) and no chapter
gives its layout. -/
structure PartDescr where
  rate : Nat
  homeSet : Nat
  priorities : List Nat
  slots : Nat
  ceil : Nat
  tasks : Nat
  deriving Inhabited
opaque partDescr : List Byte → Option PartDescr

/-- Demand and limit, as binary64, of an admission entry of a check without numeric limit (0x1F to 0x22), by its code. -/
opaque structFigures : Nat → Nat × Nat

/-- Bytes of the IEC 62351-6 extension of a GOOSE frame: the spec gives the standard's (R349, R474). -/
opaque secExtLen : Nat

/-- The bytes of SELFTEST_FULL's answer from cluster, result and failing unit of each; of HEALTH_REPORT's from the margin
registers, the last self-test results, the prediction, and the temperatures (R488, R559: the widths are not given); and of a
TD_SNAPSHOT record from its type (R114). -/
opaque fullTestBytes : List (List Nat) → List Byte
opaque healthBytes : List (List Int) → List Byte
opaque snapBytes : Nat → List Nat → Vector Byte 31

end Sys2Proof.Config
end

