-- ==== Sys2Proof/Machine/RegMap.lean ====
section
/-!
DEFINITION. The register map: one row per register of the BAR0 map of the chapters 03 to 16 (R521 and the map and
field tables of each block), with its reset value and its writable, shadowed and clear-on-read bits, and a name for each.
-/
namespace Sys2Proof.Machine

/-- One register: BAR0 offset, reset value, bits a host write changes at once (RW, RWG, WO), shadowed bits (RWS),
clear-on-read bits (RC), whether it is guarded (RWG) and whether it is write-only. -/
structure RegRow where
  off : Nat
  reset : Nat
  live : Nat
  shadow : Nat
  rc : Nat
  guarded : Bool
  wo : Bool
  deriving DecidableEq, Repr

/-- Rows of the register map, window 0x00. -/
def regRows_00_0_0 : List RegRow := [
  ⟨0x0, 0x484f0001, 0x0, 0x0, 0x0, false, false⟩,
  ⟨0x4, 0x4401e5c, 0x0, 0x0, 0x0, false, false⟩,
  ⟨0x8, 0x0, 0x0, 0x0, 0x0, false, false⟩,
  ⟨0xc, 0x0, 0xffffffff, 0x0, 0x0, false, true⟩,
  ⟨0x10, 0x0, 0x0, 0x0, 0x7, false, false⟩,
  ⟨0x14, 0x0, 0x7, 0x0, 0x0, false, false⟩,
  ⟨0x18, 0x0, 0x3, 0x0, 0x0, false, false⟩,
  ⟨0x1c, 0x0, 0x0, 0x0, 0x0, false, false⟩,
  ⟨0x20, 0x0, 0x0, 0x0, 0x3f, false, false⟩,
  ⟨0x24, 0x0, 0x0, 0x0, 0x0, false, false⟩,
  ⟨0x28, 0x0, 0xff, 0x0, 0x0, false, true⟩,
  ⟨0x2c, 0x0, 0x0, 0x0, 0x0, false, false⟩,
  ⟨0x30, 0x0, 0x77777777, 0x0, 0x0, false, false⟩,
  ⟨0x34, 0x0, 0x77777777, 0x0, 0x0, false, false⟩,
  ⟨0x38, 0x0, 0x77, 0x0, 0x0, false, false⟩,
  ⟨0x3c, 0x0, 0xffffffff, 0x0, 0x0, false, false⟩,
  ⟨0x40, 0x0, 0xff, 0x0, 0x0, false, false⟩,
  ⟨0x44, 0x0, 0x0, 0x0, 0x0, false, false⟩,
  ⟨0x48, 0x0, 0x0, 0x0, 0x0, false, false⟩,
  ⟨0x4c, 0x0, 0x0, 0x0, 0x0, false, false⟩,
  ⟨0x50, 0x0, 0x0, 0x0, 0x0, false, false⟩,
  ⟨0x54, 0x0, 0x0, 0x0, 0x0, false, false⟩,
  ⟨0x58, 0x0, 0x0, 0x0, 0x0, false, false⟩,
  ⟨0x5c, 0x0, 0xffffff, 0x0, 0x0, false, false⟩,
  ⟨0x60, 0x0, 0x0, 0x0, 0xffffffff, false, false⟩]

/-- Rows of the register map, window 0x01. -/
def regRows_01_0_0 : List RegRow := [
  ⟨0x10000, 0x4b500001, 0x0, 0x0, 0x0, false, false⟩,
  ⟨0x10008, 0x0, 0x0, 0x0, 0x0, false, false⟩,
  ⟨0x1000c, 0x0, 0xffffffff, 0x0, 0x0, false, true⟩,
  ⟨0x10010, 0x0, 0x0, 0x0, 0x3f, false, false⟩,
  ⟨0x10014, 0x0, 0x3f, 0x0, 0x0, false, false⟩,
  ⟨0x10018, 0x0, 0x1, 0x0, 0x0, false, true⟩,
  ⟨0x1001c, 0x0, 0x0, 0x0, 0x0, false, false⟩,
  ⟨0x10020, 0x0, 0x0, 0x0, 0x0, false, false⟩,
  ⟨0x10024, 0x0, 0x0, 0x0, 0x0, false, false⟩,
  ⟨0x10028, 0x0, 0x0, 0x0, 0xffffffff, false, false⟩,
  ⟨0x1002c, 0x0, 0x0, 0x0, 0xffffffff, false, false⟩]

/-- Rows of the register map, window 0x02. -/
def regRows_02_0_0 : List RegRow := [
  ⟨0x20000, 0x54440001, 0x0, 0x0, 0x0, false, false⟩,
  ⟨0x20004, 0xffff, 0x0, 0xffff, 0x0, false, false⟩,
  ⟨0x20008, 0x10, 0x0, 0xff, 0x0, false, false⟩,
  ⟨0x2000c, 0x0, 0xffffffff, 0x0, 0x0, false, true⟩,
  ⟨0x20010, 0x0, 0x0, 0x0, 0x1f, false, false⟩,
  ⟨0x20014, 0x0, 0x0, 0x0, 0xffffffff, false, false⟩,
  ⟨0x20018, 0x0, 0x0, 0x0, 0x0, false, false⟩,
  ⟨0x2001c, 0x0, 0x1f, 0x0, 0x0, false, false⟩,
  ⟨0x20020, 0x0, 0x0, 0x0, 0x0, false, false⟩,
  ⟨0x20024, 0x0, 0x0, 0x0, 0x0, false, false⟩,
  ⟨0x20028, 0x0, 0x0, 0x0, 0x0, false, false⟩,
  ⟨0x20030, 0x0, 0x0, 0x0, 0x0, false, false⟩,
  ⟨0x20034, 0x0, 0x0, 0x0, 0x0, false, false⟩,
  ⟨0x20038, 0x0, 0x0, 0x0, 0x0, false, false⟩,
  ⟨0x2003c, 0x0, 0x0, 0x0, 0x0, false, false⟩,
  ⟨0x20040, 0x0, 0x0, 0x0, 0x0, false, false⟩]

/-- Rows of the register map, window 0x03. -/
def regRows_03_0_0_0 : List RegRow := [
  ⟨0x30000, 0x50450001, 0x0, 0x0, 0x0, false, false⟩,
  ⟨0x30004, 0x10048, 0x0, 0x0, 0x0, false, false⟩,
  ⟨0x30008, 0x1111, 0x0, 0x0, 0x0, false, false⟩,
  ⟨0x3000c, 0x0, 0xffffffff, 0x0, 0x0, false, true⟩,
  ⟨0x30010, 0x0, 0x0, 0x0, 0xff, false, false⟩,
  ⟨0x30014, 0x0, 0xff, 0x0, 0x0, false, false⟩,
  ⟨0x30018, 0x0, 0x30f, 0x0, 0x0, true, false⟩,
  ⟨0x3001c, 0x0, 0x0, 0x0, 0xffffffff, false, false⟩,
  ⟨0x30020, 0x64, 0x0, 0x0, 0x0, false, false⟩,
  ⟨0x30024, 0x64, 0x0, 0x0, 0x0, false, false⟩,
  ⟨0x30028, 0x64, 0x0, 0x0, 0x0, false, false⟩,
  ⟨0x3002c, 0x64, 0x0, 0x0, 0x0, false, false⟩,
  ⟨0x30030, 0x64, 0x0, 0x0, 0x0, false, false⟩,
  ⟨0x30034, 0x64, 0x0, 0x0, 0x0, false, false⟩,
  ⟨0x30038, 0x64, 0x0, 0x0, 0x0, false, false⟩,
  ⟨0x3003c, 0x64, 0x0, 0x0, 0x0, false, false⟩,
  ⟨0x30040, 0x64, 0x0, 0x0, 0x0, false, false⟩,
  ⟨0x30044, 0x64, 0x0, 0x0, 0x0, false, false⟩,
  ⟨0x30048, 0x64, 0x0, 0x0, 0x0, false, false⟩,
  ⟨0x3004c, 0x64, 0x0, 0x0, 0x0, false, false⟩,
  ⟨0x30050, 0x64, 0x0, 0x0, 0x0, false, false⟩,
  ⟨0x30054, 0x64, 0x0, 0x0, 0x0, false, false⟩,
  ⟨0x30058, 0x64, 0x0, 0x0, 0x0, false, false⟩,
  ⟨0x3005c, 0x64, 0x0, 0x0, 0x0, false, false⟩,
  ⟨0x30060, 0x0, 0x0, 0x0, 0xffffffff, false, false⟩,
  ⟨0x30064, 0x0, 0x0, 0x0, 0xffffffff, false, false⟩,
  ⟨0x30068, 0x0, 0x0, 0x0, 0xffffffff, false, false⟩,
  ⟨0x3006c, 0x0, 0x0, 0x0, 0xffffffff, false, false⟩,
  ⟨0x30070, 0x0, 0x0, 0x0, 0xffffffff, false, false⟩,
  ⟨0x30074, 0x0, 0x0, 0x0, 0xffffffff, false, false⟩,
  ⟨0x30078, 0x0, 0x0, 0x0, 0xffffffff, false, false⟩,
  ⟨0x3007c, 0x0, 0x0, 0x0, 0xffffffff, false, false⟩,
  ⟨0x30080, 0x0, 0x0, 0x0, 0xffffffff, false, false⟩,
  ⟨0x30084, 0x0, 0x0, 0x0, 0xffffffff, false, false⟩,
  ⟨0x30088, 0x0, 0x0, 0x0, 0xffffffff, false, false⟩,
  ⟨0x3008c, 0x0, 0x0, 0x0, 0xffffffff, false, false⟩,
  ⟨0x30090, 0x0, 0x0, 0x0, 0xffffffff, false, false⟩,
  ⟨0x30094, 0x0, 0x0, 0x0, 0xffffffff, false, false⟩,
  ⟨0x30098, 0x0, 0x0, 0x0, 0xffffffff, false, false⟩,
  ⟨0x3009c, 0x0, 0x0, 0x0, 0xffffffff, false, false⟩,
  ⟨0x300a0, 0x0, 0x0, 0x0, 0x0, false, false⟩,
  ⟨0x300a4, 0x0, 0x0, 0x0, 0x0, false, false⟩,
  ⟨0x300a8, 0x0, 0x0, 0x0, 0x0, false, false⟩,
  ⟨0x300ac, 0x0, 0x0, 0x0, 0x0, false, false⟩,
  ⟨0x300b0, 0x0, 0x0, 0x0, 0x0, false, false⟩,
  ⟨0x300b4, 0x0, 0x0, 0x0, 0x0, false, false⟩,
  ⟨0x300b8, 0x0, 0x0, 0x0, 0x0, false, false⟩,
  ⟨0x300bc, 0x0, 0x0, 0x0, 0x0, false, false⟩,
  ⟨0x300c0, 0x0, 0x0, 0x0, 0x0, false, false⟩,
  ⟨0x300c4, 0x0, 0x0, 0x0, 0x0, false, false⟩,
  ⟨0x300c8, 0x0, 0x0, 0x0, 0x0, false, false⟩,
  ⟨0x300cc, 0x0, 0x0, 0x0, 0x0, false, false⟩,
  ⟨0x300d0, 0x0, 0x0, 0x0, 0x0, false, false⟩,
  ⟨0x300d4, 0x0, 0x0, 0x0, 0x0, false, false⟩,
  ⟨0x300d8, 0x0, 0x0, 0x0, 0x0, false, false⟩,
  ⟨0x300dc, 0x0, 0x0, 0x0, 0x0, false, false⟩,
  ⟨0x300e0, 0x0, 0x0, 0x0, 0x0, false, false⟩,
  ⟨0x300e4, 0x0, 0x0, 0x0, 0x0, false, false⟩,
  ⟨0x300e8, 0x0, 0x0, 0x0, 0x0, false, false⟩,
  ⟨0x300ec, 0x0, 0x0, 0x0, 0x0, false, false⟩]

/-- Rows of the register map, window 0x03. -/
def regRows_03_0_0_1 : List RegRow := [
  ⟨0x300f0, 0x0, 0x0, 0x0, 0x0, false, false⟩,
  ⟨0x300f4, 0x0, 0x0, 0x0, 0x0, false, false⟩,
  ⟨0x300f8, 0x0, 0x0, 0x0, 0x0, false, false⟩,
  ⟨0x300fc, 0x0, 0x0, 0x0, 0x0, false, false⟩,
  ⟨0x30100, 0x0, 0x0, 0x0, 0x0, false, false⟩,
  ⟨0x30104, 0x0, 0x0, 0x0, 0x0, false, false⟩,
  ⟨0x30108, 0x0, 0x0, 0x0, 0x0, false, false⟩,
  ⟨0x3010c, 0x0, 0x0, 0x0, 0x0, false, false⟩,
  ⟨0x30110, 0x0, 0x0, 0x0, 0x0, false, false⟩,
  ⟨0x30114, 0x0, 0x0, 0x0, 0x0, false, false⟩,
  ⟨0x30118, 0x0, 0x0, 0x0, 0x0, false, false⟩,
  ⟨0x3011c, 0x0, 0x0, 0x0, 0x0, false, false⟩]

/-- Rows of the register map, window 0x03. -/
def regRows_03_0_0 : List RegRow := regRows_03_0_0_0 ++ regRows_03_0_0_1

/-- Rows of the register map, window 0x04. -/
def regRows_04_0_0 : List RegRow := [
  ⟨0x40000, 0x53560001, 0x0, 0x0, 0x0, false, false⟩,
  ⟨0x40004, 0x0, 0x0, 0xf, 0x0, false, false⟩,
  ⟨0x40008, 0x0, 0x0, 0x0, 0x0, false, false⟩,
  ⟨0x4000c, 0x0, 0xffffffff, 0x0, 0x0, false, true⟩,
  ⟨0x40010, 0x0, 0x0, 0x0, 0x1ff, false, false⟩,
  ⟨0x40014, 0x0, 0x1ff, 0x0, 0x0, false, false⟩,
  ⟨0x40018, 0x0, 0x800001ff, 0x0, 0x0, true, false⟩,
  ⟨0x4001c, 0x0, 0x1ff, 0x0, 0x0, false, false⟩,
  ⟨0x40020, 0x7, 0x0, 0x0, 0x0, false, false⟩,
  ⟨0x40024, 0x0, 0x0, 0x0, 0x0, false, false⟩,
  ⟨0x40028, 0x0, 0x0, 0x0, 0xffffffff, false, false⟩,
  ⟨0x4002c, 0x0, 0x0, 0x0, 0xffffffff, false, false⟩,
  ⟨0x40030, 0x0, 0x0, 0x0, 0xffffffff, false, false⟩,
  ⟨0x40034, 0x0, 0x0, 0x0, 0xffffffff, false, false⟩,
  ⟨0x40038, 0x0, 0x0, 0x0, 0xffffffff, false, false⟩,
  ⟨0x4003c, 0x0, 0x0, 0x0, 0xffffffff, false, false⟩,
  ⟨0x40040, 0x0, 0x0, 0x0, 0xffffffff, false, false⟩,
  ⟨0x40044, 0x0, 0x0, 0x0, 0xffffffff, false, false⟩]

/-- Rows of the register map, window 0x05. -/
def regRows_05_0_0 : List RegRow := [
  ⟨0x50000, 0x464c0001, 0x0, 0x0, 0x0, false, false⟩,
  ⟨0x50004, 0x0, 0x0, 0x800103ff, 0x0, false, false⟩,
  ⟨0x50008, 0x0, 0x0, 0x0, 0x0, false, false⟩,
  ⟨0x5000c, 0x0, 0xffffffff, 0x0, 0x0, false, true⟩,
  ⟨0x50010, 0x0, 0x0, 0x0, 0x1f, false, false⟩,
  ⟨0x50014, 0x0, 0x1f, 0x0, 0x0, false, false⟩,
  ⟨0x50018, 0x0, 0x0, 0x0, 0x0, false, false⟩,
  ⟨0x5001c, 0x0, 0x3ff, 0x0, 0x0, false, false⟩,
  ⟨0x50020, 0x0, 0x0, 0x0, 0x0, false, false⟩,
  ⟨0x50024, 0x0, 0x0, 0x0, 0x0, false, false⟩,
  ⟨0x50028, 0x0, 0x0, 0x0, 0x0, false, false⟩,
  ⟨0x5002c, 0x0, 0x0, 0x0, 0xffffffff, false, false⟩]

/-- Rows of the register map, window 0x06. -/
def regRows_06_0_0 : List RegRow := [
  ⟨0x60000, 0x424e0001, 0x0, 0x0, 0x0, false, false⟩,
  ⟨0x60004, 0x0, 0x0, 0xf, 0x0, false, false⟩,
  ⟨0x60008, 0x0, 0x0, 0x0, 0x0, false, false⟩,
  ⟨0x6000c, 0x0, 0xffffffff, 0x0, 0x0, false, true⟩,
  ⟨0x60010, 0x0, 0x0, 0x0, 0x7ff, false, false⟩,
  ⟨0x60014, 0x0, 0x7ff, 0x0, 0x0, false, false⟩,
  ⟨0x60018, 0x0, 0x80001fff, 0x0, 0x0, true, false⟩,
  ⟨0x6001c, 0x0, 0x1fff, 0x0, 0x0, false, false⟩,
  ⟨0x60020, 0xf0007, 0x0, 0x0, 0x0, false, false⟩,
  ⟨0x60024, 0x0, 0x0, 0x0, 0x0, false, false⟩,
  ⟨0x60028, 0x0, 0x0, 0x0, 0xffffffff, false, false⟩,
  ⟨0x6002c, 0x0, 0x0, 0x0, 0xffffffff, false, false⟩,
  ⟨0x60030, 0x0, 0x0, 0x0, 0xffffffff, false, false⟩,
  ⟨0x60034, 0x0, 0x0, 0x0, 0xffffffff, false, false⟩,
  ⟨0x60038, 0x0, 0x0, 0x0, 0xffffffff, false, false⟩,
  ⟨0x6003c, 0x0, 0x0, 0x0, 0xffffffff, false, false⟩,
  ⟨0x60040, 0x0, 0x0, 0x0, 0xffffffff, false, false⟩,
  ⟨0x60044, 0x0, 0x3f, 0x0, 0x0, false, false⟩,
  ⟨0x60048, 0x0, 0x0, 0x0, 0x0, false, false⟩,
  ⟨0x6004c, 0x0, 0x0, 0x0, 0xffffffff, false, false⟩,
  ⟨0x60050, 0x0, 0x0, 0x0, 0xffffffff, false, false⟩,
  ⟨0x60054, 0x0, 0x0, 0x0, 0xffffffff, false, false⟩,
  ⟨0x60058, 0x0, 0x0, 0x0, 0xffffffff, false, false⟩,
  ⟨0x6005c, 0x0, 0x0, 0x0, 0xffffffff, false, false⟩,
  ⟨0x60060, 0x0, 0x0, 0x0, 0xffffffff, false, false⟩,
  ⟨0x60064, 0x0, 0x0, 0x0, 0x0, false, false⟩,
  ⟨0x60068, 0x0, 0x0, 0x0, 0x0, false, false⟩]

/-- Rows of the register map, window 0x07. -/
def regRows_07_0_0 : List RegRow := [
  ⟨0x70000, 0x57410001, 0x0, 0x0, 0x0, false, false⟩,
  ⟨0x70004, 0x0, 0x0, 0xf, 0x0, false, false⟩,
  ⟨0x70008, 0x0, 0x0, 0x0, 0x0, false, false⟩,
  ⟨0x7000c, 0x0, 0xffffffff, 0x0, 0x0, false, true⟩,
  ⟨0x70010, 0x0, 0x0, 0x0, 0x3f, false, false⟩,
  ⟨0x70014, 0x0, 0x3f, 0x0, 0x0, false, false⟩,
  ⟨0x70018, 0x0, 0x1ff, 0x0, 0x0, false, true⟩,
  ⟨0x7001c, 0x0, 0x1ff, 0x0, 0x0, false, false⟩,
  ⟨0x70020, 0x0, 0x0, 0x0, 0x0, false, false⟩,
  ⟨0x70024, 0x0, 0x0, 0x0, 0x0, false, false⟩,
  ⟨0x70028, 0x0, 0x0, 0x0, 0xffffffff, false, false⟩,
  ⟨0x7002c, 0x0, 0x0, 0x0, 0xffffffff, false, false⟩,
  ⟨0x70030, 0x0, 0x0, 0x0, 0xffffffff, false, false⟩,
  ⟨0x70034, 0x0, 0x0, 0x0, 0xffffffff, false, false⟩,
  ⟨0x70040, 0x0, 0x0, 0x0, 0x0, false, false⟩,
  ⟨0x70044, 0x0, 0x0, 0x0, 0x0, false, false⟩,
  ⟨0x70048, 0x0, 0x0, 0x0, 0x0, false, false⟩,
  ⟨0x7004c, 0x0, 0x0, 0x0, 0x0, false, false⟩,
  ⟨0x70050, 0x0, 0x0, 0x0, 0x0, false, false⟩,
  ⟨0x70054, 0x0, 0x0, 0x0, 0x0, false, false⟩,
  ⟨0x70058, 0x0, 0x0, 0x0, 0x0, false, false⟩,
  ⟨0x7005c, 0x0, 0x0, 0x0, 0x0, false, false⟩,
  ⟨0x70060, 0x0, 0x0, 0x0, 0x0, false, false⟩,
  ⟨0x70064, 0x0, 0x0, 0x0, 0x0, false, false⟩,
  ⟨0x70068, 0x0, 0x0, 0x0, 0x0, false, false⟩,
  ⟨0x7006c, 0x0, 0x0, 0x0, 0x0, false, false⟩,
  ⟨0x70070, 0x0, 0x0, 0x0, 0x0, false, false⟩,
  ⟨0x70074, 0x0, 0x0, 0x0, 0x0, false, false⟩,
  ⟨0x70078, 0x0, 0x0, 0x0, 0x0, false, false⟩,
  ⟨0x7007c, 0x0, 0x0, 0x0, 0x0, false, false⟩,
  ⟨0x70080, 0x0, 0x1f, 0x0, 0x0, false, false⟩,
  ⟨0x70084, 0x0, 0x0, 0x0, 0x0, false, false⟩,
  ⟨0x70088, 0x0, 0x0, 0x0, 0x0, false, false⟩,
  ⟨0x7008c, 0x0, 0x0, 0x0, 0x0, false, false⟩,
  ⟨0x70090, 0x0, 0x0, 0x0, 0x0, false, false⟩,
  ⟨0x70094, 0x0, 0xf, 0x0, 0x0, false, false⟩,
  ⟨0x70098, 0x0, 0x0, 0x0, 0x0, false, false⟩,
  ⟨0x7009c, 0x0, 0x0, 0x0, 0x0, false, false⟩,
  ⟨0x700a0, 0x0, 0x3f, 0x0, 0x0, false, false⟩,
  ⟨0x700a4, 0x0, 0x0, 0x0, 0x0, false, false⟩,
  ⟨0x700a8, 0x0, 0x0, 0x0, 0x0, false, false⟩,
  ⟨0x700ac, 0x0, 0x0, 0x0, 0x0, false, false⟩,
  ⟨0x700b0, 0x0, 0x0, 0x0, 0x0, false, false⟩]

/-- Rows of the register map, window 0x08. -/
def regRows_08_0_0 : List RegRow := [
  ⟨0x80000, 0x4f550001, 0x0, 0x0, 0x0, false, false⟩,
  ⟨0x80004, 0x1, 0x0, 0x3, 0x0, false, false⟩,
  ⟨0x80008, 0x0, 0x0, 0x0, 0x0, false, false⟩,
  ⟨0x8000c, 0x0, 0xffffffff, 0x0, 0x0, false, true⟩,
  ⟨0x80010, 0x0, 0x0, 0x0, 0x3fff, false, false⟩,
  ⟨0x80014, 0x0, 0x3fff, 0x0, 0x0, false, false⟩,
  ⟨0x80018, 0x1, 0xffffc0ff, 0x0, 0x0, true, false⟩,
  ⟨0x8001c, 0x1, 0x0, 0x0, 0x0, false, false⟩,
  ⟨0x80020, 0x0, 0xffffff, 0x0, 0x0, true, false⟩,
  ⟨0x80024, 0x0, 0x0, 0x0, 0x0, false, false⟩,
  ⟨0x80028, 0x0, 0x0, 0x0, 0x0, false, false⟩,
  ⟨0x8002c, 0xa, 0x0, 0xfff, 0x0, false, false⟩,
  ⟨0x80030, 0x0, 0x0, 0x0, 0x0, false, false⟩,
  ⟨0x80034, 0x0, 0x0, 0x0, 0x0, false, false⟩,
  ⟨0x80038, 0x0, 0x0, 0x0, 0xffffffff, false, false⟩,
  ⟨0x8003c, 0x0, 0x0, 0x0, 0xffffffff, false, false⟩,
  ⟨0x80040, 0x0, 0x0, 0x0, 0xffffffff, false, false⟩,
  ⟨0x80044, 0x0, 0x0, 0x0, 0xffffffff, false, false⟩,
  ⟨0x80048, 0x0, 0x0, 0x0, 0xffffffff, false, false⟩,
  ⟨0x8004c, 0x0, 0x1ff, 0x0, 0x0, false, false⟩,
  ⟨0x80050, 0x0, 0x0, 0x0, 0x0, false, false⟩,
  ⟨0x80054, 0x0, 0x0, 0x0, 0x0, false, false⟩,
  ⟨0x80058, 0x0, 0x1ff, 0x0, 0x0, false, false⟩,
  ⟨0x8005c, 0x7, 0x0, 0x0, 0x0, false, false⟩]

/-- Rows of the register map, window 0x09. -/
def regRows_09_0_0 : List RegRow := [
  ⟨0x90000, 0x50540001, 0x0, 0x0, 0x0, false, false⟩,
  ⟨0x90004, 0x1, 0x0, 0x7, 0x0, false, false⟩,
  ⟨0x90008, 0xf000004, 0x0, 0x0, 0x0, false, false⟩,
  ⟨0x9000c, 0x0, 0xffffffff, 0x0, 0x0, false, true⟩,
  ⟨0x90010, 0x0, 0x0, 0x0, 0x7ff, false, false⟩,
  ⟨0x90014, 0x0, 0x7ff, 0x0, 0x0, false, false⟩,
  ⟨0x90018, 0x80800000, 0x0, 0xffffff03, 0x0, false, false⟩,
  ⟨0x9001c, 0x30000, 0x0, 0xfffff, 0x0, false, false⟩,
  ⟨0x90020, 0x640014, 0x0, 0x3ff03ff, 0x0, false, false⟩,
  ⟨0x90024, 0x25, 0x3ffff, 0x0, 0x0, true, false⟩,
  ⟨0x90028, 0x0, 0x3fffffff, 0x0, 0x0, false, false⟩,
  ⟨0x9002c, 0x0, 0xffffffff, 0x0, 0x0, false, false⟩,
  ⟨0x90030, 0x0, 0xffffffff, 0x0, 0x0, false, false⟩,
  ⟨0x90034, 0x0, 0x1, 0x0, 0x0, true, false⟩,
  ⟨0x90038, 0x0, 0xffffffff, 0x0, 0x0, true, false⟩,
  ⟨0x9003c, 0x0, 0x0, 0x0, 0x0, false, false⟩,
  ⟨0x90040, 0x0, 0x0, 0x0, 0x0, false, false⟩,
  ⟨0x90044, 0x0, 0x0, 0x0, 0x0, false, false⟩,
  ⟨0x90048, 0xffffffff, 0x0, 0x0, 0x0, false, false⟩,
  ⟨0x9004c, 0xffffffff, 0x0, 0x0, 0x0, false, false⟩,
  ⟨0x90050, 0xf8fe0000, 0x0, 0x0, 0x0, false, false⟩,
  ⟨0x90054, 0x0, 0x0, 0x0, 0xffffffff, false, false⟩,
  ⟨0x90058, 0x0, 0xff, 0x0, 0x0, false, false⟩,
  ⟨0x9005c, 0x0, 0x0, 0x0, 0x0, false, false⟩,
  ⟨0x90060, 0x0, 0x0, 0x0, 0x0, false, false⟩,
  ⟨0x90064, 0x0, 0x0, 0x0, 0x0, false, false⟩,
  ⟨0x90068, 0x0, 0x0, 0x0, 0x0, false, false⟩,
  ⟨0x9006c, 0x0, 0x0, 0x0, 0x0, false, false⟩,
  ⟨0x90080, 0x0, 0x0, 0xfffe00d, 0x0, false, false⟩,
  ⟨0x90084, 0x0, 0x0, 0xffffffff, 0x0, false, false⟩,
  ⟨0x90088, 0x2, 0x0, 0x0, 0x0, false, false⟩,
  ⟨0x9008c, 0x0, 0x0, 0x0, 0xffffffff, false, false⟩,
  ⟨0x90090, 0x0, 0x0, 0xfffe00d, 0x0, false, false⟩,
  ⟨0x90094, 0x0, 0x0, 0xffffffff, 0x0, false, false⟩,
  ⟨0x90098, 0x2, 0x0, 0x0, 0x0, false, false⟩,
  ⟨0x9009c, 0x0, 0x0, 0x0, 0xffffffff, false, false⟩,
  ⟨0x900a0, 0x0, 0x0, 0xfffe00d, 0x0, false, false⟩,
  ⟨0x900a4, 0x0, 0x0, 0xffffffff, 0x0, false, false⟩,
  ⟨0x900a8, 0x2, 0x0, 0x0, 0x0, false, false⟩,
  ⟨0x900ac, 0x0, 0x0, 0x0, 0xffffffff, false, false⟩,
  ⟨0x900b0, 0x0, 0x0, 0xfffe00d, 0x0, false, false⟩,
  ⟨0x900b4, 0x0, 0x0, 0xffffffff, 0x0, false, false⟩,
  ⟨0x900b8, 0x2, 0x0, 0x0, 0x0, false, false⟩,
  ⟨0x900bc, 0x0, 0x0, 0x0, 0xffffffff, false, false⟩,
  ⟨0x900c0, 0x0, 0x0, 0xfffe00d, 0x0, false, false⟩,
  ⟨0x900c4, 0x0, 0x0, 0xffffffff, 0x0, false, false⟩,
  ⟨0x900c8, 0x2, 0x0, 0x0, 0x0, false, false⟩,
  ⟨0x900cc, 0x0, 0x0, 0x0, 0xffffffff, false, false⟩,
  ⟨0x900d0, 0x0, 0x0, 0xfffe00d, 0x0, false, false⟩,
  ⟨0x900d4, 0x0, 0x0, 0xffffffff, 0x0, false, false⟩,
  ⟨0x900d8, 0x2, 0x0, 0x0, 0x0, false, false⟩,
  ⟨0x900dc, 0x0, 0x0, 0x0, 0xffffffff, false, false⟩,
  ⟨0x900e0, 0x0, 0x0, 0xfffe00d, 0x0, false, false⟩,
  ⟨0x900e4, 0x0, 0x0, 0xffffffff, 0x0, false, false⟩,
  ⟨0x900e8, 0x2, 0x0, 0x0, 0x0, false, false⟩,
  ⟨0x900ec, 0x0, 0x0, 0x0, 0xffffffff, false, false⟩,
  ⟨0x900f0, 0x0, 0x0, 0xfffe00d, 0x0, false, false⟩,
  ⟨0x900f4, 0x0, 0x0, 0xffffffff, 0x0, false, false⟩,
  ⟨0x900f8, 0x2, 0x0, 0x0, 0x0, false, false⟩,
  ⟨0x900fc, 0x0, 0x0, 0x0, 0xffffffff, false, false⟩]

/-- Rows of the register map, window 0x0a. -/
def regRows_0a_0_0 : List RegRow := [
  ⟨0xa0000, 0x0, 0x0, 0xd, 0x0, false, false⟩,
  ⟨0xa0004, 0x0, 0x0, 0x0, 0x0, false, false⟩,
  ⟨0xa0008, 0x0, 0x0, 0x0, 0x1ff, false, false⟩,
  ⟨0xa000c, 0x0, 0x1ff, 0x0, 0x0, false, false⟩,
  ⟨0xa0010, 0xa04, 0x1ff07, 0x0, 0x0, true, false⟩,
  ⟨0xa0014, 0x0, 0x0, 0x0, 0xffffffff, false, false⟩,
  ⟨0xa0020, 0x0, 0x0, 0x0, 0xffffffff, false, false⟩,
  ⟨0xa0024, 0x0, 0x0, 0x0, 0xffffffff, false, false⟩,
  ⟨0xa0028, 0x0, 0x0, 0x0, 0xffffffff, false, false⟩,
  ⟨0xa002c, 0x0, 0x0, 0x0, 0xffffffff, false, false⟩,
  ⟨0xa0030, 0x0, 0x0, 0x0, 0xffffffff, false, false⟩,
  ⟨0xa0034, 0x0, 0x0, 0x0, 0xffffffff, false, false⟩,
  ⟨0xa0038, 0x0, 0x0, 0x0, 0xffffffff, false, false⟩,
  ⟨0xa003c, 0x0, 0x0, 0x0, 0xffffffff, false, false⟩,
  ⟨0xa0040, 0x0, 0x0, 0x0, 0xffffffff, false, false⟩,
  ⟨0xa0044, 0x0, 0x0, 0x0, 0xffffffff, false, false⟩,
  ⟨0xa0048, 0x0, 0x0, 0x0, 0xffffffff, false, false⟩,
  ⟨0xa004c, 0x0, 0x0, 0x0, 0xffffffff, false, false⟩,
  ⟨0xa0050, 0x0, 0x0, 0x0, 0xffffffff, false, false⟩,
  ⟨0xa0054, 0x0, 0x0, 0x0, 0xffffffff, false, false⟩,
  ⟨0xa0058, 0x0, 0x0, 0x0, 0xffffffff, false, false⟩,
  ⟨0xa005c, 0x0, 0x0, 0x0, 0xffffffff, false, false⟩,
  ⟨0xa0060, 0x0, 0x0, 0x0, 0xffffffff, false, false⟩]

/-- Rows of the register map, window 0x0a. -/
def regRows_0a_1_0 : List RegRow := [
  ⟨0xa1000, 0x0, 0x0, 0xd, 0x0, false, false⟩,
  ⟨0xa1004, 0x0, 0x0, 0x0, 0x0, false, false⟩,
  ⟨0xa1008, 0x0, 0x0, 0x0, 0x1ff, false, false⟩,
  ⟨0xa100c, 0x0, 0x1ff, 0x0, 0x0, false, false⟩,
  ⟨0xa1010, 0xa04, 0x1ff07, 0x0, 0x0, true, false⟩,
  ⟨0xa1014, 0x0, 0x0, 0x0, 0xffffffff, false, false⟩,
  ⟨0xa1020, 0x0, 0x0, 0x0, 0xffffffff, false, false⟩,
  ⟨0xa1024, 0x0, 0x0, 0x0, 0xffffffff, false, false⟩,
  ⟨0xa1028, 0x0, 0x0, 0x0, 0xffffffff, false, false⟩,
  ⟨0xa102c, 0x0, 0x0, 0x0, 0xffffffff, false, false⟩,
  ⟨0xa1030, 0x0, 0x0, 0x0, 0xffffffff, false, false⟩,
  ⟨0xa1034, 0x0, 0x0, 0x0, 0xffffffff, false, false⟩,
  ⟨0xa1038, 0x0, 0x0, 0x0, 0xffffffff, false, false⟩,
  ⟨0xa103c, 0x0, 0x0, 0x0, 0xffffffff, false, false⟩,
  ⟨0xa1040, 0x0, 0x0, 0x0, 0xffffffff, false, false⟩,
  ⟨0xa1044, 0x0, 0x0, 0x0, 0xffffffff, false, false⟩,
  ⟨0xa1048, 0x0, 0x0, 0x0, 0xffffffff, false, false⟩,
  ⟨0xa104c, 0x0, 0x0, 0x0, 0xffffffff, false, false⟩,
  ⟨0xa1050, 0x0, 0x0, 0x0, 0xffffffff, false, false⟩,
  ⟨0xa1054, 0x0, 0x0, 0x0, 0xffffffff, false, false⟩,
  ⟨0xa1058, 0x0, 0x0, 0x0, 0xffffffff, false, false⟩,
  ⟨0xa105c, 0x0, 0x0, 0x0, 0xffffffff, false, false⟩,
  ⟨0xa1060, 0x0, 0x0, 0x0, 0xffffffff, false, false⟩]

/-- Rows of the register map, window 0x0a. -/
def regRows_0a_2_0 : List RegRow := [
  ⟨0xa2000, 0x0, 0x0, 0xd, 0x0, false, false⟩,
  ⟨0xa2004, 0x0, 0x0, 0x0, 0x0, false, false⟩,
  ⟨0xa2008, 0x0, 0x0, 0x0, 0x1ff, false, false⟩,
  ⟨0xa200c, 0x0, 0x1ff, 0x0, 0x0, false, false⟩,
  ⟨0xa2010, 0xa04, 0x1ff07, 0x0, 0x0, true, false⟩,
  ⟨0xa2014, 0x0, 0x0, 0x0, 0xffffffff, false, false⟩,
  ⟨0xa2020, 0x0, 0x0, 0x0, 0xffffffff, false, false⟩,
  ⟨0xa2024, 0x0, 0x0, 0x0, 0xffffffff, false, false⟩,
  ⟨0xa2028, 0x0, 0x0, 0x0, 0xffffffff, false, false⟩,
  ⟨0xa202c, 0x0, 0x0, 0x0, 0xffffffff, false, false⟩,
  ⟨0xa2030, 0x0, 0x0, 0x0, 0xffffffff, false, false⟩,
  ⟨0xa2034, 0x0, 0x0, 0x0, 0xffffffff, false, false⟩,
  ⟨0xa2038, 0x0, 0x0, 0x0, 0xffffffff, false, false⟩,
  ⟨0xa203c, 0x0, 0x0, 0x0, 0xffffffff, false, false⟩,
  ⟨0xa2040, 0x0, 0x0, 0x0, 0xffffffff, false, false⟩,
  ⟨0xa2044, 0x0, 0x0, 0x0, 0xffffffff, false, false⟩,
  ⟨0xa2048, 0x0, 0x0, 0x0, 0xffffffff, false, false⟩,
  ⟨0xa204c, 0x0, 0x0, 0x0, 0xffffffff, false, false⟩,
  ⟨0xa2050, 0x0, 0x0, 0x0, 0xffffffff, false, false⟩,
  ⟨0xa2054, 0x0, 0x0, 0x0, 0xffffffff, false, false⟩,
  ⟨0xa2058, 0x0, 0x0, 0x0, 0xffffffff, false, false⟩,
  ⟨0xa205c, 0x0, 0x0, 0x0, 0xffffffff, false, false⟩,
  ⟨0xa2060, 0x0, 0x0, 0x0, 0xffffffff, false, false⟩]

/-- Rows of the register map, window 0x0a. -/
def regRows_0a_3_0 : List RegRow := [
  ⟨0xa3000, 0x0, 0x0, 0xd, 0x0, false, false⟩,
  ⟨0xa3004, 0x0, 0x0, 0x0, 0x0, false, false⟩,
  ⟨0xa3008, 0x0, 0x0, 0x0, 0x1ff, false, false⟩,
  ⟨0xa300c, 0x0, 0x1ff, 0x0, 0x0, false, false⟩,
  ⟨0xa3010, 0xa04, 0x1ff07, 0x0, 0x0, true, false⟩,
  ⟨0xa3014, 0x0, 0x0, 0x0, 0xffffffff, false, false⟩,
  ⟨0xa3020, 0x0, 0x0, 0x0, 0xffffffff, false, false⟩,
  ⟨0xa3024, 0x0, 0x0, 0x0, 0xffffffff, false, false⟩,
  ⟨0xa3028, 0x0, 0x0, 0x0, 0xffffffff, false, false⟩,
  ⟨0xa302c, 0x0, 0x0, 0x0, 0xffffffff, false, false⟩,
  ⟨0xa3030, 0x0, 0x0, 0x0, 0xffffffff, false, false⟩,
  ⟨0xa3034, 0x0, 0x0, 0x0, 0xffffffff, false, false⟩,
  ⟨0xa3038, 0x0, 0x0, 0x0, 0xffffffff, false, false⟩,
  ⟨0xa303c, 0x0, 0x0, 0x0, 0xffffffff, false, false⟩,
  ⟨0xa3040, 0x0, 0x0, 0x0, 0xffffffff, false, false⟩,
  ⟨0xa3044, 0x0, 0x0, 0x0, 0xffffffff, false, false⟩,
  ⟨0xa3048, 0x0, 0x0, 0x0, 0xffffffff, false, false⟩,
  ⟨0xa304c, 0x0, 0x0, 0x0, 0xffffffff, false, false⟩,
  ⟨0xa3050, 0x0, 0x0, 0x0, 0xffffffff, false, false⟩,
  ⟨0xa3054, 0x0, 0x0, 0x0, 0xffffffff, false, false⟩,
  ⟨0xa3058, 0x0, 0x0, 0x0, 0xffffffff, false, false⟩,
  ⟨0xa305c, 0x0, 0x0, 0x0, 0xffffffff, false, false⟩,
  ⟨0xa3060, 0x0, 0x0, 0x0, 0xffffffff, false, false⟩]

/-- Rows of the register map, window 0x0a. -/
def regRows_0a_4_0 : List RegRow := [
  ⟨0xa4000, 0x0, 0x0, 0xd, 0x0, false, false⟩,
  ⟨0xa4004, 0x0, 0x0, 0x0, 0x0, false, false⟩,
  ⟨0xa4008, 0x0, 0x0, 0x0, 0x1ff, false, false⟩,
  ⟨0xa400c, 0x0, 0x1ff, 0x0, 0x0, false, false⟩,
  ⟨0xa4010, 0xa04, 0x1ff07, 0x0, 0x0, true, false⟩,
  ⟨0xa4014, 0x0, 0x0, 0x0, 0xffffffff, false, false⟩,
  ⟨0xa4020, 0x0, 0x0, 0x0, 0xffffffff, false, false⟩,
  ⟨0xa4024, 0x0, 0x0, 0x0, 0xffffffff, false, false⟩,
  ⟨0xa4028, 0x0, 0x0, 0x0, 0xffffffff, false, false⟩,
  ⟨0xa402c, 0x0, 0x0, 0x0, 0xffffffff, false, false⟩,
  ⟨0xa4030, 0x0, 0x0, 0x0, 0xffffffff, false, false⟩,
  ⟨0xa4034, 0x0, 0x0, 0x0, 0xffffffff, false, false⟩,
  ⟨0xa4038, 0x0, 0x0, 0x0, 0xffffffff, false, false⟩,
  ⟨0xa403c, 0x0, 0x0, 0x0, 0xffffffff, false, false⟩,
  ⟨0xa4040, 0x0, 0x0, 0x0, 0xffffffff, false, false⟩,
  ⟨0xa4044, 0x0, 0x0, 0x0, 0xffffffff, false, false⟩,
  ⟨0xa4048, 0x0, 0x0, 0x0, 0xffffffff, false, false⟩,
  ⟨0xa404c, 0x0, 0x0, 0x0, 0xffffffff, false, false⟩,
  ⟨0xa4050, 0x0, 0x0, 0x0, 0xffffffff, false, false⟩,
  ⟨0xa4054, 0x0, 0x0, 0x0, 0xffffffff, false, false⟩,
  ⟨0xa4058, 0x0, 0x0, 0x0, 0xffffffff, false, false⟩,
  ⟨0xa405c, 0x0, 0x0, 0x0, 0xffffffff, false, false⟩,
  ⟨0xa4060, 0x0, 0x0, 0x0, 0xffffffff, false, false⟩]

/-- Rows of the register map, window 0x0a. -/
def regRows_0a_5_0 : List RegRow := [
  ⟨0xa5000, 0x0, 0x0, 0xd, 0x0, false, false⟩,
  ⟨0xa5004, 0x0, 0x0, 0x0, 0x0, false, false⟩,
  ⟨0xa5008, 0x0, 0x0, 0x0, 0x1ff, false, false⟩,
  ⟨0xa500c, 0x0, 0x1ff, 0x0, 0x0, false, false⟩,
  ⟨0xa5010, 0xa04, 0x1ff07, 0x0, 0x0, true, false⟩,
  ⟨0xa5014, 0x0, 0x0, 0x0, 0xffffffff, false, false⟩,
  ⟨0xa5020, 0x0, 0x0, 0x0, 0xffffffff, false, false⟩,
  ⟨0xa5024, 0x0, 0x0, 0x0, 0xffffffff, false, false⟩,
  ⟨0xa5028, 0x0, 0x0, 0x0, 0xffffffff, false, false⟩,
  ⟨0xa502c, 0x0, 0x0, 0x0, 0xffffffff, false, false⟩,
  ⟨0xa5030, 0x0, 0x0, 0x0, 0xffffffff, false, false⟩,
  ⟨0xa5034, 0x0, 0x0, 0x0, 0xffffffff, false, false⟩,
  ⟨0xa5038, 0x0, 0x0, 0x0, 0xffffffff, false, false⟩,
  ⟨0xa503c, 0x0, 0x0, 0x0, 0xffffffff, false, false⟩,
  ⟨0xa5040, 0x0, 0x0, 0x0, 0xffffffff, false, false⟩,
  ⟨0xa5044, 0x0, 0x0, 0x0, 0xffffffff, false, false⟩,
  ⟨0xa5048, 0x0, 0x0, 0x0, 0xffffffff, false, false⟩,
  ⟨0xa504c, 0x0, 0x0, 0x0, 0xffffffff, false, false⟩,
  ⟨0xa5050, 0x0, 0x0, 0x0, 0xffffffff, false, false⟩,
  ⟨0xa5054, 0x0, 0x0, 0x0, 0xffffffff, false, false⟩,
  ⟨0xa5058, 0x0, 0x0, 0x0, 0xffffffff, false, false⟩,
  ⟨0xa505c, 0x0, 0x0, 0x0, 0xffffffff, false, false⟩,
  ⟨0xa5060, 0x0, 0x0, 0x0, 0xffffffff, false, false⟩]

/-- Rows of the register map, window 0x0a. -/
def regRows_0a_6_0 : List RegRow := [
  ⟨0xa6000, 0x0, 0x0, 0xd, 0x0, false, false⟩,
  ⟨0xa6004, 0x0, 0x0, 0x0, 0x0, false, false⟩,
  ⟨0xa6008, 0x0, 0x0, 0x0, 0x1ff, false, false⟩,
  ⟨0xa600c, 0x0, 0x1ff, 0x0, 0x0, false, false⟩,
  ⟨0xa6010, 0xa04, 0x1ff07, 0x0, 0x0, true, false⟩,
  ⟨0xa6014, 0x0, 0x0, 0x0, 0xffffffff, false, false⟩,
  ⟨0xa6020, 0x0, 0x0, 0x0, 0xffffffff, false, false⟩,
  ⟨0xa6024, 0x0, 0x0, 0x0, 0xffffffff, false, false⟩,
  ⟨0xa6028, 0x0, 0x0, 0x0, 0xffffffff, false, false⟩,
  ⟨0xa602c, 0x0, 0x0, 0x0, 0xffffffff, false, false⟩,
  ⟨0xa6030, 0x0, 0x0, 0x0, 0xffffffff, false, false⟩,
  ⟨0xa6034, 0x0, 0x0, 0x0, 0xffffffff, false, false⟩,
  ⟨0xa6038, 0x0, 0x0, 0x0, 0xffffffff, false, false⟩,
  ⟨0xa603c, 0x0, 0x0, 0x0, 0xffffffff, false, false⟩,
  ⟨0xa6040, 0x0, 0x0, 0x0, 0xffffffff, false, false⟩,
  ⟨0xa6044, 0x0, 0x0, 0x0, 0xffffffff, false, false⟩,
  ⟨0xa6048, 0x0, 0x0, 0x0, 0xffffffff, false, false⟩,
  ⟨0xa604c, 0x0, 0x0, 0x0, 0xffffffff, false, false⟩,
  ⟨0xa6050, 0x0, 0x0, 0x0, 0xffffffff, false, false⟩,
  ⟨0xa6054, 0x0, 0x0, 0x0, 0xffffffff, false, false⟩,
  ⟨0xa6058, 0x0, 0x0, 0x0, 0xffffffff, false, false⟩,
  ⟨0xa605c, 0x0, 0x0, 0x0, 0xffffffff, false, false⟩,
  ⟨0xa6060, 0x0, 0x0, 0x0, 0xffffffff, false, false⟩]

/-- Rows of the register map, window 0x0a. -/
def regRows_0a_7_0 : List RegRow := [
  ⟨0xa7000, 0x0, 0x0, 0xd, 0x0, false, false⟩,
  ⟨0xa7004, 0x0, 0x0, 0x0, 0x0, false, false⟩,
  ⟨0xa7008, 0x0, 0x0, 0x0, 0x1ff, false, false⟩,
  ⟨0xa700c, 0x0, 0x1ff, 0x0, 0x0, false, false⟩,
  ⟨0xa7010, 0xa04, 0x1ff07, 0x0, 0x0, true, false⟩,
  ⟨0xa7014, 0x0, 0x0, 0x0, 0xffffffff, false, false⟩,
  ⟨0xa7020, 0x0, 0x0, 0x0, 0xffffffff, false, false⟩,
  ⟨0xa7024, 0x0, 0x0, 0x0, 0xffffffff, false, false⟩,
  ⟨0xa7028, 0x0, 0x0, 0x0, 0xffffffff, false, false⟩,
  ⟨0xa702c, 0x0, 0x0, 0x0, 0xffffffff, false, false⟩,
  ⟨0xa7030, 0x0, 0x0, 0x0, 0xffffffff, false, false⟩,
  ⟨0xa7034, 0x0, 0x0, 0x0, 0xffffffff, false, false⟩,
  ⟨0xa7038, 0x0, 0x0, 0x0, 0xffffffff, false, false⟩,
  ⟨0xa703c, 0x0, 0x0, 0x0, 0xffffffff, false, false⟩,
  ⟨0xa7040, 0x0, 0x0, 0x0, 0xffffffff, false, false⟩,
  ⟨0xa7044, 0x0, 0x0, 0x0, 0xffffffff, false, false⟩,
  ⟨0xa7048, 0x0, 0x0, 0x0, 0xffffffff, false, false⟩,
  ⟨0xa704c, 0x0, 0x0, 0x0, 0xffffffff, false, false⟩,
  ⟨0xa7050, 0x0, 0x0, 0x0, 0xffffffff, false, false⟩,
  ⟨0xa7054, 0x0, 0x0, 0x0, 0xffffffff, false, false⟩,
  ⟨0xa7058, 0x0, 0x0, 0x0, 0xffffffff, false, false⟩,
  ⟨0xa705c, 0x0, 0x0, 0x0, 0xffffffff, false, false⟩,
  ⟨0xa7060, 0x0, 0x0, 0x0, 0xffffffff, false, false⟩]

/-- Rows of the register map, window 0x0a. -/
def regRows_0a_8_0 : List RegRow := [
  ⟨0xa8000, 0x4d410001, 0x0, 0x0, 0x0, false, false⟩,
  ⟨0xa8008, 0x0, 0x0, 0x0, 0x0, false, false⟩,
  ⟨0xa800c, 0x0, 0xffffffff, 0x0, 0x0, false, true⟩,
  ⟨0xa8040, 0x0, 0xffffffff, 0x0, 0x0, false, false⟩,
  ⟨0xa8044, 0x10, 0xffffffff, 0x0, 0x0, false, false⟩,
  ⟨0xa8048, 0x0, 0xffffffff, 0x0, 0x0, false, false⟩,
  ⟨0xa804c, 0x0, 0x0, 0x0, 0x0, false, false⟩,
  ⟨0xa8050, 0x0, 0xffffffff, 0x0, 0x0, false, false⟩,
  ⟨0xa8054, 0x10, 0xffffffff, 0x0, 0x0, false, false⟩,
  ⟨0xa8058, 0x0, 0xffffffff, 0x0, 0x0, false, false⟩,
  ⟨0xa805c, 0x0, 0x0, 0x0, 0x0, false, false⟩,
  ⟨0xa8060, 0x0, 0xffffffff, 0x0, 0x0, false, false⟩,
  ⟨0xa8064, 0x10, 0xffffffff, 0x0, 0x0, false, false⟩,
  ⟨0xa8068, 0x0, 0xffffffff, 0x0, 0x0, false, false⟩,
  ⟨0xa806c, 0x0, 0x0, 0x0, 0x0, false, false⟩,
  ⟨0xa8070, 0x0, 0xffffffff, 0x0, 0x0, false, false⟩,
  ⟨0xa8074, 0x10, 0xffffffff, 0x0, 0x0, false, false⟩,
  ⟨0xa8078, 0x0, 0xffffffff, 0x0, 0x0, false, false⟩,
  ⟨0xa807c, 0x0, 0x0, 0x0, 0x0, false, false⟩,
  ⟨0xa8080, 0x0, 0xffffffff, 0x0, 0x0, false, false⟩,
  ⟨0xa8084, 0x10, 0xffffffff, 0x0, 0x0, false, false⟩,
  ⟨0xa8088, 0x0, 0xffffffff, 0x0, 0x0, false, false⟩,
  ⟨0xa808c, 0x0, 0x0, 0x0, 0x0, false, false⟩,
  ⟨0xa8090, 0x0, 0xffffffff, 0x0, 0x0, false, false⟩,
  ⟨0xa8094, 0x10, 0xffffffff, 0x0, 0x0, false, false⟩,
  ⟨0xa8098, 0x0, 0xffffffff, 0x0, 0x0, false, false⟩,
  ⟨0xa809c, 0x0, 0x0, 0x0, 0x0, false, false⟩,
  ⟨0xa80a0, 0x0, 0xffffffff, 0x0, 0x0, false, false⟩,
  ⟨0xa80a4, 0x10, 0xffffffff, 0x0, 0x0, false, false⟩,
  ⟨0xa80a8, 0x0, 0xffffffff, 0x0, 0x0, false, false⟩,
  ⟨0xa80ac, 0x0, 0x0, 0x0, 0x0, false, false⟩,
  ⟨0xa80b0, 0x0, 0xffffffff, 0x0, 0x0, false, false⟩,
  ⟨0xa80b4, 0x10, 0xffffffff, 0x0, 0x0, false, false⟩,
  ⟨0xa80b8, 0x0, 0xffffffff, 0x0, 0x0, false, false⟩,
  ⟨0xa80bc, 0x0, 0x0, 0x0, 0x0, false, false⟩]

/-- Rows of the register map, window 0x0b. -/
def regRows_0b_0_0 : List RegRow := [
  ⟨0xb0000, 0x52450001, 0x0, 0x0, 0x0, false, false⟩,
  ⟨0xb0004, 0x0, 0x0, 0x7, 0x0, false, false⟩,
  ⟨0xb0008, 0x0, 0x0, 0x0, 0x0, false, false⟩,
  ⟨0xb000c, 0x0, 0xffffffff, 0x0, 0x0, false, true⟩,
  ⟨0xb0010, 0x0, 0x0, 0x0, 0x7f, false, false⟩,
  ⟨0xb0014, 0x0, 0x7f, 0x0, 0x0, false, false⟩,
  ⟨0xb0018, 0x0, 0xc000003f, 0x0, 0x0, true, false⟩,
  ⟨0xb001c, 0x0, 0xffffffff, 0x0, 0x0, false, true⟩,
  ⟨0xb0020, 0x0, 0xffffffff, 0x0, 0x0, false, true⟩,
  ⟨0xb0024, 0x0, 0x0, 0x0, 0x0, false, false⟩,
  ⟨0xb0028, 0x0, 0x0, 0x0, 0x0, false, false⟩,
  ⟨0xb002c, 0x0, 0x0, 0x0, 0x0, false, false⟩,
  ⟨0xb0030, 0x0, 0x0, 0x0, 0x0, false, false⟩,
  ⟨0xb0034, 0x0, 0x3f, 0x0, 0x0, false, false⟩,
  ⟨0xb0038, 0x0, 0x0, 0x0, 0x0, false, false⟩,
  ⟨0xb003c, 0x0, 0x0, 0x0, 0x0, false, false⟩,
  ⟨0xb0040, 0x0, 0x0, 0x0, 0xffffffff, false, false⟩,
  ⟨0xb0044, 0x0, 0x0, 0x0, 0xffffffff, false, false⟩,
  ⟨0xb0048, 0x0, 0x0, 0x0, 0xffffffff, false, false⟩,
  ⟨0xb004c, 0x0, 0x0, 0x0, 0xffffffff, false, false⟩,
  ⟨0xb0050, 0x0, 0x0, 0x0, 0x0, false, false⟩]

/-- Rows of the register map, window 0x0c. -/
def regRows_0c_0_0_0 : List RegRow := [
  ⟨0xc0000, 0x444d0001, 0x0, 0x0, 0x0, false, false⟩,
  ⟨0xc0004, 0xf000, 0x0, 0x0, 0x0, false, false⟩,
  ⟨0xc000c, 0x0, 0xffffffff, 0x0, 0x0, false, true⟩,
  ⟨0xc0010, 0x0, 0x0, 0x0, 0x3f, false, false⟩,
  ⟨0xc0014, 0x0, 0x3f, 0x0, 0x0, false, false⟩,
  ⟨0xc0018, 0x0, 0x0, 0x0, 0xffffffff, false, false⟩,
  ⟨0xc0100, 0x11000, 0x0, 0xfffff, 0x0, false, false⟩,
  ⟨0xc0104, 0x0, 0xffffffff, 0x0, 0x0, false, true⟩,
  ⟨0xc0108, 0x0, 0x3, 0x0, 0x0, false, true⟩,
  ⟨0xc010c, 0x0, 0x0, 0x0, 0x0, false, false⟩,
  ⟨0xc0110, 0xffffffff, 0x0, 0x0, 0x0, false, false⟩,
  ⟨0xc0114, 0x0, 0x0, 0x0, 0x0, false, false⟩,
  ⟨0xc0118, 0x0, 0x0, 0x0, 0xffffffff, false, false⟩,
  ⟨0xc011c, 0x0, 0x0, 0x0, 0xffffffff, false, false⟩,
  ⟨0xc0120, 0x11000, 0x0, 0xfffff, 0x0, false, false⟩,
  ⟨0xc0124, 0x0, 0xffffffff, 0x0, 0x0, false, true⟩,
  ⟨0xc0128, 0x0, 0x3, 0x0, 0x0, false, true⟩,
  ⟨0xc012c, 0x0, 0x0, 0x0, 0x0, false, false⟩,
  ⟨0xc0130, 0xffffffff, 0x0, 0x0, 0x0, false, false⟩,
  ⟨0xc0134, 0x0, 0x0, 0x0, 0x0, false, false⟩,
  ⟨0xc0138, 0x0, 0x0, 0x0, 0xffffffff, false, false⟩,
  ⟨0xc013c, 0x0, 0x0, 0x0, 0xffffffff, false, false⟩,
  ⟨0xc0140, 0x11000, 0x0, 0xfffff, 0x0, false, false⟩,
  ⟨0xc0144, 0x0, 0xffffffff, 0x0, 0x0, false, true⟩,
  ⟨0xc0148, 0x0, 0x3, 0x0, 0x0, false, true⟩,
  ⟨0xc014c, 0x0, 0x0, 0x0, 0x0, false, false⟩,
  ⟨0xc0150, 0xffffffff, 0x0, 0x0, 0x0, false, false⟩,
  ⟨0xc0154, 0x0, 0x0, 0x0, 0x0, false, false⟩,
  ⟨0xc0158, 0x0, 0x0, 0x0, 0xffffffff, false, false⟩,
  ⟨0xc015c, 0x0, 0x0, 0x0, 0xffffffff, false, false⟩,
  ⟨0xc0160, 0x11000, 0x0, 0xfffff, 0x0, false, false⟩,
  ⟨0xc0164, 0x0, 0xffffffff, 0x0, 0x0, false, true⟩,
  ⟨0xc0168, 0x0, 0x3, 0x0, 0x0, false, true⟩,
  ⟨0xc016c, 0x0, 0x0, 0x0, 0x0, false, false⟩,
  ⟨0xc0170, 0xffffffff, 0x0, 0x0, 0x0, false, false⟩,
  ⟨0xc0174, 0x0, 0x0, 0x0, 0x0, false, false⟩,
  ⟨0xc0178, 0x0, 0x0, 0x0, 0xffffffff, false, false⟩,
  ⟨0xc017c, 0x0, 0x0, 0x0, 0xffffffff, false, false⟩,
  ⟨0xc0180, 0x11000, 0x0, 0xfffff, 0x0, false, false⟩,
  ⟨0xc0184, 0x0, 0xffffffff, 0x0, 0x0, false, true⟩,
  ⟨0xc0188, 0x0, 0x3, 0x0, 0x0, false, true⟩,
  ⟨0xc018c, 0x0, 0x0, 0x0, 0x0, false, false⟩,
  ⟨0xc0190, 0xffffffff, 0x0, 0x0, 0x0, false, false⟩,
  ⟨0xc0194, 0x0, 0x0, 0x0, 0x0, false, false⟩,
  ⟨0xc0198, 0x0, 0x0, 0x0, 0xffffffff, false, false⟩,
  ⟨0xc019c, 0x0, 0x0, 0x0, 0xffffffff, false, false⟩,
  ⟨0xc01a0, 0x11000, 0x0, 0xfffff, 0x0, false, false⟩,
  ⟨0xc01a4, 0x0, 0xffffffff, 0x0, 0x0, false, true⟩,
  ⟨0xc01a8, 0x0, 0x3, 0x0, 0x0, false, true⟩,
  ⟨0xc01ac, 0x0, 0x0, 0x0, 0x0, false, false⟩,
  ⟨0xc01b0, 0xffffffff, 0x0, 0x0, 0x0, false, false⟩,
  ⟨0xc01b4, 0x0, 0x0, 0x0, 0x0, false, false⟩,
  ⟨0xc01b8, 0x0, 0x0, 0x0, 0xffffffff, false, false⟩,
  ⟨0xc01bc, 0x0, 0x0, 0x0, 0xffffffff, false, false⟩,
  ⟨0xc01c0, 0x11000, 0x0, 0xfffff, 0x0, false, false⟩,
  ⟨0xc01c4, 0x0, 0xffffffff, 0x0, 0x0, false, true⟩,
  ⟨0xc01c8, 0x0, 0x3, 0x0, 0x0, false, true⟩,
  ⟨0xc01cc, 0x0, 0x0, 0x0, 0x0, false, false⟩,
  ⟨0xc01d0, 0xffffffff, 0x0, 0x0, 0x0, false, false⟩,
  ⟨0xc01d4, 0x0, 0x0, 0x0, 0x0, false, false⟩]

/-- Rows of the register map, window 0x0c. -/
def regRows_0c_0_0_1 : List RegRow := [
  ⟨0xc01d8, 0x0, 0x0, 0x0, 0xffffffff, false, false⟩,
  ⟨0xc01dc, 0x0, 0x0, 0x0, 0xffffffff, false, false⟩,
  ⟨0xc01e0, 0x11000, 0x0, 0xfffff, 0x0, false, false⟩,
  ⟨0xc01e4, 0x0, 0xffffffff, 0x0, 0x0, false, true⟩,
  ⟨0xc01e8, 0x0, 0x3, 0x0, 0x0, false, true⟩,
  ⟨0xc01ec, 0x0, 0x0, 0x0, 0x0, false, false⟩,
  ⟨0xc01f0, 0xffffffff, 0x0, 0x0, 0x0, false, false⟩,
  ⟨0xc01f4, 0x0, 0x0, 0x0, 0x0, false, false⟩,
  ⟨0xc01f8, 0x0, 0x0, 0x0, 0xffffffff, false, false⟩,
  ⟨0xc01fc, 0x0, 0x0, 0x0, 0xffffffff, false, false⟩,
  ⟨0xc0200, 0x11000, 0x0, 0xfffff, 0x0, false, false⟩,
  ⟨0xc0204, 0x0, 0xffffffff, 0x0, 0x0, false, true⟩,
  ⟨0xc0208, 0x0, 0x3, 0x0, 0x0, false, true⟩,
  ⟨0xc020c, 0x0, 0x0, 0x0, 0x0, false, false⟩,
  ⟨0xc0210, 0xffffffff, 0x0, 0x0, 0x0, false, false⟩,
  ⟨0xc0214, 0x0, 0x0, 0x0, 0x0, false, false⟩,
  ⟨0xc0218, 0x0, 0x0, 0x0, 0xffffffff, false, false⟩,
  ⟨0xc021c, 0x0, 0x0, 0x0, 0xffffffff, false, false⟩,
  ⟨0xc0220, 0x11000, 0x0, 0xfffff, 0x0, false, false⟩,
  ⟨0xc0224, 0x0, 0xffffffff, 0x0, 0x0, false, true⟩,
  ⟨0xc0228, 0x0, 0x3, 0x0, 0x0, false, true⟩,
  ⟨0xc022c, 0x0, 0x0, 0x0, 0x0, false, false⟩,
  ⟨0xc0230, 0xffffffff, 0x0, 0x0, 0x0, false, false⟩,
  ⟨0xc0234, 0x0, 0x0, 0x0, 0x0, false, false⟩,
  ⟨0xc0238, 0x0, 0x0, 0x0, 0xffffffff, false, false⟩,
  ⟨0xc023c, 0x0, 0x0, 0x0, 0xffffffff, false, false⟩,
  ⟨0xc0240, 0x11000, 0x0, 0xfffff, 0x0, false, false⟩,
  ⟨0xc0244, 0x0, 0xffffffff, 0x0, 0x0, false, true⟩,
  ⟨0xc0248, 0x0, 0x3, 0x0, 0x0, false, true⟩,
  ⟨0xc024c, 0x0, 0x0, 0x0, 0x0, false, false⟩,
  ⟨0xc0250, 0xffffffff, 0x0, 0x0, 0x0, false, false⟩,
  ⟨0xc0254, 0x0, 0x0, 0x0, 0x0, false, false⟩,
  ⟨0xc0258, 0x0, 0x0, 0x0, 0xffffffff, false, false⟩,
  ⟨0xc025c, 0x0, 0x0, 0x0, 0xffffffff, false, false⟩,
  ⟨0xc0260, 0x11000, 0x0, 0xfffff, 0x0, false, false⟩,
  ⟨0xc0264, 0x0, 0xffffffff, 0x0, 0x0, false, true⟩,
  ⟨0xc0268, 0x0, 0x3, 0x0, 0x0, false, true⟩,
  ⟨0xc026c, 0x0, 0x0, 0x0, 0x0, false, false⟩,
  ⟨0xc0270, 0xffffffff, 0x0, 0x0, 0x0, false, false⟩,
  ⟨0xc0274, 0x0, 0x0, 0x0, 0x0, false, false⟩,
  ⟨0xc0278, 0x0, 0x0, 0x0, 0xffffffff, false, false⟩,
  ⟨0xc027c, 0x0, 0x0, 0x0, 0xffffffff, false, false⟩,
  ⟨0xc0280, 0x11000, 0x0, 0xfffff, 0x0, false, false⟩,
  ⟨0xc0284, 0x0, 0xffffffff, 0x0, 0x0, false, true⟩,
  ⟨0xc0288, 0x0, 0x3, 0x0, 0x0, false, true⟩,
  ⟨0xc028c, 0x0, 0x0, 0x0, 0x0, false, false⟩,
  ⟨0xc0290, 0xffffffff, 0x0, 0x0, 0x0, false, false⟩,
  ⟨0xc0294, 0x0, 0x0, 0x0, 0x0, false, false⟩,
  ⟨0xc0298, 0x0, 0x0, 0x0, 0xffffffff, false, false⟩,
  ⟨0xc029c, 0x0, 0x0, 0x0, 0xffffffff, false, false⟩,
  ⟨0xc02a0, 0x11000, 0x0, 0xfffff, 0x0, false, false⟩,
  ⟨0xc02a4, 0x0, 0xffffffff, 0x0, 0x0, false, true⟩,
  ⟨0xc02a8, 0x0, 0x3, 0x0, 0x0, false, true⟩,
  ⟨0xc02ac, 0x0, 0x0, 0x0, 0x0, false, false⟩,
  ⟨0xc02b0, 0xffffffff, 0x0, 0x0, 0x0, false, false⟩,
  ⟨0xc02b4, 0x0, 0x0, 0x0, 0x0, false, false⟩,
  ⟨0xc02b8, 0x0, 0x0, 0x0, 0xffffffff, false, false⟩,
  ⟨0xc02bc, 0x0, 0x0, 0x0, 0xffffffff, false, false⟩,
  ⟨0xc02c0, 0x11000, 0x0, 0xfffff, 0x0, false, false⟩,
  ⟨0xc02c4, 0x0, 0xffffffff, 0x0, 0x0, false, true⟩]

/-- Rows of the register map, window 0x0c. -/
def regRows_0c_0_0_2 : List RegRow := [
  ⟨0xc02c8, 0x0, 0x3, 0x0, 0x0, false, true⟩,
  ⟨0xc02cc, 0x0, 0x0, 0x0, 0x0, false, false⟩,
  ⟨0xc02d0, 0xffffffff, 0x0, 0x0, 0x0, false, false⟩,
  ⟨0xc02d4, 0x0, 0x0, 0x0, 0x0, false, false⟩,
  ⟨0xc02d8, 0x0, 0x0, 0x0, 0xffffffff, false, false⟩,
  ⟨0xc02dc, 0x0, 0x0, 0x0, 0xffffffff, false, false⟩,
  ⟨0xc02e0, 0x11000, 0x0, 0xfffff, 0x0, false, false⟩,
  ⟨0xc02e4, 0x0, 0xffffffff, 0x0, 0x0, false, true⟩,
  ⟨0xc02e8, 0x0, 0x3, 0x0, 0x0, false, true⟩,
  ⟨0xc02ec, 0x0, 0x0, 0x0, 0x0, false, false⟩,
  ⟨0xc02f0, 0xffffffff, 0x0, 0x0, 0x0, false, false⟩,
  ⟨0xc02f4, 0x0, 0x0, 0x0, 0x0, false, false⟩,
  ⟨0xc02f8, 0x0, 0x0, 0x0, 0xffffffff, false, false⟩,
  ⟨0xc02fc, 0x0, 0x0, 0x0, 0xffffffff, false, false⟩]

/-- Rows of the register map, window 0x0c. -/
def regRows_0c_0_0 : List RegRow := regRows_0c_0_0_0 ++ regRows_0c_0_0_1 ++ regRows_0c_0_0_2

/-- Rows of the register map, window 0x0d. -/
def regRows_0d_0_0 : List RegRow := [
  ⟨0xd0000, 0x434d0001, 0x0, 0x0, 0x0, false, false⟩,
  ⟨0xd0004, 0xc, 0x0, 0x0, 0x0, false, false⟩,
  ⟨0xd000c, 0x0, 0xffffffff, 0x0, 0x0, false, true⟩,
  ⟨0xd0010, 0x0, 0x0, 0x0, 0x1f, false, false⟩,
  ⟨0xd0014, 0x0, 0x1f, 0x0, 0x0, false, false⟩,
  ⟨0xd0018, 0x0, 0x0, 0x0, 0xffffffff, false, false⟩,
  ⟨0xd0100, 0x0, 0xffffffff, 0x0, 0x0, false, false⟩,
  ⟨0xd0104, 0x10, 0xffffffff, 0x0, 0x0, false, false⟩,
  ⟨0xd0108, 0x0, 0xffffffff, 0x0, 0x0, false, false⟩,
  ⟨0xd010c, 0x0, 0x0, 0x0, 0x0, false, false⟩,
  ⟨0xd0110, 0x0, 0x0, 0x0, 0x0, false, false⟩,
  ⟨0xd0114, 0x0, 0x0, 0x0, 0xffffffff, false, false⟩,
  ⟨0xd0118, 0x0, 0x0, 0x0, 0xffffffff, false, false⟩,
  ⟨0xd011c, 0x0, 0x0, 0x0, 0xffffffff, false, false⟩,
  ⟨0xd0120, 0x0, 0x0, 0x0, 0xffffffff, false, false⟩,
  ⟨0xd0140, 0x0, 0xffffffff, 0x0, 0x0, false, false⟩,
  ⟨0xd0144, 0x10, 0xffffffff, 0x0, 0x0, false, false⟩,
  ⟨0xd0148, 0x0, 0xffffffff, 0x0, 0x0, false, false⟩,
  ⟨0xd014c, 0x0, 0x0, 0x0, 0x0, false, false⟩,
  ⟨0xd0150, 0x0, 0x0, 0x0, 0x0, false, false⟩,
  ⟨0xd0154, 0x0, 0x0, 0x0, 0xffffffff, false, false⟩,
  ⟨0xd0158, 0x0, 0x0, 0x0, 0xffffffff, false, false⟩,
  ⟨0xd015c, 0x0, 0x0, 0x0, 0xffffffff, false, false⟩,
  ⟨0xd0160, 0x0, 0x0, 0x0, 0xffffffff, false, false⟩,
  ⟨0xd0180, 0x0, 0xffffffff, 0x0, 0x0, false, false⟩,
  ⟨0xd0184, 0x10, 0xffffffff, 0x0, 0x0, false, false⟩,
  ⟨0xd0188, 0x0, 0xffffffff, 0x0, 0x0, false, false⟩,
  ⟨0xd018c, 0x0, 0x0, 0x0, 0x0, false, false⟩,
  ⟨0xd0190, 0x0, 0x0, 0x0, 0x0, false, false⟩,
  ⟨0xd0194, 0x0, 0x0, 0x0, 0xffffffff, false, false⟩,
  ⟨0xd0198, 0x0, 0x0, 0x0, 0xffffffff, false, false⟩,
  ⟨0xd019c, 0x0, 0x0, 0x0, 0xffffffff, false, false⟩,
  ⟨0xd01a0, 0x0, 0x0, 0x0, 0xffffffff, false, false⟩,
  ⟨0xd01c0, 0x0, 0xffffffff, 0x0, 0x0, false, false⟩,
  ⟨0xd01c4, 0x10, 0xffffffff, 0x0, 0x0, false, false⟩,
  ⟨0xd01c8, 0x0, 0xffffffff, 0x0, 0x0, false, false⟩,
  ⟨0xd01cc, 0x0, 0x0, 0x0, 0x0, false, false⟩,
  ⟨0xd01d0, 0x0, 0x0, 0x0, 0x0, false, false⟩,
  ⟨0xd01d4, 0x0, 0x0, 0x0, 0xffffffff, false, false⟩,
  ⟨0xd01d8, 0x0, 0x0, 0x0, 0xffffffff, false, false⟩,
  ⟨0xd01dc, 0x0, 0x0, 0x0, 0xffffffff, false, false⟩,
  ⟨0xd01e0, 0x0, 0x0, 0x0, 0xffffffff, false, false⟩]

/-- Rows of the register map, window 0x0e. -/
def regRows_0e_0_0 : List RegRow := [
  ⟨0xe0000, 0x4d540001, 0x0, 0x0, 0x0, false, false⟩,
  ⟨0xe0004, 0x0, 0x0, 0x1ff, 0x0, false, false⟩,
  ⟨0xe0008, 0x0, 0x0, 0x0, 0x0, false, false⟩,
  ⟨0xe000c, 0x0, 0xffffffff, 0x0, 0x0, false, true⟩,
  ⟨0xe0010, 0x0, 0x0, 0x0, 0x7ff, false, false⟩,
  ⟨0xe0014, 0x0, 0x7ff, 0x0, 0x0, false, false⟩,
  ⟨0xe0018, 0xa, 0x0, 0x3ff, 0x0, false, false⟩,
  ⟨0xe001c, 0x0, 0xf00000ff, 0x0, 0x0, true, false⟩,
  ⟨0xe0020, 0x0, 0xffffffff, 0x0, 0x0, false, true⟩,
  ⟨0xe0024, 0x0, 0x0, 0x0, 0x0, false, false⟩,
  ⟨0xe0028, 0x0, 0x0, 0x0, 0x0, false, false⟩,
  ⟨0xe002c, 0x0, 0x0, 0x0, 0xffffffff, false, false⟩,
  ⟨0xe0030, 0x0, 0x0, 0x0, 0x0, false, false⟩,
  ⟨0xe0034, 0x0, 0x0, 0x0, 0x0, false, false⟩,
  ⟨0xe0038, 0x0, 0xffffffff, 0x0, 0x0, true, false⟩,
  ⟨0xe003c, 0x0, 0x0, 0x0, 0xffffffff, false, false⟩,
  ⟨0xe0040, 0x0, 0xff, 0x0, 0x0, false, false⟩,
  ⟨0xe0044, 0x0, 0x0, 0x0, 0x0, false, false⟩,
  ⟨0xe0048, 0x0, 0x0, 0x0, 0x0, false, false⟩,
  ⟨0xe004c, 0x0, 0xff, 0x0, 0x0, false, false⟩,
  ⟨0xe0050, 0x0, 0x0, 0x0, 0x0, false, false⟩,
  ⟨0xe0054, 0x0, 0x0, 0x0, 0xffffffff, false, false⟩,
  ⟨0xe0058, 0x0, 0x0, 0x0, 0xffffffff, false, false⟩,
  ⟨0xe005c, 0x0, 0x0, 0x0, 0xffffffff, false, false⟩,
  ⟨0xe0060, 0x0, 0xffff, 0x0, 0x0, false, false⟩,
  ⟨0xe0064, 0x0, 0x0, 0x0, 0x0, false, false⟩,
  ⟨0xe0068, 0x0, 0x0, 0x0, 0x0, false, false⟩,
  ⟨0xe006c, 0x0, 0x0, 0x0, 0x0, false, false⟩,
  ⟨0xe0070, 0x0, 0x0, 0x0, 0x0, false, false⟩,
  ⟨0xe0074, 0x0, 0x0, 0x0, 0x0, false, false⟩]

/-- Rows of the register map, window 0x0f. -/
def regRows_0f_0_0 : List RegRow := [
  ⟨0xf0000, 0x45560001, 0x0, 0x0, 0x0, false, false⟩,
  ⟨0xf0004, 0x0, 0x0, 0xff, 0x0, false, false⟩,
  ⟨0xf0008, 0x0, 0x0, 0x0, 0x0, false, false⟩,
  ⟨0xf000c, 0x0, 0xffffffff, 0x0, 0x0, false, true⟩,
  ⟨0xf0010, 0x0, 0x0, 0x0, 0x1f, false, false⟩,
  ⟨0xf0014, 0x0, 0x1f, 0x0, 0x0, false, false⟩,
  ⟨0xf0018, 0x0, 0xffffffff, 0x0, 0x0, false, false⟩,
  ⟨0xf001c, 0x0, 0xffffffff, 0x0, 0x0, false, false⟩,
  ⟨0xf0020, 0x0, 0xffffffff, 0x0, 0x0, false, true⟩,
  ⟨0xf0024, 0x0, 0x0, 0x0, 0x0, false, false⟩,
  ⟨0xf0028, 0x0, 0x0, 0x0, 0xffffffff, false, false⟩,
  ⟨0xf0030, 0x0, 0xff, 0x0, 0x0, false, false⟩,
  ⟨0xf0034, 0x0, 0x0, 0x0, 0x0, false, false⟩,
  ⟨0xf0038, 0x0, 0x0, 0x0, 0x0, false, false⟩,
  ⟨0xf003c, 0x0, 0x0, 0x0, 0x0, false, false⟩,
  ⟨0xf0040, 0x0, 0x0, 0x0, 0x0, false, false⟩,
  ⟨0xf0044, 0x0, 0x0, 0x0, 0x0, false, false⟩,
  ⟨0xf0080, 0x0, 0x0, 0x0, 0x0, false, false⟩,
  ⟨0xf0084, 0x0, 0x0, 0x0, 0x0, false, false⟩,
  ⟨0xf0088, 0x0, 0x0, 0x0, 0x0, false, false⟩,
  ⟨0xf008c, 0x0, 0x0, 0x0, 0x0, false, false⟩,
  ⟨0xf0090, 0x0, 0x0, 0x0, 0x0, false, false⟩,
  ⟨0xf0094, 0x0, 0x0, 0x0, 0x0, false, false⟩,
  ⟨0xf0098, 0x0, 0x0, 0x0, 0x0, false, false⟩,
  ⟨0xf009c, 0x0, 0x0, 0x0, 0x0, false, false⟩,
  ⟨0xf00a0, 0x0, 0x0, 0x0, 0x0, false, false⟩,
  ⟨0xf00a4, 0x0, 0x0, 0x0, 0x0, false, false⟩,
  ⟨0xf00a8, 0x0, 0x0, 0x0, 0x0, false, false⟩,
  ⟨0xf00ac, 0x0, 0x0, 0x0, 0x0, false, false⟩,
  ⟨0xf00b0, 0x0, 0x0, 0x0, 0x0, false, false⟩,
  ⟨0xf00b4, 0x0, 0x0, 0x0, 0x0, false, false⟩,
  ⟨0xf00b8, 0x0, 0x0, 0x0, 0x0, false, false⟩,
  ⟨0xf00bc, 0x0, 0x0, 0x0, 0x0, false, false⟩]

/-- Rows of the register map, window 0x10. -/
def regRows_10_0_0 : List RegRow := [
  ⟨0x100000, 0x4b450001, 0x0, 0x0, 0x0, false, false⟩,
  ⟨0x100004, 0x3c, 0x0, 0xfff, 0x0, false, false⟩,
  ⟨0x100008, 0x0, 0x0, 0x0, 0x0, false, false⟩,
  ⟨0x10000c, 0x0, 0xffffffff, 0x0, 0x0, false, true⟩,
  ⟨0x100010, 0x0, 0x0, 0x0, 0x7f, false, false⟩,
  ⟨0x100014, 0x0, 0x7f, 0x0, 0x0, false, false⟩,
  ⟨0x100018, 0x0, 0x800000ff, 0x0, 0x0, true, false⟩,
  ⟨0x10001c, 0x0, 0xff, 0x0, 0x0, false, false⟩,
  ⟨0x100020, 0x0, 0x0, 0x0, 0x0, false, false⟩,
  ⟨0x100024, 0x0, 0x0, 0x0, 0x0, false, false⟩,
  ⟨0x100028, 0x0, 0x0, 0x0, 0x0, false, false⟩,
  ⟨0x10002c, 0x0, 0x0, 0x0, 0x0, false, false⟩,
  ⟨0x100030, 0x0, 0x0, 0x0, 0x0, false, false⟩]

/-- Rows of the register map, window 0x11. -/
def regRows_11_0_0 : List RegRow := [
  ⟨0x110000, 0x484c0001, 0x0, 0x0, 0x0, false, false⟩,
  ⟨0x110004, 0x3, 0x0, 0xf0f, 0x0, false, false⟩,
  ⟨0x110008, 0x0, 0x0, 0x0, 0x0, false, false⟩,
  ⟨0x11000c, 0x0, 0xffffffff, 0x0, 0x0, false, true⟩,
  ⟨0x110010, 0x0, 0x0, 0x0, 0x3ff, false, false⟩,
  ⟨0x110014, 0x0, 0x3ff, 0x0, 0x0, false, false⟩,
  ⟨0x110018, 0x0, 0x0, 0x0, 0x0, false, false⟩,
  ⟨0x11001c, 0x3c, 0x0, 0xfff, 0x0, false, false⟩,
  ⟨0x110020, 0x0, 0x703, 0x0, 0x0, true, false⟩,
  ⟨0x110024, 0x0, 0x0, 0x0, 0x0, false, false⟩,
  ⟨0x110028, 0x0, 0x0, 0x0, 0xffffffff, false, false⟩,
  ⟨0x11002c, 0xffffffff, 0x0, 0x0, 0x0, false, false⟩,
  ⟨0x110030, 0x0, 0x0, 0x0, 0x0, false, false⟩,
  ⟨0x110034, 0x0, 0x0, 0x0, 0x0, false, false⟩,
  ⟨0x110040, 0xe640000, 0x0, 0x0, 0x0, false, false⟩,
  ⟨0x110044, 0xe640000, 0x0, 0x0, 0x0, false, false⟩,
  ⟨0x110048, 0xe640000, 0x0, 0x0, 0x0, false, false⟩,
  ⟨0x11004c, 0xe640000, 0x0, 0x0, 0x0, false, false⟩,
  ⟨0x110050, 0xe640000, 0x0, 0x0, 0x0, false, false⟩,
  ⟨0x110054, 0xe640000, 0x0, 0x0, 0x0, false, false⟩,
  ⟨0x110058, 0xe640000, 0x0, 0x0, 0x0, false, false⟩,
  ⟨0x11005c, 0xe640000, 0x0, 0x0, 0x0, false, false⟩,
  ⟨0x110060, 0xe640000, 0x0, 0x0, 0x0, false, false⟩,
  ⟨0x110064, 0xe640000, 0x0, 0x0, 0x0, false, false⟩,
  ⟨0x110068, 0xe640000, 0x0, 0x0, 0x0, false, false⟩,
  ⟨0x11006c, 0xe640000, 0x0, 0x0, 0x0, false, false⟩,
  ⟨0x110070, 0xe640000, 0x0, 0x0, 0x0, false, false⟩,
  ⟨0x110074, 0xe640000, 0x0, 0x0, 0x0, false, false⟩,
  ⟨0x110078, 0xe640000, 0x0, 0x0, 0x0, false, false⟩,
  ⟨0x11007c, 0xe640000, 0x0, 0x0, 0x0, false, false⟩,
  ⟨0x110080, 0xe000000, 0x0, 0x0, 0x0, false, false⟩,
  ⟨0x110084, 0xe000000, 0x0, 0x0, 0x0, false, false⟩,
  ⟨0x110088, 0xe000000, 0x0, 0x0, 0x0, false, false⟩,
  ⟨0x11008c, 0xe000000, 0x0, 0x0, 0x0, false, false⟩,
  ⟨0x110090, 0xe000000, 0x0, 0x0, 0x0, false, false⟩,
  ⟨0x110094, 0xe000000, 0x0, 0x0, 0x0, false, false⟩,
  ⟨0x110098, 0xe000000, 0x0, 0x0, 0x0, false, false⟩,
  ⟨0x11009c, 0xe000000, 0x0, 0x0, 0x0, false, false⟩,
  ⟨0x1100a0, 0xe000000, 0x0, 0x0, 0x0, false, false⟩,
  ⟨0x1100a4, 0xe000000, 0x0, 0x0, 0x0, false, false⟩]

/-- The rows of a window by its index (R521). -/
def windowRows (b : Nat) : List RegRow :=
  match b with
  | 0x00 => regRows_00_0_0
  | 0x01 => regRows_01_0_0
  | 0x02 => regRows_02_0_0
  | 0x03 => regRows_03_0_0
  | 0x04 => regRows_04_0_0
  | 0x05 => regRows_05_0_0
  | 0x06 => regRows_06_0_0
  | 0x07 => regRows_07_0_0
  | 0x08 => regRows_08_0_0
  | 0x09 => regRows_09_0_0
  | 0x0a => regRows_0a_0_0 ++ regRows_0a_1_0 ++ regRows_0a_2_0 ++ regRows_0a_3_0 ++ regRows_0a_4_0 ++ regRows_0a_5_0 ++ regRows_0a_6_0 ++ regRows_0a_7_0 ++ regRows_0a_8_0
  | 0x0b => regRows_0b_0_0
  | 0x0c => regRows_0c_0_0
  | 0x0d => regRows_0d_0_0
  | 0x0e => regRows_0e_0_0
  | 0x0f => regRows_0f_0_0
  | 0x10 => regRows_10_0_0
  | 0x11 => regRows_11_0_0
  | _ => []

/-- The whole register map. -/
def regTable : List RegRow := (List.range 0x12).flatMap windowRows

namespace Reg

abbrev HOST_ID : Nat := 0x0
abbrev HOST_PCIID : Nat := 0x4
abbrev HOST_PRODUCT : Nat := 0x8
abbrev HOST_KEYGATE : Nat := 0xc
abbrev HOST_FAULT : Nat := 0x10
abbrev HOST_INT_EN : Nat := 0x14
abbrev HOST_CTRL : Nat := 0x18
abbrev HOST_COMPAT : Nat := 0x1c
abbrev HOST_ACCERR : Nat := 0x20
abbrev HOST_ACCADDR : Nat := 0x24
abbrev HOST_STROBE : Nat := 0x28
abbrev HOST_STROBE_STAT : Nat := 0x2c
abbrev HOST_SGRP (n : Nat) : Nat := 0x30 + 0x4 * n
abbrev HOST_SCRATCH : Nat := 0x3c
abbrev HOST_MBOX_SEL : Nat := 0x40
abbrev HOST_MBOX_STAT : Nat := 0x44
abbrev HOST_MBOX_DATA (n : Nat) : Nat := 0x48 + 0x4 * n
abbrev HOST_INT_SUM : Nat := 0x58
abbrev HOST_RING_INT : Nat := 0x5c
abbrev HOST_CNT_ACCERR : Nat := 0x60
abbrev KPR_ID : Nat := 0x10000
abbrev KPR_STAT : Nat := 0x10008
abbrev KPR_KEYGATE : Nat := 0x1000c
abbrev KPR_FAULT : Nat := 0x10010
abbrev KPR_INT_EN : Nat := 0x10014
abbrev KPR_DOORBELL : Nat := 0x10018
abbrev KPR_RSP_INFO : Nat := 0x1001c
abbrev KPR_RSP_TAG : Nat := 0x10020
abbrev KPR_LOAD : Nat := 0x10024
abbrev KPR_CNT_CMD : Nat := 0x10028
abbrev KPR_CNT_SHED : Nat := 0x1002c
abbrev TD_ID : Nat := 0x20000
abbrev TD_CTRL : Nat := 0x20004
abbrev TD_STEAL_AGE : Nat := 0x20008
abbrev TD_KEYGATE : Nat := 0x2000c
abbrev TD_FAULT : Nat := 0x20010
abbrev TD_RETRY_CNT : Nat := 0x20014
abbrev TD_QUAR_CNT : Nat := 0x20018
abbrev TD_INT_EN : Nat := 0x2001c
abbrev TD_RSV_SLOTS : Nat := 0x20020
abbrev TD_RSV_INFLIGHT : Nat := 0x20024
abbrev TD_RSV_RATE : Nat := 0x20028
abbrev TD_DL_PLAN : Nat := 0x20030
abbrev TD_DL_SIZE (n : Nat) : Nat := 0x20034 + 0x4 * n
abbrev PE_ID : Nat := 0x30000
abbrev PE_CAT : Nat := 0x30004
abbrev PE_SGRP_STAT : Nat := 0x30008
abbrev PE_KEYGATE : Nat := 0x3000c
abbrev PE_FAULT : Nat := 0x30010
abbrev PE_INT_EN : Nat := 0x30014
abbrev PE_SGRP_REQ : Nat := 0x30018
abbrev PE_OVERRUN_CNT : Nat := 0x3001c
abbrev PE_CL_CLK (n : Nat) : Nat := 0x30020 + 0x4 * n
abbrev PE_CL_ECC (n : Nat) : Nat := 0x30060 + 0x4 * n
abbrev PE_CL_MODE (n : Nat) : Nat := 0x300a0 + 0x4 * n
abbrev PE_PARAM_USE (n : Nat) : Nat := 0x300e0 + 0x4 * n
abbrev SV_ID : Nat := 0x40000
abbrev SV_CTRL : Nat := 0x40004
abbrev SV_SUBS : Nat := 0x40008
abbrev SV_KEYGATE : Nat := 0x4000c
abbrev SV_FAULT : Nat := 0x40010
abbrev SV_INT_EN : Nat := 0x40014
abbrev SV_BLOCK : Nat := 0x40018
abbrev SV_SEL : Nat := 0x4001c
abbrev SV_STAT : Nat := 0x40020
abbrev SV_LAST : Nat := 0x40024
abbrev SV_CNT_RX : Nat := 0x40028
abbrev SV_CNT_DUP : Nat := 0x4002c
abbrev SV_CNT_OOO : Nat := 0x40030
abbrev SV_CNT_MISS : Nat := 0x40034
abbrev SV_CNT_LATE : Nat := 0x40038
abbrev SV_CNT_BAD : Nat := 0x4003c
abbrev SV_CNT_SLIP : Nat := 0x40040
abbrev SV_CNT_SIM : Nat := 0x40044
abbrev FLT_ID : Nat := 0x50000
abbrev FLT_PAL_CMD : Nat := 0x50004
abbrev FLT_LOAD : Nat := 0x50008
abbrev FLT_KEYGATE : Nat := 0x5000c
abbrev FLT_FAULT : Nat := 0x50010
abbrev FLT_INT_EN : Nat := 0x50014
abbrev FLT_QUEUE : Nat := 0x50018
abbrev FLT_GRP_SEL : Nat := 0x5001c
abbrev FLT_GRP_STAT : Nat := 0x50020
abbrev FLT_GRP_DFINE : Nat := 0x50024
abbrev FLT_GRP_DFAST : Nat := 0x50028
abbrev FLT_ECC : Nat := 0x5002c
abbrev BSN_ID : Nat := 0x60000
abbrev BSN_CTRL : Nat := 0x60004
abbrev BSN_CFG : Nat := 0x60008
abbrev BSN_KEYGATE : Nat := 0x6000c
abbrev BSN_FAULT : Nat := 0x60010
abbrev BSN_INT_EN : Nat := 0x60014
abbrev BSN_IN_BLOCK : Nat := 0x60018
abbrev BSN_IN_SEL : Nat := 0x6001c
abbrev BSN_IN_STAT : Nat := 0x60020
abbrev BSN_IN_LAST : Nat := 0x60024
abbrev BSN_IN_CNT_RX : Nat := 0x60028
abbrev BSN_IN_CNT_DUP : Nat := 0x6002c
abbrev BSN_IN_CNT_LATE : Nat := 0x60030
abbrev BSN_IN_CNT_EARLY : Nat := 0x60034
abbrev BSN_IN_CNT_BAD : Nat := 0x60038
abbrev BSN_IN_CNT_UNLOCK : Nat := 0x6003c
abbrev BSN_IN_CNT_MISS : Nat := 0x60040
abbrev BSN_OUT_SEL : Nat := 0x60044
abbrev BSN_OUT_STAT : Nat := 0x60048
abbrev BSN_OUT_CNT_REL : Nat := 0x6004c
abbrev BSN_OUT_CNT_COMPL : Nat := 0x60050
abbrev BSN_OUT_CNT_DEADL : Nat := 0x60054
abbrev BSN_OUT_CNT_SUPP : Nat := 0x60058
abbrev BSN_OUT_CNT_STALE : Nat := 0x6005c
abbrev BSN_OUT_CNT_OVR : Nat := 0x60060
abbrev BSN_OUT_LASTTAG : Nat := 0x60064
abbrev BSN_SLOTS : Nat := 0x60068
abbrev WAD_ID : Nat := 0x70000
abbrev WAD_CTRL : Nat := 0x70004
abbrev WAD_CFG : Nat := 0x70008
abbrev WAD_KEYGATE : Nat := 0x7000c
abbrev WAD_FAULT : Nat := 0x70010
abbrev WAD_INT_EN : Nat := 0x70014
abbrev WAD_ALM_ACK : Nat := 0x70018
abbrev WAD_ALM_SEL : Nat := 0x7001c
abbrev WAD_ALM_STAT : Nat := 0x70020
abbrev WAD_ALM_TAG : Nat := 0x70024
abbrev WAD_ALM_CNT : Nat := 0x70028
abbrev WAD_FED_CNT_TX : Nat := 0x7002c
abbrev WAD_FED_CNT_RX : Nat := 0x70030
abbrev WAD_FED_CNT_DROP : Nat := 0x70034
abbrev WAD_ALM_WORD (n : Nat) : Nat := 0x70040 + 0x4 * n
abbrev WAD_GRP_SEL : Nat := 0x70080
abbrev WAD_GRP_STAT : Nat := 0x70084
abbrev WAD_GRP_INFO : Nat := 0x70088
abbrev WAD_GRP_PEAK : Nat := 0x7008c
abbrev WAD_GRP_UPD : Nat := 0x70090
abbrev WAD_MODE_SEL : Nat := 0x70094
abbrev WAD_MODE_F : Nat := 0x70098
abbrev WAD_MODE_Z : Nat := 0x7009c
abbrev WAD_ISL_SEL : Nat := 0x700a0
abbrev WAD_ISL_STAT : Nat := 0x700a4
abbrev WAD_ISL_DTH : Nat := 0x700a8
abbrev WAD_ISL_DF : Nat := 0x700ac
abbrev WAD_ISL_BASE : Nat := 0x700b0
abbrev OUT_ID : Nat := 0x80000
abbrev OUT_CTRL : Nat := 0x80004
abbrev OUT_STAT : Nat := 0x80008
abbrev OUT_KEYGATE : Nat := 0x8000c
abbrev OUT_FAULT : Nat := 0x80010
abbrev OUT_INT_EN : Nat := 0x80014
abbrev OUT_UNIT : Nat := 0x80018
abbrev OUT_EPOCH : Nat := 0x8001c
abbrev OUT_EPOCH_SET : Nat := 0x80020
abbrev OUT_CLAIM : Nat := 0x80024
abbrev OUT_PEER : Nat := 0x80028
abbrev OUT_REVERT : Nat := 0x8002c
abbrev OUT_LASTTAG : Nat := 0x80030
abbrev OUT_COPYTAG : Nat := 0x80034
abbrev OUT_COPY_MAX : Nat := 0x80038
abbrev OUT_CNT_TKO : Nat := 0x8003c
abbrev OUT_CNT_MISMATCH : Nat := 0x80040
abbrev OUT_CNT_VERDICT : Nat := 0x80044
abbrev OUT_CNT_TPCRC : Nat := 0x80048
abbrev OUT_PUB_SEL : Nat := 0x8004c
abbrev OUT_PUB_STNUM : Nat := 0x80050
abbrev OUT_PUB_SQNUM : Nat := 0x80054
abbrev OUT_SUB_SEL : Nat := 0x80058
abbrev OUT_SUB_STAT : Nat := 0x8005c
abbrev PTP_ID : Nat := 0x90000
abbrev PTP_CTRL : Nat := 0x90004
abbrev PTP_STAT : Nat := 0x90008
abbrev PTP_KEYGATE : Nat := 0x9000c
abbrev PTP_FAULT : Nat := 0x90010
abbrev PTP_INT_EN : Nat := 0x90014
abbrev PTP_CFG : Nat := 0x90018
abbrev PTP_INTV : Nat := 0x9001c
abbrev PTP_SERVO : Nat := 0x90020
abbrev PTP_UTC : Nat := 0x90024
abbrev PTP_SET_NS : Nat := 0x90028
abbrev PTP_SET_SECL : Nat := 0x9002c
abbrev PTP_SET_SECH : Nat := 0x90030
abbrev PTP_SET_CMD : Nat := 0x90034
abbrev PTP_FREQ : Nat := 0x90038
abbrev PTP_OFFSET : Nat := 0x9003c
abbrev PTP_MPD : Nat := 0x90040
abbrev PTP_RATE : Nat := 0x90044
abbrev PTP_ERR : Nat := 0x90048
abbrev PTP_UNLOCK_S : Nat := 0x9004c
abbrev PTP_PARENT : Nat := 0x90050
abbrev PTP_CNT_STEP : Nat := 0x90054
abbrev PTP_MBOX_SEL : Nat := 0x90058
abbrev PTP_MBOX_STAT : Nat := 0x9005c
abbrev PTP_MBOX_DATA (n : Nat) : Nat := 0x90060 + 0x4 * n
abbrev PTP_PCFG (n : Nat) : Nat := 0x90080 + 0x10 * n
abbrev PTP_PLAT (n : Nat) : Nat := 0x90084 + 0x10 * n
abbrev PTP_PSTAT (n : Nat) : Nat := 0x90088 + 0x10 * n
abbrev PTP_PTSQ_DROP (n : Nat) : Nat := 0x9008c + 0x10 * n
abbrev MAC_PCFG (n : Nat) : Nat := 0xa0000 + 0x1000 * n
abbrev MAC_PSTAT (n : Nat) : Nat := 0xa0004 + 0x1000 * n
abbrev MAC_PFAULT (n : Nat) : Nat := 0xa0008 + 0x1000 * n
abbrev MAC_PINT_EN (n : Nat) : Nat := 0xa000c + 0x1000 * n
abbrev MAC_PSERDES (n : Nat) : Nat := 0xa0010 + 0x1000 * n
abbrev MAC_PBUF_MAX (n : Nat) : Nat := 0xa0014 + 0x1000 * n
abbrev MAC_PRX_OK (n : Nat) : Nat := 0xa0020 + 0x1000 * n
abbrev MAC_PRX_FCS (n : Nat) : Nat := 0xa0024 + 0x1000 * n
abbrev MAC_PRX_RUNT (n : Nat) : Nat := 0xa0028 + 0x1000 * n
abbrev MAC_PRX_OVERSIZE (n : Nat) : Nat := 0xa002c + 0x1000 * n
abbrev MAC_PRX_CODE (n : Nat) : Nat := 0xa0030 + 0x1000 * n
abbrev MAC_PRX_VLAN (n : Nat) : Nat := 0xa0034 + 0x1000 * n
abbrev MAC_PRX_UNCLASS (n : Nat) : Nat := 0xa0038 + 0x1000 * n
abbrev MAC_PRX_DROP_FULL (n : Nat) : Nat := 0xa003c + 0x1000 * n
abbrev MAC_PRX_DROP_CTL (n : Nat) : Nat := 0xa0040 + 0x1000 * n
abbrev MAC_PRX_DROP_HOST (n : Nat) : Nat := 0xa0044 + 0x1000 * n
abbrev MAC_PTX_OK (n : Nat) : Nat := 0xa0048 + 0x1000 * n
abbrev MAC_PTX_DROP (n : Nat) : Nat := 0xa004c + 0x1000 * n
abbrev MAC_PTX_TRUNC (n : Nat) : Nat := 0xa0050 + 0x1000 * n
abbrev MAC_PTX_NOARP (n : Nat) : Nat := 0xa0054 + 0x1000 * n
abbrev MAC_PPAUSE_RX (n : Nat) : Nat := 0xa0058 + 0x1000 * n
abbrev MAC_PRED_DUP (n : Nat) : Nat := 0xa005c + 0x1000 * n
abbrev MAC_PRED_WRONG_LAN (n : Nat) : Nat := 0xa0060 + 0x1000 * n
abbrev MAC_ID : Nat := 0xa8000
abbrev MAC_M0_STAT : Nat := 0xa8008
abbrev MAC_KEYGATE : Nat := 0xa800c
abbrev MAC_HRX_BASE (n : Nat) : Nat := 0xa8040 + 0x10 * n
abbrev MAC_HRX_SIZE (n : Nat) : Nat := 0xa8044 + 0x10 * n
abbrev MAC_HRX_TAIL (n : Nat) : Nat := 0xa8048 + 0x10 * n
abbrev MAC_HRX_HEAD (n : Nat) : Nat := 0xa804c + 0x10 * n
abbrev MAC_HTX_BASE (n : Nat) : Nat := 0xa8080 + 0x10 * n
abbrev MAC_HTX_SIZE (n : Nat) : Nat := 0xa8084 + 0x10 * n
abbrev MAC_HTX_TAIL (n : Nat) : Nat := 0xa8088 + 0x10 * n
abbrev MAC_HTX_HEAD (n : Nat) : Nat := 0xa808c + 0x10 * n
abbrev REC_ID : Nat := 0xb0000
abbrev REC_CTRL : Nat := 0xb0004
abbrev REC_CFG : Nat := 0xb0008
abbrev REC_KEYGATE : Nat := 0xb000c
abbrev REC_FAULT : Nat := 0xb0010
abbrev REC_INT_EN : Nat := 0xb0014
abbrev REC_ARM : Nat := 0xb0018
abbrev REC_MANUAL (n : Nat) : Nat := 0xb001c + 0x4 * n
abbrev REC_SPAN : Nat := 0xb0024
abbrev REC_RATE : Nat := 0xb0028
abbrev REC_OPEN (n : Nat) : Nat := 0xb002c + 0x4 * n
abbrev REC_SEL : Nat := 0xb0034
abbrev REC_DEF_STAT : Nat := 0xb0038
abbrev REC_DEF_LAST : Nat := 0xb003c
abbrev REC_CNT_TRIG : Nat := 0xb0040
abbrev REC_CNT_HOLD : Nat := 0xb0044
abbrev REC_CNT_LIST : Nat := 0xb0048
abbrev REC_CNT_OVR : Nat := 0xb004c
abbrev REC_NEXT : Nat := 0xb0050
abbrev DMA_ID : Nat := 0xc0000
abbrev DMA_OWNER : Nat := 0xc0004
abbrev DMA_KEYGATE : Nat := 0xc000c
abbrev DMA_FAULT : Nat := 0xc0010
abbrev DMA_INT_EN : Nat := 0xc0014
abbrev DMA_DONE : Nat := 0xc0018
abbrev DMA_CH_CFG (n : Nat) : Nat := 0xc0100 + 0x20 * n
abbrev DMA_CH_CHAIN (n : Nat) : Nat := 0xc0104 + 0x20 * n
abbrev DMA_CH_CMD (n : Nat) : Nat := 0xc0108 + 0x20 * n
abbrev DMA_CH_STAT (n : Nat) : Nat := 0xc010c + 0x20 * n
abbrev DMA_CH_CUR (n : Nat) : Nat := 0xc0110 + 0x20 * n
abbrev DMA_CH_CRC (n : Nat) : Nat := 0xc0114 + 0x20 * n
abbrev DMA_CH_CNT_DESC (n : Nat) : Nat := 0xc0118 + 0x20 * n
abbrev DMA_CH_CNT_KIB (n : Nat) : Nat := 0xc011c + 0x20 * n
abbrev CMP_ID : Nat := 0xd0000
abbrev CMP_OWNER : Nat := 0xd0004
abbrev CMP_KEYGATE : Nat := 0xd000c
abbrev CMP_FAULT : Nat := 0xd0010
abbrev CMP_INT_EN : Nat := 0xd0014
abbrev CMP_DONE : Nat := 0xd0018
abbrev CMP_L_BASE (n : Nat) : Nat := 0xd0100 + 0x40 * n
abbrev CMP_L_SIZE (n : Nat) : Nat := 0xd0104 + 0x40 * n
abbrev CMP_L_TAIL (n : Nat) : Nat := 0xd0108 + 0x40 * n
abbrev CMP_L_HEAD (n : Nat) : Nat := 0xd010c + 0x40 * n
abbrev CMP_L_STAT (n : Nat) : Nat := 0xd0110 + 0x40 * n
abbrev CMP_L_CNT_JOBS (n : Nat) : Nat := 0xd0114 + 0x40 * n
abbrev CMP_L_CNT_IN (n : Nat) : Nat := 0xd0118 + 0x40 * n
abbrev CMP_L_CNT_OUT (n : Nat) : Nat := 0xd011c + 0x40 * n
abbrev CMP_L_CNT_ERR (n : Nat) : Nat := 0xd0120 + 0x40 * n
abbrev MTR_ID : Nat := 0xe0000
abbrev MTR_CTRL : Nat := 0xe0004
abbrev MTR_STAT : Nat := 0xe0008
abbrev MTR_KEYGATE : Nat := 0xe000c
abbrev MTR_FAULT : Nat := 0xe0010
abbrev MTR_INT_EN : Nat := 0xe0014
abbrev MTR_SAVE : Nat := 0xe0018
abbrev MTR_PT_CMD : Nat := 0xe001c
abbrev MTR_SAVE_CMD : Nat := 0xe0020
abbrev MTR_HOLD : Nat := 0xe0024
abbrev MTR_LG_LAST : Nat := 0xe0028
abbrev MTR_SAVE_CNT : Nat := 0xe002c
abbrev MTR_SEQ : Nat := 0xe0030
abbrev MTR_LOG_FILL : Nat := 0xe0034
abbrev MTR_LOG_ACK : Nat := 0xe0038
abbrev MTR_LOG_DROP : Nat := 0xe003c
abbrev MTR_PT_SEL : Nat := 0xe0040
abbrev MTR_PT_STAT : Nat := 0xe0044
abbrev MTR_PT_TAG : Nat := 0xe0048
abbrev MTR_PQ_SEL : Nat := 0xe004c
abbrev MTR_PQ_STAT : Nat := 0xe0050
abbrev MTR_PQ_CNT_SAG : Nat := 0xe0054
abbrev MTR_PQ_CNT_SWELL : Nat := 0xe0058
abbrev MTR_PQ_CNT_INT : Nat := 0xe005c
abbrev MTR_MBOX_SEL : Nat := 0xe0060
abbrev MTR_MBOX_STAT : Nat := 0xe0064
abbrev MTR_MBOX_DATA (n : Nat) : Nat := 0xe0068 + 0x4 * n
abbrev EVR_ID : Nat := 0xf0000
abbrev EVR_CTRL : Nat := 0xf0004
abbrev EVR_STAT : Nat := 0xf0008
abbrev EVR_KEYGATE : Nat := 0xf000c
abbrev EVR_FAULT : Nat := 0xf0010
abbrev EVR_INT_EN : Nat := 0xf0014
abbrev EVR_RD_SEQL : Nat := 0xf0018
abbrev EVR_RD_SEQH : Nat := 0xf001c
abbrev EVR_RD_CMD : Nat := 0xf0020
abbrev EVR_RD_STAT : Nat := 0xf0024
abbrev EVR_LOST_CNT : Nat := 0xf0028
abbrev EVR_MBOX_SEL : Nat := 0xf0030
abbrev EVR_MBOX_STAT : Nat := 0xf0034
abbrev EVR_MBOX_DATA (n : Nat) : Nat := 0xf0038 + 0x4 * n
abbrev EVR_RD_DATA (n : Nat) : Nat := 0xf0080 + 0x4 * n
abbrev KEY_ID : Nat := 0x100000
abbrev KEY_CTRL : Nat := 0x100004
abbrev KEY_STAT : Nat := 0x100008
abbrev KEY_KEYGATE : Nat := 0x10000c
abbrev KEY_FAULT : Nat := 0x100010
abbrev KEY_INT_EN : Nat := 0x100014
abbrev KEY_SEAL_CMD : Nat := 0x100018
abbrev KEY_SEL : Nat := 0x10001c
abbrev KEY_SLOT_STAT : Nat := 0x100020
abbrev KEY_SLOT_KID : Nat := 0x100024
abbrev KEY_SLOT_FPR : Nat := 0x100028
abbrev KEY_TAMPER : Nat := 0x10002c
abbrev KEY_MON : Nat := 0x100030
abbrev HLTH_ID : Nat := 0x110000
abbrev HLTH_CTRL : Nat := 0x110004
abbrev HLTH_STAT : Nat := 0x110008
abbrev HLTH_KEYGATE : Nat := 0x11000c
abbrev HLTH_FAULT : Nat := 0x110010
abbrev HLTH_INT_EN : Nat := 0x110014
abbrev HLTH_ALARM : Nat := 0x110018
abbrev HLTH_ST_CFG : Nat := 0x11001c
abbrev HLTH_RECOVER : Nat := 0x110020
abbrev HLTH_RESET : Nat := 0x110024
abbrev HLTH_CNT_WDOG : Nat := 0x110028
abbrev HLTH_PREDICT : Nat := 0x11002c
abbrev HLTH_ST_LAST : Nat := 0x110030
abbrev HLTH_ST_QUEUE : Nat := 0x110034
abbrev HLTH_CL_MARGIN (n : Nat) : Nat := 0x110040 + 0x4 * n
abbrev HLTH_IS_MARGIN (n : Nat) : Nat := 0x110080 + 0x4 * n

end Reg

/-- The row of a register, none for a reserved location (R527). -/
def regRow? (off : Nat) : Option RegRow := (windowRows (off / 0x10000)).find? fun r => r.off == off

/-- A register bank key: the register at `off` of the object `obj` that a selection register shows (object 0 for an
unselected register). -/
def regKey (off obj : Nat) : Nat := off + 0x400000 * obj

/-- The reset value of a register (the map of each block); vector control of the MSI-X table resets to masked (log 9). -/
def regReset (key : Nat) : Word :=
  let off := key % 0x400000
  if 0x3F0000 ≤ off ∧ off < 0x3F0400 then (if off % 16 = 12 then 1 else 0)
  else match regRow? off with
    | some r => BitVec.ofNat 32 r.reset
    | none => 0

end Sys2Proof.Machine
end

