-- ==== Sys2Proof/Machine/Cells.lean ====
section
/-!
DEFINITION. Sparse stores in one canonical form: a list of (key, value) pairs with strictly rising keys and no
pair whose value is what an unlisted key reads as. Memory, registers and every table of the state use it.
-/
namespace Sys2Proof.Machine

/-- A sparse store of values by key. -/
abbrev Cells (α : Type) := List (Nat × α)

/-- The value at `k`; an unlisted key reads as `d k`. Keys rise, so the search ends at the first key above `k`. -/
def cellGet {α : Type} (d : Nat → α) : Cells α → Nat → α
  | [], k => d k
  | (j, w) :: r, k => if j = k then w else if j < k then cellGet d r k else d k

/-- The part of a store above key `k`. -/
def cellsOver {α : Type} (l : Cells α) (k : Nat) : Cells α := l.dropWhile fun c => decide (c.1 ≤ k)

/-- The store with `v` at `k`, in canonical form when the store was. -/
def cellSet {α : Type} [DecidableEq α] (d : Nat → α) : Cells α → Nat → α → Cells α
  | [], k, v => if v = d k then [] else [(k, v)]
  | (j, w) :: r, k, v =>
    if j < k then (j, w) :: cellSet d r k v
    else if j = k then (if v = d k then cellsOver r k else (k, v) :: r)
    else if v = d k then (j, w) :: r
    else (k, v) :: (j, w) :: r

/-- Every key of the store is above `b`. -/
def cellsAbove {α : Type} (b : Nat) (l : Cells α) : Bool :=
  match l with
  | [] => true
  | (j, _) :: _ => decide (b < j)

/-- The canonical form: keys strictly rising, no pair equal to what an unlisted key reads as. -/
def cellsWf {α : Type} [DecidableEq α] (d : Nat → α) : Cells α → Bool
  | [] => true
  | (j, w) :: r => cellsAbove j r && decide (w ≠ d j) && cellsWf d r

/-- The value at `k` of a store whose unlisted keys read as the type's default. -/
def tabGet {α : Type} [Inhabited α] (l : Cells α) (k : Nat) : α := cellGet (fun _ => default) l k

/-- The store with `v` at `k`, unlisted keys reading as the type's default. -/
def tabSet {α : Type} [Inhabited α] [DecidableEq α] (l : Cells α) (k : Nat) (v : α) : Cells α :=
  cellSet (fun _ => default) l k v

/-- The store with the value at `k` changed by `f`. -/
def tabMod {α : Type} [Inhabited α] [DecidableEq α] (l : Cells α) (k : Nat) (f : α → α) : Cells α :=
  tabSet l k (f (tabGet l k))

/-- `k` bytes from address `a` up. -/
def readBytes (l : List Host.Cell) : Nat → Nat → Bytes
  | _, 0 => []
  | a, k + 1 => cellGet (fun _ => 0) l a :: readBytes l (a + 1) k

/-- The store with the bytes `bs` from address `a` up. -/
def writeBytes (l : List Host.Cell) : Nat → Bytes → List Host.Cell
  | _, [] => l
  | a, b :: bs => writeBytes (cellSet (fun _ => 0) l a b) (a + 1) bs

end Sys2Proof.Machine
end

