-- ==== Sys2Proof/Machine/State/Base.lean ====
section
/-!
DEFINITION. State shared by the blocks: timers, modes, factory values and what leaves the module.
-/
namespace Sys2Proof.Machine

/-- The timers of the module (R36), each kept under an index (a port, a publication, a slot, ...; 0 where there is one). -/
inductive TimerKind where
  | holdLow | powerCycle | keeperReady | shedSecond | rotation | precedence | pause | arp | supervision | nodeForget
  | hostTx | pqEvent | tcpReconnect | inputLost | cfgChange | alarmStream | fedRepeat | gooseTal | gooseRetransmit
  | hello | heartbeat | status | refStatus | towpath | takeoverRetry | peerWait | refereeAbsent | hbWait | verdictWait
  | copyBound | revertHold | ptpMessage | refLost | holdOff | dmaRead | pulseEnd | periodicSave | commissioning | grace
  | tagPass | keygate | ringHold | foreignMaster | testDrain | startStep9 | clockRetain | watchdog | holdMeasure
  deriving DecidableEq, Repr, Inhabited

/-- A running timer: its kind, its index and the instant of the elapsed-time count (units of 2^-48 ns) at which it
runs out. -/
structure Timer where
  kind : TimerKind
  idx : Nat
  due : Nat
  deriving DecidableEq, Repr, Inhabited

/-- The seal axis (R64, R67). -/
inductive SealState where
  | notFitted | unsealed | sealed | broken
  deriving DecidableEq, Repr, Inhabited

/-- The mode axes of R64 that are not kept by their own block: role, test, seal and register compatibility. -/
structure Modes where
  role : Role := .standalone
  /-- A commanded role that waits for its boundary, and the role in force when it was accepted (R306). -/
  pendRole : Option Role := none
  pendFrom : Role := .standalone
  /-- Commanded Test value, and the value in force per partition (R65). -/
  test : TestVal := .off
  partTest : Cells TestVal := []
  pendTest : Cells (Option TestVal) := []
  /-- Changes of the Test value by tag domain, newest first: the tag at whose boundary it changed, and the value before (R57). -/
  testWas : Cells (List (Nat × TestVal)) := []
  /-- Synchronisation state of R277 and, on a Standby, the tag of the latest applied copy (R284). -/
  syncSt : Nat := 0
  copyTag : Option Nat := none
  sealSt : SealState := .unsealed
  /-- Register compatibility in force and pending: true is VZ20 (R528). -/
  vz20 : Bool := false
  vz20Next : Bool := false
  deriving DecidableEq, Repr, Inhabited

/-- What the factory fixed in the module (R6, R7, R536, R541; log 8). -/
structure Factory where
  orderL : Bool := true
  silicon : Nat := 0
  assembly : Nat := 0
  serial : Nat := 0
  mfgDay : Nat := 0
  fwVersion : Nat := 0
  deriving DecidableEq, Repr, Inhabited

end Sys2Proof.Machine
end

