-- ==== Sys2Proof/Machine/State/Td.lean ====
section
/-!
DEFINITION. Templates, tokens and the state of the task dispatcher (chapters 03 and 04).
-/
namespace Sys2Proof.Machine

/-- A payload (R125): integer, binary32 or complex binary32, as its 32-bit words. -/
inductive Val where
  | int (v : BitVec 32)
  | flt (v : BitVec 32)
  | cpx (re im : BitVec 32)
  deriving DecidableEq, Repr, Inhabited

/-- The quality word of R133. -/
abbrev Qual := BitVec 16

/-- An output routing of a template (R79): target, operand, kind (0 direct, 1 to 4 delay list plus one) and delay ticks. -/
structure Routing where
  target : Nat
  op : Nat
  kind : Nat
  ticks : Nat
  deriving DecidableEq, Repr, Inhabited

/-- A template with its parameter records, group 1 first (R78, R142). -/
structure Template where
  num : Nat
  prim : Nat
  level : Nat
  nOps : Nat
  sticky : Nat
  domain : Nat
  dests : List Routing
  /-- Flow number, or none for a stateless template (FLOW 0xFFFF). -/
  flow : Option Nat
  flowSeq : Nat
  ceil : Nat
  delayMax : Nat
  groups : List (List Nat)
  /-- Payload type of each operand and of the result, as admission settles them (R126): 0 integer, 1 binary32, 2 complex. -/
  opTypes : List Nat := []
  resType : Nat := 0
  deriving DecidableEq, Repr, Inhabited

/-- A flow record (R81). -/
structure FlowCfg where
  home : Nat
  nTempl : Nat
  stateLen : Nat
  deriving DecidableEq, Repr, Inhabited

/-- A delay-list record (R82). -/
structure DelayCfg where
  tick : Nat := 0
  entries : Nat := 0
  deriving DecidableEq, Repr, Inhabited

/-- A token (R125). -/
structure Tok where
  tmpl : Nat
  op : Nat
  tag : Nat
  stream : Nat
  val : Val
  q : Qual
  deriving DecidableEq, Repr, Inhabited

/-- Where a token comes from, for holding it there (R107). -/
inductive Producer where
  /-- Routing `i` of the task of template `tmpl` and tag `tag`. -/
  | result (tmpl tag i : Nat)
  | sv (port : Nat)
  | filter (group : Nat)
  | sluice (out : Nat)
  | async
  deriving DecidableEq, Repr, Inhabited

/-- A token on a crossing toward the match stage; a sticky one carries its effective tag, none while the dispatcher
still assigns it (R564). -/
structure XTok where
  tok : Tok
  etag : Option Nat
  src : Producer
  deriving DecidableEq, Repr, Inhabited

/-- A value of a sticky slot: effective tag, value, and whether it came after a task it should have served (R85). -/
structure StickyVal where
  etag : Nat
  val : Val
  q : Qual
  late : Bool
  deriving DecidableEq, Repr, Inhabited

/-- An operand value in an in-flight entry; a sticky one with its effective tag, none for the initial value (R121). -/
structure OpVal where
  val : Val
  q : Qual
  etag : Option Nat
  stream : Nat
  deriving DecidableEq, Repr, Inhabited

/-- A template's segment of its flow's state (R119): previous result, tags seen, words and histories. All zero is the
initial state (R120). -/
structure Seg where
  prev : Option Val := none
  n : Nat := 0
  a : List Nat := []
  h : List (List Nat) := []
  deriving DecidableEq, Repr, Inhabited

/-- States of a task in flight (R88). -/
inductive TaskState where
  | held | ready | executing | done
  deriving DecidableEq, Repr, Inhabited

/-- The result of a task: payload, quality, arm flag (R138). -/
structure Result where
  val : Val
  q : Qual
  arm : Bool
  deriving DecidableEq, Repr, Inhabited

/-- An in-flight entry (R86, R88). -/
structure Task where
  tmpl : Nat
  tag : Nat
  ops : List OpVal
  state : TaskState
  /-- Cluster of its ready list, order of formation, dispatcher cycles it has been ready (as the elapsed time since). -/
  cluster : Nat
  form : Nat
  readyAt : Nat
  /-- Engine it executes on: cluster and engine. -/
  engine : Option (Nat × Nat)
  /-- Engine of the latest fault, avoided by the retry, and retries so far (R96). -/
  avoid : Option (Nat × Nat)
  retries : Nat
  /-- Its result carries bit 5 (R85). -/
  late : Bool
  result : Option Result
  /-- Write log: the new segment (R140), none when nothing was logged. -/
  log : Option Seg
  /-- Flow state committed; routings still to be placed. -/
  committed : Bool
  routes : List Nat
  /-- Its result is the one that stands for a tag of a quarantined flow or template (R97, R141). -/
  quar : Bool := false
  deriving DecidableEq, Repr, Inhabited

/-- A flow's position and state (R94, R95): next tag and FLOW_SEQ, the task that holds it, segments by template, tag
of quarantine. -/
structure FlowSt where
  nextTag : Option Nat := none
  nextSeq : Nat := 0
  busy : Option (Nat × Nat) := none
  segs : Cells Seg := []
  quar : Option Nat := none
  deriving DecidableEq, Repr, Inhabited

/-- A pending delay-list entry (R99, R100). -/
structure DelayEntry where
  list : Nat
  target : Nat
  op : Nat
  tag : Nat
  etag : Nat
  val : Val
  q : Qual
  cancel : Bool
  /-- Expiry edge on the elapsed-time count, order of insertion. -/
  due : Nat
  order : Nat
  deriving DecidableEq, Repr, Inhabited

/-- The dispatcher. -/
structure Td where
  /-- Matched slots by 8 × template + operand. -/
  slots : Cells (Option XTok) := []
  /-- Sticky slots by 8 × template + operand: values with their effective tags, newest arrival first (R76). -/
  sticky : Cells (List StickyVal) := []
  tasks : List Task := []
  /-- The crossings toward the match stage, by the order number of R83: 0 results, 2 filter, 3 parser, 4 Sluice, 5 async. -/
  cross : Cells (List XTok) := []
  held : List XTok := []
  flows : Cells FlowSt := []
  /-- Quarantined stateless templates with the tag of quarantine (R97). -/
  quar : Cells (Option Nat) := []
  delays : List DelayEntry := []
  /-- Latest tag a domain's source has assigned since its partition went Live (R565). -/
  lastTag : Cells (Option Nat) := []
  /-- Tag of the latest task formed of a template (R85). -/
  formed : Cells (Option Nat) := []
  /-- Order of formation and of insertion; protection tasks formed in a 1 µs interval of the elapsed-time count, and the number
  of that interval (R93). -/
  formSeq : Nat := 0
  insSeq : Nat := 0
  precCount : Nat := 0
  precAt : Nat := 0
  /-- Engines that wait for their resident set to be rewritten (R124), as 16 × cluster + engine. -/
  withdrawn : List Nat := []
  /-- Records for the state copies of cycles that have not closed (R283), with their tags, newest first. -/
  copyRecs : List (Nat × CopyRec) := []
  deriving DecidableEq, Repr, Inhabited

/-- Service mode of a cluster: in service, draining or drained for a test or a change, under test, out of service. -/
inductive ClMode where
  | service | draining | drained | testing | out
  deriving DecidableEq, Repr, Inhabited

/-- The private data memory of an engine (R117): whether its write log or scratch region holds an uncorrectable word. The log's
content is that of the task (`Task.log`), the resident set follows from the loaded images, and the scratch content, undefined
at task start, is read by nothing else (log 366). -/
structure PeMem where
  bad : Bool := false
  deriving DecidableEq, Repr, Inhabited

/-- The PE block: settings groups and clusters (R145, R146, R153, R17 to R19). -/
structure Pe where
  /-- Active group by domain (1 when unset), and changes by domain in order of arrival: effective tag and group. -/
  group : Cells (Option Nat) := []
  pend : Cells (List (Nat × Nat)) := []
  /-- The group Keeper retains for each partition (R146). -/
  kept : Cells (Option Nat) := []
  refused : Nat := 0
  clMode : Cells ClMode := []
  /-- Engine memories by 16 × cluster + engine, and the flows whose committed state holds an uncorrectable word (R124, R499). -/
  mem : Cells PeMem := []
  badFlows : List Nat := []
  deriving DecidableEq, Repr, Inhabited

end Sys2Proof.Machine
end

