-- ==== Sys2Proof/Machine/State/Bsn.lean ====
section
/-!
DEFINITION. The Basin and the Sluice, and wide-area detection (chapters 06 and 07): configuration and state.
-/
namespace Sys2Proof.Machine

/-- One block of a stored CFG-2: FORMAT, factors and counts. -/
structure CfgBlock where
  format : Nat := 0
  phUnits : List Nat := []
  anUnits : List Nat := []
  digitals : Nat := 0
  fnom : Nat := 0
  deriving DecidableEq, Repr, Inhabited

/-- A stored CFG-2 body: its bytes and what they say. -/
structure CfgBody where
  raw : Bytes := []
  timeBase : Nat := 1
  blocks : List CfgBlock := []
  deriving DecidableEq, Repr, Inhabited

/-- An input record of section 0x000A (R223). -/
structure InCfg where
  transport : Nat := 0
  noLeap : Bool := false
  unlockDrop : Bool := false
  unlockMax : Nat := 0
  idcode : Nat := 0
  ports : Nat := 0
  key : Nat := 0
  rate : Nat := 50
  srcIp : Nat := 0
  dstIp : Nat := 0
  udpPort : Nat := 0
  slots : Nat := 1
  cfg : CfgBody := {}
  deriving DecidableEq, Repr, Inhabited

/-- A routing of an output (R220). -/
structure BsnRoute where
  member : Nat
  block : Nat
  kind : Nat
  index : Nat
  op : Nat
  target : Nat
  deriving DecidableEq, Repr, Inhabited

/-- An output record of section 0x000A (R223). -/
structure OutCfg where
  publish : Bool := false
  lateSupp : Bool := false
  missHold : Bool := false
  rect : Bool := false
  rate : Nat := 50
  wait : Nat := 1000
  holdMax : Nat := 1
  ports : Nat := 0
  idcode : Nat := 0
  suppId : Nat := 0
  dstIp : Nat := 0
  dstPort : Nat := 0
  suppPort : Nat := 0
  cmdPort : Nat := 0
  queue : Nat := 0
  members : List Nat := []
  routes : List BsnRoute := []
  supp : Nat := 0
  cfg : CfgBody := {}
  deriving DecidableEq, Repr, Inhabited

/-- A PMU block as stored (R200). -/
structure BlockVal where
  q : Qual := 0
  stat : Nat := 0
  phasors : List (Nat × Nat) := []
  freq : Nat := 0
  rocof : Nat := 0
  analogs : List Nat := []
  digitals : List Nat := []
  deriving DecidableEq, Repr, Inhabited

/-- States of BSN_IN_STAT an input keeps (R226). -/
inductive BsnInState where
  | unseen | locked | unlocked | mismatch | lost | tcpDown
  deriving DecidableEq, Repr, Inhabited

/-- An input. -/
structure BsnIn where
  state : BsnInState := .unseen
  blocked : Bool := false
  lastSoc : Nat := 0
  port : Nat := 15
  cfgChg : Bool := false
  /-- Elapsed time of the latest leap-second bit, midnight SOC of the latest leap resolved. -/
  leapAt : Option Nat := none
  leapSoc : Option Nat := none
  /-- TCP connected; waiting for the CFG-2 asked for. -/
  tcp : Bool := false
  wantCfg : Bool := false
  /-- A received CFG-2 differed from the stored one, and no matching one has come since (R207). -/
  mis : Bool := false
  deriving DecidableEq, Repr, Inhabited

/-- A member in a set: its blocks as released, whether it is own-PMU, whether it was missing or blocked. -/
structure Member where
  blocks : List BlockVal := []
  own : Bool := false
  absent : Bool := false
  deriving DecidableEq, Repr, Inhabited

/-- A set of an output (R205, R210, R211): its index, members stored by member index, release, members as released, late
members. -/
structure BsnSet where
  ix : Int
  stored : Cells (Option Member) := []
  decided : Bool := false
  released : List Member := []
  late : Cells (Option Member) := []
  deriving DecidableEq, Repr, Inhabited

/-- An output. -/
structure BsnOut where
  /-- First and next set index since the partition went Live. -/
  first : Int := 0
  next : Option Int := none
  sets : List BsnSet := []
  /-- Members as released in the previous set with their run of missing sets. -/
  prev : List Member := []
  runs : List Nat := []
  txOff : Bool := false
  /-- First tag not sent and count since transmission was turned off. -/
  gap : Option (Nat × Nat) := none
  cfgChg : Bool := false
  lastTag : Nat := 0
  deriving DecidableEq, Repr, Inhabited

/-- The Basin and the Sluice. -/
structure Bsn where
  ins : Cells BsnIn := []
  outs : Cells BsnOut := []
  /-- Command frames counted and not answered (R201), and whether a command turned the alarm stream off. -/
  cmdOther : Nat := 0
  almOff : Bool := false
  deriving DecidableEq, Repr, Inhabited

/-! ## Wide-area detection -/

/-- A signal of an area (R255). -/
structure IslSignal where
  member : Nat
  block : Nat
  phasor : Nat
  weight : Nat
  deriving DecidableEq, Repr, Inhabited

structure AreaCfg where
  out : Nat := 0
  amin : Nat := 1
  coh : Nat := 0
  signals : List IslSignal := []
  deriving DecidableEq, Repr, Inhabited

/-- A criterion record: the thresholds are binary32 words. -/
structure CritCfg where
  areaA : Nat := 0
  areaB : Nat := 0
  confirm : Nat := 1
  rejoin : Nat := 1
  alm : Nat := 0
  dfOn : Nat := 0
  dfOff : Nat := 0
  dangOn : Nat := 0
  angAbs : Nat := 0
  tbase : Nat := 0
  deriving DecidableEq, Repr, Inhabited

structure AlarmCfg where
  src : Nat := 0
  sev : Nat := 0
  trig : Nat := 0
  fed : Bool := false
  latch : Bool := false
  origin : Nat := 0
  remote : Nat := 0
  deriving DecidableEq, Repr, Inhabited

/-- Group record: output, modal and periodogram flow, and the three templates. -/
structure WadGroup where
  out : Nat := 0
  mflow : Nat := 0xFFFF
  pflow : Nat := 0xFFFF
  fit : Nat := 0xFFFF
  track : Nat := 0xFFFF
  peak : Nat := 0xFFFF
  deriving DecidableEq, Repr, Inhabited

/-- Section 0x000B (R255). -/
structure WadCfg where
  f0 : Nat := 50
  fedId : Nat := 0
  member : Nat := 0
  flags : Nat := 0
  hops : Nat := 0
  almPub : Nat := 0xFFFF
  almId : Nat := 0
  almIp : Nat := 0
  almDport : Nat := 0
  almCmd : Nat := 0
  almPorts : Nat := 0
  almQueue : Nat := 0
  fedPorts : Nat := 0
  fedQueue : Nat := 0
  fedIp : Nat := 0
  fedUdp : Nat := 0
  fedKey : Nat := 0
  groups : Cells WadGroup := []
  areas : Cells AreaCfg := []
  crits : Cells CritCfg := []
  alarms : Cells AlarmCfg := []
  /-- Alarm-word routings: word, target, operand. -/
  words : List (Nat × Nat × Nat) := []
  deriving DecidableEq, Repr, Inhabited

/-- An area's latest evaluation: validity, quest, θ and f as words. -/
structure AreaSt where
  valid : Bool := true
  quest : Bool := false
  th : Nat := 0
  f : Nat := 0
  deriving DecidableEq, Repr, Inhabited

/-- A criterion (R237); latest Δθ and Δf, and the validities of its areas at the latest evaluation. -/
structure CritSt where
  separated : Bool := false
  run : Nat := 0
  rj : Nat := 0
  base : Nat := 0
  nb : Nat := 0
  dth : Nat := 0
  df : Nat := 0
  aValid : Bool := false
  bValid : Bool := false
  deriving DecidableEq, Repr, Inhabited

/-- An alarm (R241 to R244): held by its source, latched after it, quality of its latest evaluation, tag of its latest
change, sequence number of the messages sent and, for kind 2, the latest accepted. -/
structure AlarmSt where
  on : Bool := false
  latched : Bool := false
  acked : Bool := false
  q : Qual := 0
  tag : Nat := 0
  /-- Partition of its source and its record, as they stood at its latest evaluation (R244). -/
  home : Option (Nat × AlarmCfg) := none
  seqTx : Option Nat := none
  /-- Repeats of its latest message still to send, with that message's bytes (R251). -/
  repeats : Nat := 0
  msg : Bytes := []
  deriving DecidableEq, Repr, Inhabited

/-- The WAD block. -/
structure Wad where
  alarms : Cells AlarmSt := []
  areas : Cells AreaSt := []
  crits : Cells CritSt := []
  /-- Latest accepted SEQ by origin × 512 + alarm (R253). -/
  seqRx : Cells (Option Nat) := []
  /-- Operating seconds at the latest start (R253). -/
  startSecs : Nat := 0
  deriving DecidableEq, Repr, Inhabited

end Sys2Proof.Machine
end

