-- ==== Sys2Proof/Machine/State/Clk.lean ====
section
/-!
DEFINITION. The local clock and the PTP protocol engine (chapter 09): state of the always-on time base.
-/
namespace Sys2Proof.Machine

/-- The five clock states of R313. -/
inductive ClkState where
  | freeRun | grandmaster | acquiring | locked | holdover
  deriving DecidableEq, Repr, Inhabited

/-- A foreign-master record of a PTP port (R330: eight per port). -/
structure ForeignMaster where
  src : PtpPortId
  ann : AnnounceData
  /-- Announce messages accepted from it. -/
  seen : Nat
  /-- Elapsed time of the latest one. -/
  lastAt : Nat
  /-- Parent sequence data: whether the announce had currentUtcOffsetValid (R322). -/
  utcValid : Bool
  deriving DecidableEq, Repr, Inhabited

/-- The port states of PTP_PnSTAT.STATE (R337), by their codes. -/
inductive PtpPortState where
  | initializing | faulty | disabled | listening | preMaster | master | passive | uncalibrated | slave
  deriving DecidableEq, Repr, Inhabited

/-- A half-finished two-step or delay exchange of a port: sequence number, peer and the timestamps seen so far
(local clock, in units of 2^-16 ns). -/
structure PtpPending where
  seq : Nat
  src : PtpPortId
  t1 : Int
  t2 : Int
  corr : Int
  deriving DecidableEq, Repr, Inhabited

/-- One PTP port (R331). -/
structure PtpPort where
  state : PtpPortState := .disabled
  foreigns : List ForeignMaster := []
  /-- Sequence numbers of the messages the port sends next, by message kind code. -/
  seqSync : Nat := 0
  seqAnn : Nat := 0
  seqReq : Nat := 0
  /-- Two-step Sync waiting for its Follow_Up. -/
  sync : Option PtpPending := none
  /-- Delay request or peer delay request waiting for its answer. -/
  req : Option PtpPending := none
  /-- Peer delay: t2 of the answer waiting for its follow-up. -/
  resp : Option PtpPending := none
  /-- Mean path delay, units of 2^-16 ns. -/
  mpd : Int := 0
  deriving DecidableEq, Repr, Inhabited

/-- An entry of a transmit-timestamp queue (R326). -/
structure TsqEntry where
  ident : Nat
  notSent : Bool
  sec : Nat
  ns : Nat
  frac : Nat
  deriving DecidableEq, Repr, Inhabited

/-- The clock and the PTP engine. Instants of the elapsed-time count are in units of 2^-48 ns, the resolution of
the 16 visible and 32 hidden fraction bits of R309. -/
structure Clk where
  /-- Seconds, nanoseconds, visible fraction and hidden fraction (R309). -/
  sec : Nat := 0
  ns : Nat := 0
  frac : Nat := 0
  sub : Nat := 0
  /-- The elapsed-time count of R311. -/
  elapsed : Nat := 0
  state : ClkState := .freeRun
  /-- The Time mode in force and the commanded one that waits for the next 1PPS edge (R64). -/
  mode : TimeMode := .freeRun
  pendMode : Option TimeMode := none
  /-- Holdover was commanded (R317). -/
  cmdHoldover : Bool := false
  /-- The Time mode from which an automatic Holdover was entered (R66). -/
  fromMode : TimeMode := .freeRun
  /-- The host has set the time (R313). -/
  hostSet : Bool := false
  /-- Acquiring was entered from Holdover (R313). -/
  fromHoldover : Bool := false
  /-- Offset still to be removed by slewing, units of 2^-48 ns (R319). -/
  slewLeft : Int := 0
  /-- A step waiting for the next tick: its new seconds and nanoseconds (R320). -/
  pendStep : Option (Nat × Nat) := none
  /-- Latest sixteen offsets from the parent in ns, newest first (R314, R315). -/
  offsets : List Int := []
  /-- Consecutive offsets below LOCK_NS and above 1 µs (R314). -/
  goodRun : Nat := 0
  badRun : Nat := 0
  /-- Elapsed time of the entry into Locked, of the latest exit from it, of the latest accepted offset. -/
  lockedAt : Nat := 0
  unlockedAt : Option Nat := none
  lastOffAt : Nat := 0
  /-- The Locked period that the latest exit ended lasted an hour (R315). -/
  longLock : Bool := false
  /-- Growth of e at the latest exit from Holdover, ns/s and ns/s² (R315). -/
  holdExit : Nat × Nat := (0, 0)
  /-- e at the latest accepted offset, ns; none while Unknown (R315). -/
  e0 : Option Nat := none
  /-- Elapsed time of the latest Sync of the parent (R314). -/
  lastSyncAt : Nat := 0
  /-- The parent clock (R331, R334 code 0x02). -/
  parent : Option ForeignMaster := none
  /-- The port in SLAVE. -/
  slavePort : Option Nat := none
  ports : Cells PtpPort := []
  tsq : Cells (List TsqEntry) := []
  /-- External reference (R318): 10 MHz valid, 1PPS valid, latest captured edge, run of edges within 100 ns. -/
  ext10 : Bool := false
  extPps : Bool := false
  extCap : Option (Nat × Nat × Nat) := none
  /-- The latest valid edge since power good (R334). -/
  extEdge : Option (Nat × Nat × Nat) := none
  extRun : Nat := 0
  extState : Nat := 0
  /-- UTC (R322, R323): source is the parent's Announce, TAI second of the latest leap applied and its direction. -/
  utcFromAnn : Bool := false
  leapAt : Option Nat := none
  leapDir : Nat := 0
  /-- Values Keeper keeps for the next power good (R312): TAI seconds and the registers of the block. -/
  savedSec : Nat := 0
  savedRegs : List (Nat × Word) := []
  deriving DecidableEq, Repr, Inhabited

end Sys2Proof.Machine
end

