-- ==== Sys2Proof/Machine/State/Dma.lean ====
section
/-!
DEFINITION. The DMA engine and the compression lanes (chapter 12): state.
-/
namespace Sys2Proof.Machine

/-- A fetched descriptor (R393, R396): its offset and fields, and the destination ranges (space, address, length) of earlier
descriptors that it may read before they are written (R396, R414). -/
structure DmaDesc where
  off : Nat
  src : Nat
  dst : Nat
  len : Nat
  ctrl : Nat
  next : Nat
  hazards : List (Nat × Nat × Nat)
  deriving DecidableEq, Repr, Inhabited

/-- States of a channel (R416). -/
inductive DmaState where
  | idle | running | halted
  deriving DecidableEq, Repr, Inhabited

/-- A DMA channel. -/
structure DmaChan where
  state : DmaState := .idle
  /-- Chains queued behind the running one. -/
  queue : List Nat := []
  /-- Next descriptor of the running chain to fetch, none past its end; descriptors fetched, hop limit of the chain. -/
  next : Option Nat := none
  hops : Nat := 0
  hopMax : Nat := 4096
  /-- Bursts per turn of the chain (R402). -/
  weight : Nat := 1
  fetched : List DmaDesc := []
  /-- Fetch fault that waits for the descriptors before it: code and NEXT. -/
  pend : Option (Nat × Nat) := none
  /-- Running CRC-32C before its final inversion, its value before the descriptor that halted the channel. -/
  crc : Nat := 0
  crcOld : Nat := 0
  crcReg : Nat := 0
  err : Nat := 0
  cur : Nat := 0xFFFFFFFF
  /-- Bytes moved beyond the whole KiB counted. -/
  part : Nat := 0
  /-- Bursts of the oldest fetched descriptor that its turns have granted (R402). -/
  bursts : Nat := 0
  deriving DecidableEq, Repr, Inhabited

/-- A compression stream (R406): direction, wrapper, jobs so far as CTRL and input, output bytes already written. -/
structure CmpStream where
  dec : Bool := false
  wrap : Nat := 0
  jobs : List (Nat × Bytes) := []
  given : Nat := 0
  susp : Bool := false
  deriving DecidableEq, Repr, Inhabited

/-- A job descriptor as a lane takes it (R404). -/
structure CmpJob where
  off : Nat := 0
  src : Nat := 0
  dst : Nat := 0
  chain : Nat := 0
  state : Nat := 0
  srcLen : Nat := 0
  dstLen : Nat := 0
  chainLen : Nat := 0
  ctrl : Nat := 0
  deriving DecidableEq, Repr, Inhabited

/-- A compression lane. -/
structure CmpLane where
  /-- The ring stopped at a descriptor the host still owns (R351). -/
  stopped : Bool := false
  job : Option CmpJob := none
  stream : Option CmpStream := none
  code : Nat := 0
  /-- Bytes beyond the whole MiB counted, in and out. -/
  inPart : Nat := 0
  outPart : Nat := 0
  deriving DecidableEq, Repr, Inhabited

/-- Both engines. -/
structure Dma where
  chans : Cells DmaChan := []
  lanes : Cells CmpLane := []
  /-- Streams written into state areas (R407). -/
  saved : List CmpStream := []
  /-- The channel whose turn at the DMA engine is next (R402). -/
  turn : Nat := 0
  deriving DecidableEq, Repr, Inhabited

end Sys2Proof.Machine
end

