-- ==== Sys2Proof/Machine/State/Host.lean ====
section
/-!
DEFINITION. The host interface, the event recorder and the key store (chapters 14 and 16): their state.
-/
namespace Sys2Proof.Machine

/-- How the latest register access completed (R525, R527); the model's own view of the completion. -/
inductive Completion where
  | none
  | data (v : Word)
  | abort
  deriving DecidableEq, Repr, Inhabited

/-- A wide-value mailbox (R536): VALID and the four data words of the snapshot. -/
structure Mailbox where
  valid : Bool := false
  code : Nat := 0
  words : List Nat := []
  deriving DecidableEq, Repr, Inhabited

/-- State of the host interface. -/
structure HostIf where
  /-- Open key gates: block index and the elapsed time of the opening (R535). -/
  gates : Cells (Option Nat) := []
  /-- Blocks in which an update strobe waits for its apply point, with the strobe groups that wait there (R532). -/
  strobes : Cells (List Nat) := []
  mboxHost : Mailbox := {}
  mboxPtp : Mailbox := {}
  mboxMtr : Mailbox := {}
  mboxEvr : Mailbox := {}
  /-- Interrupt conditions as last evaluated, by vector (R537). -/
  cond : Cells Bool := []
  /-- Ring vectors in hold-off, with a write-back waiting (R538). -/
  ringHold : Cells Bool := []
  ringPend : Cells Bool := []
  /-- PCIe link: up, generation and width (R519, R522). -/
  linkUp : Bool := false
  linkGen : Nat := 0
  linkWidth : Nat := 0
  /-- AER Uncorrectable Error Status shows Completer Abort (R527). -/
  aerAbort : Bool := false
  latched : Completion := .none
  deriving DecidableEq, Repr, Inhabited

/-- An event as its block raised it (R451, R452): everything of the record but SEQ, REPEAT and CRC. -/
structure Event where
  sec : Nat := 0
  ns : Nat := 0
  locked : Bool := false
  tod : Bool := false
  pcyc : Nat := 0
  opsec : Nat := 0
  opfrac : Nat := 0
  cls : Nat := 0
  detail : Nat := 0
  src : Nat := 0
  test : Bool := false
  tko : Bool := false
  broken : Bool := false
  tag : Nat := 0
  arg : Bytes := []
  deriving DecidableEq, Repr, Inhabited

/-- The event recorder (R455 to R462). -/
structure Evr where
  /-- Events waiting to be committed, oldest first, at most 4,096 (R457). -/
  queue : List Event := []
  /-- The ring in MRAM: the 64 stored bytes by ring index (R455). -/
  ring : Cells Bytes := []
  /-- Sequence number of the next record; none is committed while `count` is 0. -/
  next : Nat := 0
  count : Nat := 0
  /-- The newest record's event, REPEAT and first-occurrence operating time in 1/256 s, for merging (R458). -/
  newest : Option (Event × Nat) := none
  /-- Discarded since the previous gap record, operating seconds of the first, discarded since start (R457). -/
  lostGap : Nat := 0
  lostFirst : Nat := 0
  lostAll : Nat := 0
  /-- The recorder runs (R461). -/
  running : Bool := false
  readValid : Bool := false
  readResult : Nat := 0
  readBuf : Bytes := []
  deriving DecidableEq, Repr, Inhabited

/-- States of a key slot (R464). -/
inductive SlotState where
  | empty | valid | pending | grace | unusable
  deriving DecidableEq, Repr, Inhabited

/-- A key slot (R464). -/
structure KeySlot where
  kid : Nat := 0
  policy : Nat := 0
  type : Nat := 0
  gen : Nat := 0
  state : SlotState := .empty
  /-- Current, next (while Pending) and previous (while Grace) key material. -/
  cur : Bytes := []
  nxt : Bytes := []
  prev : Bytes := []
  /-- KID, type and policy of the pending key; KID of the previous one. -/
  nxtKid : Nat := 0
  nxtType : Nat := 0
  nxtPolicy : Nat := 0
  prevKid : Nat := 0
  tag : Bytes := []
  deriving DecidableEq, Repr, Inhabited

/-- An encrypted backup (R468): its plain fields and the backup key it was encrypted under. -/
structure KeyBackup where
  slot : Nat
  gen : Nat
  kid : Nat
  policy : Nat
  type : Nat
  material : Bytes
  committed : Bool
  key : Bytes
  deriving DecidableEq, Repr, Inhabited

/-- Store states (R469). -/
inductive StoreState where
  | zeroed | commissioning | provisioned
  deriving DecidableEq, Repr, Inhabited

/-- The key store (R464 to R479). -/
structure Key where
  store : StoreState := .zeroed
  /-- The root secret in the battery domain; all zero while Zeroed. -/
  root : Bytes := []
  slots : Cells KeySlot := []
  backups : List KeyBackup := []
  /-- The tamper latch, KEY_TAMPER bits [6:0] (R475). -/
  tamper : Nat := 0
  /-- Steps 3 and 4 of a zeroing that the rails did not last to complete (R476). -/
  zeroPend : Bool := false
  vbatMv : Nat := 0
  tempDeci : Int := 0
  deriving DecidableEq, Repr, Inhabited

end Sys2Proof.Machine
end

