-- ==== Sys2Proof/Machine/State/Mtr.lean ====
section
/-!
DEFINITION. Metering, power quality and retained state (chapter 13): section 0x000D and the state of the MTR block.
-/
namespace Sys2Proof.Machine

/-- A point record (R447). -/
structure PtCfg where
  legal : Bool
  /-- P_MAX as a binary32 word. -/
  pMax : Nat
  name : Bytes := []
  deriving DecidableEq, Repr, Inhabited

/-- A power-quality record (R447): filter channels, UDIN as a binary32 word, thresholds in 0.1 % of it. -/
structure PqCfg where
  chans : List Nat
  udin : Nat
  sag : Nat
  swell : Nat
  int : Nat
  hyst : Nat
  deriving DecidableEq, Repr, Inhabited

/-- A pulse record (R447): PW in units of 10 µs. -/
structure PulseCfg where
  pt : Nat
  reg : Nat
  activeLow : Bool
  k : Nat
  pw : Nat
  deriving DecidableEq, Repr, Inhabited

/-- Section 0x000D. -/
structure MtrCfg where
  tSave : Nat := 0
  points : Cells PtCfg := []
  pqs : Cells PqCfg := []
  pulses : Cells PulseCfg := []
  deriving DecidableEq, Repr, Inhabited

/-- A metering point (R419 to R423). A register is its 64-bit integer part times 2^32 plus its hidden fraction. -/
structure MtrPt where
  regs : Cells Nat := []
  /-- WRAP flags, a bit for each register code. -/
  wrap : Nat := 0
  ovf : Bool := false
  lost : Bool := false
  /-- Invalid and questionable time in µs, each with the remainder in units of a µs over the tag rate (log 30). -/
  invalid : Nat := 0
  invRem : Nat := 0
  quest : Nat := 0
  questRem : Nat := 0
  /-- Tag of the latest increment. -/
  tag : Nat := 0
  deriving DecidableEq, Repr, Inhabited

/-- Kinds of a save (R434). -/
inductive SaveKind where
  | periodic | start | command | lastGasp
  deriving DecidableEq, Repr, Inhabited

/-- What a copy holds (R434); its byte layout is no customer interface. -/
structure MtrCopy where
  seq : Nat
  kind : SaveKind
  tai : Nat
  /-- Operating time in 1/256 s and power-cycle count. -/
  op : Nat
  pcyc : Nat
  period : Nat
  evSeq : Nat
  sealSt : SealState
  digest : Bytes
  /-- Pulse credits by output, units of 2^-32 of a pulse. -/
  credits : Cells Nat
  pts : Cells MtrPt
  deriving DecidableEq, Repr, Inhabited

/-- A power-quality event in progress (R430): start instant (2^-48 ns), samples counted at its start, extreme as a binary32
word, flagged. -/
structure PqOpen where
  start : Nat
  startN : Nat
  extreme : Nat
  flagged : Bool
  deriving DecidableEq, Repr, Inhabited

/-- A power-quality event that ended: type (1 sag, 2 swell, 3 interruption), start instant, duration in µs, extreme. -/
structure PqEvent where
  type : Nat
  start : Nat
  dur : Nat
  extreme : Nat
  deriving DecidableEq, Repr, Inhabited

/-- A power-quality group: samples of its stream, event in progress by type, the latest refresh with a valid channel
(instant and samples counted), the latest event. -/
structure PqSt where
  n : Nat := 0
  open_ : Cells (Option PqOpen) := []
  lastAt : Nat := 0
  lastN : Nat := 0
  latest : Option PqEvent := none
  deriving DecidableEq, Repr, Inhabited

/-- The MTR block. -/
structure Mtr where
  pts : Cells MtrPt := []
  /-- Latest gap bound of a point in mWh, all-ones for unknown (R441). -/
  gaps : Cells Nat := []
  pqs : Cells PqSt := []
  /-- Pulse outputs: credit, elapsed time of the latest start, pulse in progress. -/
  credits : Cells Nat := []
  pulseAt : Cells (Option Nat) := []
  pulsing : Cells Bool := []
  /-- The two copies in MRAM as far as they are valid, and which is the newest (true for B). -/
  copyA : Option MtrCopy := none
  copyB : Option MtrCopy := none
  newestB : Bool := false
  nextSeq : Nat := 0
  /-- The snapshot that is being written, and a save that waits for it. -/
  saving : Option MtrCopy := none
  waiting : Option SaveKind := none
  /-- HOLD (R438): at or above 48 V, and its voltage in units of 10 mV. -/
  holdOk : Bool := false
  holdCv : Nat := 0
  /-- Result of the latest supply failure: recorded, last gasp completed, trigger, duration in µs. -/
  lgValid : Bool := false
  lgDone : Bool := false
  lgTrig : Bool := false
  lgDur : Nat := 0
  /-- Seal digest and slot (R443). -/
  digest : Bytes := []
  sealSlot : Option Nat := none
  /-- Metrological log (R445, R446): entries by SEQ modulo 65,536, next SEQ, the lowest SEQ not acknowledged, MAC of the
  latest entry, entries not written since the latest log gap entry. -/
  log : Cells Bytes := []
  logNext : Nat := 0
  logFree : Nat := 0
  logMac : Bytes := []
  logLost : Nat := 0
  /-- The mailbox's snapshot of a point (R450). -/
  snap : Option (Nat × MtrPt) := none
  deriving DecidableEq, Repr, Inhabited

end Sys2Proof.Machine
end

