-- ==== Sys2Proof/Machine/State/Net.lean ====
section
/-!
DEFINITION. Ethernet ports, redundant networks and host rings (chapter 10): configuration and state.
-/
namespace Sys2Proof.Machine

/-- Pair record of section 0x000F (R360). -/
structure PairCfg where
  /-- 0 plain, 1 PRP, 2 HSR. -/
  mode : Nat := 0
  supIntv : Nat := 2000
  forget : Nat := 60
  supOctet : Nat := 0
  deriving DecidableEq, Repr, Inhabited

/-- Port record of section 0x000F (R360). -/
structure PortCfg where
  mode : Nat := 0
  anEn : Bool := false
  pauseObey : Bool := false
  errDeliver : Bool := false
  shared : Bool := false
  vlanFilter : Bool := false
  pfx : Nat := 0
  mtu : Nat := 1518
  mac : Nat := 0
  ip : Nat := 0
  gw : Nat := 0
  vids : List Nat := []
  deriving DecidableEq, Repr, Inhabited

/-- Classification entry of section 0x000F (R360); 0xFFFF stands for any. -/
structure ClassEntry where
  etype : Nat
  vid : Nat
  dst : Nat
  macAny : Bool
  ports : Nat
  ring : Nat
  deriving DecidableEq, Repr, Inhabited

/-- The port map, section 0x000F. -/
structure PortMap where
  pairs : Cells PairCfg := []
  ports : Cells PortCfg := []
  classes : List ClassEntry := []
  deriving DecidableEq, Repr, Inhabited

/-- A received frame in an ingress buffer with its receive timestamp (local clock, units of 2^-16 ns; R324). -/
structure RxItem where
  frame : Frame
  ts : Int
  /-- Passed by a full node table (R356). -/
  dupPass : Bool
  deriving DecidableEq, Repr, Inhabited

/-- A frame in a transmit queue. -/
structure QItem where
  frame : Frame
  /-- Length in bytes it takes in the queue. -/
  size : Nat
  /-- Identifier for the transmit-timestamp entry of a host frame (R326). -/
  tsId : Option Nat
  /-- A message of the PTP engine whose transmit timestamp the engine takes: 0 none, 1 the engine notes it or follows it
  up, 2 it is added to the message's correction field (one-step answers and HSR residence time, R331). -/
  ptp : Nat
  deriving DecidableEq, Repr, Inhabited

/-- An ARP-cache entry: an unresolved destination has no address yet (R347). -/
structure ArpEntry where
  ip : Nat
  mac : Option Nat
  deriving DecidableEq, Repr, Inhabited

/-- One port P0 to P7. -/
structure NetPort where
  link : Bool := false
  lock : Bool := false
  anDone : Bool := false
  paused : Bool := false
  /-- Back-pressure holds the parser buffer (R107, R343). -/
  held : Bool := false
  parser : List RxItem := []
  control : List RxItem := []
  /-- The eight transmit queues, by queue number. -/
  txq : Cells (List QItem) := []
  arp : List ArpEntry := []
  /-- Elapsed time of the latest DROP_FULL event (R343). -/
  dropEvt : Option Nat := none
  deriving DecidableEq, Repr, Inhabited

/-- A node-table entry (R354): source, latest sequence numbers taken, forwarded toward port A and toward port B. -/
structure NodeEntry where
  src : Nat
  seen : Nat
  seqs : List Nat
  fwdA : List Nat
  fwdB : List Nat
  deriving DecidableEq, Repr, Inhabited

/-- The redundancy stage of a port pair. -/
structure NetPair where
  nodes : List NodeEntry := []
  seq : Nat := 0
  supSeq : Nat := 0
  deriving DecidableEq, Repr, Inhabited

/-- A host frame whose descriptor waits for room in a queue (R353): transmit ring and descriptor index. -/
structure TxWait where
  ring : Nat
  idx : Nat
  deriving DecidableEq, Repr, Inhabited

/-- The network. -/
structure Net where
  ports : Cells NetPort := []
  pairs : Cells NetPair := []
  /-- A receive or transmit ring stopped at a descriptor the host still owns (R351), by ring (4 to 7 transmit). -/
  stopped : Cells Bool := []
  txWait : List TxWait := []
  /-- M0 (R359): link, auto-negotiation, Keeper's receive queue and its drops. -/
  m0Link : Bool := false
  m0An : Bool := false
  m0Queue : List Bytes := []
  m0Drops : Nat := 0
  deriving DecidableEq, Repr, Inhabited

end Sys2Proof.Machine
end

