-- ==== Sys2Proof/Machine/State/Out.lean ====
section
/-!
DEFINITION. GOOSE publications and subscriptions, and the redundant pair (chapter 08): configuration and state.
-/
namespace Sys2Proof.Machine

/-- Identity of a publication on one side (R259, R266). -/
structure PubId where
  appid : Nat := 0
  dst : Nat := 0
  gocbRef : Bytes := []
  datSet : Bytes := []
  goId : Bytes := []
  deriving DecidableEq, Repr, Inhabited

/-- A publication record of section 0x000E (R266): members are type and whether a quality follows. -/
structure PubCfg where
  part : Nat := 0
  kind : Nat := 3
  ports : Nat := 0
  queue : Nat := 0
  auth : Bool := false
  tagged : Bool := false
  key : Nat := 0
  prio : Nat := 0
  vid : Nat := 0
  confRev : Nat := 0
  tmin : Nat := 1000
  tmax : Nat := 1000000
  members : List (Nat × Bool) := []
  idA : PubId := {}
  idB : PubId := {}
  deriving DecidableEq, Repr, Inhabited

/-- A routing of a GOOSE subscription (R267). -/
structure GooseRoute where
  member : Nat
  type : Nat
  target : Nat
  op : Nat
  deriving DecidableEq, Repr, Inhabited

/-- A subscription record of section 0x000E (R267). -/
structure GSubCfg where
  part : Nat := 0
  auth : Bool := false
  sgrp : Bool := false
  appid : Nat := 0
  dst : Nat := 0
  ports : Nat := 0
  key : Nat := 0
  confRev : Nat := 0
  gocbRef : Bytes := []
  routes : List GooseRoute := []
  deriving DecidableEq, Repr, Inhabited

/-- The common fields of section 0x000E (R265). -/
structure OutHdr where
  pairId : Nat := 0
  refPorts : Nat := 0
  refKey : Nat := 0
  refIp : Nat := 0
  refUdp : Nat := 0
  hbWait : Nat := 300
  tkoCycles : Nat := 1
  verdictWait : Nat := 100
  revertHold : Nat := 10
  hbPub : Nat := 0xFFFF
  deriving DecidableEq, Repr, Inhabited

/-- Section 0x0010 (R294): decision members as publication and member, or templates of a referee image. -/
structure RedCfg where
  id : Nat := 0
  entries : List (Nat × Nat) := []
  deriving DecidableEq, Repr, Inhabited

/-- A dataset member's value with its quality word. -/
structure MemberVal where
  val : Val
  q : Qual
  deriving DecidableEq, Repr, Inhabited

/-- A publication's stream (R261, R262). -/
structure PubSt where
  /-- stNum and sqNum last sent, stNum retained in MRAM. -/
  stNum : Nat := 0
  sqNum : Nat := 0
  /-- Dataset last sent, none since the start. -/
  sent : Option (List GooseVal) := none
  /-- Member values in place, and members written for later tags: tag, member, value. -/
  vals : Cells (Option MemberVal) := []
  staged : List (Nat × Nat × MemberVal) := []
  /-- Datasets that GOOSE_PUB handed over and whose cycle has not closed, by tag, newest first. -/
  handed : List (Nat × List MemberVal) := []
  /-- Interval to the next transmission in µs, and the instant of the change (TAI seconds, ns, TimeQuality). -/
  interval : Nat := 0
  chgSec : Nat := 0
  chgNs : Nat := 0
  chgQual : Nat := 0
  deriving DecidableEq, Repr, Inhabited

/-- States of OUT_SUB_STAT a subscription keeps (R308). -/
inductive GSubState where
  | unseen | valid | expired | confMismatch
  deriving DecidableEq, Repr, Inhabited

/-- A GOOSE subscription (R264). -/
structure GSubSt where
  state : GSubState := .unseen
  last : Option (Nat × Nat) := none
  earlier : List Nat := []
  /-- No frame accepted since the partition went Live. -/
  first : Bool := false
  /-- Values delivered last, by routing. -/
  vals : List MemberVal := []
  /-- The source is simulated (R170), the last accepted frame had a test quality. -/
  simSrc : Bool := false
  test : Bool := false
  /-- Group delivered last by a settings-group source (R145). -/
  grp : Option Int := none
  bad : Nat := 0
  deriving DecidableEq, Repr, Inhabited

/-- A copy on its way into the Standby (R284): its records in order, complete with COPY_END, kept for a verdict, its bound
on the elapsed-time count. -/
structure CopyIn where
  tag : Nat
  recs : List CopyRec := []
  ended : Bool := false
  /-- The digests of the tag agree, or the rules keep the Active. -/
  clear : Bool := false
  held : Bool := false
  due : Option Nat := none
  deriving DecidableEq, Repr, Inhabited

/-- What a Referee has of one unit (R290 to R292): its latest STATUS and the elapsed time of it, its reports. -/
structure RefUnit where
  role : Nat := 0
  fit : Bool := false
  epoch : Nat := 0
  claim : Nat := 0
  at_ : Option Nat := none
  /-- Elapsed time and fit of the latest STATUS with role Active. -/
  actAt : Option Nat := none
  actFit : Bool := false
  /-- Reports: tag, digest, decision vector; newest first, at most 64. -/
  reports : List (Nat × Nat × Nat) := []
  deriving DecidableEq, Repr, Inhabited

/-- The outputs block and the pair. -/
structure Out where
  pubs : Cells PubSt := []
  subs : Cells GSubSt := []
  /-- OUT_UNIT in force since the latest ROLE_SET (R275). -/
  unit : Nat := 1
  claiming : Bool := false
  /-- Tag of the latest cycle boundary, none since the start. -/
  lastTag : Option Nat := none
  /-- Towpath: lanes in lock, up, the peer's latest HELLO with role, epoch and fit kept current by HEARTBEAT. -/
  lanes : Nat := 0
  towUp : Bool := false
  peer : Option HelloData := none
  /-- Largest epoch seen in frames of the pair on the process bus, and EPOCH_MAX of the latest Referee message. -/
  busEpoch : Nat := 0
  refEpoch : Nat := 0
  refPresent : Bool := false
  /-- The Active's heartbeat frame has been missing for HB_WAIT (R302); a heartbeat of the peer was heard since Live. -/
  hbLost : Bool := false
  hbHeard : Bool := false
  /-- The role decision of R279 is open. -/
  deciding : Bool := false
  yielding : Bool := false
  /-- Takeover interval: its first and last tag (R298). -/
  tko : Option (Nat × Nat) := none
  /-- Test value and takeover bit the peer showed last. -/
  peerTest : Option TestVal := none
  peerTko : Bool := false
  /-- Own digests by tag: output digest, state digest, elapsed time; the peer's; newest first, at most 64. -/
  own : List (Nat × Nat × Nat × Nat) := []
  theirs : List (Nat × Nat × Nat) := []
  /-- Tags whose digests were compared and differed without a verdict yet. -/
  open_ : List Nat := []
  copies : List CopyIn := []
  /-- Copies dropped unapplied since the Standby was last synchronised, and the tag of the latest applied copy (R290, R297). -/
  lost : List CopyIn := []
  copied : Nat := 0
  /-- Standby: the sweep has ended and the next boundary makes it Synchronised. Active: records of the sweep left to send. -/
  sweepEnd : Bool := false
  sweeping : Bool := false
  sweepLeft : List CopyRec := []
  /-- Revert: t_r as requested by this unit and whether acknowledged, and t_r granted to the peer (R304). -/
  revReq : Option (Nat × Bool) := none
  revOut : Option Nat := none
  /-- Elapsed time since which the conditions of R303 have held. -/
  revSince : Option Nat := none
  /-- Referee messages: own sequence number, the latest accepted by sender, requests sent since the start (R289). -/
  seq : Nat := 0
  seqs : Cells (Option Nat) := []
  reqs : List Nat := []
  /-- As a Referee: what it has of each unit, epoch granted, its own decision bits by tag. -/
  units : Cells RefUnit := []
  /-- The Active's Test value as the Referee has it (R69 I4). -/
  refTest : Option TestVal := none
  granted : Option Nat := none
  vec : List (Nat × Nat × Bool) := []
  deriving DecidableEq, Repr, Inhabited

end Sys2Proof.Machine
end

