-- ==== Sys2Proof/Machine/State/Rec.lean ====
section
/-!
DEFINITION. Triggers and disturbance recording (chapter 11): configuration and state.
-/
namespace Sys2Proof.Machine

/-- A definition record of section 0x000C (R369): digital entries are template, operand and bit. -/
structure RecDef where
  retrig : Bool := false
  autoExport : Bool := false
  holdMode : Nat := 0
  measCyc : Nat := 1
  pre : Nat := 0
  post : Nat := 1
  maxLen : Nat := 1
  holdT : Nat := 0
  holdN : Nat := 0
  format : Nat := 0
  ans : List Nat := []
  digs : List (Nat × Nat × Nat) := []
  name : Bytes := []
  deriving DecidableEq, Repr, Inhabited

/-- A level-trigger record of section 0x000C: levels as words. -/
structure LvlCfg where
  under : Bool := false
  rms : Bool := false
  ch : Nat := 0
  l : Nat := 0
  q : Nat := 0
  mask : Nat := 0
  deriving DecidableEq, Repr, Inhabited

/-- Section 0x000C. -/
structure RecCfg where
  defs : Cells RecDef := []
  lvls : Cells LvlCfg := []
  deriving DecidableEq, Repr, Inhabited

/-- A row or gap entry of the capture ring (R366, R367). `src` is a subscription, or 512 plus a template; `ix` its sample
index or tag; `time` the row instant in units of 2^-48 ns. -/
structure CapRow where
  src : Nat
  ix : Int
  time : Nat
  gap : Bool := false
  qual : Qual := 0
  inv : Nat := 0
  mark : Nat := 0
  reason : Nat := 0
  count : Nat := 0
  words : List Nat := []
  deriving DecidableEq, Repr, Inhabited

/-- A source of rows: its latest index, consecutive rows with every value invalid, rows missing since (R367). -/
structure CapSrc where
  last : Option Int := none
  badRun : Nat := 0
  down : Bool := false
  deriving DecidableEq, Repr, Inhabited

/-- A level trigger: operated, its previous evaluated value with its sample index. -/
structure LvlSt where
  on : Bool := false
  prev : Option (Nat × Int) := none
  deriving DecidableEq, Repr, Inhabited

/-- A trigger (R371, R378): its source in the order of R376 (0 level, 1 template, 2 manual) with its number, its instant,
the kind of R373 and the value. -/
structure Trigger where
  cls : Nat
  num : Nat
  time : Nat
  kind : Nat := 0
  val : Nat := 0
  deriving DecidableEq, Repr, Inhabited

/-- A measurement with its validity, and the row instant of PEAK (R384). -/
structure Measure where
  val : Nat
  valid : Nat
  time : Nat := 0
  deriving DecidableEq, Repr, Inhabited

/-- An analogue channel of a record as the image named it at the opening: its stream, its word in the stream's rows, and
what R384 and R385 need of it. -/
structure RecChan where
  chan : Nat
  sub : Nat := 0
  pos : Nat := 0
  kind : Nat := 0
  skew : Nat := 0
  f0 : Nat := 50
  name : Bytes := []
  deriving DecidableEq, Repr, Inhabited

/-- A record (R376 to R384). -/
structure RecFile where
  num : Nat
  def_ : Nat
  cfg : RecDef
  /-- The reference stream (R370) with its rate; the channels; the words of the digital entries in their rows. -/
  ref : Option Nat := none
  rate : Nat
  chans : List RecChan := []
  digPos : List Nat := []
  /-- What the export names (R385, R386): IMAGE_ID, station, time-quality code at the trigger point, and at the close the
  UTC offset with the latest leap second and its direction. -/
  imageId : Nat := 0
  station : Bytes := []
  tmq : Nat := 0
  utc : Option (Int × Option (Nat × Nat)) := none
  /-- Elapsed time and TAI second of the opening; trigger point and primary trigger. -/
  openAt : Nat
  openSec : Nat
  primary : Trigger
  /-- Sample at which a move of R378 has put the end; the end passed MAXLEN. -/
  ext : Option Int := none
  trigs : List Trigger := []
  /-- Close reason and instant (local clock); the record ends before `stopAt`. -/
  closed : Option (Nat × Nat) := none
  stopAt : Option Nat := none
  /-- Ring position of the next row to copy, rows as stored, rows lost to overrun with the first one's instant. -/
  next : Nat := 0
  rows : List CapRow := []
  lost : Option (Nat × Nat) := none
  streaming : Bool := false
  /-- Instant of the primary trigger's end. -/
  primEnd : Option Nat := none
  meas : Option (List (List Measure)) := none
  deriving DecidableEq, Repr, Inhabited

/-- A definition (R375): its open record. -/
structure DefSt where
  disarmed : Bool := false
  hold : Bool := false
  cnt : Nat := 0
  rec_ : Option Nat := none
  last : Nat := 0
  deriving DecidableEq, Repr, Inhabited

/-- An export that waits (R385): record, FORMAT byte, time code, BAR2 offset and length, handles reserved for its files. -/
structure ExportJob where
  num : Nat
  format : Nat
  timeCode : Int
  off : Nat
  len : Nat
  handles : List Nat
  deriving DecidableEq, Repr, Inhabited

/-- The REC block, the capture ring and the record store. -/
structure Rec where
  ring : List CapRow := []
  /-- Rows that have left the ring. -/
  base : Nat := 0
  srcs : Cells CapSrc := []
  lvls : Cells LvlSt := []
  defs : Cells DefSt := []
  next : Nat := 0
  recs : List RecFile := []
  exports : List ExportJob := []
  deriving DecidableEq, Repr, Inhabited

end Sys2Proof.Machine
end

