-- ==== Sys2Proof/Machine/State/Sv.lean ====
section
/-!
DEFINITION. Sampled-value ingress and the filter array (chapter 05): configuration and state.
-/
namespace Sys2Proof.Machine

/-- A subscription record of section 0x0007 (R158). -/
structure SubCfg where
  part : Nat := 0
  localOk : Bool := false
  auth : Bool := false
  missMode : Nat := 0
  appid : Nat := 0
  vid : Nat := 0
  dst : Nat := 0
  ports : Nat := 0
  nasdu : Nat := 1
  confRev : Nat := 0
  rate : Nat := 4800
  nch : Nat := 1
  w : Nat := 0
  holdMax : Nat := 1
  key : Nat := 0
  h : Nat := 100
  svId : Bytes := []
  deriving DecidableEq, Repr, Inhabited

/-- A filter-channel record of section 0x0008 (R182): SCALE and EXTDELAY as words, active routings by output kind. -/
structure ChanCfg where
  sub : Nat := 0
  idx : Nat := 0
  kind : Nat := 0
  group : Nat := 0
  scale : Nat := 0
  extDelay : Nat := 0
  outs : List (Option (Nat × Nat)) := []
  deriving DecidableEq, Repr, Inhabited

/-- A Palette body of section 0x0009 (R185), coefficients as words. -/
structure PalCfg where
  cls : Nat := 0
  rr : Nat := 0
  delay : Nat := 0
  fir : List Nat := []
  win : List (Nat × Nat) := []
  deriving DecidableEq, Repr, Inhabited

/-- A group record of section 0x0009 (R184). -/
structure GroupCfg where
  cicN : Nat := 0
  cicR : Nat := 1
  firR : Nat := 1
  freqMode : Nat := 0
  f0 : Nat := 50
  xf : Nat := 0
  pals : List PalCfg := []
  deriving DecidableEq, Repr, Inhabited

/-- An accepted sample of a stream: its index at the stream's rate, count within the second, values with quality. -/
structure SvItem where
  ix : Int
  cnt : Nat
  vals : List (Int × Qual)
  /-- Values and qualities as received (R167). -/
  raw : List (Int × Nat)
  sim : Bool
  port : Nat
  deriving DecidableEq, Repr, Inhabited

/-- The states of SV_STAT.STATE that a stream keeps; blocked and not configured are shown from elsewhere (R195). -/
inductive SvState where
  | unseen | sync | unsync | wrongRate | mismatch | lost
  deriving DecidableEq, Repr, Inhabited

/-- The supervision of one subscribed stream. Tag indices are not reduced modulo 2^32. -/
structure SvStream where
  state : SvState := .unseen
  /-- Synchronisation of the latest accepted ASDU. -/
  synced : Bool := true
  /-- Next tag index to emit, none before the stream's first tag. -/
  next : Option Int := none
  /-- Accepted samples not yet emitted, and the latest 64 accepted ones that were emitted (R167). -/
  store : List SvItem := []
  done : List SvItem := []
  /-- Consecutive good ASDUs in the wrong-rate or mismatch state (R166). -/
  good : Nat := 0
  /-- Running lengths of missing tags and, for D = 3, of missing samples (R169). -/
  missRun : Nat := 0
  missSub : Nat := 0
  /-- Values last emitted. -/
  last : List Int := []
  /-- Highest index accepted with its smpCnt, and whether the stream has shown a smpCnt of RATE or more, and so wraps at 65,536
  (R163). -/
  high : Option (Int × Nat) := none
  wide : Bool := false
  /-- δ of the latest frames, newest first, in units of 2^-48 ns (R162). -/
  deltas : List Int := []
  /-- Scheduled slip: its tag index and whether it inserts (R162), and the index at which one that has begun discards. -/
  slip : Option (Int × Bool) := none
  drop : Option Int := none
  /-- Blocks and unblocks by effective tag index, in order (R172). -/
  blocks : List (Int × Bool) := []
  simSrc : Bool := false
  test : Bool := false
  loc : Bool := false
  port : Nat := 0
  lastCnt : Nat := 0
  lastSynch : Nat := 0
  /-- The next sample delivered to the lane follows a discontinuity (R179). -/
  disc : Bool := false
  deriving DecidableEq, Repr, Inhabited

/-- A sample delivered to its filter lane. -/
structure LaneSample where
  sub : Nat
  tag : Option Nat
  /-- smpCnt of a synchronised stream, none otherwise (R177). -/
  cnt : Option Nat
  disc : Bool
  vals : List (Int × Qual)
  lost : Bool
  /-- Simulation marker of the capture ring (R170). -/
  sim : Bool
  /-- Index at the stream's rate; values of R169; unsynchronised (R366). -/
  ix : Int
  fill : Bool
  unsync : Bool
  deriving DecidableEq, Repr, Inhabited

/-- A filter channel: input history newest first (raw value, quality), latest RMS. -/
structure ChanSt where
  hist : List (Int × Qual) := []
  rms : Nat := 0
  rmsQ : Qual := 0x011
  deriving DecidableEq, Repr, Inhabited

/-- A fade in progress or an abrupt switch that waits for its tag: effective tag and new Palette (R189). -/
structure FadeSt where
  etag : Nat
  pal : Nat
  fade : Bool
  deriving DecidableEq, Repr, Inhabited

/-- A channel group. -/
structure GroupSt where
  active : Nat := 0
  pending : Option Nat := none
  fade : Option FadeSt := none
  /-- Angles of the reference phasor P with their quality, newest first (R176). -/
  refs : List (Nat × Qual) := []
  /-- COEF_UE of its Palette not yet rewritten (R197). -/
  coefUe : Bool := false
  deriving DecidableEq, Repr, Inhabited

/-- The sample count of a stream in its lane: samples since the start or a discontinuity, count within the second. -/
structure LaneSt where
  age : Nat := 0
  cnt : Nat := 0
  deriving DecidableEq, Repr, Inhabited

/-- The SV parser and the filter array. -/
structure Sv where
  streams : Cells SvStream := []
  /-- Delay reports of the partition were sent (R181). -/
  reported : Cells Bool := []
  lanes : List LaneSample := []
  laneSt : Cells LaneSt := []
  chans : Cells ChanSt := []
  groups : Cells GroupSt := []
  /-- Latest tag of each domain at the latest strobe of FLT: its apply point is at the first one after (R187). -/
  fltFrom : Cells Nat := []
  /-- The fade queue: groups in order of acceptance (R189). -/
  queue : List Nat := []
  deriving DecidableEq, Repr, Inhabited

end Sys2Proof.Machine
end

