-- ==== Sys2Proof/Machine/State/Img.lean ====
section
/-!
DEFINITION. Partitions and their loaded images (chapter 02): configuration by section, and partition states.
-/
namespace Sys2Proof.Machine

/-- Partition states (R56). -/
inductive PartState where
  | absent | loading | halted | live
  deriving DecidableEq, Repr, Inhabited

/-- The sections of one partition's image, decoded. -/
structure PartImage where
  /-- IMAGE_ID of the container, referee flag, station name. -/
  imageId : Nat := 0
  referee : Bool := false
  station : Bytes := []
  /-- Section 0x0001: master sample rate, 0 for none, and home set of clusters (a mask). -/
  rate : Nat := 0
  homeSet : Nat := 0
  /-- Its reservation (R53): operand slots, in-flight ceiling, worst-case dispatch rate in tasks per second. -/
  reserve : Nat × Nat × Nat := (0, 0, 0)
  /-- Section 0x0011: kind, number and reference (R498). -/
  names : List (Nat × Nat × Bytes) := []
  templates : Cells Template := []
  /-- Bound cluster plus one by template (R80), 0 for unbound. -/
  bound : Cells Nat := []
  flows : Cells FlowCfg := []
  /-- Sections 0x0007 to 0x0009. -/
  subs : Cells SubCfg := []
  chans : Cells ChanCfg := []
  groups : Cells GroupCfg := []
  /-- Section 0x000A. -/
  ins : Cells InCfg := []
  outs : Cells OutCfg := []
  /-- Section 0x000B. -/
  wad : WadCfg := {}
  /-- Section 0x000C. -/
  rec_ : RecCfg := {}
  /-- Section 0x000D. -/
  mtr : MtrCfg := {}
  /-- The sections' bytes in section-table order (R443). -/
  raw : List Bytes := []
  /-- Section 0x000E, and section 0x0010. -/
  outHdr : OutHdr := {}
  hasOut : Bool := false
  pubs : Cells PubCfg := []
  gsubs : Cells GSubCfg := []
  red : Option RedCfg := none
  deriving DecidableEq, Repr, Inhabited

/-- A committed image of a partition with the SEC_VERSION of its container (R50, R60). -/
structure Committed where
  img : PartImage
  ver : Nat
  deriving DecidableEq, Repr, Inhabited

/-- The common sections: port map and delay-list plan (R40). -/
structure Common where
  ports : PortMap := {}
  delays : Cells DelayCfg := []
  deriving DecidableEq, Repr, Inhabited

/-- What follows a partition's halt: nothing (PARTITION_HALT), the load of a committed new image, the load of the committed
image (rung 2), or Absent (R62). -/
inductive AfterHalt where
  | stay
  | load (c : Committed)
  | reload
  | absent
  deriving DecidableEq, Repr, Inhabited

/-- One partition. -/
structure Part where
  state : PartState := .absent
  image : Option PartImage := none
  /-- Step of R59 that a commit, halt or re-image of the partition has reached, 0 for none. -/
  step : Nat := 0
  /-- It has passed its halt point: no token admitted, no task issued (R112). -/
  stopped : Bool := false
  /-- Elapsed-time count at its halt point, at which its delay entries froze (R112, R114). -/
  haltAt : Nat := 0
  /-- A halt is on its way, and what follows it. -/
  next : Option AfterHalt := none
  /-- Tag of its latest cycle boundary (R57), none since it went Live. -/
  lastTag : Option Nat := none
  /-- While Loading: the new image that is being loaded, none for a committed one; whether the load has ended; older copies
  left to fall back to (R60, R495). -/
  fresh : Option Committed := none
  loaded : Bool := false
  older : List Committed := []
  /-- The load is a rung-2 re-image or a start: no floor is raised and no copy overwritten. -/
  starting : Bool := false
  deriving DecidableEq, Repr, Inhabited

/-- A commit in progress (R59, R62): full image, its partitions with their images, its common sections, whether it still waits
for a takeover or a revert to end (R63). -/
structure Commit where
  full : Bool
  imgs : Cells (Option Committed)
  common : Option Common
  waiting : Bool
  /-- The common sections have been replaced and the loads have begun. -/
  begun : Bool
  /-- Partitions that recovery took out of the commit (R63). -/
  out : List Nat := []
  deriving DecidableEq, Repr, Inhabited

/-- Structure images outside the partitions (R50, R58, R60): the staged container, the committed copies in NAND with the newer
first, the security-version floors, the commit in progress, the result of the latest commit. -/
structure Imgs where
  staged : Option Bytes := none
  copies : Cells (List Committed) := []
  commons : List Common := []
  floors : Cells Nat := []
  commit : Option Commit := none
  result : Nat := 0
  deriving DecidableEq, Repr, Inhabited

end Sys2Proof.Machine
end

