-- ==== Sys2Proof/Machine/State/Kpr.lean ====
section
/-!
DEFINITION. Keeper, start-up, health and recovery (chapter 15): their state.
-/
namespace Sys2Proof.Machine

/-- A file in Keeper's store (R114, R488): its kind and bytes. -/
structure KFile where
  kind : Nat
  data : Bytes
  deriving DecidableEq, Repr, Inhabited

/-- Keeper and its retained values (log 11). -/
structure Kpr where
  /-- Operating time at power good in 1/256 s, and power cycles (R38, R451). -/
  opBase : Nat := 0
  pcyc : Nat := 0
  /-- KPR_STAT.READY and KSTATE (0 booting, 1 running, 2 restarting), BUSY, BOOTFAIL. -/
  ready : Bool := false
  kstate : Nat := 0
  busy : Bool := false
  bootFail : Bool := false
  /-- Shed level and seconds above 90 % and below 70 % (R491). -/
  shed : Nat := 0
  lowSecs : Nat := 0
  /-- Request and response buffers (R485), and the request Keeper copied at the doorbell. -/
  req : List Host.Cell := []
  rsp : List Host.Cell := []
  copied : Bytes := []
  files : Cells KFile := []
  nextHandle : Nat := 1
  deriving DecidableEq, Repr, Inhabited

/-- Power of the module (R495, R513, R560): without its rails, in the start sequence or running, or held in thermal Stop. -/
inductive PowerState where
  | off | on | thermalStop
  deriving DecidableEq, Repr, Inhabited

/-- Health, recovery, power and temperature (chapters 15 and 17). The clocks, voltages and slacks stand in the registers
PE_CL_CLKn, HLTH_CL_MARGINn and HLTH_IS_MARGINi. -/
structure Hlth where
  power : PowerState := .off
  /-- KPR_STAT.STAGE: the start step in progress, 0xF once complete. -/
  stage : Nat := 0
  /-- Elapsed time of the power good or reset that began the start, and whether a device reset did. -/
  startAt : Nat := 0
  afterReset : Bool := false
  /-- Cause of the previous stop (R497 detail 1): 0 supply failure, 1 rung 4, 2 unknown. -/
  stopCause : Nat := 2
  /-- Successive rung-3 starts that have not reached step 9 in 12 s; operating time of the latest automatic rung 4 (R512). -/
  failedStarts : Nat := 0
  rung4At : Option Nat := none
  /-- Operating times of rung-2 triggers by partition, of watchdog expiries, and of rewrites by object (16 × cluster + engine,
  or 1,024 + group) (R500, R512). -/
  trigs : List (Nat × Nat) := []
  wdogs : List Nat := []
  rewrites : List (Nat × Nat) := []
  /-- Elapsed time of the latest watchdog expiry. -/
  wdogAt : Nat := 0
  /-- Rotating self-test (R501): next cluster, cluster being drained or tested, its first failure noted; the last 16 results
  (cluster, result, duration in ms), newest first. -/
  rot : Nat := 0
  testing : Option Nat := none
  retest : Bool := false
  drainAt : Nat := 0
  results : List (Nat × Nat × Nat) := []
  /-- Cluster clocks that await a drain, in 10 MHz units (R19). -/
  pendClk : Cells (Option Nat) := []
  /-- Slack readings taken at 0.86 V by cluster, newest first: operating seconds, clock, slack in 0.01 % (R508). -/
  readings : Cells (List (Nat × Nat × Int)) := []
  /-- Clusters whose capacity is to be freed by the halt of concentration (R507). -/
  shedFor : Option (Nat × Nat) := none
  /-- Thermal state 0 to 3 (R560), plate in 0.1 °C, hottest junction by island, partitions halted by Shed. -/
  thermal : Nat := 0
  plate : Int := 0
  junctions : List Int := []
  shedMask : Nat := 0
  /-- Clusters whose flow-state memory failed its test (R502), as a mask. -/
  flowBad : Nat := 0
  /-- PWR_CYCLE_REQ_N is asserted (R513). -/
  pwrReq : Bool := false
  /-- DRAM content has been lost in this command (R510). -/
  wipe : Bool := false
  deriving DecidableEq, Repr, Inhabited

end Sys2Proof.Machine
end

