-- ==== Sys2Proof/Machine/State.lean ====
section
/-!
DEFINITION. The state of the module and its reset value.
-/
namespace Sys2Proof.Machine

/-- State of the module (all but its memories and its queue of commands), by block. -/
structure Mod where
  /-- Registers that do not read their reset value, by register-bank key (`regKey`). -/
  regs : Cells Word := []
  /-- Shadow copies of RWS registers that differ from the reset value (R532). -/
  shadow : Cells Word := []
  timers : List Timer := []
  /-- What has left the module, newest first (log 7). -/
  sent : List Sent := []
  /-- Count of free values drawn (log 6). -/
  free : Nat := 0
  factory : Factory := {}
  mode : Modes := {}
  clk : Clk := {}
  host : HostIf := {}
  evr : Evr := {}
  key : Key := {}
  kpr : Kpr := {}
  hlth : Hlth := {}
  img : Imgs := {}
  net : Net := {}
  td : Td := {}
  pe : Pe := {}
  sv : Sv := {}
  bsn : Bsn := {}
  wad : Wad := {}
  out : Out := {}
  rec_ : Rec := {}
  dma : Dma := {}
  mtr : Mtr := {}
  /-- The four partitions by code: 0 protection, 1 concentration, 2 metering, 3 recording. -/
  parts : Cells Part := []
  delayPlan : Cells DelayCfg := []
  /-- Rung-2 re-images the hardware asks of Keeper: partition and trigger (R84, R512). -/
  rung2 : List (Nat × Nat) := []
  /-- The loaded port map (section 0x000F). -/
  portMap : PortMap := {}
  deriving DecidableEq, Repr, Inhabited

/-- The two byte-addressed memories: the module's shared DRAM with the working buffers, by module address (R33, R391),
and the host's own memory, by PCIe address. An unlisted byte reads 0 (log 10). -/
structure Mem where
  dram : List Host.Cell := []
  host : List Host.Cell := []
  deriving DecidableEq, Repr, Inhabited

/-- A write of bytes into one of the memories. -/
structure MemWrite where
  /-- Host memory (true) or module DRAM. -/
  toHost : Bool
  addr : Nat
  bytes : Bytes
  deriving DecidableEq, Repr, Inhabited

/-- The state of the block: the commands that wait, first in first out, the memories and the module. -/
structure State where
  pending : List Instr := []
  mem : Mem := {}
  m : Mod := {}
  deriving DecidableEq, Repr, Inhabited

/-- Reasons a step stops with a fault: none. The spec gives every command an effect, and a command whose event cannot occur in
the state it meets leaves it unchanged (log 1). -/
inductive Fault where
  deriving DecidableEq, Repr

/-- Reasons a step is refused. -/
inductive Refusal where
  /-- A command that has no meaning yet: raised only by an arm of `exec`; safe. -/
  | notModelled (mnemonic : String)
  deriving DecidableEq, Repr

/-- The module as it stands before its supply comes up: every register at its reset value, memory with nothing listed, no
command waiting. POWER_GOOD starts it (R495; logs 5, 8, 9, 11, 12). -/
def State.reset : State := {}

end Sys2Proof.Machine
end

