-- ==== Sys2Proof/Machine/Ops.lean ====
section
/-!
DEFINITION. The named operations over registers, counters, interrupts, timers and events that every block shares.
-/
namespace Sys2Proof.Machine

/-! ## Registers -/

/-- The live value of the register at `off`, object `obj` of the selection that shows it (0 for an unselected one). -/
def regO (m : Mod) (off obj : Nat) : Word := cellGet regReset m.regs (regKey off obj)

/-- The module with the live value of a register set. -/
def setRegO (m : Mod) (off obj : Nat) (v : Word) : Mod :=
  { m with regs := cellSet regReset m.regs (regKey off obj) v }

/-- The live value of an unselected register. -/
def reg (m : Mod) (off : Nat) : Word := regO m off 0

/-- The module with the live value of an unselected register set. -/
def setReg (m : Mod) (off : Nat) (v : Word) : Mod := setRegO m off 0 v

/-- Bits `hi` down to `lo` of a register's live value. -/
def regBits (m : Mod) (off hi lo : Nat) : Nat := bitsOf (reg m off).toNat hi lo

/-- A word with its bits `hi` down to `lo` replaced by the low bits of `x`. -/
def putBits (v : Word) (hi lo x : Nat) : Word :=
  let k := 2 ^ (hi - lo + 1)
  let n := v.toNat
  BitVec.ofNat 32 (n - bitsOf n hi lo * 2 ^ lo + (x % k) * 2 ^ lo)

/-- The module with the bits `hi` down to `lo` of a register replaced. -/
def setBits (m : Mod) (off hi lo x : Nat) : Mod := setReg m off (putBits (reg m off) hi lo x)

/-- The shadow copy of an RWS register (R532). -/
def shadowReg (m : Mod) (off : Nat) : Word := cellGet regReset m.shadow off

/-- The module with an RWS register's shadow copy set. -/
def setShadow (m : Mod) (off : Nat) (v : Word) : Mod :=
  { m with shadow := cellSet regReset m.shadow off v }

/-- An RWS register taking a value from the image or from Keeper, live and shadow together (R39). -/
def loadReg (m : Mod) (off : Nat) (v : Word) : Mod := setShadow (setReg m off v) off v

/-! ## Time -/

/-- One nanosecond on the elapsed-time count (units of 2^-48 ns). -/
def nsUnit : Nat := 2 ^ 48

/-- `n` microseconds, milliseconds, seconds on the elapsed-time count. -/
def usec (n : Nat) : Nat := n * 1000 * nsUnit
def msec (n : Nat) : Nat := n * 1000000 * nsUnit
def secs (n : Nat) : Nat := n * 1000000000 * nsUnit

/-- Operating time in 1/256 s (R451): what was retained plus the time since power good. -/
def opTime (m : Mod) : Nat := m.kpr.opBase + m.clk.elapsed * 256 / secs 1

/-- LOCKED of R313. -/
def clkLocked (c : Clk) : Bool := c.state == .locked

/-- TOD_VALID of R313. -/
def clkTod (c : Clk) : Bool :=
  match c.state with
  | .freeRun | .grandmaster => c.hostSet
  | .acquiring => c.fromHoldover
  | .locked | .holdover => true

/-! ## Timers -/

/-- The instant at which a timer runs out, none when it does not run. -/
def timerDue (m : Mod) (k : TimerKind) (i : Nat) : Option Nat :=
  (m.timers.find? fun t => t.kind == k && t.idx == i).map (·.due)

/-- The module without the timer. -/
def stopTimer (m : Mod) (k : TimerKind) (i : Nat) : Mod :=
  { m with timers := m.timers.filter fun t => !(t.kind == k && t.idx == i) }

/-- The module with the timer running out at instant `due`. -/
def setTimerAt (m : Mod) (k : TimerKind) (i due : Nat) : Mod :=
  { stopTimer m k i with timers := ⟨k, i, due⟩ :: (stopTimer m k i).timers }

/-- The module with the timer started for `dur` from now. -/
def startTimer (m : Mod) (k : TimerKind) (i dur : Nat) : Mod := setTimerAt m k i (m.clk.elapsed + dur)

/-- Whether the timer runs. -/
def timerOn (m : Mod) (k : TimerKind) (i : Nat) : Bool := (timerDue m k i).isSome

/-! ## Interrupts (R537, R538) -/

/-- BAR0 offset of entry `v` of the MSI-X table (R521). -/
def msixEntry (v : Nat) : Nat := 0x3F0000 + 16 * v

/-- BAR0 offset of the word of the PBA that holds vector `v`. -/
def pbaWord (v : Nat) : Nat := 0x3F8000 + 4 * (v / 32)

/-- Vector `v` is masked (bit 0 of its vector control). -/
def msixMasked (m : Mod) (v : Nat) : Bool := (reg m (msixEntry v + 12)).toNat % 2 == 1

/-- The PBA bit of a vector. -/
def pbaBit (m : Mod) (v : Nat) : Bool := (reg m (pbaWord v)).toNat.testBit (v % 32)

/-- The module with the PBA bit of a vector set or cleared. -/
def setPba (m : Mod) (v : Nat) (b : Bool) : Mod :=
  setBits m (pbaWord v) (v % 32) (v % 32) (if b then 1 else 0)

/-- The MSI-X message of a vector: sent, or noted in the PBA while the vector is masked or the link is down. -/
def msixSend (m : Mod) (v : Nat) : Mod :=
  if msixMasked m v || !m.host.linkUp then setPba m v true
  else
    let a := (reg m (msixEntry v)).toNat + 2 ^ 32 * (reg m (msixEntry v + 4)).toNat
    { m with sent := .msix v a (reg m (msixEntry v + 8)).toNat :: m.sent }

/-- FAULT and INT_EN registers of an interrupt vector with a fault register (R538). -/
def faultRegs (v : Nat) : Option (Nat × Nat) :=
  match v with
  | 0 => some (Reg.HOST_FAULT, Reg.HOST_INT_EN)
  | 1 => some (Reg.KPR_FAULT, Reg.KPR_INT_EN)
  | 2 => some (Reg.TD_FAULT, Reg.TD_INT_EN)
  | 3 => some (Reg.PE_FAULT, Reg.PE_INT_EN)
  | 4 => some (Reg.SV_FAULT, Reg.SV_INT_EN)
  | 5 => some (Reg.FLT_FAULT, Reg.FLT_INT_EN)
  | 6 => some (Reg.BSN_FAULT, Reg.BSN_INT_EN)
  | 7 => some (Reg.WAD_FAULT, Reg.WAD_INT_EN)
  | 8 => some (Reg.OUT_FAULT, Reg.OUT_INT_EN)
  | 9 => some (Reg.PTP_FAULT, Reg.PTP_INT_EN)
  | 18 => some (Reg.REC_FAULT, Reg.REC_INT_EN)
  | 19 => some (Reg.DMA_FAULT, Reg.DMA_INT_EN)
  | 36 => some (Reg.CMP_FAULT, Reg.CMP_INT_EN)
  | 41 => some (Reg.MTR_FAULT, Reg.MTR_INT_EN)
  | 42 => some (Reg.EVR_FAULT, Reg.EVR_INT_EN)
  | 43 => some (Reg.KEY_FAULT, Reg.KEY_INT_EN)
  | 44 => some (Reg.HLTH_FAULT, Reg.HLTH_INT_EN)
  | _ => if 10 ≤ v ∧ v < 18 then some (Reg.MAC_PFAULT (v - 10), Reg.MAC_PINT_EN (v - 10)) else none

/-- The interrupt condition of a vector (R537): a FAULT bit with its enable, or the DONE bit of a channel or lane. -/
def intCond (m : Mod) (v : Nat) : Bool :=
  match faultRegs v with
  | some (f, e) => reg m f &&& reg m e ≠ 0
  | none =>
    if 20 ≤ v ∧ v < 32 then (reg m Reg.DMA_DONE).toNat.testBit (v - 20)
    else if v = 37 ∨ v = 38 then (reg m Reg.CMP_DONE).toNat.testBit (v - 37)
    else false

/-- The condition of a vector evaluated again: a turn from false to true sends its message (R537). -/
def recheck (m : Mod) (v : Nat) : Mod :=
  let c := intCond m v
  let old := tabGet m.host.cond v
  let m' := { m with host := { m.host with cond := tabSet m.host.cond v c } }
  if c && !old then msixSend m' v else m'

/-- The vector whose condition depends on the register at `off`. -/
def vectorOf (off : Nat) : Option Nat :=
  (List.range 45).find? fun v => match faultRegs v with
    | some (f, e) => f == off || e == off
    | none => false

/-! ## Events (R451 to R457) -/

/-- Object value of an event that concerns no object. -/
def noObj : Nat := 0xFFFF

/-- Sets bits of a register without an event and evaluates the interrupt condition. -/
def orBits (m : Mod) (off mask : Nat) : Mod :=
  let m' := setReg m off (reg m off ||| BitVec.ofNat 32 mask)
  match vectorOf off with
  | some v => recheck m' v
  | none => m'

/-- A FAULT bit set by an occurrence that is not written to the event recorder. -/
def setFaultQuiet (m : Mod) (off bit : Nat) : Mod := orBits m off (2 ^ bit)

/-- The seal axis as it reads: not fitted on a module of ordering code VZ40-S, whatever the state behind it (R6, R64). -/
def sealState (m : Mod) : SealState := if m.factory.orderL then m.mode.sealSt else .notFitted

/-- An event as raised now: the clock's values at this instant (R451, R452). -/
def mkEvent (m : Mod) (src cls detail : Nat) (arg : Bytes) : Event :=
  let tod := clkTod m.clk
  { sec := if tod then m.clk.sec else 0, ns := m.clk.ns, locked := clkLocked m.clk, tod := tod
    pcyc := m.kpr.pcyc, opsec := opTime m / 256, opfrac := opTime m % 256
    cls := cls, detail := detail, src := src, broken := sealState m == .broken
    arg := (arg ++ List.replicate 20 0).take 20 }

/-- The 32-bit counter value after one more event, sticking at all-ones (R530). -/
def stickyInc (v : Word) (k : Nat) : Word := BitVec.ofNat 32 (min (v.toNat + k) 0xFFFFFFFF)

/-- An event that found the queue full is discarded: it counts in EVR_LOST_CNT and in the gap, and LOST sets (R457). -/
def loseEvent (m : Mod) (e : Event) : Mod :=
  let r := { m.evr with
    lostFirst := if m.evr.lostGap = 0 then e.opsec else m.evr.lostFirst
    lostGap := m.evr.lostGap + 1, lostAll := m.evr.lostAll + 1 }
  setFaultQuiet (setReg { m with evr := r } Reg.EVR_LOST_CNT (stickyInc (reg m Reg.EVR_LOST_CNT) 1)) Reg.EVR_FAULT 0

/-- An event handed to the recorder's queue; a full queue discards and counts it (R457). The first saturation of EVR_LOST_CNT
raises its class-1 event (R38, R530), which finds the same full queue. -/
def pushEvent (m : Mod) (e : Event) : Mod :=
  if m.evr.queue.length < 4096 then { m with evr := { m.evr with queue := m.evr.queue ++ [e] } }
  else
    let n := loseEvent m e
    if (reg n Reg.EVR_LOST_CNT).toNat = 0xFFFFFFFF ∧ (reg m Reg.EVR_LOST_CNT).toNat ≠ 0xFFFFFFFF then
      loseEvent n (mkEvent n (Reg.EVR_LOST_CNT / 0x10000) 1 0 (leBytes 4 (Reg.EVR_LOST_CNT % 0x10000) ++ leBytes 2 noObj))
    else n

/-- Raises an event of a block (R453: `src`) with the class, detail and argument bytes given. -/
def raiseEvent (m : Mod) (src cls detail : Nat) (arg : Bytes) : Mod := pushEvent m (mkEvent m src cls detail arg)

/-- Arguments of a class-0 event: the object, two zero bytes, then 4-byte words (R454). -/
def faultArg (obj : Nat) (vals : List Nat) : Bytes := leBytes 2 obj ++ leBytes 2 0 ++ (vals.map (leBytes 4)).flatten

/-- The source code of a register window: its index (R453, R521). -/
def srcOf (off : Nat) : Nat := off / 0x10000

/-- A FAULT bit set by an occurrence that is also written to the event recorder (class 0, R454). -/
def setFault (m : Mod) (off bit : Nat) (obj : Nat := noObj) (vals : List Nat := []) : Mod :=
  raiseEvent (setFaultQuiet m off bit) (srcOf off) 0 bit (faultArg obj vals)

/-- A state-change event, class 3: axis or object code, old value, new value, object (R454). The spec gives no number
to an axis or object: `code` is the model's own index of it and its number is free (log 20). Indices: 1 partition,
2 role, 3 test, 4 clock state, 5 time mode, 6 seal, 7 area validity, 8 SV synchronisation, 9 record, 10 shed level. -/
def stateEvent (m : Mod) (src code old new obj : Nat) : Mod :=
  raiseEvent m src 3 (Config.axisCode code % 4096) (leBytes 4 old ++ leBytes 4 new ++ leBytes 4 obj)

/-- Adds `k` to the statistics counter of an object; the first saturation writes one class-1 event (R530, R454). -/
def addCntO (m : Mod) (off obj k : Nat) : Mod :=
  let old := regO m off obj
  let new := stickyInc old k
  let m' := setRegO m off obj new
  if new.toNat = 0xFFFFFFFF ∧ old.toNat ≠ 0xFFFFFFFF then
    raiseEvent m' (srcOf off) 1 0 (leBytes 4 (off % 0x10000) ++ leBytes 2 obj)
  else m'

/-- Counts one event of an object. -/
def bumpO (m : Mod) (off obj : Nat) : Mod := addCntO m off obj 1

/-- Adds to an unselected statistics counter. -/
def addCnt (m : Mod) (off k : Nat) : Mod :=
  let old := reg m off
  let new := stickyInc old k
  let m' := setReg m off new
  if new.toNat = 0xFFFFFFFF ∧ old.toNat ≠ 0xFFFFFFFF then
    raiseEvent m' (srcOf off) 1 0 (leBytes 4 (off % 0x10000) ++ leBytes 2 noObj)
  else m'

/-- Counts one event in an unselected counter. -/
def bump (m : Mod) (off : Nat) : Mod := addCnt m off 1

/-- An ECC count register of a block: corrected in its upper half, uncorrectable in its lower; the first saturation of a half
writes the class-1 event (R530). -/
def bumpEcc (m : Mod) (off : Nat) (ue : Bool) : Mod :=
  let lo := if ue then 0 else 16
  let n := regBits m off (lo + 15) lo
  if n = 0xFFFF then m
  else
    let m := setBits m off (lo + 15) lo (n + 1)
    if n + 1 = 0xFFFF then raiseEvent m (srcOf off) 1 0 (leBytes 4 (off % 0x10000) ++ leBytes 2 noObj) else m

/-- One thing leaves the module (log 7). -/
def emit (m : Mod) (x : Sent) : Mod := { m with sent := x :: m.sent }

/-- A free value drawn: the count it is applied to, and the module with the count advanced (log 6). -/
def drawFree (m : Mod) : Nat × Mod := (m.free, { m with free := m.free + 1 })

/-! ## Access errors (R525 to R527, R541) -/

/-- An access error: its HOST_ACCERR bit, the offset, HOST_FAULT.ACCERR, the count and, as HOST_CTRL.ACCERR_EVT
says, the event. -/
def accErr (m : Mod) (bit addr : Nat) : Mod :=
  let was := (reg m Reg.HOST_FAULT).toNat.testBit 0
  let m1 := orBits m Reg.HOST_ACCERR (2 ^ bit)
  let m2 := setReg m1 Reg.HOST_ACCADDR (BitVec.ofNat 32 (addr % 0x400000))
  let m3 := bump m2 Reg.HOST_CNT_ACCERR
  let m4 := setFaultQuiet m3 Reg.HOST_FAULT 0
  if !was || regBits m Reg.HOST_CTRL 1 1 = 1 then raiseEvent m4 0 0 0 (faultArg noObj []) else m4

/-! ## Host writes and the key gate (R525, R535) -/

/-- The gate of a block is open: opened less than 1 ms ago (R535, R539). -/
def gateOpen (m : Mod) (blk : Nat) : Bool :=
  match tabGet m.host.gates blk with
  | some t => decide (m.clk.elapsed < t + msec 1)
  | none => false

/-- The module with the gate of a block closed. -/
def closeGate (m : Mod) (blk : Nat) : Mod :=
  stopTimer { m with host := { m.host with gates := tabSet m.host.gates blk none } } .keygate blk

/-- The module with the gate of a block opened now, or its 1 ms started again. -/
def openGate (m : Mod) (blk : Nat) : Mod :=
  startTimer { m with host := { m.host with gates := tabSet m.host.gates blk (some m.clk.elapsed) } } .keygate blk (msec 1)

/-- All four byte enables. -/
def fullBe (be : BitVec 4) : Bool := be == 15

/-- A host write of a whole register that is not RWB: ignored as narrow, or its effect (R525). -/
def hostWrite (m : Mod) (off : Nat) (be : BitVec 4) (f : Mod → Mod) : Mod :=
  if be = 0 then m else if fullBe be then f m else accErr m 0 off

/-- A host write of a guarded register: narrow writes ignored, a closed gate ignores it with LOCKED, an open gate admits
exactly this one write (R535). -/
def guardedWrite (m : Mod) (off : Nat) (be : BitVec 4) (f : Mod → Mod) : Mod :=
  hostWrite m off be fun m =>
    if gateOpen m (srcOf off) then f (closeGate m (srcOf off)) else accErr m 2 off

end Sys2Proof.Machine
end

