-- ==== Sys2Proof/Machine/Clock.lean ====
section
/-!
DEFINITION. The local clock and the elapsed-time count (R309 to R323): ticks, steps, slewing, the 1PPS edge, clock
states, and the passing of time that a timed command stands for (log 3).
-/
namespace Sys2Proof.Machine

/-! ## Ticks -/

/-- RATE in force as a signed number (R310, PTP_RATE). -/
def rateWord (m : Mod) : Int := signedOf 32 (reg m Reg.PTP_RATE).toNat

/-- The increment of one 25 MHz tick without the slew term, units of 2^-48 ns (R310). -/
def tickInc (m : Mod) : Nat := ((40 * nsUnit : Nat) + rateWord m * 65536 : Int).toNat

/-- The largest slew term of a tick: 200 ppm of the nominal increment (R319). -/
def slewTick : Nat := 8 * nsUnit / 1000

/-- Nanoseconds and fractions of the local clock within its second, units of 2^-48 ns. -/
def localFine (c : Clk) : Nat := c.ns * nsUnit + c.frac * 2 ^ 32 + c.sub

/-- The local clock as one number, units of 2^-48 ns since the PTP epoch. -/
def localTime (c : Clk) : Nat := c.sec * secs 1 + localFine c

/-- The clock with the value `t` (units of 2^-48 ns since the epoch). -/
def withLocal (c : Clk) (t : Nat) : Clk :=
  { c with sec := t / secs 1 % 2 ^ 64, ns := t % secs 1 / nsUnit, frac := t % nsUnit / 2 ^ 32, sub := t % 2 ^ 32 }

/-- What `n` ticks add to the clocks: increments and slew. -/
def ticksAdd (inc : Nat) (slew : Int) (n : Nat) : Int :=
  (n * inc : Nat) + (if 0 ≤ slew then min ((n * slewTick : Nat) : Int) slew else max (-((n * slewTick : Nat) : Int)) slew)

/-- The slew still to be done after `n` ticks. -/
def slewAfter (slew : Int) (n : Nat) : Int :=
  if 0 ≤ slew then max 0 (slew - (n * slewTick : Nat)) else min 0 (slew + (n * slewTick : Nat))

/-- Division rounding up. -/
def ceilDiv (a b : Nat) : Nat := if b = 0 then 0 else (a + b - 1) / b

/-- The least number of ticks that add at least `need`. What `n` ticks add is the lesser, for a slew down the greater, of what they
add with the slew term in each and with the whole slew done. -/
def ticksFor (inc : Nat) (slew : Int) (need : Nat) : Nat :=
  let done := ceilDiv ((need : Int) - slew).toNat inc
  if 0 ≤ slew then max (ceilDiv need (inc + slewTick)) done else min (ceilDiv need (inc - slewTick)) done

/-- `n` ticks that do not reach the next second. -/
def addTicks (m : Mod) (n : Nat) : Mod :=
  let d := ticksAdd (tickInc m) m.clk.slewLeft n
  let c := withLocal m.clk ((localTime m.clk : Int) + d).toNat
  { m with clk := { c with elapsed := (m.clk.elapsed + d).toNat, slewLeft := slewAfter m.clk.slewLeft n } }

/-! ## Clock states (R313, R314) -/

/-- The growth of e in Holdover: ns/s and ns/s² (R315). -/
def holdForm (m : Mod) : Nat × Nat :=
  if regBits m Reg.PTP_CTRL 2 2 = 1 && m.clk.ext10 then (5, 0) else if m.clk.longLock then (50, 4) else (500, 40)

/-- The clock in its new state, with the instants from which its lock is judged (R313), and at the exit from Holdover the growth
`form` of e in force there (R315). -/
def clkEnter (c : Clk) (form : Nat × Nat) (st : ClkState) : Clk :=
  let old := c.state
  let c := if old = .holdover then { c with holdExit := form } else c
  let c := { c with state := st }
  let c := if st = .locked then { c with lockedAt := c.elapsed, unlockedAt := none } else c
  let c := if old = .locked then
      { c with unlockedAt := some c.elapsed, longLock := decide (secs 3600 ≤ c.elapsed - c.lockedAt) } else c
  if st = .acquiring then { c with fromHoldover := old == .holdover, goodRun := 0, badRun := 0 } else c

/-- The change of clock state, with the FAULT bits of R314 and the state-change event of R454 (code 0x004, log 20). -/
def setClkState (m : Mod) (st : ClkState) : Mod :=
  let old := m.clk.state
  if old = st then m else
    let code : ClkState → Nat
      | .freeRun => 0 | .grandmaster => 1 | .acquiring => 2 | .locked => 3 | .holdover => 4
    let m := { m with clk := clkEnter m.clk (holdForm m) st }
    let m := if old = .locked then setFault m Reg.PTP_FAULT 1 else m
    let m := if st = .locked then setFault m Reg.PTP_FAULT 2 else m
    let m := if st = .holdover then setFault m Reg.PTP_FAULT 3 else m
    stateEvent m 9 4 (code old) (code st) 0

/-- The code of a Time mode (PTP_STAT.MODE). -/
def timeModeCode : TimeMode → Nat
  | .slave => 0 | .master => 1 | .boundary => 2 | .holdover => 3 | .freeRun => 4

/-- The change of the Time axis, with its state-change event (code 0x005, log 20). -/
def setTimeAxis (m : Mod) (t : TimeMode) : Mod :=
  if m.clk.mode = t then m
  else stateEvent { m with clk := { m.clk with mode := t } } 9 5 (timeModeCode m.clk.mode) (timeModeCode t) 0

/-- Whether both inputs of the external reference are valid and enabled (R318). -/
def extValid (m : Mod) : Bool := regBits m Reg.PTP_CTRL 2 2 == 1 && m.clk.ext10 && m.clk.extPps

/-- Ports leave their roles for Free-run: MASTER stays, the others are DISABLED (R331). -/
def freeRunPorts (c : Clk) : Clk :=
  { c with ports := (List.range 8).foldl (fun ps p =>
      tabMod ps p fun q => if q.state = .master then q else { q with state := .disabled }) c.ports }

/-- Ports that are enabled start listening when a PTP mode is entered (R331). -/
def listenPorts (m : Mod) : Mod :=
  { m with clk := { m.clk with
      slavePort := none, parent := none
      ports := (List.range 8).foldl (fun ps p =>
        tabMod ps p fun q => if (reg m (Reg.PTP_PCFG p)).toNat % 2 = 1
          then { q with state := .listening, foreigns := [] } else { q with state := .disabled }) m.clk.ports } }

/-- RATE at an entry into Holdover: the last value with the drift compensation, or what the 10 MHz input gives while it is valid
and enabled (R317, log 381). -/
def holdRate (m : Mod) : Mod :=
  let (k, m) := drawFree m
  setReg m Reg.PTP_RATE (BitVec.ofInt 32 (if regBits m Reg.PTP_CTRL 2 2 = 1 && m.clk.ext10 then Config.tenRate k (rateWord m)
    else rateWord m + Config.driftComp k))

/-- The clock state of a PTP master (R313, R318): Acquiring while the external reference is enabled and valid and the host has set
the time, Locked until that reference is lost or disabled, else Grandmaster (log 382). -/
def settleExt (m : Mod) : Mod :=
  if m.clk.mode ≠ .master ∨ (m.clk.state = .locked ∧ regBits m Reg.PTP_CTRL 2 2 = 1) then m
  else setClkState m (if extValid m && m.clk.hostSet then .acquiring else .grandmaster)

/-- A Time mode takes effect (R64, R313). -/
def enterTimeMode (m : Mod) (t : TimeMode) : Mod :=
  if m.clk.mode = t then m else
    match t with
    | .holdover =>
      if m.clk.mode = .slave ∨ m.clk.mode = .boundary then
        let m := { m with clk := { m.clk with cmdHoldover := true, fromMode := m.clk.mode } }
        let m := if m.clk.state = .locked ∨ m.clk.state = .acquiring then holdRate m else m
        setClkState (setTimeAxis m .holdover) .holdover
      else m
    | .freeRun =>
      let m := setTimeAxis { m with clk := freeRunPorts { m.clk with cmdHoldover := false } } .freeRun
      setClkState m .freeRun
    | .master =>
      let m := listenPorts (setTimeAxis { m with clk := { m.clk with cmdHoldover := false } } .master)
      let m := { m with clk := { m.clk with ports := (List.range 8).foldl (fun ps p =>
        tabMod ps p fun q => if q.state = .listening then { q with state := .master } else q) m.clk.ports } }
      setClkState m (if extValid m && m.clk.hostSet then .acquiring else .grandmaster)
    | .slave | .boundary =>
      let m := listenPorts (setTimeAxis { m with clk := { m.clk with cmdHoldover := false } } t)
      setClkState m .acquiring

/-- UTC offset in force and pending leap (PTP_UTC). -/
def utcOffset (m : Mod) : Int := signedOf 16 (reg m Reg.PTP_UTC).toNat
def pendingLeap (m : Mod) : Nat := regBits m Reg.PTP_UTC 17 16

/-- The TAI second at which the next UTC day begins, counted with the offset after a pending leap (R323). -/
def leapSecond (m : Mod) : Nat :=
  let off := utcOffset m
  let new := if pendingLeap m = 1 then off + 1 else if pendingLeap m = 2 then off - 1 else off
  ((((m.clk.sec : Int) - new) / 86400 + 1) * 86400 + new).toNat

/-- The UTC midnight of a pending leap: the offset changes, the leap clears, its flag sets and its event is written (R323). -/
def leapEdge (m : Mod) : Mod :=
  let lp := pendingLeap m
  let new := if lp = 1 then utcOffset m + 1 else utcOffset m - 1
  if (lp = 1 ∨ lp = 2) ∧ ((m.clk.sec : Int) - new) % 86400 = 0 then
    let m := setReg m Reg.PTP_UTC (BitVec.ofNat 32 (codedOf 16 new))
    setFault { m with clk := { m.clk with leapAt := some m.clk.sec, leapDir := lp - 1 } } Reg.PTP_FAULT 7
  else m

/-- What happens at a 1PPS edge of the local clock: a commanded Time mode takes effect (R64, R335). -/
def ppsEdge (m : Mod) : Mod :=
  match m.clk.pendMode with
  | some t => enterTimeMode { m with clk := { m.clk with pendMode := none } } t
  | none => m

/-! ## Passing of time -/

/-- The ticks up to and with the one in which the nanoseconds carry (R310). -/
def ticksToCarry (m : Mod) : Nat := max 1 (ticksFor (tickInc m) m.clk.slewLeft (secs 1 - localFine m.clk))

/-- The ticks up to and with the one that carries, and the 1PPS edge it makes. -/
def carryEdge (m : Mod) : Mod := ppsEdge (leapEdge (addTicks m (ticksToCarry m)))

/-- A step of the local clock to `t` (units of 2^-48 ns), with its counter, flag and event; it makes a 1PPS edge when
it moves the clock across one (R320, R321). -/
def stepClock (m : Mod) (t : Nat) : Mod :=
  let d : Int := ((t : Int) - localTime m.clk) / nsUnit
  let cross := t / secs 1 ≠ localTime m.clk / secs 1
  let m := { m with clk := { withLocal m.clk t with slewLeft := 0, pendStep := none } }
  let m := bump m Reg.PTP_CNT_STEP
  let m := setFault m Reg.PTP_FAULT 0 noObj [codedOf 64 d % 2 ^ 32, codedOf 64 d / 2 ^ 32]
  let m := if t % secs 1 = 0 then leapEdge m else m
  if cross then ppsEdge m else m

/-- One 25 MHz tick (R310, R320). -/
def tick (m : Mod) : Mod :=
  match m.clk.pendStep with
  | some (s, n) =>
    let e := m.clk.elapsed + tickInc m
    let m := stepClock m (s * secs 1 + n * nsUnit)
    settleExt { m with clk := { m.clk with elapsed := e, hostSet := true } }
  | none => if ticksToCarry m = 1 then carryEdge m else addTicks m 1

/-- A host time set that waits takes its tick (R320). -/
def takeSet (m : Mod) : Mod := if m.clk.pendStep.isSome then tick m else m

/-- Time passes up to the next 1PPS edge of the local clock; a host time set that waits comes first, and may make the edge. -/
def toPps (m : Mod) : Mod :=
  let m' := takeSet m
  if m'.clk.sec = m.clk.sec then carryEdge m' else m'

/-- `n` ticks, with the 1PPS edges among them; `k` bounds the number of edges. -/
def runTicks : Nat → Mod → Nat → Mod
  | 0, m, _ => m
  | k + 1, m, n =>
    let c := ticksToCarry m
    if n < c then addTicks m n else runTicks k (carryEdge m) (n - c)

/-- As many ticks as bring the elapsed-time count to `due`. -/
def runUntil (m : Mod) (due : Nat) : Mod :=
  let n := ticksFor (tickInc m) m.clk.slewLeft (due - m.clk.elapsed)
  runTicks (n / 12500000 + 2) m n

/-- Time passes until the elapsed-time count reaches `due`; nothing when it has. -/
def advanceTo (m : Mod) (due : Nat) : Mod :=
  if due ≤ m.clk.elapsed then m else
    runUntil (takeSet m) due

/-- Time passes until the local clock reaches `t` (units of 2^-48 ns since the epoch); nothing when it has. -/
def advanceLocal (m : Mod) (t : Nat) : Mod :=
  advanceTo m (m.clk.elapsed + (t - localTime m.clk))

/-- A timed command: no timer of the kind running, nothing happens (log 1); else time passes up to the instant at
which it runs out, the timer ends and `f` acts (log 3). -/
def expire (m : Mod) (k : TimerKind) (i : Nat) (f : Mod → Mod) : Mod :=
  match timerDue m k i with
  | none => m
  | some due => f (stopTimer (advanceTo m due) k i)

/-! ## Time quality (R315, R316) -/

/-- The estimated error e in ns, rounded up so that it stays a bound (log 49); none is Unknown (R315). -/
def clkErr (m : Mod) : Option Nat :=
  let c := m.clk
  let t := c.elapsed - c.lastOffAt
  let lin (g : Nat × Nat) : Option Nat :=
    c.e0.map fun e => e + ceilDiv (g.1 * t * secs 1 + g.2 * t * t) (secs 1 * secs 1)
  match c.state with
  | .locked =>
    if c.mode = .master then some 100
    else some (c.offsets.foldl (fun a o => max a o.natAbs) 0 + 50)
  | .holdover => lin (holdForm m)
  | .acquiring => if c.fromHoldover then lin c.holdExit else none
  | _ => none

/-- PTP_ERR as read: e, or all-ones for Unknown. -/
def ptpErrWord (m : Mod) : Nat := match clkErr m with
  | some e => min e 0xFFFFFFFE
  | none => 0xFFFFFFFF

/-- PTP_UNLOCK_S as read (R337). -/
def unlockSeconds (m : Mod) : Nat :=
  match m.clk.state, m.clk.unlockedAt with
  | .locked, _ => 0
  | _, some t => min ((m.clk.elapsed - t) / secs 1) 0xFFFFFFFE
  | _, none => 0xFFFFFFFF

end Sys2Proof.Machine
end

