-- ==== Sys2Proof/Machine/Memory.lean ====
section
/-!
DEFINITION. Reads and writes of the two memories.
-/
namespace Sys2Proof.Machine

/-- The canonical form of both memories: addresses strictly rising and no entry equal to what an unlisted byte reads as. -/
def Mem.wf (mem : Mem) : Bool := cellsWf (fun _ => (0 : Byte)) mem.dram && cellsWf (fun _ => (0 : Byte)) mem.host

/-- The byte at an address of the host's memory or of the module's DRAM. -/
def memByte (mem : Mem) (toHost : Bool) (a : Nat) : Byte :=
  cellGet (fun _ => 0) (if toHost then mem.host else mem.dram) a

/-- One write done. -/
def memWrite (mem : Mem) (w : MemWrite) : Mem :=
  if w.toHost then { mem with host := writeBytes mem.host w.addr w.bytes }
  else { mem with dram := writeBytes mem.dram w.addr w.bytes }

/-- Writes done in order. -/
def memWrites (mem : Mem) (ws : List MemWrite) : Mem := ws.foldl memWrite mem

/-- `k` bytes of module DRAM from `a`. -/
def dramRead (mem : Mem) (a k : Nat) : Bytes := readBytes mem.dram a k

/-- A little-endian field of `k` bytes in module DRAM. -/
def dramNat (mem : Mem) (a k : Nat) : Nat := leNat (dramRead mem a k)

/-- A write of bytes to module DRAM. -/
def toDram (a : Nat) (b : Bytes) : MemWrite := ⟨false, a, b⟩

end Sys2Proof.Machine
end

