-- ==== Sys2Proof/Machine/Net.lean ====
section
/-!
DEFINITION. Ports, transmit queues, ARP, redundancy on transmission and host rings (R338 to R359).
-/
namespace Sys2Proof.Machine

/-! ## Ports -/

/-- State, configuration and pair of a port. -/
def netPort (m : Mod) (p : Nat) : NetPort := tabGet m.net.ports p
def portCfg (m : Mod) (p : Nat) : PortCfg := tabGet m.portMap.ports p
def pairCfg (m : Mod) (p : Nat) : PairCfg := tabGet m.portMap.pairs (p / 2)

/-- The module with a port's state changed. -/
def modPort (m : Mod) (p : Nat) (f : NetPort → NetPort) : Mod :=
  { m with net := { m.net with ports := tabMod m.net.ports p f } }

/-- The module with a pair's redundancy state changed. -/
def modPair (m : Mod) (pr : Nat) (f : NetPair → NetPair) : Mod :=
  { m with net := { m.net with pairs := tabMod m.net.pairs pr f } }

/-- The ports of a mask, ascending. -/
def maskPorts (mask : Nat) : List Nat := (List.range 8).filter fun p => mask.testBit p

/-- MAC_PnSTAT as read (R363). -/
def macStat (m : Mod) (p : Nat) : Nat :=
  let q := netPort m p
  (if q.link then 1 else 0) + (if q.lock then 2 else 0) + (if q.anDone then 4 else 0)
    + (if q.paused then 8 else 0) + (if q.held then 16 else 0)

/-! ## Timestamps (R324) -/

/-- The local clock in units of 2^-16 ns. -/
def localTs (m : Mod) : Int := (localTime m.clk / 2 ^ 32 : Nat)

/-- Receive timestamp at port `p` now, with PTP_PnLAT.RXLAT (units of 1/16 ns). -/
def rxStamp (m : Mod) (p : Nat) : Int :=
  localTs m + signedOf 16 (regBits m (Reg.PTP_PLAT p) 15 0) * 4096

/-- Transmit timestamp at port `p` now, with PTP_PnLAT.TXLAT. -/
def txStamp (m : Mod) (p : Nat) : Int :=
  localTs m + signedOf 16 (regBits m (Reg.PTP_PLAT p) 31 16) * 4096

/-- A timestamp as seconds, nanoseconds and 16-bit fraction. -/
def stampParts (t : Int) : Nat × Nat × Nat :=
  let n := t.toNat
  (n / (1000000000 * 65536), n / 65536 % 1000000000, n % 65536)

/-- An entry for the transmit-timestamp queue of a port (R326, R327). -/
def tsqAdd (m : Mod) (p : Nat) (e : TsqEntry) : Mod :=
  let q := tabGet m.clk.tsq p
  if q.length ≥ 32 then setFault (bump m (Reg.PTP_PTSQ_DROP p)) Reg.PTP_FAULT 5 p
  else
    let m' := { m with clk := { m.clk with tsq := tabSet m.clk.tsq p (q ++ [e]) } }
    if q.isEmpty then setFaultQuiet m' Reg.PTP_FAULT 4 else m'

/-- The entry of a requested frame that was discarded before transmission (R326). -/
def tsqNotSent (m : Mod) (p ident : Nat) : Mod := tsqAdd m p ⟨ident, true, 0, 0x3FFFFFFF, 0⟩

/-! ## Transmit queues (R348, R349) -/

/-- Bytes that a transmit queue holds. -/
def queueSize (q : Nat) : Nat := if q = 7 then 262144 else 65536

/-- Bytes in a transmit queue. -/
def queueFill (m : Mod) (p q : Nat) : Nat := ((tabGet (netPort m p).txq q).map (·.size)).foldl (· + ·) 0

/-- Whether an item finds room in a queue. -/
def queueRoom (m : Mod) (p q size : Nat) : Bool := decide (queueFill m p q + size ≤ queueSize q)

/-- An item put at the end of a queue. -/
def queuePut (m : Mod) (p q : Nat) (it : QItem) : Mod :=
  modPort m p fun st => { st with txq := tabSet st.txq q (tabGet st.txq q ++ [it]) }

/-- A frame the module forms enters a queue, or is discarded at a full one (R349). -/
def queueModule (m : Mod) (p q : Nat) (it : QItem) : Mod :=
  if queueRoom m p q it.size then queuePut m p q it
  else setFault (bump m (Reg.MAC_PTX_DROP p)) (Reg.MAC_PFAULT p) 5 p

/-- Bytes that a redundancy trailer or tag adds (R340). -/
def redBytes (r : Option RedTag) : Nat := if r.isSome then 6 else 0

/-- The next redundancy sequence number of a pair, and the module with it taken (R355). -/
def takeSeq (m : Mod) (pr : Nat) : Nat × Mod :=
  let s := (tabGet m.net.pairs pr).seq
  (s, modPair m pr fun x => { x with seq := (s + 1) % 65536 })

/-- One frame of the module for the ports of `mask`, on queue `q`: once on each plain port, and once on each port of a
redundant pair with one sequence number, with a trailer naming the LAN or one HSR tag (R27, R355). -/
def sendFrame (m : Mod) (mask q : Nat) (dst : Nat) (tags : List (Nat × Nat)) (pl : Payload) (bypass : Bool := false) : Mod :=
  let len := Config.wireLen pl
  let mk (m : Mod) (p : Nat) (r : Option RedTag) : QItem :=
    ⟨⟨dst, (portCfg m p).mac, tags, len, false, false, r, pl, Config.wireBytes pl⟩, len + redBytes r, none, 0⟩
  (List.range 4).foldl (fun m pr =>
    let a := 2 * pr
    let hit := mask.testBit a || mask.testBit (a + 1)
    let md := (tabGet m.portMap.pairs pr).mode
    if !hit then m
    else if md = 0 || bypass then
      let m := if mask.testBit a then queueModule m a q (mk m a none) else m
      if mask.testBit (a + 1) then queueModule m (a + 1) q (mk m (a + 1) none) else m
    else
      let (s, m) := takeSeq m pr
      let m := queueModule m a q (mk m a (some ⟨md == 2, s, 0⟩))
      queueModule m (a + 1) q (mk m (a + 1) (some ⟨md == 2, s, 1⟩))) m

/-! ## ARP and IPv4 (R347) -/

/-- IPv4 multicast addresses and their Ethernet addresses. -/
def ipMulticast (ip : Nat) : Bool := decide (224 ≤ ip / 2 ^ 24) && decide (ip / 2 ^ 24 < 240)
def ipMcastMac (ip : Nat) : Nat := 0x01005E000000 + ip % 2 ^ 23

/-- The address that ARP resolves for a destination: itself in the port's subnet, else the gateway. -/
def nextHop (c : PortCfg) (ip : Nat) : Nat :=
  if ip / 2 ^ (32 - c.pfx) = c.ip / 2 ^ (32 - c.pfx) then ip else c.gw

/-- The Ethernet address of an IPv4 destination on a port, none while unresolved. -/
def resolve (m : Mod) (p ip : Nat) : Option Nat :=
  if ipMulticast ip then some (ipMcastMac ip)
  else ((netPort m p).arp.find? fun e => e.ip == nextHop (portCfg m p) ip).bind (·.mac)

/-- An address learned by ARP, in a cache of 256 entries. -/
def arpLearn (m : Mod) (p ip mac : Nat) : Mod :=
  modPort m p fun st =>
    if st.arp.any (·.ip == ip) then { st with arp := st.arp.map fun e => if e.ip == ip then ⟨ip, some mac⟩ else e } else st

/-- An ARP request for a destination, which takes a place in the cache. -/
def arpAsk (m : Mod) (p ip : Nat) : Mod :=
  let hop := nextHop (portCfg m p) ip
  let m := modPort m p fun st =>
    if st.arp.any (·.ip == hop) || st.arp.length ≥ 256 then st else { st with arp := st.arp ++ [⟨hop, none⟩] }
  sendFrame m (2 ^ p) 6 0xFFFFFFFFFFFF [] (.arpRequest hop (portCfg m p).ip (portCfg m p).mac)

/-- Bytes of a UDP payload; a C37.118.2 command frame has 18. -/
def udpLen : UdpBody → Nat
  | .pmu f => f.len
  | .c37cmd .. => 18
  | .raw b => b.length

/-- The IPv4 packets of a datagram on a port of this MTU, counted from the destination address through the FCS (R340): one, or
fragments above the MTU, each but the last of a multiple of 8 bytes (R201). -/
def ipPackets (mtu srcIp dstIp sport dport : Nat) (body : UdpBody) : List Payload :=
  let len := 8 + udpLen body
  let room := mtu - 38
  if len ≤ room then [.udp srcIp dstIp sport dport body]
  else
    let unit := max 1 (room / 8) * 8
    (List.range (ceilDiv len unit)).map fun i => .fragment srcIp dstIp sport dport body (i * unit) (min unit (len - i * unit))

/-- A datagram of the module on the ports of a mask; a destination still unresolved on a port discards it there,
counted in TX_NOARP (R347). -/
def sendUdp (m : Mod) (mask q dstIp sport dport : Nat) (tags : List (Nat × Nat)) (body : UdpBody) : Mod :=
  (List.range 4).foldl (fun m pr =>
    let ports := (maskPorts mask).filter fun p => p / 2 == pr
    let red := (tabGet m.portMap.pairs pr).mode ≠ 0
    match ports with
    | [] => m
    | p :: _ =>
      let one (m : Mod) (p : Nat) (mask : Nat) : Mod :=
        match resolve m p dstIp with
        | some mac =>
          let mtu := ((maskPorts mask).map fun p => (portCfg m p).mtu).foldl min (portCfg m p).mtu
          (ipPackets mtu (portCfg m p).ip dstIp sport dport body).foldl (fun m pl => sendFrame m mask q mac tags pl) m
        | none => setFault (bump m (Reg.MAC_PTX_NOARP p)) (Reg.MAC_PFAULT p) 6 p
      if red then one m p (3 * 4 ^ pr) else ports.foldl (fun m p => one m p (2 ^ p)) m) m

/-- ARP_REFRESH: every 60 s the destinations still unresolved on a port are asked again (R347). -/
def arpRefresh (m : Mod) (p : Nat) : Mod :=
  expire m .arp p fun m =>
    let m := ((netPort m p).arp.filter (·.mac.isNone)).foldl (fun m e => arpAsk m p e.ip) m
    startTimer m .arp p (secs 60)

/-! ## Link, pause, supervision -/

/-- LINK_UP: 10 ms of lock on an enabled port; reports go out for the multicast groups of the port (R341, R347). -/
def linkUp (groups : Mod → Nat → List Nat) (m : Mod) (p : Nat) (speedOk : Bool) : Mod :=
  let c := portCfg m p
  if (netPort m p).link || c.mode = 0 || regBits m (Reg.MAC_PCFG p) 0 0 = 1 then m
  else if c.mode = 3 && !speedOk then setFault m (Reg.MAC_PFAULT p) 3 p
  else
    let m := modPort m p fun st => { st with link := true, lock := true, anDone := c.anEn }
    let m := setFault m (Reg.MAC_PFAULT p) 2 p
    (groups m p).foldl (fun m g => sendFrame m (2 ^ p) 6 (ipMcastMac g) [] (.igmpReport g)) m

/-- LINK_DOWN: loss of signal or lock for 1 ms. A frame cut by it counts in TX_TRUNC and is not sent again (R341, R358). -/
def linkDown (m : Mod) (p : Nat) (cut : Bool) : Mod :=
  if !(netPort m p).link then m else
    let m := modPort m p fun st => { st with link := false, lock := false, anDone := false }
    let m := setFault m (Reg.MAC_PFAULT p) 1 p
    if cut then
      match [7, 6, 5, 4, 3, 2, 1, 0].find? fun q => !(tabGet (netPort m p).txq q).isEmpty with
      | some q =>
        let m := modPort m p fun st => { st with txq := tabSet st.txq q ((tabGet st.txq q).drop 1) }
        bump m (Reg.MAC_PTX_TRUNC p)
      | none => m
    else m

/-- A received PAUSE frame: counted, and obeyed for its quanta of 512 bit times when PAUSE_OBEY is set (R350, R362). -/
def pauseFrame (m : Mod) (p quanta : Nat) : Mod :=
  let m := bump m (Reg.MAC_PPAUSE_RX p)
  if regBits m (Reg.MAC_PCFG p) 2 2 = 1 then
    -- 512 bit times: 51.2 ns at 10 Gbit/s, 512 ns at 1 Gbit/s
    let q := if (portCfg m p).mode = 1 then 512 * nsUnit / 10 else 512 * nsUnit
    if quanta = 0 then stopTimer (modPort m p fun st => { st with paused := false }) .pause p
    else startTimer (modPort m p fun st => { st with paused := true }) .pause p (quanta * q)
  else m

/-- PAUSE_EXPIRY: the pause time runs out and the port's queues resume (R350). -/
def pauseExpiry (m : Mod) (p : Nat) : Mod :=
  expire m .pause p fun m => modPort m p fun st => { st with paused := false }

/-- SUPERVISION_FRAME_TIMER: a supervision frame of a redundant pair, and the next interval (R354). -/
def supervisionTimer (m : Mod) (pr : Nat) : Mod :=
  expire m .supervision pr fun m =>
    let c := tabGet m.portMap.pairs pr
    if c.mode = 0 then m else
      let s := (tabGet m.net.pairs pr).supSeq
      let m := modPair m pr fun x => { x with supSeq := (s + 1) % 65536 }
      let m := sendFrame m (4 ^ pr) 6 (0x01154E000100 + c.supOctet) [] (.supervision (portCfg m (2 * pr)).mac s)
      startTimer m .supervision pr (msec c.supIntv)

/-- NODE_FORGET: the entries of a pair unseen for FORGET are removed (R354). Time passes to the instant at which the
oldest entry has been unseen that long. -/
def nodeForget (m : Mod) (pr : Nat) : Mod :=
  let c := tabGet m.portMap.pairs pr
  match (tabGet m.net.pairs pr).nodes with
  | [] => m
  | e :: es =>
    let oldest := es.foldl (fun a x => min a x.seen) e.seen
    let m := advanceTo m (oldest + secs c.forget)
    modPair m pr fun x => { x with nodes := x.nodes.filter fun n => decide (m.clk.elapsed < n.seen + secs c.forget) }

/-! ## Host rings (R351 to R353) -/

/-- BAR0 offsets of the four registers of a host ring: 0 to 3 receive, 4 to 7 transmit. -/
def ringBase (r : Nat) : Nat := if r < 4 then Reg.MAC_HRX_BASE r else Reg.MAC_HTX_BASE (r - 4)
def ringSz (r : Nat) : Nat := if r < 4 then Reg.MAC_HRX_SIZE r else Reg.MAC_HTX_SIZE (r - 4)
def ringTail (r : Nat) : Nat := if r < 4 then Reg.MAC_HRX_TAIL r else Reg.MAC_HTX_TAIL (r - 4)
def ringHead (r : Nat) : Nat := if r < 4 then Reg.MAC_HRX_HEAD r else Reg.MAC_HTX_HEAD (r - 4)

/-- Address of descriptor `i` of a ring. -/
def ringDesc (m : Mod) (r i : Nat) : Nat := (reg m (ringBase r)).toNat + 32 * i

/-- The index after `i` in a ring. -/
def ringNext (m : Mod) (r i : Nat) : Nat := (i + 1) % max 1 (reg m (ringSz r)).toNat

/-- A ring vector's message, or its note while the vector is in hold-off (R538). -/
def ringInt (m : Mod) (r : Nat) : Mod :=
  let en := regBits m Reg.HOST_RING_INT r r
  if en = 0 then m
  else if tabGet m.host.ringHold r then { m with host := { m.host with ringPend := tabSet m.host.ringPend r true } }
  else
    let m := msixSend m (45 + r)
    let h := regBits m Reg.HOST_RING_INT 23 8
    if h = 0 then m
    else startTimer { m with host := { m.host with ringHold := tabSet m.host.ringHold r true } } .ringHold r (usec h)

/-- RING_INT_HOLDOFF_EXPIRY: one message covers the write-backs of the interval, and the next hold-off begins (R538). -/
def ringHoldExpiry (m : Mod) (r : Nat) : Mod :=
  expire m .ringHold r fun m =>
    let pend := tabGet m.host.ringPend r
    let m := { m with host := { m.host with
      ringHold := tabSet m.host.ringHold r false, ringPend := tabSet m.host.ringPend r false } }
    if pend then ringInt m r else m

/-- A frame for a host receive ring (R343, R345, R352): stored through the ring's next descriptor, or dropped. `flags`
are bits 8 to 0 of the status word without TRUNC. -/
def hostDeliver (m : Mod) (mem : Mem) (r p : Nat) (it : RxItem) (flags : Nat) : Mod × List MemWrite :=
  let head := (reg m (ringHead r)).toNat
  let d := ringDesc m r head
  let drop := (bump m (Reg.MAC_PRX_DROP_HOST p), [])
  if tabGet m.net.stopped r then drop
  else if head = (reg m (ringTail r)).toNat then drop
  else if dramNat mem (d + 28) 4 < 2 ^ 31 then
    ({ m with net := { m.net with stopped := tabSet m.net.stopped r true } } |> fun m => bump m (Reg.MAC_PRX_DROP_HOST p), [])
  else
    let buf := dramNat mem d 4
    let room := dramNat mem (d + 4) 2
    let data := it.frame.raw.take room
    let (sec, ns, frac) := stampParts it.ts
    let vlan := match it.frame.tags with
      -- a tag with VID 0 is read as untagged (R346)
      | (pcp, vid) :: _ => if vid = 0 then 0 else pcp % 8 * 8192 + vid % 4096
      | [] => 0
    let lan := if (pairCfg m p).mode = 0 then 0 else p % 2
    let trunc := if it.frame.raw.length > room then 256 else 0
    let w := [toDram buf data,
      toDram (d + 6) (leBytes 2 data.length ++ leBytes 4 ns ++ leBytes 4 sec ++ leBytes 2 frac ++ leBytes 2 vlan
        ++ leBytes 1 p ++ leBytes 1 lan ++ leBytes 2 0 ++ leBytes 4 0),
      toDram (d + 28) (leBytes 4 (flags + trunc))]
    let m := setReg m (ringHead r) (BitVec.ofNat 32 (ringNext m r head))
    (ringInt m r, w)

/-- HOST_RX_RING_TAIL: the descriptors up to TAIL are the module's (R351). -/
def hostRxTail (m : Mod) (r : Nat) (v : Word) (be : BitVec 4) : Mod :=
  hostWrite m (ringTail r) be fun m =>
    { setReg m (ringTail r) v with net := { m.net with stopped := tabSet m.net.stopped r false } }

/-- HOST_TX_RING_TAIL: the frames up to TAIL are the module's to send (R351). -/
def hostTxTail (m : Mod) (r : Nat) (v : Word) (be : BitVec 4) : Mod := hostRxTail m (4 + r) v be

/-- The ports on which a host frame leaves: the ports named, with the other port of a redundant pair unless BYPASS
is set (R353). -/
def hostTxPorts (m : Mod) (ports : Nat) (bypass : Bool) : List Nat :=
  (List.range 8).filter fun p =>
    ports.testBit p || (!bypass && (pairCfg m p).mode ≠ 0 && (ports.testBit (p / 2 * 2) || ports.testBit (p / 2 * 2 + 1)))

/-- A transmit descriptor's fields are in range (R353). -/
def hostTxOk (m : Mod) (len ports queue flags : Nat) : Bool :=
  decide (queue ≤ 6) && decide (flags < 4) && ports ≠ 0 && decide (60 ≤ len)
    && (maskPorts ports).all fun p => decide (len + 4 ≤ (portCfg m p).mtu) && (portCfg m p).mode ≠ 0

/-- The status written back into a transmit descriptor, with its ring interrupt and the move to the next one. -/
def hostTxDone (m : Mod) (r i status : Nat) : Mod × List MemWrite :=
  let d := ringDesc m (4 + r) i
  let m := stopTimer m .hostTx r
  let m := setReg m (ringHead (4 + r)) (BitVec.ofNat 32 (ringNext m (4 + r) i))
  (ringInt { m with net := { m.net with txWait := m.net.txWait.filter (·.ring ≠ r) } } (4 + r),
    [toDram (d + 28) (leBytes 4 status)])

/-- The payload of a host frame: only its bytes are known. -/
def hostPayload (b : Bytes) : Payload := .other (beNat ((b.drop 12).take 2))

/-- HOST_TX_DESCRIPTOR: the next descriptor of a transmit ring is served: refused, waiting for room, or its frame queued
on every port it names with SENT written back (R351, R353). -/
def hostTxDescriptor (m : Mod) (mem : Mem) (r : Nat) : Mod × List MemWrite :=
  let i := (reg m (ringHead (4 + r))).toNat
  let d := ringDesc m (4 + r) i
  if tabGet m.net.stopped (4 + r) || i = (reg m (ringTail (4 + r))).toNat then (m, [])
  else if dramNat mem (d + 28) 4 < 2 ^ 31 then
    ({ m with net := { m.net with stopped := tabSet m.net.stopped (4 + r) true } }, [])
  else
    let buf := dramNat mem d 4
    let len := dramNat mem (d + 4) 2
    let ports := dramNat mem (d + 6) 1
    let queue := dramNat mem (d + 7) 1
    let ident := dramNat mem (d + 8) 2
    let flags := dramNat mem (d + 10) 2
    let bypass := flags.testBit 1
    let tsReq := flags.testBit 0
    if !hostTxOk m len ports queue flags then
      let m := if tsReq then (maskPorts ports).foldl (fun m p => tsqNotSent m p ident) m else m
      hostTxDone m r i 4
    else
      let ps := hostTxPorts m ports bypass
      let red (p : Nat) : Bool := !bypass && (pairCfg m p).mode ≠ 0
      let size (p : Nat) : Nat := len + 4 + (if red p then 6 else 0)
      if ps.all fun p => queueRoom m p queue (size p) then
        let b := dramRead mem buf len
        let m := (List.range 4).foldl (fun m pr =>
          let qs := ps.filter fun p => p / 2 == pr
          if qs.isEmpty then m else
            let md := (tabGet m.portMap.pairs pr).mode
            let (s, m) := if md ≠ 0 && !bypass then takeSeq m pr else (0, m)
            qs.foldl (fun m p =>
              let rt : Option RedTag := if red p then some ⟨md == 2, s, p % 2⟩ else none
              queuePut m p queue ⟨⟨beNat (b.take 6), beNat ((b.drop 6).take 6), [], len + 4, false, false, rt,
                hostPayload b, b⟩, size p, if tsReq then some ident else none, 0⟩) m) m
        hostTxDone m r i 1
      else if m.net.txWait.any (·.ring == r) then (m, [])
      else (startTimer { m with net := { m.net with txWait := m.net.txWait ++ [⟨r, i⟩] } } .hostTx r (msec 10), [])

/-- HOST_TX_QUEUE_TIMEOUT: the frame at the head of a ring that waited 10 ms is marked DROPPED (R353). -/
def hostTxTimeout (m : Mod) (mem : Mem) (r : Nat) : Mod × List MemWrite :=
  match timerDue m .hostTx r, m.net.txWait.find? (·.ring == r) with
  | some due, some w =>
    let m := advanceTo m due
    let d := ringDesc m (4 + r) w.idx
    let ident := dramNat mem (d + 8) 2
    let tsReq := (dramNat mem (d + 10) 2).testBit 0
    let m := if tsReq then (maskPorts (dramNat mem (d + 6) 1)).foldl (fun m p => tsqNotSent m p ident) m else m
    hostTxDone m r w.idx 2
  | _, _ => (m, [])

/-- RING_BASE_SIZE_WRITE: a ring's BASE or SIZE, taken only while its HEAD equals its TAIL (R361). -/
def ringBaseSizeWrite (m : Mod) (r : Nat) (size : Bool) (v : Word) (be : BitVec 4) : Mod :=
  let off := if size then ringSz r else ringBase r
  hostWrite m off be fun m =>
    if reg m (ringHead r) ≠ reg m (ringTail r) then setFault m (Reg.MAC_PFAULT 0) 8 r
    else setReg m off v

/-- M0_FRAME_RECEIVED: a frame on M0 enters Keeper's receive queue, or is dropped at a full one (R359). A frame shows that the
PHY's link is up (log 202). -/
def m0Frame (m : Mod) (b : Bytes) (full : Bool) : Mod :=
  if m.hlth.power ≠ .on then m
  else
    let n := { m.net with m0Link := true, m0An := true }
    if full then { m with net := { n with m0Drops := n.m0Drops + 1 } }
    else { m with net := { n with m0Queue := n.m0Queue ++ [b] } }

end Sys2Proof.Machine
end

