-- ==== Sys2Proof/Machine/Dma.lean ====
section
/-!
DEFINITION. The DMA engine and the compression lanes (R391 to R418).
-/
namespace Sys2Proof.Machine

def dmaChan (m : Mod) (n : Nat) : DmaChan := tabGet m.dma.chans n
def modChan (m : Mod) (n : Nat) (f : DmaChan → DmaChan) : Mod := { m with dma := { m.dma with chans := tabMod m.dma.chans n f } }
def cmpLane (m : Mod) (n : Nat) : CmpLane := tabGet m.dma.lanes n
def modLane (m : Mod) (n : Nat) (f : CmpLane → CmpLane) : Mod := { m with dma := { m.dma with lanes := tabMod m.dma.lanes n f } }

/-- A channel, or a lane, that belongs to Keeper (R392). -/
def keeperChan (n : Nat) : Bool := decide (12 ≤ n)
def keeperLane (n : Nat) : Bool := decide (2 ≤ n)

/-- A range of module memory that DMA and compression reach (R391). -/
def moduleRange (keeper : Bool) (a len : Nat) : Bool :=
  decide (a + len ≤ if keeper then 0x200000000 else 0x1C0000000)

/-- Two ranges share an address. -/
def overlap (a la b lb : Nat) : Bool := decide (a < b + lb) && decide (b < a + la) && decide (0 < la) && decide (0 < lb)

/-! ## DMA: chains and fetches (R395, R396, R400) -/

/-- A channel halts with a code, its FAULT bits and its CUR (R399, R416). -/
def dmaHalt (m : Mod) (n err cur : Nat) : Mod :=
  let m := modChan m n fun c => { c with state := .halted, err := err, cur := cur, bursts := 0 }
  let m := setFault m Reg.DMA_FAULT 0 n
  if err = 4 then setFault m Reg.DMA_FAULT 1 n
  else if err = 8 then setFault m Reg.DMA_FAULT 2 n
  else if err = 5 ∨ err = 6 then setFault m Reg.DMA_FAULT 3 n
  else m

/-- Bursts per turn that a channel's CFG asks for (R416). -/
def dmaWeight (m : Mod) (n : Nat) : Nat := min 8 (max 1 (regBits m (Reg.DMA_CH_CFG n) 19 16))

/-- The channel takes its next queued chain once the running one has ended, or is Idle (R395). -/
def dmaNextChain (m : Mod) (n : Nat) : Mod :=
  let c := dmaChan m n
  if c.state ≠ .running ∨ c.next.isSome ∨ !c.fetched.isEmpty ∨ c.pend.isSome then m
  else match c.queue with
    | [] => modChan m n fun c => { c with state := .idle, cur := 0xFFFFFFFF }
    | q :: rest =>
      let hop := max 1 (regBits m (Reg.DMA_CH_CFG n) 15 0)
      modChan m n fun c => { c with queue := rest, next := some q, hops := 0, hopMax := hop, weight := dmaWeight m n, cur := q }

/-- DMA_CHAIN: a CHAIN write queues a chain, or is refused (R392, R395). -/
def dmaChain (m : Mod) (n : Nat) (v : Word) (be : BitVec 4) (byKeeper : Bool) : Mod :=
  hostWrite m (Reg.DMA_CH_CHAIN n) be fun m =>
    if keeperChan n ≠ byKeeper then setFault m Reg.DMA_FAULT 5 n
    else if 4 ≤ (dmaChan m n).queue.length ∨ v.toNat % 32 ≠ 0 then setFault m Reg.DMA_FAULT 4 n
    else
      let idle := (dmaChan m n).state == .idle
      let m := modChan m n fun c => { c with queue := c.queue ++ [v.toNat] }
      if idle then dmaNextChain (modChan m n fun c => { c with state := .running }) n else m

/-- The bytes and space of a descriptor's destination, with a stored CRC. -/
def dmaDst (d : DmaDesc) : Nat × Nat × Nat := (bitsOf d.ctrl 5 4, d.dst, d.len + if d.ctrl.testBit 10 then 4 else 0)
def dmaSrcLen (d : DmaDesc) : Nat := d.len + if d.ctrl.testBit 11 then 4 else 0

/-- A fetch fault halts the channel once the descriptors before it are written back. -/
def dmaPend (m : Mod) (n : Nat) : Mod :=
  let c := dmaChan m n
  match c.pend with
  | some (e, off) => if c.fetched.isEmpty ∧ c.state = .running then dmaHalt (modChan m n fun c => { c with pend := none }) n e off else m
  | none => m

/-- DMA_DESCRIPTOR_FETCH: the next descriptor of the running chain is fetched (R396, R399, R400). -/
def dmaFetch (m : Mod) (mem : Mem) (n : Nat) : Mod :=
  let c := dmaChan m n
  match c.next with
  | none => m
  | some off =>
    if c.state ≠ .running ∨ 128 ≤ c.fetched.length ∨ c.pend.isSome then m
    else
      let fail (e : Nat) : Mod := dmaPend (modChan m n fun c => { c with pend := some (e, off) }) n
      if off % 32 ≠ 0 then fail 10
      else if c.hopMax ≤ c.hops then fail 8
      else if dramNat mem (off + 28) 4 < 2 ^ 31 then fail 9
      else
        let d : DmaDesc :=
          { off := off, src := dramNat mem off 8, dst := dramNat mem (off + 8) 8, len := dramNat mem (off + 16) 4
            ctrl := dramNat mem (off + 20) 4, next := dramNat mem (off + 24) 4, hazards := [] }
        let hz := if d.ctrl.testBit 16 then [] else (c.fetched.map dmaDst).filter fun r =>
          r.1 == d.ctrl % 8 && overlap r.2.1 r.2.2 d.src (dmaSrcLen d)
        let next := if d.next = 0xFFFFFFFF then none else some d.next
        let cur := match c.fetched with
          | x :: _ => x.off
          | [] => off
        modChan m n fun c => { c with fetched := c.fetched ++ [{ d with hazards := hz }], next := next, hops := c.hops + 1, cur := cur }

/-! ## DMA: transfers (R394, R397 to R399, R401) -/

/-- The ERR that a descriptor ends with before any byte is moved (R399). -/
def dmaCheck (n : Nat) (d : DmaDesc) : Nat :=
  let ss := d.ctrl % 8
  let ds := bitsOf d.ctrl 5 4
  let dl := (dmaDst d).2.2
  if d.ctrl &&& 0x00030F37 ≠ d.ctrl ∨ d.len = 0 ∨ 2 ^ 24 ≤ d.len ∨ 2 < ss ∨ 1 < ds ∨ (d.ctrl.testBit 10 ∧ d.ctrl.testBit 11)
    ∨ (ss = 2 ∧ 2 ^ 32 ≤ d.src) then 1
  else if ss = 0 ∧ !moduleRange (keeperChan n) d.src (dmaSrcLen d) then 2
  else if ds = 0 ∧ !moduleRange (keeperChan n) d.dst dl then 2
  else if ss = 0 ∧ ds = 0 ∧ overlap d.src (dmaSrcLen d) d.dst dl then 3
  else 0

/-- The source bytes of a descriptor. -/
def dmaBytes (mem : Mem) (d : DmaDesc) (free len : Nat) : Bytes :=
  let ss := d.ctrl % 8
  let raw : Bytes :=
    if ss = 2 then (List.range len).map fun i => (leBytes 4 d.src).getD (i % 4) 0
    else readBytes (if ss = 1 then mem.host else mem.dram) d.src len
  if d.hazards.isEmpty then raw
  else (raw.zip (List.range raw.length)).map fun x =>
    if d.hazards.any fun r => decide (r.2.1 ≤ d.src + x.2) && decide (d.src + x.2 < r.2.1 + r.2.2)
    then Config.dmaByte free x.2 else x.1

/-- Bytes moved, counted in whole KiB (R416). -/
def dmaCount (m : Mod) (n k : Nat) : Mod :=
  let t := (dmaChan m n).part + k
  addCnt (modChan m n fun c => { c with part := t % 1024 }) (Reg.DMA_CH_CNT_KIB n) (t / 1024)

/-- A descriptor's status written back with OWN clear: STATUS bits [30:0] with OWN set, then the top byte (R397, R398). -/
def dmaStatus (d : DmaDesc) (crcDone : Bool) (err done : Nat) : List MemWrite :=
  let s := (if crcDone then 2 ^ 30 else 0) + err * 2 ^ 24 + done % 2 ^ 24
  [toDram (d.off + 28) (leBytes 4 (s + 2 ^ 31)), toDram (d.off + 31) (leBytes 1 (s / 2 ^ 24))]

/-- DMA_DONE bit and interrupt of a channel (R397, R538). -/
def dmaInt (m : Mod) (n : Nat) (d : DmaDesc) : Mod :=
  if d.ctrl.testBit 17 then
    let m := setBits m Reg.DMA_DONE n n 1
    if n < 12 then recheck m (20 + n) else m
  else m

/-- The oldest fetched descriptor leaves the channel, written back without error. -/
def dmaPop (m : Mod) (n : Nat) : Mod :=
  let m := modChan m n fun c => { c with
    fetched := c.fetched.drop 1
    cur := match c.fetched.drop 1, c.next with
      | x :: _, _ => x.off
      | [], some o => o
      | [], none => 0xFFFFFFFF }
  dmaNextChain (dmaPend m n) n

/-- The oldest fetched descriptor runs: its bytes move, `k` of them, and it ends with `err` (R394, R397 to R399). -/
def dmaRun (m : Mod) (mem : Mem) (n : Nat) (d : DmaDesc) (k err : Nat) : Mod × List MemWrite :=
  let (fr, m) := drawFree m
  let old := (dmaChan m n).crc
  let data := dmaBytes mem d fr (dmaSrcLen d)
  let body := data.take k
  let c0 := if d.ctrl.testBit 8 then 0xFFFFFFFF else old
  let c1 := if d.ctrl.testBit 9 then crcRun 0x82F63B78 c0 body else c0
  let shown := c1 ^^^ 0xFFFFFFFF
  let store := d.ctrl.testBit 10 && err == 0
  let chk := d.ctrl.testBit 11 && err == 0
  let same := leNat (data.drop d.len) == shown
  let err := if chk && !same then 7 else err
  let host := bitsOf d.ctrl 5 4 == 1
  let w : List MemWrite := (if body = [] then [] else [⟨host, d.dst, body⟩])
    ++ (if store then [⟨host, d.dst + d.len, leBytes 4 shown⟩] else [])
    ++ dmaStatus d (store || (chk && same)) err k
  let m := modChan m n fun c => { c with
    crc := c1, crcOld := old, crcReg := if store || chk then shown else c.crcReg }
  let m := bump (dmaCount m n k) (Reg.DMA_CH_CNT_DESC n)
  let m := dmaInt m n d
  if err = 0 then (dmaPop m n, w) else (dmaHalt m n err d.off, w)

/-- The bursts of up to 512 bytes that a descriptor takes (R396). -/
def dmaBursts (d : DmaDesc) : Nat := ceilDiv (dmaSrcLen d) 512

/-- The engine's turns up to the one in which the descriptor at channel `n`'s head moves its last burst (R402): round-robin from
the channel whose turn it is, WEIGHT bursts to each running channel that has a descriptor; then the turn passes on (log 383). -/
def dmaTurns (m : Mod) (n : Nat) (d : DmaDesc) : Mod :=
  let rounds := max 1 (ceilDiv (dmaBursts d - (dmaChan m n).bursts) (dmaChan m n).weight)
  let place (c : Nat) : Nat := (c + 16 - m.dma.turn % 16) % 16
  let one (m : Mod) (c : Nat) : Mod := match (dmaChan m c).fetched with
    | x :: _ =>
      let turns := if place c < place n then rounds else rounds - 1
      if (dmaChan m c).state = .running ∧ c ≠ n then
        modChan m c fun s => { s with bursts := min (dmaBursts x) (s.bursts + turns * s.weight) }
      else m
    | [] => m
  let m := modChan ((List.range 16).foldl one m) n fun s => { s with bursts := 0 }
  { m with dma := { m.dma with turn := (n + 1) % 16 } }

/-- DMA_DESCRIPTOR_COMPLETE: the oldest fetched descriptor of a running channel ends (R397). -/
def dmaComplete (m : Mod) (mem : Mem) (n : Nat) (meet : DmaMeet) : Mod × List MemWrite :=
  let c := dmaChan m n
  match c.fetched with
  | [] => (m, [])
  | d :: _ =>
    if c.state ≠ .running then (m, [])
    else
      let e := dmaCheck n d
      if e ≠ 0 then dmaRun m mem n { d with ctrl := d.ctrl &&& 0x20030 } 0 e
      else
        let m := dmaTurns m n d
        match meet with
        | .ok => dmaRun m mem n d d.len 0
        | .pcie k => dmaRun m mem n d (min k d.len) 5
        | .memUe k => dmaRun m mem n d (min k d.len) 6

/-- DMA_TIMEOUT: a host read has had no completion, or a host write could not be issued, for 10 µs (R399). -/
def dmaTimeout (m : Mod) (mem : Mem) (n k : Nat) : Mod × List MemWrite :=
  let c := dmaChan m n
  match c.fetched with
  | [] => (m, [])
  | d :: _ =>
    if c.state ≠ .running ∨ dmaCheck n d ≠ 0 ∨ (d.ctrl % 8 ≠ 1 ∧ bitsOf d.ctrl 5 4 ≠ 1) then (m, [])
    else dmaRun m mem n d (min k d.len) 4

/-- A write of DMA_CHn_CMD (R392, R401). -/
def dmaCmd (m : Mod) (n : Nat) (v : Word) (be : BitVec 4) (byKeeper : Bool) : Mod :=
  hostWrite m (Reg.DMA_CH_CMD n) be fun m =>
    if keeperChan n ≠ byKeeper then setFault m Reg.DMA_FAULT 5 n
    else if (dmaChan m n).state ≠ .halted then setFault m Reg.DMA_FAULT 4 n
    else if v.toNat.testBit 0 then
      modChan m n fun c => { c with state := .idle, queue := [], next := none, fetched := [], pend := none, cur := 0xFFFFFFFF, bursts := 0 }
    else if v.toNat.testBit 1 then
      let c := dmaChan m n
      -- ERR 1 to 7: the descriptor at the head runs again with the CRC before it; ERR 8 to 10: it is fetched again
      modChan m n fun x => { x with state := .running, crc := if c.err ≤ 7 then c.crcOld else c.crc }
    else m

/-- DMA_ABORT and DMA_RETRY: the two uses of a DMA_CHn_CMD write. -/
def dmaAbort (m : Mod) (n : Nat) (v : Word) (be : BitVec 4) (byKeeper : Bool) : Mod := dmaCmd m n v be byKeeper
def dmaRetry (m : Mod) (n : Nat) (v : Word) (be : BitVec 4) (byKeeper : Bool) : Mod := dmaCmd m n v be byKeeper

/-- DMA_CHn_STAT (R416). The descriptor that halted the channel with ERR 1 to 7 has been written back. -/
def dmaStat (m : Mod) (n : Nat) : Nat :=
  let c := dmaChan m n
  let done := if c.state = .halted ∧ c.err ≤ 7 then 1 else 0
  c.err * 2 ^ 28 + (c.fetched.length - done) * 2 ^ 16 + c.queue.length * 32 + (match c.state with
    | .idle => 0
    | .running => 1
    | .halted => 2)

/-! ## Compression lanes: rings (R403, R404) -/

def laneNext (m : Mod) (n i : Nat) : Nat := (i + 1) % max 1 (reg m (Reg.CMP_L_SIZE n)).toNat

/-- The partner of a lane in a VERIFY job. -/
def laneMate (n : Nat) : Nat := if n % 2 = 0 then n + 1 else n - 1

/-- A VERIFY job runs on the lane. -/
def laneVerifies (m : Mod) (n : Nat) : Bool := n % 2 == 0 && (cmpLane m n).job.any fun j => j.ctrl.testBit 13

/-- The lane takes the job at HEAD, unless its ring is empty or stopped, a job runs, or its partner verifies on it (R403,
R410); no job is accepted in the thermal states Shed and Stop (R560). -/
def laneStart (m : Mod) (mem : Mem) (n : Nat) : Mod :=
  let head := (reg m (Reg.CMP_L_HEAD n)).toNat
  let c := cmpLane m n
  if c.stopped || c.job.isSome || 2 ≤ m.hlth.thermal || head = (reg m (Reg.CMP_L_TAIL n)).toNat || (n % 2 == 1 && laneVerifies m (n - 1)) then m
  else
    let d := (reg m (Reg.CMP_L_BASE n)).toNat + 64 * head
    if dramNat mem (d + 0x3C) 4 < 2 ^ 31 then modLane m n fun c => { c with stopped := true }
    else
      let j : CmpJob :=
        { off := d, src := dramNat mem d 8, dst := dramNat mem (d + 8) 8, chain := dramNat mem (d + 16) 8
          state := dramNat mem (d + 24) 8, srcLen := dramNat mem (d + 32) 4, dstLen := dramNat mem (d + 36) 4
          chainLen := dramNat mem (d + 40) 4, ctrl := dramNat mem (d + 44) 4 }
      modLane m n fun c => { c with job := some j }

/-- CMP_RING_TAIL: jobs up to TAIL are the lane's (R392, R403). -/
def cmpRingTail (m : Mod) (mem : Mem) (n : Nat) (v : Word) (be : BitVec 4) (byKeeper : Bool) : Mod :=
  hostWrite m (Reg.CMP_L_TAIL n) be fun m =>
    if keeperLane n ≠ byKeeper then setFault m Reg.CMP_FAULT 3 n
    else laneStart (modLane (setReg m (Reg.CMP_L_TAIL n) v) n fun c => { c with stopped := false }) mem n

/-- A BASE or SIZE write of a lane's ring (R361, R403). -/
def laneBaseSize (m : Mod) (n : Nat) (size : Bool) (v : Word) (be : BitVec 4) : Mod :=
  let off := if size then Reg.CMP_L_SIZE n else Reg.CMP_L_BASE n
  hostWrite m off be fun m =>
    if keeperLane n then setFault m Reg.CMP_FAULT 3 n
    else if reg m (Reg.CMP_L_HEAD n) ≠ reg m (Reg.CMP_L_TAIL n) then setFault m Reg.CMP_FAULT 4 n
    else setReg m off v

/-! ## Jobs (R405 to R412) -/

/-- What a job gives: CODE, IN_USED, OUT_LEN, CHECK, the stream after it, and its output. -/
structure CmpResult where
  code : Nat
  used : Nat := 0
  check : Nat := 0
  out : Bytes := []
  stream : Option CmpStream := none

/-- CODE 0x10 or 0x11 for a descriptor that R405, R404 or R391 does not allow, else 0. -/
def cmpCheck (n : Nat) (j : CmpJob) : Nat :=
  let b (k : Nat) : Bool := j.ctrl.testBit k
  let k := keeperLane n
  if 2 ^ 15 ≤ j.ctrl ∨ 1 < j.ctrl % 4 ∨ 2 < bitsOf j.ctrl 3 2 ∨ 6 < bitsOf j.ctrl 7 5
    ∨ (j.ctrl % 4 = 1 ∧ (b 4 ∨ bitsOf j.ctrl 7 5 ≠ 0 ∨ b 10 ∨ b 13))
    ∨ 2 ^ 30 < j.srcLen ∨ j.dstLen = 0 ∨ 2 ^ 30 < j.dstLen ∨ 2 ^ 30 < j.chainLen ∨ (j.chain = 0 ∧ j.chainLen ≠ 0)
    ∨ (b 8 ∧ b 12) ∨ (b 13 ∧ n % 2 = 1) ∨ ((b 11 ∨ b 12) ∧ j.state = 0) ∨ j.state % 64 ≠ 0 then 0x10
  else if !moduleRange k j.src j.srcLen || !moduleRange k j.dst j.dstLen || (j.chain ≠ 0 && !moduleRange k j.chain j.chainLen)
    || ((b 11 || b 12) && !moduleRange k j.state 98304) then 0x11
  else 0

/-- The header that compression writes (R409). -/
def cmpHeader (wrap depth : Nat) : Bytes :=
  match wrap with
  | 0 => []
  | 1 => [0x78, if depth = 0 then 0x01 else if depth ≤ 2 then 0x5E else if depth = 3 then 0x9C else 0xDA]
  | _ => [0x1F, 0x8B, 8, 0, 0, 0, 0, 0, if depth = 0 then 4 else if depth = 6 then 2 else 0, 255]

/-- The content of a state area (R407). -/
def stateArea (s : CmpStream) : Bytes :=
  (Config.cmpState [if s.dec then 1 else 0, s.wrap, s.given, if s.susp then 1 else 0] s.jobs ++ List.replicate 98304 0).take 98304

/-- The jobs of a stream with one more: a job that continues a suspended one is part of it (R411). -/
def addJob (s : CmpStream) (ctrl : Nat) (data : Bytes) : List (Nat × Bytes) :=
  if s.susp then match s.jobs.getLast? with
    | some l => s.jobs.dropLast ++ [(l.1 ||| (ctrl &&& 0x600), l.2 ++ data)]
    | none => [(ctrl, data)]
  else s.jobs ++ [(ctrl, data)]

def streamData (js : List (Nat × Bytes)) : Bytes := (js.map (·.2)).flatten

/-- A compression job on a stream (R408, R409, R411). -/
def compressJob (s : CmpStream) (j : CmpJob) (src : Bytes) (free : Nat) : CmpResult :=
  let js := addJob s (j.ctrl &&& 0x6FF) src
  let depth := bitsOf ((js.headD (0, [])).1) 7 5
  let last := j.ctrl.testBit 9
  let all := cmpHeader s.wrap depth ++ Config.deflate js ++ (if last then trailerOf s.wrap (streamData js) else [])
  let new := all.drop s.given
  let room := j.dstLen + j.chainLen
  if new.length ≤ room then
    { code := 0, used := src.length, check := checkOf s.wrap (streamData js), out := new
      stream := if last then none else some { s with jobs := js, given := s.given + new.length, susp := false } }
  else
    let used := min (Config.cmpTaken free src.length) src.length
    let js := addJob s (j.ctrl &&& 0x6FF) (src.take used)
    { code := 1, used := used, check := checkOf s.wrap (streamData js), out := new.take room
      stream := some { s with jobs := js, given := s.given + room, susp := true } }

/-- A decompression job on a stream (R409, R411, R412). -/
def decompressJob (s : CmpStream) (j : CmpJob) (src : Bytes) (free : Nat) : CmpResult :=
  let before := (streamData s.jobs).length
  let js := addJob s 0 src
  let room := j.dstLen + j.chainLen
  let (e, out, pos) := inflate s.wrap (streamData js) (s.given + room + 1)
  let new := out.drop s.given
  let put := new.take room
  let check := checkOf s.wrap (out.take (s.given + put.length))
  let keep (used : Nat) (susp : Bool) : Option CmpStream :=
    some { s with jobs := addJob s 0 (src.take used), given := s.given + put.length, susp := susp }
  if room < new.length then
    let used := min src.length (pos - before + Config.cmpHeld free % 9)
    { code := 1, used := used, check := check, out := put, stream := keep used true }
  else match e with
    | .fault c => { code := c, used := min src.length (pos - before), check := check, out := put }
    | .ended =>
      let used := pos - before
      if used < src.length then { code := 2, used := used, check := check, out := put, stream := keep used false }
      else { code := 0, used := src.length, check := check, out := put
             stream := if j.ctrl.testBit 9 then none else keep src.length false }
    | _ =>
      if j.ctrl.testBit 9 then { code := 0x26, used := src.length, check := check, out := put }
      else { code := 0, used := src.length, check := check, out := put, stream := keep src.length false }

/-- The stream a job works on, or the CODE that ends it (R406, R407). -/
def jobStream (m : Mod) (mem : Mem) (n : Nat) (j : CmpJob) : Nat ⊕ CmpStream :=
  let dec := j.ctrl % 4 == 1
  let wrap := bitsOf j.ctrl 3 2
  if j.ctrl.testBit 8 then .inr { dec := dec, wrap := wrap }
  else
    let found : Nat ⊕ CmpStream :=
      if j.ctrl.testBit 12 then
        let b := dramRead mem j.state 98304
        match m.dma.saved.find? fun s => stateArea s == b with
        | some s => .inr s
        | none => .inl 0x14
      else match (cmpLane m n).stream with
        | some s => .inr s
        | none => .inl 0x13
    match found with
    | .inr s => if s.dec = dec ∧ s.wrap = wrap then .inr s else .inl 0x13
    | .inl e => .inl e

/-- A job's result (R405 to R412). -/
def cmpResult (m : Mod) (mem : Mem) (n : Nat) (j : CmpJob) (meet : CmpMeet) (free : Nat) : CmpResult :=
  let e := cmpCheck n j
  if e ≠ 0 then { code := e }
  else if meet = .memUe then { code := 0x12 }
  else match jobStream m mem n j with
    | .inl e => { code := e }
    | .inr s =>
      let src := dramRead mem j.src j.srcLen
      let r := if s.dec then decompressJob s j src free else compressJob s j src free
      if meet = .mismatch ∧ j.ctrl.testBit 13 then { r with code := 0x30, stream := none } else r

/-- Whole MiB of input and output counted. -/
def cmpCount (m : Mod) (n i o : Nat) : Mod :=
  let a := (cmpLane m n).inPart + i
  let b := (cmpLane m n).outPart + o
  let m := modLane m n fun c => { c with inPart := a % 2 ^ 20, outPart := b % 2 ^ 20 }
  addCnt (addCnt m (Reg.CMP_L_CNT_IN n) (a / 2 ^ 20)) (Reg.CMP_L_CNT_OUT n) (b / 2 ^ 20)

/-- CMP_JOB_COMPLETE: the job of a lane ends, is written back, and the next one starts (R403 to R412). A VERIFY job waits for
the partner's job to end (R410). -/
def cmpComplete (m : Mod) (mem : Mem) (n : Nat) (meet : CmpMeet) : Mod × List MemWrite :=
  match (cmpLane m n).job with
  | none => (m, [])
  | some j =>
    if j.ctrl.testBit 13 && n % 2 == 0 && (cmpLane m (n + 1)).job.isSome then (m, [])
    else
      let (fr, m) := drawFree m
      let r := cmpResult m mem n j meet fr
      let bad := decide (0x10 ≤ r.code)
      let save : Bool := j.ctrl.testBit 11 && !bad
      let kept : CmpStream := r.stream.getD { dec := j.ctrl % 4 == 1, wrap := bitsOf j.ctrl 3 2 }
      let d1 := r.out.take j.dstLen
      let d2 := r.out.drop j.dstLen
      let w : List MemWrite := (if d1 = [] then [] else [toDram j.dst d1]) ++ (if d2 = [] then [] else [toDram j.chain d2])
        ++ (if save then [toDram j.state (stateArea kept)] else [])
        ++ [toDram (j.off + 0x30) (leBytes 4 r.used ++ leBytes 4 r.out.length ++ leBytes 4 r.check
              ++ leBytes 4 (r.code * 65536 + 2 ^ 31)), toDram (j.off + 0x3F) [0]]
      let m := modLane m n fun c => { c with job := none, code := r.code, stream := if bad then none else r.stream }
      let m := if save then { m with dma := { m.dma with saved := kept :: m.dma.saved.filter (· ≠ kept) } } else m
      let m := setReg m (Reg.CMP_L_HEAD n) (BitVec.ofNat 32 (laneNext m n (reg m (Reg.CMP_L_HEAD n)).toNat))
      let m := cmpCount (bump m (Reg.CMP_L_CNT_JOBS n)) n r.used r.out.length
      let m := if bad then setFault (bump m (Reg.CMP_L_CNT_ERR n)) Reg.CMP_FAULT 0 n else m
      let m := if r.code = 0x12 then setFault m Reg.CMP_FAULT 2 n else m
      let m := if r.code = 0x30 then setFault m Reg.CMP_FAULT 1 n else m
      let m := if j.ctrl.testBit 14 then
          let m := setBits m Reg.CMP_DONE n n 1
          if n < 2 then recheck m (37 + n) else m
        else m
      let mem' := memWrites mem w
      let m := laneStart m mem' n
      (if n % 2 = 0 then laneStart m mem' (n + 1) else m, w)

/-- CMP_Ln_STAT (R418). -/
def cmpStat (m : Mod) (n : Nat) : Nat :=
  let c := cmpLane m n
  let waits := n % 2 == 0 && laneVerifies m n && (cmpLane m (n + 1)).job.isSome
  let st := if waits then 3 else if c.job.isSome then 1 else if n % 2 == 1 && laneVerifies m (n - 1) then 2 else 0
  c.code * 2 ^ 16 + (if c.stream.any (·.susp) then 32 else 0) + (if c.stream.isSome then 16 else 0) + st

/-- What a device reset or a supply failure leaves of both engines: channels and lanes Idle, their queues empty; a state area
already saved can still be restored (R414). -/
def dmaReset (d : Dma) : Dma := { saved := d.saved }

end Sys2Proof.Machine
end

