-- ==== Sys2Proof/Machine/Float32.lean ====
section
/-!
DEFINITION. Binary32 arithmetic of the engines (R128 to R131): exact integers and fractions, rounded once, with
subnormals read and written as zero and saturation at the largest finite value.
-/
namespace Sys2Proof.Machine

/-- A binary32 word. -/
abbrev F32 := BitVec 32

def fNeg (x : F32) : Bool := x.getLsbD 31
def fExp (x : F32) : Nat := x.toNat / 2 ^ 23 % 256
def fFrac (x : F32) : Nat := x.toNat % 2 ^ 23

/-- NaN or infinite. -/
def fNotFinite (x : F32) : Bool := fExp x == 255

/-- A word as an operand is read: subnormal as a zero of its sign, NaN and infinite as +0.0 (R129). -/
def fRead (x : F32) : F32 :=
  if fExp x = 255 then 0 else if fExp x = 0 then x &&& 0x80000000 else x

/-- Magnitude in units of 2^-149; zero for what is read as zero. -/
def fMag (x : F32) : Nat := if fExp x = 0 ∨ fExp x = 255 then 0 else (fFrac x + 2 ^ 23) * 2 ^ (fExp x - 1)

/-- The value as a number of units of 2^-149. -/
def fInt (x : F32) : Int := if fNeg x then -(fMag x : Int) else (fMag x : Int)

/-- One in units of 2^-149. -/
def fUnit : Nat := 2 ^ 149

/-- `n / d` to the nearest integer, ties to even. -/
def divEven (n d : Nat) : Nat :=
  let q := n / d
  let r := n % d
  if 2 * r > d ∨ (2 * r = d ∧ q % 2 = 1) then q + 1 else q

/-- A fraction with sign to the nearest integer, ties to even. -/
def divEvenInt (n : Int) (d : Nat) : Int := if n < 0 then -(divEven n.natAbs d : Int) else (divEven n.natAbs d : Int)

/-- The word of magnitude `n / d` units of 2^-149, rounded once, with whether it saturated (R129). -/
def packMag (n d : Nat) : Nat × Bool :=
  let e := Nat.log2 (n / d) - 23
  let f := divEven n (d * 2 ^ e)
  if f < 2 ^ 23 then (0, false)
  else if f + e * 2 ^ 23 ≥ 0x7F800000 then (0x7F7FFFFF, true)
  else (f + e * 2 ^ 23, false)

/-- A number on its way through an engine: its word, whether a rounding saturated (bit 7), and whether an operation gave
no number (validity 01). -/
structure Num where
  v : F32
  sat : Bool := false
  inv : Bool := false
  deriving DecidableEq, Repr, Inhabited

/-- A word as operand. -/
def num (x : F32) : Num := ⟨fRead x, false, false⟩

/-- What an operation without a number result writes (R129). -/
def numInvalid : Num := ⟨0, true, true⟩

/-- `n / d` units of 2^-149 rounded; `z` is the sign that an exact zero takes. -/
def numRound (z : Bool) (n : Int) (d : Nat) : Num :=
  let p := packMag n.natAbs d
  let neg := if n = 0 then z else decide (n < 0)
  ⟨BitVec.ofNat 32 (p.1 + if neg then 2 ^ 31 else 0), p.2, false⟩

/-- The flags of operands carried into a result. -/
def Num.with (r : Num) (xs : List Num) : Num := ⟨r.v, r.sat || xs.any (·.sat), r.inv || xs.any (·.inv)⟩

/-- A term of an exact sum: its sign, for zeros, and its value in units of 2^-298. -/
abbrev Term := Bool × Int

def term (x : Num) : Term := (fNeg x.v, fInt x.v * (fUnit : Nat))
def termMul (x y : Num) : Term := (fNeg x.v != fNeg y.v, fInt x.v * fInt y.v)
def termNeg (t : Term) : Term := (!t.1, -t.2)

/-- An exact sum of terms, rounded once; a zero sum is −0 only when every term is. -/
def sumRound (ts : List Term) : Num := numRound (ts.all (·.1)) ((ts.map (·.2)).foldl (· + ·) 0) fUnit

def nAdd (a b : Num) : Num := (sumRound [term a, term b]).with [a, b]
def nSub (a b : Num) : Num := (sumRound [term a, termNeg (term b)]).with [a, b]
def nMul (a b : Num) : Num := (sumRound [termMul a b]).with [a, b]
/-- a × b + c, rounded once. -/
def nFma (a b c : Num) : Num := (sumRound [termMul a b, term c]).with [a, b, c]
def nNeg (a : Num) : Num := ⟨a.v ^^^ 0x80000000, a.sat, a.inv⟩
def nAbs (a : Num) : Num := ⟨a.v &&& 0x7FFFFFFF, a.sat, a.inv⟩

/-- Division; by zero it gives +0.0 with validity 01 and bit 7. -/
def nDiv (a b : Num) : Num :=
  if fMag b.v = 0 then numInvalid.with [a, b]
  else
    let s := if fNeg b.v then -(fInt a.v) else fInt a.v
    (numRound (fNeg a.v != fNeg b.v) (s * (fUnit : Nat)) (fMag b.v)).with [a, b]

/-- Integer square root: the largest `r` with r² ≤ n, bit by bit from `2^k`. -/
def isqrtFrom : Nat → Nat → Nat → Nat
  | 0, n, r => if (r + 1) * (r + 1) ≤ n then r + 1 else r
  | k + 1, n, r => isqrtFrom k n (if (r + 2 ^ (k + 1)) * (r + 2 ^ (k + 1)) ≤ n then r + 2 ^ (k + 1) else r)
def isqrt (n : Nat) : Nat := isqrtFrom (Nat.log2 n / 2 + 1) n 0

/-- The square root of `n` units of 2^-298, in units of 2^-149 and rounded once: the root to 512 extra bits and a last
bit that says whether it is inexact. -/
def sqrtRound (z : Bool) (n : Nat) : Num :=
  let s := n * 2 ^ 1024
  let r := isqrt s
  numRound z ((2 * r + if r * r = s then 0 else 1 : Nat) : Int) (2 ^ 513)

/-- Square root; of a negative number it gives +0.0 with validity 01 and bit 7. -/
def nSqrt (a : Num) : Num :=
  if fInt a.v < 0 then numInvalid.with [a] else (sqrtRound (fNeg a.v) (fMag a.v * fUnit)).with [a]

/-- Exact comparisons. -/
def nLt (a b : Num) : Bool := decide (fInt a.v < fInt b.v)
def nLe (a b : Num) : Bool := decide (fInt a.v ≤ fInt b.v)

/-- An integer as binary32 times 2^e. -/
def numOfInt (n e : Int) : Num :=
  if e < 0 then numRound false (n * (fUnit : Nat)) (2 ^ e.natAbs) else numRound false (n * (fUnit : Nat) * (2 ^ e.toNat : Nat)) 1

/-- A fraction as binary32. -/
def numOfFrac (n : Int) (d : Nat) : Num := numRound false (n * (fUnit : Nat)) d

/-- An exact value of `n / d` saturated to int32, with whether it saturated (R128). -/
def intSat (n : Int) : BitVec 32 × Bool :=
  if n > 2147483647 then (0x7FFFFFFF, true)
  else if n < -2147483648 then (0x80000000, true)
  else (BitVec.ofInt 32 n, false)

/-! ## Complex numbers -/

/-- A complex number of two binary32 parts. -/
structure Cpx where
  re : Num
  im : Num
  deriving DecidableEq, Repr, Inhabited

def cpx (re im : F32) : Cpx := ⟨num re, num im⟩
def cAdd (a b : Cpx) : Cpx := ⟨nAdd a.re b.re, nAdd a.im b.im⟩
def cSub (a b : Cpx) : Cpx := ⟨nSub a.re b.re, nSub a.im b.im⟩
def cNeg (a : Cpx) : Cpx := ⟨nNeg a.re, nNeg a.im⟩
def cConj (a : Cpx) : Cpx := ⟨a.re, nNeg a.im⟩

/-- acc + x·y, each part rounded once (R130). -/
def cFma (acc x y : Cpx) : Cpx :=
  ⟨(sumRound [term acc.re, termMul x.re y.re, termNeg (termMul x.im y.im)]).with [acc.re, x.re, y.re, x.im, y.im],
   (sumRound [term acc.im, termMul x.re y.im, termMul x.im y.re]).with [acc.im, x.re, y.im, x.im, y.re]⟩

/-- Complex product, each part rounded once. -/
def cMul (x y : Cpx) : Cpx :=
  ⟨(sumRound [termMul x.re y.re, termNeg (termMul x.im y.im)]).with [x.re, y.re, x.im, y.im],
   (sumRound [termMul x.re y.im, termMul x.im y.re]).with [x.re, y.im, x.im, y.re]⟩

/-- A complex number times a real one. -/
def cScale (k : Num) (x : Cpx) : Cpx := ⟨nMul k x.re, nMul k x.im⟩

/-- Squared magnitude in units of 2^-298, exact. -/
def cMag2 (x : Cpx) : Nat := fMag x.re.v * fMag x.re.v + fMag x.im.v * fMag x.im.v

/-- Magnitude, rounded once. -/
def cMag (x : Cpx) : Num := (sqrtRound false (cMag2 x)).with [x.re, x.im]

/-- Quotient, each part rounded once; a divisor of zero magnitude gives zero with validity 01 and bit 7. -/
def cDiv (x y : Cpx) : Cpx :=
  let d := cMag2 y
  let fl := [x.re, x.im, y.re, y.im]
  if d = 0 then ⟨numInvalid.with fl, numInvalid.with fl⟩
  else
    let re := fInt x.re.v * fInt y.re.v + fInt x.im.v * fInt y.im.v
    let im := fInt x.im.v * fInt y.re.v - fInt x.re.v * fInt y.im.v
    ⟨(numRound false (re * (fUnit : Nat)) d).with fl, (numRound false (im * (fUnit : Nat)) d).with fl⟩

end Sys2Proof.Machine
end

