-- ==== Sys2Proof/Machine/Elementary.lean ====
section
/-!
DEFINITION. The elementary functions, correctly rounded (R130, R131): each is computed in fixed point to 640 bits, of
which at least 200 lie below the last place of any binary32 result, and rounded once. A value within 2^-360 of a multiple
of 2^-360 is taken as that multiple, so that exact results and exact ties round as they must.
-/
namespace Sys2Proof.Machine

/-- The scale of the fixed-point values: units of 2^-640. -/
def fxW : Nat := 640
def fxOne : Int := (2 ^ fxW : Nat)

def fxMul (a b : Int) : Int := a * b / fxOne

/-- Σ t·s^i / (2i + 1), with alternating signs when `alt` is −1. -/
def oddSeries : Nat → Int → Int → Int → Int → Int
  | 0, _, _, _, _ => 0
  | f + 1, t, s, k, alt => t / k + oddSeries f (alt * fxMul t s) s (k + 2) alt

/-- artanh and arctan of a small fixed-point number. -/
def fxAtanh (z : Int) : Int := oddSeries 210 z (fxMul z z) 1 1
def fxAtanSmall (z : Int) : Int := oddSeries 210 z (fxMul z z) 1 (-1)

def fxLn2 : Int := 2 * fxAtanh (fxOne / 3)
def fxPi : Int := 16 * fxAtanSmall (fxOne / 5) - 4 * fxAtanSmall (fxOne / 239)

/-- Σ r^i / i! from the term of index k. -/
def expSeries : Nat → Int → Int → Int → Int
  | 0, _, _, _ => 0
  | f + 1, t, r, k => t + expSeries f (fxMul t r / k) r (k + 1)

/-- A fixed-point number to the nearest multiple of 2^-360. -/
def fxSnap (x : Int) : Int := (x + (2 ^ 279 : Nat)) / (2 ^ 280 : Nat) * (2 ^ 280 : Nat)

/-- A fixed-point number times 2^k as binary32. -/
def fxNum (x k : Int) : Num :=
  let z := decide (x < 0)
  let x := fxSnap x
  if k < 0 then numRound z (x * (fUnit : Nat)) (2 ^ fxW * 2 ^ k.natAbs)
  else numRound z (x * (fUnit : Nat) * (2 ^ k.toNat : Nat)) (2 ^ fxW)

/-- The exact value of a word in fixed point. -/
def fxOf (x : Num) : Int := fInt x.v * (2 ^ (fxW - 149) : Nat)

/-- The exponential of a fixed-point number. -/
def fxExpNum (x : Int) : Num :=
  if x > 200 * fxOne then ⟨0x7F7FFFFF, true, false⟩
  else if x < -200 * fxOne then ⟨0, false, false⟩
  else
    let l := fxLn2
    let k := (2 * x + l) / (2 * l)
    fxNum (expSeries 160 fxOne (x - k * l) 1) k

/-- The natural logarithm of a positive magnitude of `n` units of 2^-149. -/
def fxLnMag (n : Nat) : Int :=
  let e := Nat.log2 n
  -- the mantissa in [3/4, 3/2)
  let e := if 2 * n ≥ 3 * 2 ^ e then e + 1 else e
  let z := ((n : Int) - (2 ^ e : Nat)) * fxOne / ((n : Int) + (2 ^ e : Nat))
  2 * fxAtanh z + ((e : Int) - 149) * fxLn2

def nExp (x : Num) : Num := (fxExpNum (fxOf x)).with [x]

/-- Of zero or a negative number it gives +0.0 with validity 01 and bit 7. -/
def nLn (x : Num) : Num :=
  if fInt x.v ≤ 0 then numInvalid.with [x] else (fxNum (fxLnMag (fMag x.v)) 0).with [x]

/-- Alternating series of sine (from t = r, k = 1) and cosine (from t = 1, k = 0). -/
def sinSeries : Nat → Int → Int → Int → Int
  | 0, _, _, _ => 0
  | f + 1, t, s, k => t + sinSeries f (-(fxMul t s) / ((k + 1) * (k + 2))) s (k + 2)

/-- Sine and cosine of a fixed-point angle, reduced modulo the exact 2π. -/
def fxSinCos (x : Int) : Int × Int :=
  let p := fxPi
  let k := (4 * x + p) / (2 * p)
  let r := x - k * p / 2
  let s := sinSeries 100 r (fxMul r r) 1
  let c := sinSeries 100 fxOne (fxMul r r) 0
  match (k % 4).toNat with
  | 0 => (s, c)
  | 1 => (c, -s)
  | 2 => (-s, -c)
  | _ => (-c, s)

def nSin (x : Num) : Num := if fMag x.v = 0 then x else (fxNum (fxSinCos (fxOf x)).1 0).with [x]
def nCos (x : Num) : Num := (fxNum (fxSinCos (fxOf x)).2 0).with [x]
def nTan (x : Num) : Num :=
  if fMag x.v = 0 then x
  else
    let (s, c) := fxSinCos (fxOf x)
    let s := if c < 0 then -s else s
    (numRound false (s * (fUnit : Nat)) c.natAbs).with [x]

/-- arctan of a fixed-point number in [0, 1]: three halvings, then the series. -/
def fxHalve (t : Int) : Int := t * fxOne / (fxOne + (isqrt ((fxOne * fxOne + t * t).toNat) : Nat))
def fxAtan (t : Int) : Int := 8 * fxAtanSmall (fxHalve (fxHalve (fxHalve t)))

/-- The angle of a vector of integer coordinates, in (−π, π], fixed point. -/
def fxAngle (y x : Int) : Int :=
  let a := y.natAbs
  let b := x.natAbs
  let q : Int := if a ≤ b then fxAtan ((a : Int) * fxOne / (b : Int)) else fxPi / 2 - fxAtan ((b : Int) * fxOne / (a : Int))
  let h := if x < 0 then fxPi - q else q
  if y < 0 then -h else h

/-- An angle word in (−π, π]: what rounds to −π is written as +π (R131). -/
def angleWord (n : Num) : Num := if n.v = 0xC0490FDB then { n with v := 0x40490FDB } else n

/-- atan2, with whether the vector is zero: that one gives +0.0 with validity 11 (R131). -/
def nAtan2 (y x : Num) : Num × Bool :=
  if fMag y.v = 0 ∧ fMag x.v = 0 then ((⟨0, false, false⟩ : Num).with [y, x], true)
  else if fMag y.v = 0 ∧ fInt x.v > 0 then ((⟨y.v, false, false⟩ : Num).with [y, x], false)
  else (angleWord ((fxNum (fxAngle (fInt y.v) (fInt x.v)) 0).with [y, x]), false)

/-- A fixed-point angle reduced into (−π, π], modulo the exact 2π (R131). -/
def fxReduce (x : Int) : Int :=
  let p := fxPi
  if -p < x ∧ x ≤ p then x
  else
    let r := x % (2 * p)
    if r ≤ p then r else r - 2 * p

/-- A binary32 word that is an integer, with whether it is odd. -/
def fIsInt (x : F32) : Bool := fMag x % fUnit == 0
def fIsOdd (x : F32) : Bool := fIsInt x && fMag x / fUnit % 2 == 1

/-- pow(x, y) (R130): what would be no number gives +0.0 with validity 01 and bit 7 (R129). -/
def nPow (x y : Num) : Num :=
  let r : Num :=
    if fMag y.v = 0 then ⟨0x3F800000, false, false⟩
    else if fMag x.v = 0 then (if fInt y.v < 0 then numInvalid else ⟨0, false, false⟩)
    else if fNeg x.v ∧ ¬ fIsInt y.v then numInvalid
    else
      let m := fxExpNum (fInt y.v * fxLnMag (fMag x.v) / (fUnit : Nat))
      if fNeg x.v && fIsOdd y.v then nNeg m else m
  r.with [x, y]

end Sys2Proof.Machine
end

