-- ==== Sys2Proof/Machine/Operands.lean ====
section
/-!
DEFINITION. Tags, domains, templates and operand values: what a task reads (R37, R72 to R76, R121, R565, R566).
-/
namespace Sys2Proof.Machine

/-! ## Serial order of tags (R37) -/

/-- Tag `a` precedes tag `b`. -/
def tagBefore (a b : Nat) : Bool :=
  let d := (b + 2 ^ 32 - a % 2 ^ 32) % 2 ^ 32
  decide (1 ≤ d) && decide (d ≤ 2 ^ 31 - 1)

/-- Tag `a` precedes or equals tag `b`. -/
def tagLe (a b : Nat) : Bool := a % 2 ^ 32 == b % 2 ^ 32 || tagBefore a b

/-- The tag `n` after (or, negative, before) a tag. -/
def tagAdd (t : Nat) (n : Int) : Nat := (((t : Int) + n) % ((2 ^ 32 : Nat) : Int)).toNat

/-- The distance from tag `a` up to tag `b`, as a signed number of tags. -/
def tagDiff (a b : Nat) : Int := signedOf 32 ((b + 2 ^ 32 - a % 2 ^ 32) % 2 ^ 32)

/-! ## Partitions, templates, domains -/

def partOf (m : Mod) (p : Nat) : Part := tabGet m.parts p
def modPart (m : Mod) (p : Nat) (f : Part → Part) : Mod := { m with parts := tabMod m.parts p f }

/-- The loaded image of a partition; the empty one while Absent. -/
def imageOf (m : Mod) (p : Nat) : PartImage := (partOf m p).image.getD {}

def isLive (m : Mod) (p : Nat) : Bool := (partOf m p).state == .live

/-- The partition of a domain (R72). -/
def domainPart (d : Nat) : Nat := if d < 4 then d else 1

/-- A template of a loaded image. -/
def template (m : Mod) (t : Nat) : Option Template :=
  ([0, 1, 2, 3].filterMap fun p => (imageOf m p).templates.lookup t).head?

/-- The partition of a template. -/
def tmplPart (t : Template) : Nat := domainPart t.domain

/-- The rate of a domain in tags per second, as a fraction (R72). -/
def domainRate (m : Mod) (d : Nat) : Nat × Nat :=
  if d < 4 then ((imageOf m d).rate, 1)
  else match (imageOf m 1).outs.lookup (d - 4) with
    | some r => (r.rate, 1)
    | none => (0, 1)

/-- The master rate of a partition (R566). -/
def masterRate (m : Mod) (p : Nat) : Nat := (imageOf m p).rate

/-! ## Instants of tags (R565, R566) -/

/-- The index n with n ≡ k modulo 2^32 nearest to `now`, the earlier of two as near. -/
def nearestIndex (k : Nat) (now : Nat) : Nat :=
  let base := now / 2 ^ 32 * 2 ^ 32 + k % 2 ^ 32
  if base ≤ now then (if now - base ≤ 2 ^ 31 then base else base + 2 ^ 32)
  else if base - now < 2 ^ 31 ∨ base < 2 ^ 32 then base else base - 2 ^ 32

/-- The local-clock instant of index n at rate `num/den` tags per second, units of 2^-48 ns, rounded up. -/
def instantOf (rate : Nat × Nat) (n : Nat) : Nat := ceilDiv (n * rate.2 * secs 1) rate.1

/-- The latest index whose instant is at or before local time `t`. -/
def indexAt (rate : Nat × Nat) (t : Nat) : Nat := t * rate.1 / (rate.2 * secs 1)

/-- The index of tag k of a domain whose instant lies nearest the local clock's present time, the earlier of two as near: the
present time counts as the next whole index, so that 2^31 intervals back lie farther than 2^31 ahead unless it is one (R566). -/
def tagIndex (m : Mod) (d k : Nat) : Nat :=
  let r := domainRate m d
  nearestIndex k (ceilDiv (localTime m.clk * r.1) (r.2 * secs 1))

/-- I(k) or T(k): the instant of tag k (R566, R565). -/
def tagInstant (m : Mod) (d k : Nat) : Nat := instantOf (domainRate m d) (tagIndex m d k)

/-- T of R565: the latest tag the domain's source has assigned, or from the local clock when it has assigned none. -/
def latestTag (m : Mod) (d : Nat) : Nat :=
  match tabGet m.td.lastTag d with
  | some t => t
  | none => indexAt (domainRate m d) (localTime m.clk) % 2 ^ 32

/-- The tag noted as the latest a domain's source has assigned. -/
def noteTag (m : Mod) (d t : Nat) : Mod :=
  let newer := match tabGet m.td.lastTag d with
    | some o => tagBefore o t
    | none => true
  if newer then { m with td := { m.td with lastTag := tabSet m.td.lastTag d (some (t % 2 ^ 32)) } } else m

/-! ## Test values (R57, R65) -/

/-- The Test value for the tasks and outputs of a tag of a domain: a change at the boundary of tag t holds from tag t + 1 on
(R57). -/
def testFor (m : Mod) (d tag : Nat) : TestVal :=
  match ((tabGet m.mode.testWas d).filter fun x => tagLe tag x.1).getLast? with
  | some x => x.2
  | none => tabGet m.mode.partTest (domainPart d)

/-- A tag lies in the takeover interval (R298). -/
def inTakeover (m : Mod) (tag : Nat) : Bool :=
  match m.out.tko with
  | some (a, b) => tagLe a tag && tagLe tag b
  | none => false

/-! ## Payloads and slots -/

/-- The zero payload of the type of a payload (R76). -/
def zeroLike : Val → Val
  | .int _ => .int 0
  | .flt _ => .flt 0
  | .cpx _ _ => .cpx 0 0

/-- A payload whose every bit is zero. -/
def isZeroVal : Val → Bool
  | .int v => v == 0
  | .flt v => v == 0
  | .cpx a b => a == 0 && b == 0

/-- The low and high words of a payload (R125), and its type code. -/
def valWords : Val → Nat × Nat
  | .int v => (v.toNat, 0)
  | .flt v => (v.toNat, 0)
  | .cpx a b => (a.toNat, b.toNat)
def valType : Val → Nat
  | .int _ => 0
  | .flt _ => 1
  | .cpx _ _ => 2

/-- A payload of a type code from its words. -/
def valOf (ty lo hi : Nat) : Val :=
  match ty with
  | 0 => .int (BitVec.ofNat 32 lo)
  | 1 => .flt (BitVec.ofNat 32 lo)
  | _ => .cpx (BitVec.ofNat 32 lo) (BitVec.ofNat 32 hi)

/-- Slot index of an operand. -/
def slotKey (t op : Nat) : Nat := 8 * t + op

def isSticky (t : Template) (op : Nat) : Bool := t.sticky.testBit op

/-- The matched operands of a template, ascending. -/
def matchedOps (t : Template) : List Nat := (List.range t.nOps).filter fun k => !isSticky t k

/-- The value of a sticky operand for a task of tag `t`: that of the latest token whose effective tag precedes or equals
`t` (R76). -/
def stickyFor (l : List StickyVal) (t : Nat) : Option StickyVal :=
  (l.filter fun v => tagLe v.etag t).foldl (fun b v => match b with
    | none => some v
    | some w => if tagBefore w.etag v.etag then some v else some w) none

/-- A sticky token entering its slot: newest first, replacing a value of the same effective tag (R85). -/
def stickyPut (l : List StickyVal) (v : StickyVal) : List StickyVal := v :: l.filter fun w => w.etag ≠ v.etag

/-- The active settings group for a task of tag `t` in domain `d` (R145, R146). -/
def groupFor (m : Mod) (d t : Nat) : Nat :=
  match ((tabGet m.pe.pend d).filter fun x => tagLe x.1 t).getLast? with
  | some x => x.2
  | none => (tabGet m.pe.group d).getD 1

/-- The parameter record a task of tag `t` reads (R121, R144). -/
def paramsFor (m : Mod) (t : Template) (tag : Nat) : List Nat :=
  match t.groups with
  | [g] => g
  | gs => gs.getD (groupFor m t.domain tag - 1) []

/-! ## Events of tasks and sets (R451 to R453) -/

/-- Where an event comes from: source, its instant when it is not now (2^-48 ns), TEST, TKO and tag. -/
structure Origin where
  src : Nat
  time : Option Nat := none
  test : Bool := false
  tko : Bool := false
  tag : Nat := 0

/-- An event raised with its origin. -/
def originEvent (m : Mod) (o : Origin) (cls detail : Nat) (arg : Bytes) : Mod :=
  let e := mkEvent m o.src cls detail arg
  let e := match o.time with
    | some t => { e with sec := if e.tod then t / secs 1 else 0, ns := t % secs 1 / nsUnit }
    | none => e
  pushEvent m { e with test := o.test, tko := o.tko, tag := o.tag }

end Sys2Proof.Machine
end

