-- ==== Sys2Proof/Machine/Flags.lean ====
section
/-!
DEFINITION. The quality word and every rule that forms or maps one (R65, R133 to R137).
-/
namespace Sys2Proof.Machine

/-- Validity, quality bits [1:0]: 0 good, 1 invalid, 3 questionable. -/
def validity (q : Qual) : Nat := q.toNat % 4

/-- The worse of two validities: invalid, then questionable, then good (R134). -/
def worse (a b : Nat) : Nat := if a = 1 ∨ b = 1 then 1 else if a = 3 ∨ b = 3 then 3 else 0

/-- A quality word with its validity lowered to `v`; a validity is never raised (R134). -/
def withValidity (q : Qual) (v : Nat) : Qual := BitVec.ofNat 16 (q.toNat / 4 * 4 + worse (validity q) v)

/-- Bits of the quality word (R133). -/
def qTest : Nat := 0x004
def qSubst : Nat := 0x008
def qGap : Nat := 0x010
def qLate : Nat := 0x020
def qUnlocked : Nat := 0x040
def qRange : Nat := 0x080
def qTakeover : Nat := 0x100
def qDerived : Nat := 0x200

def qBit (q : Qual) (mask : Nat) : Bool := q.toNat &&& mask != 0
def qOr (q : Qual) (mask : Nat) : Qual := q ||| BitVec.ofNat 16 mask

/-- Quality formed from operands (R134, rules 1 to 3). -/
def combine (qs : List Qual) : Qual :=
  let v := qs.foldl (fun a q => worse a (validity q)) 0
  let bits := qs.foldl (fun a q => a ||| (q.toNat &&& 0x1FC)) 0
  let der := if qs.any fun q => validity q == 3 || qBit q qDerived then qDerived else 0
  BitVec.ofNat 16 (bits + der + v)

/-- The quality an engine reads an operand with: test data are invalid while the Test value is Off (R65, R135). -/
def testRead (t : TestVal) (q : Qual) : Qual := if t = .off ∧ qBit q qTest then BitVec.ofNat 16 (q.toNat / 4 * 4 + 1) else q

/-! ## IEC 61850 quality (R136) -/

/-- Bits of an IEC 61850 quality, numbered as IEC 61850-8-1 numbers them (PRESUMED): validity 0 and 1 (first bit the more
significant), then the detail bits, source, test, operatorBlocked. -/
def iecQual (q : Nat) : Qual :=
  let b (k : Nat) : Bool := q.testBit k
  let raw := (if b 0 then 2 else 0) + (if b 1 then 1 else 0)
  let v := if raw = 2 then 1 else raw
  let v := if b 6 then 1 else v
  let bits := (if b 2 || b 3 then qRange else 0) ||| (if b 7 then qGap else 0) ||| (if b 10 then qSubst else 0)
    ||| (if b 11 then qTest else 0)
  BitVec.ofNat 16 (bits + v)

/-- The IEC 61850 quality published from a quality word (R136). -/
def toIec (q : Qual) : Nat :=
  let v := validity q
  (if v / 2 = 1 then 1 else 0) + (if v % 2 = 1 then 2 else 0)
    + (if qBit q qRange then 2 ^ 2 else 0)
    + (if qBit q qGap || qBit q qLate then 2 ^ 7 else 0)
    + (if qBit q qUnlocked then 2 ^ 9 else 0)
    + (if qBit q qSubst then 2 ^ 10 else 0)
    + (if qBit q qTest then 2 ^ 11 else 0)

/-! ## C37.118.2 STAT (R137) -/

/-- What the STAT of a PMU block puts into each member's quality word. -/
def statQual (s : Nat) : Qual :=
  let e := bitsOf s 15 14
  let v := if e = 1 then 3 else if e = 3 then 1 else 0
  let bits := (if e = 2 then qTest ||| qGap else 0) ||| (if s.testBit 13 then qUnlocked else 0)
    ||| (if s.testBit 9 then qSubst else 0) ||| (if bitsOf s 5 4 ≠ 0 then qUnlocked else 0)
  BitVec.ofNat 16 (bits + v)

/-- The STAT bits [15:13], [12] and [9] that the members' quality words give. -/
def statBits (qs : List Qual) : Nat :=
  let e := if qs.any (validity · == 1) then 3
    else if qs.any fun q => qBit q qTest || qBit q qGap then 2
    else if qs.any (validity · == 3) then 1 else 0
  e * 2 ^ 14 + (if qs.any (qBit · qUnlocked) then 2 ^ 13 else 0) + (if qs.any (qBit · qLate) then 2 ^ 12 else 0)
    + (if qs.any (qBit · qSubst) then 2 ^ 9 else 0)

end Sys2Proof.Machine
end

