-- ==== Sys2Proof/Machine/Prim.lean ====
section
/-!
DEFINITION. What a primitive reads and gives (R121, R134, R138, R139), and the finishing of a result.
-/
namespace Sys2Proof.Machine

/-- What a task reads (R121): parameter words of the active group, operands as the engine reads them, Δt of the domain with
the rate it comes from, the template's committed segment, and those of the accumulating templates of its flow with their
primitive and parameters (R150); and the claim number in force (R152). -/
structure PrimIn where
  params : List Nat
  ops : List OpVal
  dt : Num
  rate : Nat × Nat
  seg : Seg
  group : List (Nat × List Nat × Seg)
  claim : Nat

/-- What a primitive's description gives: payload; whether it sets bit 7, validity 01 or validity 11, further quality bits;
a rule of its own for the arm flag or for the qualities combined; the state words and histories after. -/
structure Raw where
  val : Val
  sat : Bool := false
  inv : Bool := false
  quest : Bool := false
  bits : Nat := 0
  arm : Option Bool := none
  base : Option (List Qual) := none
  a : List Nat := []
  h : List (List Nat) := []
  /-- Operand indices whose payload was read, none for all of them. -/
  only : Option (List Nat) := none

/-! ## Parameters (R143) -/

def PrimIn.pWord (x : PrimIn) (k : Nat) : Nat := x.params.getD k 0
def PrimIn.pInt (x : PrimIn) (k : Nat) : Int := signedOf 32 (x.pWord k)
def PrimIn.pNat (x : PrimIn) (k : Nat) : Nat := (x.pInt k).toNat
def PrimIn.pNum (x : PrimIn) (k : Nat) : Num := num (BitVec.ofNat 32 (x.pWord k))
def PrimIn.pCpx (x : PrimIn) (k : Nat) : Cpx := ⟨x.pNum k, x.pNum (k + 1)⟩

/-! ## Operands -/

def PrimIn.op (x : PrimIn) (k : Nat) : OpVal := x.ops.getD k default
def PrimIn.n (x : PrimIn) : Nat := x.ops.length
def PrimIn.hasOp (x : PrimIn) (k : Nat) : Bool := decide (k < x.ops.length)

def valInt : Val → Int
  | .int v => v.toInt
  | .flt v => v.toInt
  | .cpx v _ => v.toInt
def valNum : Val → Num
  | .int v => num v
  | .flt v => num v
  | .cpx v _ => num v
def valCpx : Val → Cpx
  | .int v => ⟨num v, num 0⟩
  | .flt v => ⟨num v, num 0⟩
  | .cpx a b => cpx a b

def PrimIn.oInt (x : PrimIn) (k : Nat) : Int := valInt (x.op k).val
def PrimIn.oNum (x : PrimIn) (k : Nat) : Num := valNum (x.op k).val
def PrimIn.oCpx (x : PrimIn) (k : Nat) : Cpx := valCpx (x.op k).val

/-- An operand of validity 01. -/
def PrimIn.bad (x : PrimIn) (k : Nat) : Bool := validity (x.op k).q == 1

/-- A logic operand (R127), false when its validity is 01. -/
def PrimIn.oTrue (x : PrimIn) (k : Nat) : Bool := !x.bad k && x.oInt k != 0

/-- An operand of type integer or binary32 as an exact number of units of 2^-149. -/
def valExact : Val → Int
  | .int v => v.toInt * (fUnit : Nat)
  | .flt v => fInt v
  | .cpx v _ => fInt v

/-! ## Results -/

def rawI (v : Int) : Raw := { val := .int (BitVec.ofInt 32 v) }
def rawB (b : Bool) : Raw := rawI (if b then 1 else 0)
def rawF (x : Num) : Raw := { val := .flt x.v, sat := x.sat, inv := x.inv }
def rawC (z : Cpx) : Raw :=
  { val := .cpx z.re.v z.im.v, sat := z.re.sat || z.im.sat, inv := z.re.inv || z.im.inv }
/-- A saturating integer result (R128). -/
def rawSat (v : Int) : Raw := { val := .int (intSat v).1, sat := (intSat v).2 }

/-- A result with the flags of the arithmetic it rests on: one of its numbers that saturated sets bit 7, one without a number
result validity 01 (R129). -/
def Raw.on (r : Raw) (ns : List Num) : Raw := { r with sat := r.sat || ns.any (·.sat), inv := r.inv || ns.any (·.inv) }

/-- The zero of a type, marked validity 01. -/
def rawZeroInv (v : Val) : Raw := { val := zeroLike v, inv := true }

/-! ## State words -/

def PrimIn.st (x : PrimIn) (k : Nat) : Nat := x.seg.a.getD k 0
def PrimIn.stInt (x : PrimIn) (k : Nat) : Int := signedOf 64 (x.st k)
def PrimIn.hist (x : PrimIn) (k : Nat) : List Nat := x.seg.h.getD k []
def word32 (x : Num) : Nat := x.v.toNat
def ofWord (w : Nat) : Num := num (BitVec.ofNat 32 w)

/-- The state left as it is. -/
def Raw.keep (r : Raw) (x : PrimIn) : Raw := { r with a := x.seg.a, h := x.seg.h }

/-- The previous result of the template (R139). -/
def PrimIn.prev (x : PrimIn) (z : Val) : Val := x.seg.prev.getD (zeroLike z)

/-! ## Reading and finishing -/

/-- A payload as an engine reads it (R129), with whether a part of it was NaN or infinite. -/
def readVal : Val → Val × Bool
  | .int v => (.int v, false)
  | .flt v => (.flt (fRead v), fNotFinite v)
  | .cpx a b => (.cpx (fRead a) (fRead b), fNotFinite a || fNotFinite b)

/-- The result of a primitive with its quality and arm flag, and the new segment. `hasState` is whether the primitive has
flow state (R139). -/
def finish (hasState : Bool) (x : PrimIn) (nan : Nat → Bool) (r : Raw) : Result × Seg :=
  let read := match r.only with
    | some l => l
    | none => List.range x.n
  let notNum := read.any nan
  let q := combine (match r.base with
    | some l => l
    | none => x.ops.map (·.q))
  let q := qOr q (r.bits ||| (if r.sat || notNum then qRange else 0))
  let q := withValidity q (if r.inv || notNum then 1 else if r.quest then 3 else 0)
  let changed := r.val != x.prev r.val
  let arm := match r.arm with
    | some b => b
    | none => !hasState || changed
  (⟨r.val, q, arm⟩, { prev := some r.val, n := x.seg.n + 1, a := r.a, h := r.h })

end Sys2Proof.Machine
end

