-- ==== Sys2Proof/Machine/PrimArith.lean ====
section
/-!
DEFINITION. Arithmetic primitives, codes 0 to 13 (R128 to R130, R147).
-/
namespace Sys2Proof.Machine

/-- The operands as complex, as binary32, as integers. -/
def PrimIn.cs (x : PrimIn) : List Cpx := x.ops.map fun o => valCpx o.val
def PrimIn.fs (x : PrimIn) : List Num := x.ops.map fun o => valNum o.val
def PrimIn.is (x : PrimIn) : List Int := x.ops.map fun o => valInt o.val

/-- A sum in ascending order, each partial sum rounded (R130). -/
def sumNums : List Num → Num
  | [] => num 0
  | a :: l => l.foldl nAdd a
def sumCpx : List Cpx → Cpx
  | [] => cpx 0 0
  | a :: l => l.foldl cAdd a

def primAdd (x : PrimIn) : Raw :=
  match (x.op 0).val with
  | .int _ => rawSat (x.is.foldl (· + ·) 0)
  | .flt _ => rawF (sumNums x.fs)
  | .cpx _ _ => rawC (sumCpx x.cs)

def primSub (x : PrimIn) : Raw :=
  match (x.op 0).val with
  | .int _ => rawSat (x.oInt 0 - x.oInt 1)
  | .flt _ => rawF (nSub (x.oNum 0) (x.oNum 1))
  | .cpx _ _ => rawC (cSub (x.oCpx 0) (x.oCpx 1))

/-- f × c gives c. -/
def primMul (x : PrimIn) : Raw :=
  match (x.op 0).val, (x.op 1).val with
  | .int _, _ => rawSat (x.oInt 0 * x.oInt 1)
  | .flt _, .cpx _ _ => rawC (cScale (x.oNum 0) (x.oCpx 1))
  | .flt _, _ => rawF (nMul (x.oNum 0) (x.oNum 1))
  | .cpx _ _, .flt _ => rawC (cScale (x.oNum 1) (x.oCpx 0))
  | .cpx _ _, _ => rawC (cMul (x.oCpx 0) (x.oCpx 1))

def primDiv (x : PrimIn) : Raw :=
  match (x.op 0).val with
  | .int _ => if x.oInt 1 = 0 then { rawI 0 with sat := true, inv := true } else rawSat (Int.tdiv (x.oInt 0) (x.oInt 1))
  | .flt _ => rawF (nDiv (x.oNum 0) (x.oNum 1))
  | .cpx _ _ => rawC (cDiv (x.oCpx 0) (x.oCpx 1))

/-- a·b + c, rounded once. -/
def primMac (x : PrimIn) : Raw :=
  match (x.op 0).val with
  | .int _ => rawSat (x.oInt 0 * x.oInt 1 + x.oInt 2)
  | .flt _ => rawF (nFma (x.oNum 0) (x.oNum 1) (x.oNum 2))
  | .cpx _ _ => rawC (cFma (x.oCpx 2) (x.oCpx 0) (x.oCpx 1))

def primAbsNeg (x : PrimIn) : Raw :=
  match (x.op 0).val with
  | .int _ => if x.pInt 0 = 0 then rawSat (x.oInt 0).natAbs else rawSat (-(x.oInt 0))
  | _ => if x.pInt 0 = 0 then rawF (nAbs (x.oNum 0)) else rawF (nNeg (x.oNum 0))

/-- The lowest index of the least (or greatest) value. -/
def pickIndex (big : Bool) (l : List Int) : Nat :=
  (l.foldl (fun (a : Nat × Nat × Option Int) v =>
    match a.2.2 with
    | none => (a.1 + 1, a.1, some v)
    | some b => if (if big then decide (b < v) else decide (v < b)) then (a.1 + 1, a.1, some v) else (a.1 + 1, a.2.1, some b))
    (0, 0, none)).2.1

def primMinMax (x : PrimIn) : Raw :=
  let l := x.ops.map fun o => valExact o.val
  match x.pInt 0 with
  | 0 => { val := (x.op (pickIndex false l)).val }
  | 1 => { val := (x.op (pickIndex true l)).val }
  | 2 => rawI (pickIndex true l)
  | _ => rawI (pickIndex false l)

def primSqrt (x : PrimIn) : Raw := rawF (nSqrt (x.oNum 0))

/-- x·k + o. For an integer the exact value is rounded to the nearest integer, ties to even, and saturated. -/
def primScale (x : PrimIn) : Raw :=
  let k := x.pNum 0
  let o := x.pNum 1
  match (x.op 0).val with
  | .int v => rawSat (divEvenInt (v.toInt * fInt k.v + fInt o.v) fUnit)
  | .flt _ => rawF (nFma (x.oNum 0) k o)
  | .cpx _ _ => let z := x.oCpx 0; rawC ⟨nFma z.re k o, nMul z.im k⟩

def primConvert (x : PrimIn) : Raw :=
  let e := x.pInt 1
  match x.pInt 0 with
  | 0 => rawF (numOfInt (x.oInt 0) e)
  | 1 =>
    let v := fInt (x.oNum 0).v
    rawSat (if e < 0 then divEvenInt v (fUnit * 2 ^ e.natAbs) else divEvenInt (v * (2 ^ e.toNat : Nat)) fUnit)
  | 2 => rawC ⟨x.oNum 0, num 0⟩
  | 3 => rawF (x.oCpx 0).re
  | _ => rawF (x.oCpx 0).im

/-- Operand 0 selects operand 1 + operand 0; the quality is that of those two only. -/
def primSelect (x : PrimIn) : Raw :=
  let s := x.oInt 0
  if 0 ≤ s ∧ x.hasOp (s.toNat + 1) then
    { val := (x.op (s.toNat + 1)).val, base := some [(x.op 0).q, (x.op (s.toNat + 1)).q], only := some [0, s.toNat + 1] }
  else { rawZeroInv (x.op 1).val with base := some [(x.op 0).q], only := some [0] }

/-- ⌈v⌉ and ⌊v⌋ of a number of units of 2^-149. -/
def ceilUnits (v : Int) : Int := -((-v) / (fUnit : Nat))
def floorUnits (v : Int) : Int := v / (fUnit : Nat)

def primLimit (x : PrimIn) : Raw :=
  let lo := x.pNum 0
  let hi := x.pNum 1
  let v := valExact (x.op 0).val
  match (x.op 0).val with
  | .int _ =>
    if v < fInt lo.v then { rawSat (ceilUnits (fInt lo.v)) with sat := true }
    else if fInt hi.v < v then { rawSat (floorUnits (fInt hi.v)) with sat := true }
    else { val := (x.op 0).val }
  | _ =>
    if v < fInt lo.v then { rawF lo with sat := true }
    else if fInt hi.v < v then { rawF hi with sat := true }
    else { val := (x.op 0).val }

/-- Shift counts are taken modulo 32; add and subtract wrap. -/
def primIntOp (x : PrimIn) : Raw :=
  let a := BitVec.ofInt 32 (x.oInt 0)
  let b := BitVec.ofInt 32 (x.oInt 1)
  let s := b.toNat % 32
  { val := .int (match x.pInt 0 with
      | 0 => a &&& b
      | 1 => a ||| b
      | 2 => a ^^^ b
      | 3 => a &&& ~~~b
      | 4 => a <<< s
      | 5 => a >>> s
      | 6 => a.sshiftRight s
      | 7 => a + b
      | _ => a - b) }

/-- Horner's scheme from aₙ down, one fused multiply-add a step. -/
def primPoly (x : PrimIn) : Raw :=
  let n := x.pNat 0
  rawF ((List.range n).foldl (fun acc i => nFma acc (x.oNum 0) (x.pNum (n - i))) (x.pNum (n + 1)))

end Sys2Proof.Machine
end

