-- ==== Sys2Proof/Machine/PrimPhasor.lean ====
section
/-!
DEFINITION. Phasor, protection-characteristic and differential primitives, codes 14 to 34 (R130, R131, R147).
-/
namespace Sys2Proof.Machine

/-- Binary32 constants: 1, 2, 3, 1/2, √3/2, 2π, π, 0.1, 0.95. -/
def n1 : Num := num 0x3F800000
def n2 : Num := num 0x40000000
def n3 : Num := num 0x40400000
def nHalf : Num := num 0x3F000000
def nRoot34 : Num := num 0x3F5DB3D7
def n2Pi : Num := num 0x40C90FDB
def nPi : Num := num 0x40490FDB
def nTenth : Num := num 0x3DCCCCCD
def n095 : Num := num 0x3F733333

def numNat (n : Nat) : Num := numOfInt n 0

/-! ## Codes 14 to 25 -/

def primCpxMag (x : PrimIn) : Raw := rawF (cMag (x.oCpx 0))

/-- The angle of a complex value; of zero it is +0.0 with validity 11 (R131). -/
def cArg (z : Cpx) : Num × Bool := nAtan2 z.im z.re

def rawAng (a : Num × Bool) : Raw := { rawF a.1 with quest := a.2 }

def primCpxAng (x : PrimIn) : Raw := rawAng (cArg (x.oCpx 0))

/-- m·cos θ + j·m·sin θ, cos and sin each rounded once and then multiplied. -/
def polar (m th : Num) : Cpx := ⟨nMul m (nCos th), nMul m (nSin th)⟩
def unitAt (th : Num) : Cpx := ⟨nCos th, nSin th⟩

def primPolar (x : PrimIn) : Raw := rawC (polar (x.oNum 0) (x.oNum 1))

/-- The operand times cos θ + j·sin θ, both rounded once (log 33). -/
def primRotate (x : PrimIn) : Raw :=
  rawC (cMul (x.oCpx 0) (unitAt (if x.hasOp 1 then x.oNum 1 else x.pNum 0)))

/-- The operator a, and a². -/
def opA : Cpx := ⟨nNeg nHalf, nRoot34⟩
def opA2 : Cpx := cConj opA

def primSeqComp (x : PrimIn) : Raw :=
  let a := x.oCpx 0
  let b := if x.pInt 1 = 1 then x.oCpx 2 else x.oCpx 1
  let c := if x.pInt 1 = 1 then x.oCpx 1 else x.oCpx 2
  let s := match x.pInt 0 with
    | 0 => cAdd (cAdd a b) c
    | 1 => cAdd (cAdd a (cMul opA b)) (cMul opA2 c)
    | _ => cAdd (cAdd a (cMul opA2 b)) (cMul opA c)
  rawC ⟨nDiv s.re n3, nDiv s.im n3⟩

def primDeltaPh (x : PrimIn) : Raw :=
  match x.pInt 0 with
  | 0 => rawC (cSub (x.oCpx 0) (x.oCpx 1))
  | 1 => rawC (cSub (x.oCpx 1) (x.oCpx 2))
  | _ => rawC (cSub (x.oCpx 2) (x.oCpx 0))

/-- scale · Σ V·conj(I), accumulated pair by pair (log 33). -/
def primPower (x : PrimIn) : Raw :=
  let acc := (List.range (x.n / 2)).foldl (fun acc i =>
    if i = 0 then cMul (x.oCpx 0) (cConj (x.oCpx 1)) else cFma acc (x.oCpx (2 * i)) (cConj (x.oCpx (2 * i + 1)))) (cpx 0 0)
  rawC (cScale (x.pNum 0) acc)

/-- V / D, zero with validity 01 and bit 7 below the least denominator. -/
def overMin (v d : Cpx) (imin : Num) : Raw :=
  if nLt (cMag d) imin then { val := .cpx 0 0, sat := true, inv := true } else rawC (cDiv v d)

def primImpedance (x : PrimIn) : Raw := overMin (x.oCpx 0) (x.oCpx 1) (x.pNum 0)

def primLoopImp (x : PrimIn) : Raw := overMin (x.oCpx 0) (cFma (x.oCpx 1) (x.pCpx 0) (x.oCpx 2)) (x.pNum 2)

def primAngleDiff (x : PrimIn) : Raw := rawAng (cArg (cMul (x.oCpx 0) (cConj (x.oCpx 1))))

/-- X·e^{j2π(f − f0)Δ}; f0 stands for a frequency of validity 01, and the result then takes validity 11. -/
def primTsComp (x : PrimIn) : Raw :=
  let f0 := x.pNum 0
  let f := if x.bad 1 then f0 else x.oNum 1
  let th := nMul (nMul n2Pi (nSub f f0)) (x.oNum 2)
  let r := rawC (cMul (x.oCpx 0) (unitAt th))
  if x.bad 1 then { r with quest := true, base := some [(x.op 0).q, BitVec.ofNat 16 ((x.op 1).q.toNat / 4 * 4), (x.op 2).q] } else r

/-- A difference of angles reduced modulo the exact 2π and divided, rounded once. -/
def angleOver (d c : Num) : Num :=
  if fMag c.v = 0 then numInvalid.with [d, c]
  else
    let r := fxReduce (fxOf d)
    (numRound (decide (r < 0)) (r * (fUnit : Nat) * (fUnit : Nat)) (2 ^ fxW * fMag c.v)).with [d, c]

/-- Frequency of FREQ_EST from the angles, newest first, starting `i` tags back. -/
def freqAt (x : PrimIn) (angles : List Nat) (i k : Nat) : Num :=
  let d := nSub (ofWord (angles.getD i 0)) (ofWord (angles.getD (i + k) 0))
  nAdd (x.pNum 0) (angleOver d (nMul (nMul n2Pi (numNat k)) x.dt))

def primFreqEst (x : PrimIn) : Raw :=
  let k := x.pNat 1
  let ang := cArg (x.oCpx 0)
  let bad := x.bad 0
  let new := if bad then (x.hist 0).headD 0 else word32 ang.1
  let all := new :: x.hist 0
  let rocof := x.pInt 2 == 1
  let need := if rocof then 2 * k else k
  let h := [all.take (2 * k)]
  let gap := if bad then qGap else 0
  let quest := ang.2 && !bad
  if x.seg.n < need then
    { rawF (if rocof then num 0 else x.pNum 0) with bits := qGap, quest := quest, h := h }
  else
    let f := freqAt x all 0 k
    let v := if rocof then nDiv (nSub f (freqAt x all k k)) (nMul (numNat k) x.dt) else f
    { rawF v with bits := gap, quest := quest, h := h }

/-! ## Codes 26 to 31 -/

/-- The common rule: a required operand of validity 01 gives 0 with validity 01 and leaves the state (R147). -/
def protInvalid (x : PrimIn) : Raw := ({ rawI 0 with inv := true } : Raw).keep x

/-- 1 + h, or 1, as the previous state says. -/
def widen (h : Num) (was : Bool) : Num := if was then nAdd n1 h else n1

/-- A state-word result: the state keeps bit 0. -/
def rawState (b : Bool) : Raw := { rawB b with a := [if b then 1 else 0] }

def primMho (x : PrimIn) : Raw :=
  if x.bad 0 then protInvalid x
  else
    let zr := x.pCpx 0
    let zo := x.pCpx 2
    let d := cSub zr zo
    let c : Cpx := ⟨nDiv d.re n2, nDiv d.im n2⟩
    let r := nDiv (cMag (cAdd zr zo)) n2
    let far := cMag (cSub (x.oCpx 0) c)
    let lim := nMul r (widen (x.pNum 4) (x.st 0 == 1))
    (rawState (nLt far lim)).on [far, lim]

def primQuad (x : PrimIn) : Raw :=
  if x.bad 0 then protInvalid x
  else
    let z := x.oCpx 0
    let w := widen (x.pNum 5) (x.st 0 == 1)
    let xr := x.pNum 0
    let a := nSub z.im (nMul z.re (nTan (x.pNum 4)))
    let b := nSub z.re (nDiv z.im (nTan (x.pNum 3)))
    let top := nMul xr w
    let left := nMul (nNeg (x.pNum 2)) w
    let right := nMul (x.pNum 1) w
    let low := nMul (nMul (nNeg nTenth) xr) w
    (rawState (nLe a top && nLe left b && nLe b right && nLe low z.im)).on [a, b, top, left, right, low]

/-- The states of DIRECTIONAL: 0 undetermined, 1 forward, 2 reverse. -/
def primDirectional (x : PrimIn) : Raw :=
  if x.bad 0 || x.bad 1 then protInvalid x
  else
    let p := cMul (x.oCpx 0) (cConj (x.oCpx 1))
    let ang := cArg p
    let turn := nSub ang.1 (x.pNum 0)
    let psi := fxReduce (fxOf turn)
    let mag := cMag p
    let beta := x.pNum 1
    let entry := nSub beta (x.pNum 3)
    let lim (s : Nat) : Int := if x.st 0 = s then fxOf beta else fxOf entry
    let r : Nat :=
      if nLt mag (x.pNum 2) then 0
      else if ((psi.natAbs : Nat) : Int) < lim 1 then 1
      else if fxPi - ((psi.natAbs : Nat) : Int) < lim 2 then 2
      else 0
    ({ rawI r with quest := ang.2, a := [r] } : Raw).on [turn, mag, entry]

/-- ONE of the IDMT accumulator. -/
def idmtOne : Int := (2 ^ 40 : Nat)

/-- x · 2^40 to the nearest integer, ties to even. -/
def idmtInc (x : Num) : Int := divEvenInt (fInt x.v * idmtOne) fUnit

/-- IDMT by the pseudocode of its family; state: accumulator, started, reset count. -/
def primIdmt (x : PrimIn) : Raw :=
  if x.bad 0 then protInvalid x
  else if x.hasOp 1 && x.oTrue 1 then { rawI 0 with a := [0, 0, 0] }
  else
    let acc : Int := x.st 0
    let was := x.st 1 == 1
    let m := nDiv (x.oNum 0) (x.pNum 4)
    let gt := x.pNum 6
    if nLe gt m || (was && nLe (nMul n095 gt) m) then
      let mc := if nLt m (x.pNum 7) then m else x.pNum 7
      let d := nSub (nPow mc (x.pNum 1)) n1
      let top := nMul (x.pNum 5) (nAdd (nDiv (x.pNum 0) d) (x.pNum 2))
      let q := nDiv x.dt top
      let pos := decide (0 < fInt d.v)
      let inc := if pos then idmtInc q else 0
      let acc := min (acc + inc) idmtOne
      let op := acc == idmtOne
      ({ rawI (1 + if op then 2 else 0) with a := [acc.toNat, 1, 0] } : Raw).on ([m, d] ++ if pos then [q] else [])
    else if nLe n1 m then { rawI 0 with sat := m.sat, inv := m.inv, a := [acc.toNat, 0, x.st 2] }
    else match x.pInt 8 with
      | 0 => { rawI 0 with sat := m.sat, inv := m.inv, a := [0, 0, x.st 2] }
      | 1 =>
        let rc := x.st 2 + 1
        { rawI 0 with sat := m.sat, inv := m.inv, a := [if decide ((rc : Int) ≥ x.pInt 9) then 0 else acc.toNat, 0, rc] }
      | _ =>
        let tres := nDiv (nMul (x.pNum 5) (x.pNum 3)) (nSub n1 (nPow m (x.pNum 1)))
        let q := nDiv x.dt tres
        { rawI 0 with sat := m.sat || q.sat, inv := m.inv || q.inv, a := [(max 0 (acc - idmtInc q)).toNat, 0, x.st 2] }

def primLoadEnc (x : PrimIn) : Raw :=
  if x.bad 0 then protInvalid x
  else
    let z := x.oCpx 0
    let was := x.st 0 == 1
    let h := x.pNum 2
    let r := if was then nMul (x.pNum 0) (nSub n1 h) else x.pNum 0
    let ph := if was then nMul (x.pNum 1) (nAdd n1 h) else x.pNum 1
    let fwd := cArg z
    let rev := cArg (cNeg z)
    let b := (nLe r z.re && nLe (nAbs fwd.1) ph) || (nLe r (nNeg z.re) && nLe (nAbs rev.1) ph)
    ({ rawState b with quest := fwd.2 } : Raw).on [r, ph, fwd.1, rev.1]

/-- PSWING (log 34). State: tags between the blinders, tags bit 0 is still held after the outer region, side of entry
(1 right, 2 left), inner blinder crossed, and the bits of the latest result. -/
def primPswing (x : PrimIn) : Raw :=
  if x.bad 0 then protInvalid x
  else
    let z := x.oCpx 0
    let inX := nLe (nAbs z.im) (x.pNum 2)
    let outer := inX && nLe (nAbs z.re) (x.pNum 0)
    let inner := inX && nLe (nAbs z.re) (x.pNum 1)
    let side := if fInt z.re.v < 0 then 2 else 1
    let wasIn := x.st 2 != 0
    let entry := if wasIn then x.st 2 else side
    let cnt := if outer && !inner then x.st 0 + 1 else if outer then x.st 0 else 0
    let crossed := (wasIn && x.st 3 == 1) || inner
    let slow := outer && decide ((cnt : Int) > x.pInt 3)
    let swing := slow || (outer && x.st 4 % 2 == 1)
    let oos := !outer && wasIn && crossed && entry != side
    let hold : Int :=
      if outer then 0
      else if wasIn then (if x.st 4 % 2 = 1 then x.pInt 4 else 0)
      else (x.st 1 : Int) - 1
    let b0 := swing || (!outer && decide (0 < hold))
    let b1 := oos || (x.st 4 / 2 % 2 == 1 && b0)
    let r := (if b0 then 1 else 0) + (if b1 then 2 else 0)
    { rawI (r : Nat) with a := [cnt, hold.toNat, if outer then entry else 0, if outer && crossed then 1 else 0, r] }

/-! ## Codes 32 to 34 -/

/-- Biased differential from the exact inputs Id and Ib; state: bias memory. -/
def diffResult (x : PrimIn) (id ib : Num) : Raw :=
  let prev := ofWord (x.st 0)
  let mem := nMul (x.pNum 5) prev
  let ibm := if nLt ib mem then mem else ib
  let is2 := x.pNum 2
  let thr :=
    if nLe ibm is2 then nAdd (x.pNum 0) (nMul (x.pNum 1) ibm)
    else nAdd (nAdd (x.pNum 0) (nMul (x.pNum 1) is2)) (nMul (x.pNum 3) (nSub ibm is2))
  let unr := nLt (x.pNum 4) id
  let op := unr || nLt thr id
  ({ rawI ((if op then 1 else 0) + (if unr then 2 else 0) + (if nLt ib ibm then 4 else 0)) with a := [word32 ibm] } : Raw).on
    [id, ib, mem, thr]

def primDiffBias (x : PrimIn) : Raw :=
  if x.bad 0 || x.bad 1 then protInvalid x
  else
    let a := x.oCpx 0
    let b := x.oCpx 1
    diffResult x (cMag (cAdd a b)) (nDiv (nAdd (cMag a) (cMag b)) n2)

def primDiffBiasN (x : PrimIn) : Raw :=
  if (List.range x.n).any x.bad then protInvalid x
  else
    let mags := x.cs.map cMag
    let ib :=
      if x.pInt 6 = 1 then mags.foldl (fun a b => if nLt a b then b else a) (num 0)
      else nDiv (sumNums mags) n2
    diffResult x (cMag (sumCpx x.cs)) ib

/-- The level one harmonic is compared with: q times the fundamental, less the hysteresis while the bit is set. -/
def harmLevel (fund q h : Num) (was : Bool) : Num := if was then nMul (nMul q (nSub n1 h)) fund else nMul q fund

/-- One harmonic restraint with hysteresis. -/
def harmBit (harm level : Num) (was : Bool) : Bool := if was then !nLt harm level else nLt level harm

def primHarmRestr (x : PrimIn) : Raw :=
  if x.bad 0 || x.bad 1 || x.bad 2 then protInvalid x
  else if fMag (x.oNum 0).v = 0 then { rawI 3 with quest := true, a := [3] }
  else
    let was (k : Nat) : Bool := (x.st 0).testBit k
    let l0 := harmLevel (x.oNum 0) (x.pNum 0) (x.pNum 2) (was 0)
    let l1 := harmLevel (x.oNum 0) (x.pNum 1) (x.pNum 2) (was 1)
    let r := (if harmBit (x.oNum 1) l0 (was 0) then 1 else 0) + (if harmBit (x.oNum 2) l1 (was 1) then 2 else 0)
    ({ rawI (r : Nat) with a := [r] } : Raw).on [l0, l1]

end Sys2Proof.Machine
end

