-- ==== Sys2Proof/Machine/Dispatcher.lean ====
section
/-!
DEFINITION. The task dispatcher (R72 to R114): matching, formation, issue, retire, flows, faults, delay lists, stealing.
-/
namespace Sys2Proof.Machine

/-- What the dispatcher asks of the blocks around it: an output primitive's action at retire (R141), and a cycle boundary
of a partition at a tag (R57). -/
structure Hooks where
  act : Mod → Template → Task → Mod
  cyc : Mod → Nat → Nat → Mod

/-- The zero payload of a template's result, and of an operand (R76, R97, R126). -/
def resZero (t : Template) : Val := valOf t.resType 0 0
def opZero (t : Template) (op : Nat) : Val := valOf (t.opTypes.getD op 0) 0 0

def modTd (m : Mod) (f : Td → Td) : Mod := { m with td := f m.td }

/-! ## Tasks -/

/-- A task named by its template and tag. -/
def findTask (m : Mod) (t tag : Nat) : Option Task := m.td.tasks.find? fun k => k.tmpl == t && k.tag == tag

/-- The task of that template and tag changed. -/
def modTask (m : Mod) (t tag : Nat) (f : Task → Task) : Mod :=
  modTd m fun d => { d with tasks := d.tasks.map fun k => if k.tmpl = t ∧ k.tag = tag then f k else k }

/-- Tasks in flight of a template (R88). -/
def inFlight (m : Mod) (t : Nat) : Nat := (m.td.tasks.filter (·.tmpl == t)).length

/-- Tasks in flight of the partitions that share a pool with partition `p` (R93). -/
def poolUse (m : Mod) (p : Nat) : Nat :=
  (m.td.tasks.filter fun k => match template m k.tmpl with
    | some t => (tmplPart t == 0) == (p == 0)
    | none => false).length

/-- The protection pool: the sum of the protection CEIL values (R93). -/
def protPool (m : Mod) : Nat := ((imageOf m 0).templates.map fun t => t.2.ceil).foldl (· + ·) 0

/-- One more task of a template finds an in-flight entry (R88, R93). -/
def entryFree (m : Mod) (t : Template) : Bool :=
  decide (inFlight m t.num < t.ceil)
    && (if tmplPart t = 0 then decide (poolUse m 0 < protPool m) else decide (poolUse m 1 < 8192 - protPool m))

/-- A flow or stateless template is quarantined (R97). -/
def quarantined (m : Mod) (t : Template) : Bool :=
  match t.flow with
  | some f => (tabGet m.td.flows f).quar.isSome
  | none => (tabGet m.td.quar t.num).isSome

/-- The result that stands for every tag of a quarantined flow or template: armed, zero, validity 01 (R97, R138). -/
def quarResult (t : Template) : Result := ⟨resZero t, 1, true⟩

/-! ## Placement (R89, R106) -/

def clMode (m : Mod) (c : Nat) : ClMode := tabGet m.pe.clMode c

/-- A cluster takes no new task: drained, draining, under test or out of service. -/
def clusterClosed (m : Mod) (c : Nat) : Bool := clMode m c ≠ .service

/-- Ready tasks of a cluster at a level. -/
def readyCount (m : Mod) (c level : Nat) : Nat :=
  (m.td.tasks.filter fun k => k.state == .ready && k.cluster == c && (match template m k.tmpl with
    | some t => t.level == level
    | none => false)).length

/-- The clusters of a mask, ascending. -/
def maskClusters (mask : Nat) : List Nat := (List.range 16).filter fun c => mask.testBit c

/-- The cluster that serves a bound template or a flow: its own, or a ring neighbour while it is closed, alternately by
order of formation (R106). DESIGN CHOICE (log 357): even formation numbers go to c − 1, odd ones to c + 1, and a closed
neighbour is passed over for an open one. -/
def servedAt (m : Mod) (c form : Nat) : Nat :=
  if !clusterClosed m c then c
  else
    let (a, b) := if form % 2 = 0 then ((c + 15) % 16, (c + 1) % 16) else ((c + 1) % 16, (c + 15) % 16)
    if clusterClosed m a && !clusterClosed m b then b else a

/-- The cluster on whose ready list a task goes (R89). DESIGN CHOICE (log 358): closed home clusters are passed over for a
stateless unbound task, and with all of them closed a neighbour of the lowest serves it. -/
def chooseCluster (m : Mod) (t : Template) (form : Nat) : Nat :=
  let img := imageOf m (tmplPart t)
  match t.flow with
  | some f => servedAt m (match img.flows.lookup f with | some c => c.home | none => 0) form
  | none =>
    match img.bound.lookup t.num with
    | some (c + 1) => servedAt m c form
    | _ =>
      let cs := (maskClusters img.homeSet).filter fun c => !clusterClosed m c
      match cs with
      | [] => servedAt m ((maskClusters img.homeSet).headD 0) form
      | c :: rest => rest.foldl (fun b x => if readyCount m x t.level < readyCount m b t.level then x else b) c

/-! ## Formation (R76, R85 to R87) -/

/-- The value of a sticky operand for a task of tag `tag`, with whether a late token supplies it (R76, R85). -/
def stickyOp (m : Mod) (t : Template) (op tag : Nat) : OpVal × Bool :=
  match stickyFor (tabGet m.td.sticky (slotKey t.num op)) tag with
  | some v => (⟨v.val, v.q, some v.etag, 0⟩, v.late)
  | none => (⟨opZero t op, 0, none, 0⟩, false)

/-- The operand values a task of tag `tag` takes: matched ones from `vals`, sticky ones as they stand; and whether one is
late. -/
def takeOps (m : Mod) (t : Template) (tag : Nat) (vals : Nat → OpVal) : List OpVal × Bool :=
  let l := (List.range t.nOps).map fun k => if isSticky t k then stickyOp m t k tag else (vals k, false)
  (l.map (·.1), l.any (·.2))

/-- The late marks of a template's sticky slots are spent by the task that takes them (R85). -/
def clearLate (m : Mod) (t : Template) (tag : Nat) : Mod :=
  let spend (v : StickyVal) : StickyVal := if tagLe v.etag tag then { v with late := false } else v
  let one (st : List (Nat × List StickyVal)) (k : Nat) : List (Nat × List StickyVal) :=
    if isSticky t k then tabMod st (slotKey t.num k) (List.map spend) else st
  modTd m fun d => { d with sticky := (List.range t.nOps).foldl one d.sticky }

/-- A pending delay entry holds a task of that template and tag (R87). -/
def delayHolds (m : Mod) (t : Template) (tag : Nat) : Bool :=
  m.td.delays.any fun e => e.target == t.num && isSticky t e.op && !e.cancel && tagLe e.etag tag

/-- The 1 µs interval of the elapsed-time count (R93). -/
def precInterval (m : Mod) : Nat := m.clk.elapsed / usec 1

/-- Protection tasks formed in the current interval. -/
def precNow (m : Mod) : Nat := if m.td.precAt = precInterval m then m.td.precCount else 0

/-- A task forms: operand values copied into an in-flight entry, matched slots freed (R86). -/
def formTask (m : Mod) (t : Template) (tag : Nat) (vals : Nat → OpVal) : Mod :=
  let (ops, late) := takeOps m t tag vals
  let form := m.td.formSeq
  let hold := delayHolds m t tag
  let quar := quarantined m t
  let task : Task :=
    { tmpl := t.num, tag := tag, ops := ops, state := if quar then .done else if hold then .held else .ready
      cluster := chooseCluster m t form, form := form, readyAt := m.clk.elapsed, engine := none, avoid := none, retries := 0
      late := late, result := if quar then some (quarResult t) else none, log := none, committed := false, routes := [], quar := quar }
  let m := clearLate m t tag
  modTd m fun d => { d with
    tasks := d.tasks ++ [task], formSeq := form + 1, formed := tabSet d.formed t.num (some tag)
    precCount := if tmplPart t = 0 then precNow m + 1 else d.precCount
    precAt := if tmplPart t = 0 then precInterval m else d.precAt
    slots := (matchedOps t).foldl (fun s k => tabSet s (slotKey t.num k) none) d.slots }

/-- Whether a token fills the last matched operand of its tag. -/
def completes (m : Mod) (t : Template) (k : Tok) : Bool :=
  (matchedOps t).all fun o => o == k.op || (match tabGet m.td.slots (slotKey t.num o) with
    | some x => x.tok.tag == k.tag
    | none => false)

/-- A token can enter its matched slot now (R84, R88): the slot is empty, and an entry is free when it completes a set. -/
def canEnter (m : Mod) (t : Template) (k : Tok) : Bool :=
  (tabGet m.td.slots (slotKey t.num k.op)).isNone && (!completes m t k || entryFree m t)

/-- A token enters its matched slot, and the task forms when the set is complete (R84, R86). -/
def enterMatched (m : Mod) (t : Template) (x : XTok) : Mod :=
  let full := completes m t x.tok
  let m := modTd m fun d => { d with slots := tabSet d.slots (slotKey t.num x.tok.op) (some x) }
  if full then
    formTask m t x.tok.tag fun o => match tabGet m.td.slots (slotKey t.num o) with
      | some y => ⟨y.tok.val, y.tok.q, none, y.tok.stream⟩
      | none => default
  else m

/-- A unit that takes the Active's tokens and effective tags in place of its own (R264, R283, R564). -/
def follows (m : Mod) : Bool := m.mode.role == .standby && (m.mode.syncSt == 2 || m.mode.syncSt == 1)

/-- A record for the state copy of tag `tag` (R283); a Standby keeps its own for the state digest (R269). -/
def noteCopyAt (m : Mod) (tag : Nat) (r : CopyRec) : Mod :=
  modTd m fun d => { d with copyRecs := (tag, r) :: d.copyRecs }

/-- The tag of the protection cycle that closes next. -/
def closingTag (m : Mod) : Nat := match (partOf m 0).lastTag with
  | some t => tagAdd t 1
  | none => latestTag m 0

/-- A record for the state copy of the running cycle. -/
def noteCopy (m : Mod) (r : CopyRec) : Mod := noteCopyAt m (closingTag m) r

/-- A sticky token put into its slot with effective tag `e`, marked late or not (R85). -/
def putStickyAs (m : Mod) (t : Template) (op e : Nat) (v : Val) (q : Qual) (late : Bool) : Mod :=
  modTd m fun d => { d with sticky := tabMod d.sticky (slotKey t.num op) fun l => stickyPut l ⟨e, v, q, late⟩ }

/-- A sticky token of an asynchronous source: late when a task of its effective tag or a later one has formed (R85). -/
def putSticky (m : Mod) (t : Template) (op e : Nat) (v : Val) (q : Qual) : Mod :=
  putStickyAs m t op e v q (match tabGet m.td.formed t.num with
    | some f => tagLe e f
    | none => false)

/-- A sticky token reaches the match stage. One from another domain or an asynchronous source is given its effective tag
here when its source gave none, travels to the Standby, and is not taken by a Standby that follows (R85, R564). -/
def enterSticky (m : Mod) (t : Template) (x : XTok) : Mod :=
  let prot := tmplPart t == 0
  if prot && follows m then m
  else
    let e := x.etag.getD (tagAdd (latestTag m t.domain) 3)
    let m := putSticky m t x.tok.op e x.tok.val x.tok.q
    if prot then
      let w := valWords x.tok.val
      noteCopy m (.sticky t.num x.tok.op e [valType x.tok.val, w.1, w.2] x.tok.q.toNat)
    else m

/-! ## Freeing entries (R91, R94) -/

/-- The templates of a flow in ascending FLOW_SEQ. -/
def flowTemplates (m : Mod) (p f : Nat) : List (Nat × Nat) :=
  let l := (imageOf m p).templates.filterMap fun t => if t.2.flow = some f then some (t.2.flowSeq, t.1) else none
  l.insertionSort fun a b => a.1 ≤ b.1

/-- The position after a template's task of a tag: the next template of the flow, or its first with the next tag (R94). -/
def flowNext (m : Mod) (t : Template) (f tag : Nat) : Nat × Nat :=
  let l := flowTemplates m (tmplPart t) f
  match l.find? fun x => decide (t.flowSeq < x.1) with
  | some x => (tag, x.1)
  | none => (tagAdd tag 1, (l.headD (0, 0)).1)

/-- A retired task's entry is freed and its flow moves on (R91 step 3, R94). -/
def freeEntry (m : Mod) (t : Template) (tag : Nat) : Mod :=
  let m := modTd m fun d => { d with tasks := d.tasks.filter fun k => !(k.tmpl == t.num && k.tag == tag) }
  match t.flow with
  | some f =>
    let (nt, ns) := flowNext m t f tag
    modTd m fun d => { d with flows := tabMod d.flows f fun s => { s with busy := none, nextTag := some nt, nextSeq := ns } }
  | none => m

/-- A routing of a retiring task is placed; with the last one its entry is freed. -/
def routePlaced (m : Mod) (tn tag i : Nat) : Mod :=
  let m := modTask m tn tag fun k => { k with routes := k.routes.filter (· ≠ i) }
  match findTask m tn tag, template m tn with
  | some k, some t => if k.committed && k.routes.isEmpty then freeEntry m t tag else m
  | _, _ => m

/-- A token that entered lets go of its producer (R107). -/
def releaseProducer (m : Mod) (x : XTok) : Mod :=
  match x.src with
  | .result t tag i => routePlaced m t tag i
  | _ => m

/-- A token held at its producer (R84, R88, R107). -/
def holdToken (m : Mod) (x : XTok) : Mod :=
  let m := modTd m fun d => { d with held := d.held ++ [x] }
  match x.src with
  | .sv p => { m with net := { m.net with ports := tabMod m.net.ports p fun st => { st with held := true } } }
  | .filter g => setFault m Reg.FLT_FAULT 4 g
  | .sluice o => setFault m Reg.BSN_FAULT 6 o
  | _ => m

/-- Rung 2 of the recovery ladder is asked for a partition (R84, R512), once while it is outstanding. -/
def askRung2 (m : Mod) (p trigger : Nat) : Mod :=
  if m.rung2.any (·.1 == p) then m else { m with rung2 := m.rung2 ++ [(p, trigger)] }

/-! ## The match stage (R83 to R86, R93) -/

/-- The producer of a token is held at an earlier token (R107): the port of a frame, a channel group, an output. -/
def producerHeld (m : Mod) (x : XTok) : Bool :=
  match x.src with
  | .sv _ | .filter _ | .sluice _ => m.td.held.any fun y => y.src == x.src
  | _ => false

/-- One token put at the end of a crossing. -/
def pushCross (m : Mod) (c : Nat) (x : XTok) : Mod :=
  modTd m fun d => { d with cross := tabMod d.cross c fun l => l ++ [x] }

/-- A token whose target belongs to the protection partition. -/
def isProtTok (m : Mod) (x : XTok) : Bool :=
  match template m x.tok.tmpl with
  | some t => tmplPart t == 0
  | none => false

/-- Protection tasks formed in the current interval stay within the reserved rate × 1 µs, rounded up (R93). DESIGN CHOICE
(log 356): one more must fit, so precedence ends with the task that brings the count to that figure. -/
def precedence (m : Mod) : Bool :=
  decide (precNow m < ceilDiv (reg m Reg.TD_RSV_RATE).toNat 1000000)

/-- A token at the match stage: into its slot, held, or a tag-order fault (R84). A partition that is not Live, or past its
halt point, admits no token from a source (R56, R112). -/
def matchToken (m : Mod) (x : XTok) : Mod :=
  match template m x.tok.tmpl with
  | none => releaseProducer m x
  | some t =>
    let p := tmplPart t
    let fromTask := match x.src with | .result .. => true | _ => false
    if !isLive m p || ((partOf m p).stopped && !fromTask) then releaseProducer m x
    else if isSticky t x.tok.op then releaseProducer (enterSticky m t x) x
    else
      match tabGet m.td.slots (slotKey t.num x.tok.op) with
      | some y =>
        if tagLe x.tok.tag y.tok.tag then askRung2 (releaseProducer (setFault m Reg.TD_FAULT 2 t.num) x) p 1
        else holdToken m x
      | none =>
        -- a later tag waits behind a token already held for the same slot
        if m.td.held.any (fun y => y.tok.tmpl == t.num && y.tok.op == x.tok.op) || !canEnter m t x.tok then holdToken m x
        else releaseProducer (enterMatched m t x) x

/-- The boundary that a token opens: the first token of tag t + 1 of a metering or recording domain closes tag t (R57). -/
def tokenBoundary (m : Mod) (h : Hooks) (x : XTok) : Mod :=
  match template m x.tok.tmpl with
  | none => m
  | some t =>
    let p := tmplPart t
    if (p = 2 ∨ p = 3) ∧ isLive m p ∧ !isSticky t x.tok.op then
      match x.src with
      | .result .. => m
      | _ => h.cyc m p (tagAdd x.tok.tag (-1))
    else m

/-- The earliest token held for an operand slot (R84). -/
def heldFirst (m : Mod) (tn op : Nat) : Option XTok :=
  match m.td.held.filter fun x => x.tok.tmpl == tn && x.tok.op == op with
  | [] => none
  | x :: xs => some (xs.foldl (fun b y => if tagBefore y.tok.tag b.tok.tag then y else b) x)

/-- HELD_TOKEN_ENTRY: the earliest token held for a slot enters it once the slot and an entry are free (R84, R88, R111); past
the halt point only a retiring task's (R112). -/
def heldEntry (m : Mod) (tn op : Nat) : Mod :=
  match template m tn, heldFirst m tn op with
  | some t, some x =>
    let result := match x.src with | .result .. => true | _ => false
    if canEnter m t x.tok && isLive m (tmplPart t) && (result || !(partOf m (tmplPart t)).stopped) then
      let m := modTd m fun d => { d with held := d.held.erase x }
      releaseProducer (enterMatched m t x) x
    else m
  | _, _ => m

/-- PRECEDENCE_INTERVAL_END: the next whole microsecond of the elapsed-time count; the protection count restarts (R93). -/
def precedenceEnd (m : Mod) : Mod :=
  let m := advanceTo m ((m.clk.elapsed / usec 1 + 1) * usec 1)
  modTd m fun d => { d with precCount := 0 }

/-! ## Issue (R90, R94, R105, R106) -/

/-- The flow of a task is free for it: nothing executing or awaiting retire, and the task is the next in order (R94). -/
def flowFree (m : Mod) (t : Template) (k : Task) : Bool :=
  match t.flow with
  | none => true
  | some f =>
    let s := tabGet m.td.flows f
    s.busy.isNone && (match s.nextTag with
      | some nt => nt == k.tag && s.nextSeq == t.flowSeq
      | none => ((flowTemplates m (tmplPart t) f).headD (0, 0)).1 == t.flowSeq)

/-- A Standby holds protection tasks of a tag until the copy of the tag before is applied (R284). -/
def standbyHolds (m : Mod) (t : Template) (k : Task) : Bool :=
  m.mode.role == .standby && m.mode.syncSt == 2 && tmplPart t == 0 && (match m.mode.copyTag with
    | some c => tagBefore (tagAdd c 1) k.tag
    | none => false)

/-- A task may issue now: past the halt point only the retry of a fault, which completes before the partition is Halted
(R111, R112). -/
def issuable (m : Mod) (t : Template) (k : Task) : Bool :=
  k.state == .ready && isLive m (tmplPart t) && (!(partOf m (tmplPart t)).stopped || decide (0 < k.retries)) && flowFree m t k
    && !standbyHolds m t k

/-- Order of R90: protection first, then level, then formation. -/
def issueBefore (ta : Template) (a : Task) (tb : Template) (b : Task) : Bool :=
  let pa := tmplPart ta == 0
  let pb := tmplPart tb == 0
  if pa ≠ pb then pa
  else if ta.level ≠ tb.level then decide (ta.level < tb.level)
  else decide (a.form < b.form)

/-- The first of a list of tasks in the order of R90. -/
def firstTask (m : Mod) (ks : List Task) : Option Task :=
  ks.foldl (fun b k => match b with
    | none => some k
    | some c => match template m k.tmpl, template m c.tmpl with
      | some tk, some tc => if issueBefore tk k tc c then some k else some c
      | _, _ => some c) none

/-- Engine `e` of a cluster is idle and may take tasks (R90, R124). -/
def engineIdle (m : Mod) (c e : Nat) : Bool :=
  !(m.td.tasks.any fun k => k.state == .executing && k.engine == some (c, e)) && !m.td.withdrawn.contains (16 * c + e)

/-- Engine 15 of a cluster in the protection home set is the express engine (R90). -/
def isExpress (m : Mod) (c e : Nat) : Bool := e == 15 && (imageOf m 0).homeSet.testBit c

/-- The idle engine of a cluster that a task takes: the express engine first for protection, else the lowest, never the
engine of its latest fault (R90, R96). -/
def chooseEngine (m : Mod) (c : Nat) (prot : Bool) (avoid : Option (Nat × Nat)) : Option Nat :=
  let es := (List.range 16).filter fun e => engineIdle m c e && avoid ≠ some (c, e) && (prot || !isExpress m c e)
  match es.find? (isExpress m c) with
  | some e => some e
  | none => es.head?

/-- Engine `e` of cluster `c` may run a task: the express engine runs protection only, and a retry avoids the engine of its
latest fault (R90, R96). -/
def mayRun (m : Mod) (c e : Nat) (k : Task) : Bool := match template m k.tmpl with
  | some t => (tmplPart t == 0 || !isExpress m c e) && k.avoid ≠ some (c, e)
  | none => false

/-- A ready task starts on an engine. -/
def startOn (m : Mod) (k : Task) (c e : Nat) : Mod :=
  let m := modTask m k.tmpl k.tag fun k => { k with state := .executing, engine := some (c, e), cluster := c }
  match template m k.tmpl with
  | some t => match t.flow with
    | some f => modTd m fun d => { d with flows := tabMod d.flows f fun s => { s with busy := some (k.tmpl, k.tag) } }
    | none => m
  | none => m

/-- The engine of cluster `c` on which a task would start now, none where it may not. -/
def engineFor (m : Mod) (c : Nat) (k : Task) : Option Nat := match template m k.tmpl with
  | some t => chooseEngine m c (tmplPart t == 0) k.avoid
  | none => none

/-- The tasks of cluster `c` that may start on one of its own engines (R90). -/
def ownTasks (m : Mod) (c : Nat) : List Task :=
  m.td.tasks.filter fun k => k.cluster == c && (match template m k.tmpl with
    | some t => issuable m t k
    | none => false) && (engineFor m c k).isSome

/-- The task chosen, if any, starts on its engine of cluster `c`. -/
def startFirst (m : Mod) (c : Nat) (choice : Option Task) : Mod :=
  match choice with
  | some k => match engineFor m c k with
    | some e => startOn m k c e
    | none => m
  | none => m

/-- TASK_ISSUE: a cluster issues its first ready task that may run to an idle engine (R90). -/
def taskIssue (m : Mod) (c : Nat) : Mod :=
  if clusterClosed m c then m else startFirst m c (firstTask m (ownTasks m c))

/-- A task of `victim` that cluster `thief` may steal (R103, R105): stateless, unbound, of a partition whose home set holds
the victim, ready for TD_STEAL_AGE dispatcher cycles of 0.8 ns. -/
def stealable (m : Mod) (victim : Nat) (k : Task) : Bool :=
  match template m k.tmpl with
  | none => false
  | some t =>
    let img := imageOf m (tmplPart t)
    k.cluster == victim && issuable m t k && t.flow.isNone && (img.bound.lookup t.num).getD 0 == 0
      && img.homeSet.testBit victim
      && decide (k.readyAt + max 8 (regBits m Reg.TD_STEAL_AGE 7 0) * 8 * nsUnit / 10 ≤ m.clk.elapsed)

/-- A ready task of cluster `c` itself that its engine `e` may run (R103). -/
def ownReady (m : Mod) (c e : Nat) : Bool := m.td.tasks.any fun k => k.cluster == c && mayRun m c e k && (match template m k.tmpl with
  | some t => issuable m t k
  | none => false)

/-- The engines of a cluster that may steal: idle, without a ready task of the cluster they may run (R103). -/
def thieves (m : Mod) (c : Nat) : List Nat := (List.range 16).filter fun e => engineIdle m c e && !ownReady m c e

/-- The first task of cluster `v` that engine `e` of cluster `c` may take over. -/
def stealFrom (m : Mod) (c v e : Nat) : Option Task :=
  if clusterClosed m v then none
  else firstTask m (m.td.tasks.filter fun k => stealable m v k && mayRun m c e k)

/-- Of both ring neighbours' first tasks the earlier formed, c − 1 on a tie (R103). -/
def stealChoice (m : Mod) (c e : Nat) : Option Task :=
  match stealFrom m c ((c + 15) % 16) e, stealFrom m c ((c + 1) % 16) e with
  | some a, some b => some (if b.form < a.form then b else a)
  | some a, none => some a
  | none, b => b

/-- The steal that a cluster decides on: its lowest thief engine that finds a task, and the task. -/
def stealPick (m : Mod) (c : Nat) : Option (Nat × Task) :=
  (thieves m c).findSome? fun e => (stealChoice m c e).map fun k => (e, k)

/-- The victim's own engine would issue the task in this cycle: then the victim wins (R104, R111). -/
def victimIssues (m : Mod) (k : Task) : Bool := match firstTask m (ownTasks m k.cluster) with
  | some x => x.tmpl == k.tmpl && x.tag == k.tag
  | none => false

/-- STEAL_DECISION: an idle engine of a cluster without a ready task it may run takes the first stealable task of a ring
neighbour (R103); the steal is abandoned when the victim issues the task itself (R104). -/
def stealDecision (m : Mod) (c : Nat) : Mod :=
  if clusterClosed m c || !(regBits m Reg.TD_CTRL 15 0).testBit c then m
  else match stealPick m c with
    | some (e, k) => if victimIssues m k then m else startOn m k c e
    | none => m

/-! ## Delay lists (R98 to R102) -/

/-- The tick of a list on the elapsed-time count (R82). -/
def delayTick (m : Mod) (l : Nat) : Nat :=
  match (tabGet m.delayPlan l).tick with
  | 0 => 250 * nsUnit | 1 => usec 1 | 2 => usec 10 | _ => usec 100

/-- The effective tag of an insertion: tag + ⌈n × tick × r⌉, r the nominal rate of the target's domain (R99). -/
def delayTag (m : Mod) (l n tag dom : Nat) : Nat :=
  let r := domainRate m dom
  tagAdd tag (ceilDiv (n * delayTick m l * r.1) (secs 1 * r.2) : Nat)

/-- An entry as the copy record of the running cycle (R283). -/
def copyDelay (m : Mod) (e : DelayEntry) (live : Bool) : Mod :=
  match template m e.target with
  | some t => if tmplPart t = 0 then
      let w := valWords e.val
      noteCopy m (.delay e.list e.target e.op e.etag [valType e.val, w.1, w.2, e.q.toNat, e.tag, if e.cancel then 1 else 0] live)
    else m
  | none => m

/-- The holds of R87 on a template's tasks as its pending delay entries stand: a ready task that an entry now holds waits, and a
held task whose entry has gone takes the current sticky values and becomes ready. A retry keeps the operands of its entry (R96). -/
def settleHolds (m : Mod) (tn : Nat) : Mod :=
  match template m tn with
  | none => m
  | some t => (m.td.tasks.filter fun k => k.tmpl == tn && k.retries == 0).foldl (fun m k =>
      match k.state, delayHolds m t k.tag with
      | .ready, true => modTask m tn k.tag fun k => { k with state := .held }
      | .held, false =>
        let (ops, late) := takeOps m t k.tag fun o => k.ops.getD o default
        let m := clearLate m t k.tag
        modTask m tn k.tag fun k => { k with ops := ops, late := k.late || late, state := .ready, readyAt := m.clk.elapsed }
      | _, _ => m) m

/-- A delay entry leaves its list: delivered into its sticky slot, or gone as a cancellation (R98, R101). -/
def deliverDelay (m : Mod) (e : DelayEntry) : Mod :=
  let m := copyDelay (modTd m fun d => { d with delays := d.delays.erase e }) e false
  match template m e.target with
  | some t => settleHolds (if e.cancel then m else putStickyAs m t e.op e.etag e.val e.q false) t.num
  | none => m

/-- An armed result goes to a delay list: none when the list is full of pending entries (R99, R100, R102). -/
def delayInsert (m : Mod) (r : Routing) (tag : Nat) (res : Result) : Option Mod :=
  let l := r.kind - 1
  let cancel := res.q.toNat % 4 == 1 && isZeroVal res.val
  let dom := match template m r.target with | some t => t.domain | none => 0
  let due := (m.clk.elapsed / delayTick m l + r.ticks) * delayTick m l
  let e : DelayEntry :=
    { list := l, target := r.target, op := r.op, tag := tag, etag := delayTag m l r.ticks tag dom, val := res.val, q := res.q
      cancel := cancel, due := due, order := m.td.insSeq }
  let same (x : DelayEntry) : Bool := x.target == r.target && x.op == r.op
  -- the pending entry, unless its edge has come: then its delivery completes, but for a cancellation that precedes its tag (R111)
  let old := m.td.delays.find? same
  let m := match old with
    | some o => if o.due ≤ m.clk.elapsed && !(cancel && tagBefore tag o.etag) then deliverDelay m o else m
    | none => m
  match m.td.delays.find? same with
  | some o => if cancel && !o.cancel && !tagBefore tag o.etag then some m else add m l e same
  | none => add m l e same
where
  /-- The entry put in place of the operand's pending one, where its list has room for it (R100, R102). -/
  add (m : Mod) (l : Nat) (e : DelayEntry) (same : DelayEntry → Bool) : Option Mod :=
    let rest := m.td.delays.filter fun x => !same x
    if (rest.filter (·.list == l)).length < (tabGet m.delayPlan l).entries then
      some (settleHolds (copyDelay (modTd m fun d => { d with delays := rest ++ [e], insSeq := d.insSeq + 1 }) e true) e.target)
    else none

/-- The entry of a delay list that expires next, of those whose target's partition is Live and not past its halt point (R112): the earliest,
the one inserted first of two at one edge (R98, R101). -/
def nextDelay (m : Mod) (l : Nat) : Option DelayEntry :=
  match m.td.delays.filter fun e => e.list == l && (match template m e.target with
    | some t => isLive m (tmplPart t) && !(partOf m (tmplPart t)).stopped
    | none => false) with
  | [] => none
  | e :: es => some (es.foldl (fun b x => if x.due < b.due ∨ (x.due = b.due ∧ x.order < b.order) then x else b) e)

/-! ## The order of arrivals at the match stage (R83, R92, R93, R101) -/

/-- What the match stage can take next: the first token of a crossing, or a delay-list delivery. -/
inductive Arrival where
  | tok (c : Nat) (x : XTok)
  | delay (e : DelayEntry)
  deriving DecidableEq, Repr, Inhabited

/-- The delay entry to be delivered first of those whose expiry edge has come: of the lowest list (R101). -/
def dueDelay (m : Mod) : Option DelayEntry :=
  ((List.range 4).filterMap fun l => (nextDelay m l).filter fun e => decide (e.due ≤ m.clk.elapsed)).head?

/-- The first token of a crossing whose producer is not held. -/
def crossHead (m : Mod) (c : Nat) : Option Arrival :=
  ((tabGet m.td.cross c).find? fun x => !producerHeld m x).map (.tok c)

/-- What waits at the match stage, in the order of R83. -/
def heads (m : Mod) : List Arrival :=
  [crossHead m 0, (dueDelay m).map .delay, crossHead m 2, crossHead m 3, crossHead m 4, crossHead m 5].filterMap id

/-- An arrival for the protection partition. -/
def isProt (m : Mod) : Arrival → Bool
  | .tok _ x => isProtTok m x
  | .delay e => match template m e.target with
    | some t => tmplPart t == 0
    | none => false

/-- What the match stage takes: an arrival for the protection partition first while precedence lasts, else by R83. -/
def nextToken (m : Mod) : Option Arrival :=
  let l := heads m
  let prot := l.find? (isProt m)
  if precedence m && prot.isSome then prot else l.head?

/-- The token leaves its crossing. -/
def dropToken (m : Mod) (c : Nat) (x : XTok) : Mod := modTd m fun d => { d with cross := tabMod d.cross c fun l => l.erase x }

/-- The other tokens of the result that a token belongs to, with their crossings: one match operation takes them all (R92). -/
def sameResult (m : Mod) (x : XTok) : List (Nat × XTok) :=
  match x.src with
  | .result t tag _ => [0, 5].flatMap fun c => ((tabGet m.td.cross c).filter fun y => y != x && (match y.src with
      | .result t' tag' _ => t' == t && tag' == tag
      | _ => false)).map fun y => (c, y)
  | _ => []

/-- The match stage takes an arrival. -/
def matchChosen (h : Hooks) (m : Mod) : Option Arrival → Mod
  | none => m
  | some (.tok c x) =>
    let rest := sameResult m x
    rest.foldl (fun m y => matchToken (dropToken m y.1 y.2) y.2) (matchToken (tokenBoundary (dropToken m c x) h x) x)
  | some (.delay e) => deliverDelay m e

/-- TOKEN_MATCH: the match stage takes what comes first. -/
def tokenMatch (h : Hooks) (m : Mod) : Mod := matchChosen h m (nextToken m)

/-- The entries of a list whose expiry edge has come, delivered in order (R101). -/
def deliverDue (m : Mod) (l : Nat) : Mod :=
  m.td.delays.foldl (fun m _ => match nextDelay m l with
    | some e => if e.due ≤ m.clk.elapsed then deliverDelay m e else m
    | none => m) m

/-- DELAY_EXPIRY: the next entry of a list reaches its expiry edge: delivered into its sticky slot, or gone as a
cancellation (R98, R100), after the entries due in lower-numbered lists (R101). An arrival that R83 or R93 puts first leaves
the entry due, for TOKEN_MATCH to take in its turn. -/
def delayExpiry (m : Mod) (l : Nat) : Mod :=
  match nextDelay m l with
  | none => m
  | some e =>
    let m := advanceTo m e.due
    match nextToken m with
    | some (.delay _) => deliverDelay ((List.range l).foldl deliverDue m) e
    | _ => m

/-! ## Retire (R91, R94, R138 to R141) -/

/-- The task is the earliest of its template in flight (R91). -/
def earliest (m : Mod) (k : Task) : Bool :=
  m.td.tasks.all fun x => !(x.tmpl == k.tmpl) || tagLe k.tag x.tag

/-- Flow state committed from the write log (R140), with its copy record (R283). -/
def commitLog (m : Mod) (t : Template) (k : Task) : Mod :=
  match k.log, t.flow with
  | some s, some f =>
    let m := modTd m fun d => { d with flows := tabMod d.flows f fun x => { x with segs := tabSet x.segs t.num s } }
    if tmplPart t = 0 then noteCopyAt m k.tag (.segment f t.num (segWords s)) else m
  | _, _ => m
where
  /-- A segment as words. -/
  segWords (s : Seg) : List Nat :=
    let p := match s.prev with
      | some v => [1, valType v, (valWords v).1, (valWords v).2]
      | none => [0, 0, 0, 0]
    p ++ [s.n, s.a.length] ++ s.a ++ [s.h.length] ++ (s.h.map fun x => x.length :: x).flatten

/-- The direct routings of a committed task sent toward the match stage, and its delay insertions made. -/
def placeRoutes (m : Mod) (t : Template) (k : Task) (first : Bool) : Mod :=
  match k.result with
  | none => m
  | some res =>
    let stream := (k.ops.headD default).stream
    k.routes.foldl (fun m i =>
      match t.dests[i]? with
      | none => m
      | some r =>
        if r.kind = 0 then
          if first then
            let dom := match template m r.target with | some x => x.domain | none => t.domain
            let c := if dom = t.domain then 0 else 5
            pushCross m c ⟨⟨r.target, r.op, k.tag, stream, res.val, res.q⟩, none, .result t.num k.tag i⟩
          else m
        else if !res.arm then routePlaced m t.num k.tag i
        else match delayInsert m r k.tag res with
          | some m => routePlaced m t.num k.tag i
          | none => m) m

/-- CLAIM retires last in its tag: no other protection task of the tag or an earlier one is in flight (R152). -/
def claimLast (m : Mod) (t : Template) (k : Task) : Bool :=
  t.prim ≠ 66 || m.td.tasks.all fun x => x.tmpl == k.tmpl || !tagLe x.tag k.tag || (match template m x.tmpl with
    | some u => tmplPart u ≠ 0
    | none => true)

/-- A completed task is the one to retire: the earliest of its template, and its flow is at it (R91, R94). -/
def mayRetire (m : Mod) (t : Template) (k : Task) : Bool :=
  k.state == .done && earliest m k && claimLast m t k && (match t.flow with
    | some f =>
      let s := tabGet m.td.flows f
      s.busy == some (k.tmpl, k.tag) || (s.busy.isNone && flowFree m t { k with state := .ready })
    | none => true)

/-- The task's flow serves this task (R95). -/
def claimFlow (m : Mod) (t : Template) (tag : Nat) : Mod :=
  match t.flow with
  | some f => modTd m fun d => { d with flows := tabMod d.flows f fun s => { s with busy := some (t.num, tag) } }
  | none => m

/-- The task as it retires: a protection result of a tag of the takeover interval carries bit 8 (R298). -/
def retiring (m : Mod) (t : Template) (k : Task) : Task :=
  if tmplPart t = 0 ∧ inTakeover m k.tag then { k with result := k.result.map fun r => { r with q := qOr r.q qTakeover } } else k

/-- A retiring task commits: its write log, its result as it retires, and every routing still to be placed (R91). -/
def commitTask (m : Mod) (t : Template) (k : Task) : Mod :=
  modTask (claimFlow (commitLog m t k) t k.tag) t.num k.tag fun x => { x with
    committed := true, routes := List.range t.dests.length, result := k.result }

/-- The entry is freed once no routing is left to be placed. -/
def freePlaced (m : Mod) (t : Template) (tag : Nat) : Mod :=
  match findTask m t.num tag with
  | some k => if k.routes.isEmpty then freeEntry m t tag else m
  | none => m

/-- The routings of a committed task are placed for the first time. -/
def placeFirst (m : Mod) (t : Template) (tag : Nat) : Mod :=
  match findTask m t.num tag with
  | some k => freePlaced (placeRoutes m t k true) t tag
  | none => m

/-- TASK_RETIRE: a completed task retires in tag order: its flow state commits, an output primitive acts, its result goes
to each routing, and its entry is freed once every routing is placed (R91). A task already committed retries the
insertions that a full delay list held (R102). -/
def taskRetire (h : Hooks) (m : Mod) (tn tag : Nat) : Mod :=
  match findTask m tn tag, template m tn with
  | some k, some t =>
    if !mayRetire m t k then m
    else if k.committed then placeRoutes m t k false
    else
      let k := retiring m t k
      placeFirst (h.act (commitTask m t k) t k) t tag
  | _, _ => m

/-! ## Faults and quarantine (R96, R97, R124) -/

/-- Kinds of task fault: an ECC error of scratch, log or flow state, one of the resident parameters, overrun, crossing
parity (R96, R123, R124). -/
def faultBit : TaskFaultKind → Nat
  | .flowEcc => 1
  | .scratchEcc => 3
  | .overrun => 4
  | .parity => 5
  | .paramEcc => 7

/-- The flow of a task, or its stateless template, is quarantined from this tag (R97): tasks of it in flight that have not
completed retire with the zero result. -/
def quarantine (m : Mod) (t : Template) (tag : Nat) : Mod :=
  let m := match t.flow with
    | some f => modTd m fun d => { d with flows := tabMod d.flows f fun s => { s with quar := some tag } }
    | none => modTd m fun d => { d with quar := tabSet d.quar t.num (some tag) }
  let hit (k : Task) : Bool := k.state ≠ .done && (match template m k.tmpl with
    | some u => u.num == t.num || (t.flow.isSome && u.flow == t.flow)
    | none => false)
  let zero (k : Task) : Result := match template m k.tmpl with
    | some u => quarResult u
    | none => default
  let stop (k : Task) : Task :=
    if hit k then { k with state := .done, engine := none, result := some (zero k), log := none, quar := true } else k
  let m := modTd m fun d => { d with tasks := d.tasks.map stop }
  let m := setReg m Reg.TD_QUAR_CNT (BitVec.ofNat 32 ((reg m Reg.TD_QUAR_CNT).toNat + 1))
  let m := setFault m Reg.TD_FAULT 1 t.num [t.flow.getD 0xFFFF, tag]
  if tmplPart t = 0 then noteCopyAt m tag (.quarantine t.flow.isSome (t.flow.getD t.num) tag) else m

/-- Rung 2 after a quarantine of the unit's own execution: in the protection partition of an Active, or where HLTH_CTRL.AUTO_R2
asks for it (R512 codes 4 and 3). -/
def quarAsk (m : Mod) (p : Nat) : Mod :=
  if p = 0 ∧ m.mode.role = .active then askRung2 m p 4
  else if (regBits m Reg.HLTH_CTRL 11 8).testBit p then askRung2 m p 3 else m

/-- A flow's committed state holds an uncorrectable word (R124). -/
def markFlow (m : Mod) (f : Nat) : Mod :=
  if m.pe.badFlows.contains f then m else { m with pe := { m.pe with badFlows := f :: m.pe.badFlows } }

/-- An engine's log or scratch region holds an uncorrectable word, or no longer does. -/
def markMem (m : Mod) (engine : Nat) (bad : Bool) : Mod :=
  { m with pe := { m.pe with mem := tabMod m.pe.mem engine fun x => { x with bad := bad } } }

/-- What a faulting memory leaves (R124): the count of its cluster, a withdrawn engine, a flow whose state stays bad. -/
def faultMem (m : Mod) (t : Template) (k : Task) (kind : TaskFaultKind) : Mod :=
  let home := match t.flow with
    | some f => ((imageOf m (tmplPart t)).flows.lookup f).map FlowCfg.home
    | none => none
  let count (m : Mod) (c : Nat) : Mod := bumpEcc m (Reg.PE_CL_ECC (c % 16)) true
  match kind, k.engine with
  | .flowEcc, some (c, _) =>
    let m := count m (home.getD c)
    match t.flow with
    | some f => markFlow m f
    | none => m
  | .scratchEcc, some (c, e) => markMem (count m c) (16 * c + e) false
  | .paramEcc, some (c, e) => modTd (count m c) fun d => { d with withdrawn := (16 * c + e) :: d.withdrawn }
  | _, _ => m

/-- The fault that a task meets in the memories it uses (R124, R499): a bad word in its flow's committed state, or in its
engine's log or scratch. -/
def memFault (m : Mod) (t : Template) (k : Task) : Option TaskFaultKind :=
  if (match t.flow with | some f => m.pe.badFlows.contains f | none => false) then some .flowEcc
  else if (match k.engine with | some (c, e) => (tabGet m.pe.mem (16 * c + e)).bad | none => false) then some .scratchEcc
  else none

/-- TASK_FAULT: results discarded, the task re-issued, its flow or template quarantined when the second retry faults
(R96, R97). DESIGN CHOICE (log 359): a stateless task too avoids the faulted engine, and its cluster is chosen anew by R89. -/
def taskFault (m : Mod) (tn tag : Nat) (kind : TaskFaultKind) : Mod :=
  match findTask m tn tag, template m tn with
  | some k, some t =>
    if k.state ≠ .executing then m
    else
      let m := setFault m Reg.PE_FAULT (faultBit kind) t.num
      let m := if kind = .overrun then bump m Reg.PE_OVERRUN_CNT else m
      let m := faultMem m t k kind
      if k.retries ≥ 2 then quarAsk (quarantine m t tag) (tmplPart t)
      else
        let m := setFault (bump m Reg.TD_RETRY_CNT) Reg.TD_FAULT 0 t.num
        let m := match t.flow with
          | some f => modTd m fun d => { d with flows := tabMod d.flows f fun s => { s with busy := none } }
          | none => m
        modTask m tn tag fun k => { k with
          state := .ready, engine := none, avoid := k.engine, retries := k.retries + 1, result := none, log := none
          readyAt := m.clk.elapsed
          cluster := if t.flow.isSome then k.cluster else chooseCluster m t k.form }
  | _, _ => m

/-! ## Halt and start (R112) -/

/-- The frozen slots, tasks, held tokens and delay entries of a partition cleared. -/
def clearPart (m : Mod) (p : Nat) : Mod :=
  let mine (t : Nat) : Bool := match template m t with
    | some x => tmplPart x == p
    | none => false
  modTd m fun d => { d with
    slots := d.slots.filter fun s => !mine (s.1 / 8)
    tasks := d.tasks.filter fun k => !mine k.tmpl
    held := d.held.filter fun x => !mine x.tok.tmpl
    delays := d.delays.filter fun e => !mine e.target
    formed := d.formed.filter fun x => !mine x.1
    cross := d.cross.map fun c => (c.1, c.2.filter fun x => !mine x.tok.tmpl)
    flows := d.flows.map fun f => (f.1, if (imageOf m p).flows.any (·.1 == f.1) then { f.2 with nextTag := none, nextSeq := 0, busy := none } else f.2)
    lastTag := d.lastTag.filter fun x => domainPart x.1 ≠ p }

/-- A load: the same items cleared, sticky slots back at their initial value, flow state zero, quarantine lifted (R112,
R120). -/
def clearForLoad (m : Mod) (p : Nat) : Mod :=
  let mine (t : Nat) : Bool := match template m t with
    | some x => tmplPart x == p
    | none => false
  let quar := (m.td.flows.filter fun f => (imageOf m p).flows.any (·.1 == f.1) && f.2.quar.isSome).length
    + (m.td.quar.filter fun q => mine q.1 && q.2.isSome).length
  let m := clearPart m p
  let m := { m with pe := { m.pe with badFlows := m.pe.badFlows.filter fun f => !(imageOf m p).flows.any (·.1 == f) } }
  let m := setReg m Reg.TD_QUAR_CNT (BitVec.ofNat 32 ((reg m Reg.TD_QUAR_CNT).toNat - quar))
  modTd m fun d => { d with
    sticky := d.sticky.filter fun s => !mine (s.1 / 8)
    flows := d.flows.filter fun f => !(imageOf m p).flows.any (·.1 == f.1)
    quar := d.quar.filter fun q => !mine q.1 }

end Sys2Proof.Machine
end

