-- ==== Sys2Proof/Machine/Sha.lean ====
section
/-!
DEFINITION. SHA-256, SHA-384 and HMAC-SHA-256 (FIPS 180-4, FIPS 198-1), which R48, R269, R288, R464, R466 and R478 name.
-/
namespace Sys2Proof.Machine

/-- The first 80 primes, from whose roots both standards take their constants. -/
def shaPrimes : List Nat :=
  [2, 3, 5, 7, 11, 13, 17, 19, 23, 29, 31, 37, 41, 43, 47, 53, 59, 61, 67, 71] ++
  [73, 79, 83, 89, 97, 101, 103, 107, 109, 113, 127, 131, 137, 139, 149, 151, 157, 163, 167, 173] ++
  [179, 181, 191, 193, 197, 199, 211, 223, 227, 229, 233, 239, 241, 251, 257, 263, 269, 271, 277, 281] ++
  [283, 293, 307, 311, 313, 317, 331, 337, 347, 349, 353, 359, 367, 373, 379, 383, 389, 397, 401, 409]

/-- The largest `r` below `r0 + 2 ^ b` with `r ^ k ≤ n`, found bit by bit from `r0`. -/
def rootFrom (k n : Nat) : Nat → Nat → Nat
  | 0, r => r
  | b + 1, r => rootFrom k n b (if (r + 2 ^ b) ^ k ≤ n then r + 2 ^ b else r)

/-- The first 64 bits of the fractional part of the `k`-th root of a prime below 512. -/
def rootWord (k p : Nat) : Nat := rootFrom k (p * 2 ^ (64 * k)) 69 0 % 2 ^ 64

/-- Round constants: cube roots. The 32-bit ones are the upper halves of the first 64. -/
def shaK512 : List (BitVec 64) := shaPrimes.map fun p => BitVec.ofNat 64 (rootWord 3 p)
def shaK256 : List (BitVec 32) := (shaPrimes.take 64).map fun p => BitVec.ofNat 32 (rootWord 3 p / 2 ^ 32)

/-- Initial hash values: square roots of the first eight primes, and of the eight after them. -/
def shaH256 : List (BitVec 32) := (shaPrimes.take 8).map fun p => BitVec.ofNat 32 (rootWord 2 p / 2 ^ 32)
def shaH384 : List (BitVec 64) := ((shaPrimes.drop 8).take 8).map fun p => BitVec.ofNat 64 (rootWord 2 p)

/-- Padding of a message for blocks of `blk` bytes with a length field of `lf` bytes. -/
def shaPad (blk lf : Nat) (b : Bytes) : Bytes :=
  let n := b.length
  b ++ [0x80] ++ List.replicate ((2 * blk - 1 - lf - n % blk) % blk) 0 ++ beBytes lf (8 * n)

/-- A list cut into pieces of `k`; `fuel` bounds their number. -/
def cutInto {α : Type} (k : Nat) : Nat → List α → List (List α)
  | 0, _ => []
  | fuel + 1, l => if l.isEmpty then [] else l.take k :: cutInto k fuel (l.drop k)

/-- The bytes as blocks of `k`. -/
def blocksOf (k : Nat) (b : Bytes) : List Bytes := cutInto k (b.length / k + 1) b

/-- The eight working words of a compression. -/
structure ShaState (w : Nat) where
  a : BitVec w
  b : BitVec w
  c : BitVec w
  d : BitVec w
  e : BitVec w
  f : BitVec w
  g : BitVec w
  h : BitVec w

/-- Choice and majority. -/
def shaCh {w : Nat} (x y z : BitVec w) : BitVec w := (x &&& y) ^^^ (~~~x &&& z)
def shaMaj {w : Nat} (x y z : BitVec w) : BitVec w := (x &&& y) ^^^ (x &&& z) ^^^ (y &&& z)

/-- Rotations and shifts of the two word sizes: big sigma 0 and 1, small sigma 0 and 1. -/
def sig256 (x : BitVec 32) (i : Nat) : BitVec 32 :=
  match i with
  | 0 => x.rotateRight 2 ^^^ x.rotateRight 13 ^^^ x.rotateRight 22
  | 1 => x.rotateRight 6 ^^^ x.rotateRight 11 ^^^ x.rotateRight 25
  | 2 => x.rotateRight 7 ^^^ x.rotateRight 18 ^^^ (x >>> 3)
  | _ => x.rotateRight 17 ^^^ x.rotateRight 19 ^^^ (x >>> 10)

def sig512 (x : BitVec 64) (i : Nat) : BitVec 64 :=
  match i with
  | 0 => x.rotateRight 28 ^^^ x.rotateRight 34 ^^^ x.rotateRight 39
  | 1 => x.rotateRight 14 ^^^ x.rotateRight 18 ^^^ x.rotateRight 41
  | 2 => x.rotateRight 1 ^^^ x.rotateRight 8 ^^^ (x >>> 7)
  | _ => x.rotateRight 19 ^^^ x.rotateRight 61 ^^^ (x >>> 6)

/-- The message schedule, newest word first: `n` further words after the sixteen of the block. -/
def shaSchedule {w : Nat} (sig : BitVec w → Nat → BitVec w) : Nat → List (BitVec w) → List (BitVec w)
  | 0, l => l
  | n + 1, l => shaSchedule sig n
      ((sig (l.getD 1 0) 3 + l.getD 6 0 + sig (l.getD 14 0) 2 + l.getD 15 0) :: l)

/-- One round. -/
def shaRound {w : Nat} (sig : BitVec w → Nat → BitVec w) (s : ShaState w) (kw : BitVec w) : ShaState w :=
  let t1 := s.h + sig s.e 1 + shaCh s.e s.f s.g + kw
  let t2 := sig s.a 0 + shaMaj s.a s.b s.c
  ⟨t1 + t2, s.a, s.b, s.c, s.d + t1, s.e, s.f, s.g⟩

/-- One block compressed into the hash value. -/
def shaBlock {w : Nat} (sig : BitVec w → Nat → BitVec w) (ks : List (BitVec w)) (hv : List (BitVec w)) (blk : Bytes) :
    List (BitVec w) :=
  let ws := ((cutInto (w / 8) 16 blk).map fun b => BitVec.ofNat w (beNat b)).reverse
  let sched := (shaSchedule sig (ks.length - 16) ws).reverse
  let s0 : ShaState w := ⟨hv.getD 0 0, hv.getD 1 0, hv.getD 2 0, hv.getD 3 0, hv.getD 4 0, hv.getD 5 0, hv.getD 6 0, hv.getD 7 0⟩
  let s := (ks.zip sched).foldl (fun s kw => shaRound sig s (kw.1 + kw.2)) s0
  [hv.getD 0 0 + s.a, hv.getD 1 0 + s.b, hv.getD 2 0 + s.c, hv.getD 3 0 + s.d,
    hv.getD 4 0 + s.e, hv.getD 5 0 + s.f, hv.getD 6 0 + s.g, hv.getD 7 0 + s.h]

/-- SHA-256 of a byte string: 32 bytes. -/
def sha256 (b : Bytes) : Bytes :=
  ((blocksOf 64 (shaPad 64 8 b)).foldl (shaBlock sig256 shaK256) shaH256).flatMap fun x => beBytes 4 x.toNat

/-- SHA-384 of a byte string: 48 bytes. -/
def sha384 (b : Bytes) : Bytes :=
  (((blocksOf 128 (shaPad 128 16 b)).foldl (shaBlock sig512 shaK512) shaH384).flatMap fun x => beBytes 8 x.toNat).take 48

/-- HMAC-SHA-256 under a key. -/
def hmac256 (key msg : Bytes) : Bytes :=
  let k0 := if key.length > 64 then sha256 key else key
  let k := k0 ++ List.replicate (64 - k0.length) 0
  sha256 (k.map (· ^^^ 0x5C) ++ sha256 (k.map (· ^^^ 0x36) ++ msg))

end Sys2Proof.Machine
end

