-- ==== Sys2Proof/Machine/Ecdsa.lean ====
section
/-!
DEFINITION. ECDSA over P-384 with SHA-384 (FIPS 186-5), which R45, R48, R469 and R470 name.
-/
namespace Sys2Proof.Machine

/-- Field prime, order, coefficient b and base point of P-384. -/
def p384p : Nat := 2 ^ 384 - 2 ^ 128 - 2 ^ 96 + 2 ^ 32 - 1
def p384n : Nat := 0xffffffffffffffffffffffffffffffffffffffffffffffffc7634d81f4372ddf581a0db248b0a77aecec196accc52973
def p384b : Nat := 0xb3312fa7e23ee7e4988e056be3f82d19181d9c6efe8141120314088f5013875ac656398d8a2ed19d2a85c8edd3ec2aef
def p384gx : Nat := 0xaa87ca22be8b05378eb1c71ef320ad746e1d3b628ba79b9859f741e082542a385502f25dbf55296c3a545e3872760ab7
def p384gy : Nat := 0x3617de4a96262c6f5d9e98bf9292dc29f8f41dbd289a147ce9da3113b5f0b8c00a60b1ce1d7e819d7a431d7c90ea0e5f

/-- x^e modulo m, over the `k` low bits of e. -/
def modPow (m x : Nat) : Nat → Nat → Nat
  | 0, _ => 1 % m
  | k + 1, e =>
    let h := modPow m (x * x % m) k (e / 2)
    if e % 2 = 1 then x * h % m else h

/-- The inverse modulo a prime below 2^384. -/
def modInv (m x : Nat) : Nat := modPow m x 384 (m - 2)

/-- A point of the curve; none is the point at infinity. -/
abbrev EcPoint := Option (Nat × Nat)

/-- The affine point lies on P-384. -/
def onCurve (x y : Nat) : Bool :=
  decide (x < p384p) && decide (y < p384p) && (y * y) % p384p == (x * x * x + (p384p - 3) * x + p384b) % p384p

/-- Sum of two points. -/
def ecAdd (a b : EcPoint) : EcPoint :=
  match a, b with
  | none, q => q
  | q, none => q
  | some (x1, y1), some (x2, y2) =>
    let p := p384p
    if x1 = x2 ∧ (y1 + y2) % p = 0 then none
    else
      let l := if x1 = x2 then (3 * x1 * x1 + p - 3) % p * modInv p (2 * y1 % p) % p
        else (y2 + p - y1) % p * modInv p ((x2 + p - x1) % p) % p
      let x3 := (l * l + 2 * p - x1 - x2) % p
      some (x3, (l * ((x1 + p - x3) % p) + p - y1) % p)

/-- The multiple of a point by the `k` low bits of a number. -/
def ecMul (q : EcPoint) : Nat → Nat → EcPoint
  | 0, _ => none
  | k + 1, e =>
    let h := ecMul (ecAdd q q) k (e / 2)
    if e % 2 = 1 then ecAdd q h else h

/-- A public key of 96 bytes: x and y, most significant byte first. -/
def pubKey (b : Bytes) : Option (Nat × Nat) :=
  let x := beNat (b.take 48)
  let y := beNat (b.drop 48)
  if b.length = 96 ∧ onCurve x y then some (x, y) else none

/-- An ECDSA P-384 signature of 96 bytes (r, s) over a message's SHA-384 verifies. -/
def ecdsaOk (key sig msg : Bytes) : Bool :=
  match pubKey key with
  | none => false
  | some q =>
    let r := beNat (sig.take 48)
    let s := beNat (sig.drop 48)
    if sig.length = 96 ∧ 0 < r ∧ r < p384n ∧ 0 < s ∧ s < p384n then
      let w := modInv p384n s
      let u1 := beNat (sha384 msg) * w % p384n
      let u2 := r * w % p384n
      match ecAdd (ecMul (some (p384gx, p384gy)) 384 u1) (ecMul (some q) 384 u2) with
      | some (x, _) => x % p384n == r
      | none => false
    else false

end Sys2Proof.Machine
end

