-- ==== Sys2Proof/Machine/Keeper.lean ====
section
/-!
DEFINITION. Keeper's mailbox (R485 to R491): requests, responses, shed refusals and audit events.
-/
namespace Sys2Proof.Machine

/-- SRC of an event of Keeper firmware (R453). -/
def keeperSrc : Nat := 0x20

/-- An admission entry of a response (R486): check code, partition or cluster, demand and limit as binary64. -/
structure AdmEntry where
  code : Nat
  who : Nat
  demand : Nat
  limit : Nat
  deriving DecidableEq, Repr, Inhabited

/-- What a command answers: RESULT, admission entries and data bytes. -/
structure KResp where
  result : Nat
  entries : List AdmEntry := []
  data : Bytes := []
  deriving DecidableEq, Repr, Inhabited

/-- An answer that is only a RESULT. -/
def answer (r : Nat) : KResp := { result := r }

/-- The 24 bytes of an admission entry. -/
def admBytes (e : AdmEntry) : Bytes :=
  leBytes 1 e.code ++ leBytes 1 e.who ++ leBytes 6 0 ++ leBytes 8 e.demand ++ leBytes 8 e.limit

/-- A response as its bytes (R486). -/
def respBytes (cmd tag : Nat) (r : KResp) : Bytes :=
  let d := (r.entries.map admBytes).flatten ++ r.data
  leBytes 2 cmd ++ leBytes 1 r.result ++ leBytes 1 r.entries.length ++ leBytes 4 tag ++ leBytes 4 d.length ++ leBytes 4 0 ++ d

/-- The response written and announced (R485 step 4), or sent on its M0 session. -/
def keeperReply (m : Mod) (rq : KReq) (cmd : Nat) (r : KResp) : Mod :=
  let b := respBytes cmd rq.tag r
  let m := bump m Reg.KPR_CNT_CMD
  if rq.pcie then
    let m := setReg (setReg m Reg.KPR_RSP_INFO (BitVec.ofNat 32 (cmd * 65536 + r.result))) Reg.KPR_RSP_TAG
      (BitVec.ofNat 32 rq.tag)
    setFaultQuiet { m with kpr := { m.kpr with busy := false, rsp := writeBytes [] 0 (b.take 4096) } } Reg.KPR_FAULT 0
  else emit m (.m0 0 b)

/-- The audit event of a command: class 5, its code, its result, the slot or object and its arguments (R454). -/
def auditEvent (m : Mod) (src code result obj : Nat) (args : Bytes) : Mod :=
  raiseEvent m src 5 code (leBytes 4 result ++ leBytes 4 obj ++ args.take 12)

/-- A mailbox command whose Shed column is `shed` (0 for never): nothing while Keeper is not ready, 0x0D at its shed
level (R488, R491), otherwise what `run` does and answers, with the audit event. -/
def keeperCmd (m : Mod) (rq : KReq) (cmd shed obj : Nat) (args : Bytes) (run : Mod → Mod × KResp) : Mod :=
  if !m.kpr.ready then m
  else if shed ≠ 0 ∧ shed ≤ m.kpr.shed then
    keeperReply (bump m Reg.KPR_CNT_SHED) rq cmd (answer 0x0D)
  else
    let (m, r) := run m
    keeperReply (auditEvent m keeperSrc cmd r.result obj args) rq cmd r

/-- The same for a command that also writes memory. -/
def keeperCmdMem (m : Mod) (rq : KReq) (cmd shed obj : Nat) (args : Bytes) (run : Mod → Mod × KResp × List MemWrite) :
    Mod × List MemWrite :=
  if !m.kpr.ready then (m, [])
  else if shed ≠ 0 ∧ shed ≤ m.kpr.shed then
    (keeperReply (bump m Reg.KPR_CNT_SHED) rq cmd (answer 0x0D), [])
  else
    let (m, r, w) := run m
    (keeperReply (auditEvent m keeperSrc cmd r.result obj args) rq cmd r, w)

/-- A command that changes nothing but what it answers. -/
def keeperAsk (m : Mod) (rq : KReq) (cmd shed obj : Nat) (args : Bytes) (ask : Mod → KResp) : Mod :=
  keeperCmd m rq cmd shed obj args fun m => (m, ask m)

/-- A new file in Keeper's store; the earlier file of its kind goes (R488). Answers its handle. -/
def newFile (m : Mod) (kind : Nat) (data : Bytes) : Nat × Mod :=
  let h := m.kpr.nextHandle
  (h, { m with kpr := { m.kpr with
    nextHandle := h + 1, files := tabSet (m.kpr.files.filter fun f => f.2.kind ≠ kind) h ⟨kind, data⟩ } })

/-- KPR_STAT as read; `stage` is the start step (R516). -/
def kprStat (m : Mod) (stage : Nat) : Nat :=
  let k := m.kpr
  (if k.ready then 1 else 0) + (if k.busy then 2 else 0) + k.kstate * 2 ^ 16 + k.shed * 2 ^ 20
    + (if k.bootFail then 2 ^ 27 else 0) + stage * 2 ^ 28

/-- KPR_DOORBELL.GO: Keeper copies the request and sets BUSY; ignored while BUSY with OVERRUN, and before READY
(R485, R494). -/
def doorbell (m : Mod) (v : Word) : Mod :=
  if v.toNat % 2 = 0 then m
  else if m.kpr.busy then setFault m Reg.KPR_FAULT 5
  else if !m.kpr.ready then m
  else { m with kpr := { m.kpr with busy := true, copied := readBytes m.kpr.req 0 4096, rsp := [] } }

/-- A write of bytes of KPR_REQ, ignored with OVERRUN while BUSY (R485). -/
def kprReqWrite (m : Mod) (a : Nat) (v : Word) (be : BitVec 4) : Mod :=
  if m.kpr.busy then setFault m Reg.KPR_FAULT 5
  else
    let bs := ((leBytes 4 v.toNat).zipIdx.filter fun b => be.getLsbD b.2)
    { m with kpr := { m.kpr with
      req := bs.foldl (fun l b => cellSet (fun _ => (0 : Byte)) l (a / 4 * 4 % 4096 + b.2) b.1) m.kpr.req } }

end Sys2Proof.Machine
end

