-- ==== Sys2Proof/Machine/Keys.lean ====
section
/-!
DEFINITION. The key store (R464 to R479): slots, tags, loading and committing, tamper, and the checks its consumers make.
-/
namespace Sys2Proof.Machine

def keySlot (m : Mod) (i : Nat) : KeySlot := tabGet m.key.slots i
def setSlot (m : Mod) (i : Nat) (s : KeySlot) : Mod := { m with key := { m.key with slots := tabSet m.key.slots i s } }

/-- The tag and backup keys derived from the root secret (R466). -/
def tagKey (m : Mod) : Bytes := hmac256 m.key.root (ascii "VZTAG")
def backupKey (m : Mod) : Bytes := hmac256 m.key.root (ascii "VZBAK")

/-- The integrity tag of a slot's fields (R466). -/
def slotTag (m : Mod) (i : Nat) (s : KeySlot) : Bytes :=
  hmac256 (tagKey m) (Config.keyTagBytes [i, s.kid, s.policy, s.type, s.gen] s.cur)

/-- A slot that KEY_STAT.NVALID counts: Valid, Pending or Grace. -/
def slotHeld (s : KeySlot) : Bool := s.state == .valid || s.state == .pending || s.state == .grace

/-- A slot holds a key in use. A Pending slot that was Unusable before its load has none. -/
def slotLive (s : KeySlot) : Bool := slotHeld s && s.cur ≠ []

/-- The FINGERPRINT of a slot (R464), first byte lowest. -/
def fingerprint (s : KeySlot) : Nat := if s.state = .empty then 0 else leNat ((sha256 s.cur).take 4)

/-- A slot whose tag fails becomes Unusable, with TAG_FAIL (R466). -/
def tagFail (m : Mod) (i : Nat) : Mod :=
  setFault (setSlot m i { keySlot m i with state := .unusable }) Reg.KEY_FAULT 0 i

/-- The tag of a non-empty slot checked; a failure makes it Unusable (R466). -/
def checkTag (m : Mod) (i : Nat) : Mod :=
  let s := keySlot m i
  if slotLive s && s.tag ≠ slotTag m i s then tagFail m i else m

/-- TAG_BACKGROUND_PASS: the background pass checks one slot; it covers all 256 every 10 s (R466). -/
def tagPass (m : Mod) (i : Nat) : Mod := checkTag m i

/-- The policies that admit a key type (R465). -/
def typeSuits (policy type : Nat) : Bool :=
  match policy with
  | 1 | 3 | 5 => decide (1 ≤ type) && decide (type ≤ 3)
  | 2 => type == 4
  | 4 => type == 5
  | _ => false

/-- Key material of the right form for its type (R464, R470). -/
def materialOk (type : Nat) (k : Bytes) : Bool :=
  match type with
  | 4 => (pubKey k).isSome
  | 5 => k.length == 48 && decide (1 ≤ beNat k) && decide (beNat k < p384n)
  | _ => k.length == 32

/-- The module serial number as its bytes. -/
def serialBytes (m : Mod) : Bytes := leBytes 8 m.factory.serial

/-- A Valid slot of a policy. -/
def validPolicy (m : Mod) (p i : Nat) : Bool := let s := keySlot m i; slotLive s && s.policy == p

/-- The first slot of a policy whose key verifies an ECDSA signature. -/
def policySig (m : Mod) (p : Nat) (sig : Bytes) (msg : Nat → Bytes) : Bool :=
  (List.range 256).any fun i => validPolicy m p i && ecdsaOk (keySlot m i).cur sig (msg i)

/-- A key command refused: KEY_FAULT.REFUSED and result 0x0B. -/
def keyRefuse (m : Mod) : Mod × KResp := (setFault m Reg.KEY_FAULT 3, answer 0x0B)

/-- The store state's code (KEY_STAT.STORE). -/
def storeCode : StoreState → Nat
  | .zeroed => 0 | .commissioning => 1 | .provisioned => 2

/-- KEY_COMMISSION (R469). -/
def keyCommission (m : Mod) (sig : Bytes) : Mod × KResp :=
  let need := (List.range 256).any fun i => validPolicy m 2 i
  let ok := m.key.store == .zeroed || !need
    || policySig m 2 sig fun i => Config.keyAuthBytes [(keySlot m i).gen] (serialBytes m)
  if !ok then keyRefuse m
  else
    let m := if m.key.store = .zeroed then
        let (k, m) := drawFree m
        { m with key := { m.key with
          root := (Config.randomRoot k ++ List.replicate 32 0).take 32, slots := [], backups := [], tamper := 0 } }
      else m
    (startTimer { m with key := { m.key with store := .commissioning } } .commissioning 0 (secs 600), answer 0)

/-- KEY_CLOSE: Commissioning to Provisioned (R469). -/
def keyClose (m : Mod) : Mod × KResp :=
  if m.key.store = .commissioning then
    (stopTimer { m with key := { m.key with store := .provisioned } } .commissioning 0, answer 0)
  else keyRefuse m

/-- COMMISSIONING_TIMEOUT: 600 s after KEY_COMMISSION the store is Provisioned (R469). -/
def commissioningTimeout (m : Mod) : Mod :=
  expire m .commissioning 0 fun m =>
    if m.key.store = .commissioning then { m with key := { m.key with store := .provisioned } } else m

/-- The authenticator of a load passes (R470). -/
def loadAuthOk (m : Mod) (i policy type kid : Nat) (mat auth : Bytes) : Bool :=
  let s := keySlot m i
  let msg := Config.keyAuthBytes [i, policy, type, kid, s.gen + 1] (mat ++ serialBytes m)
  match m.key.store with
  | .commissioning => true
  | .zeroed => false
  | .provisioned =>
    if slotLive s && decide (s.type ≤ 3) then hmac256 s.cur msg == auth
    else if slotLive s && s.policy == 2 then ecdsaOk s.cur auth msg
    else if s.state = .empty ∨ (slotLive s ∧ s.type = 5) then policySig m 2 auth fun _ => msg
    else false

/-- KEY_LOAD: a load that is accepted and whose backup reads back becomes Valid in an Empty slot and Pending in another
(R470, R471). `backupOk` says whether the backup was written, read back and decrypted. -/
def keyLoad (m : Mod) (i policy type kid : Nat) (mat auth : Bytes) (backupOk : Bool) : Mod × KResp :=
  let s := keySlot m i
  let kidUsed := (List.range 256).any fun j => j ≠ i && (keySlot m j).state ≠ .empty
    && ((keySlot m j).kid == kid || ((keySlot m j).state == .pending && (keySlot m j).nxtKid == kid))
  let bad := !loadAuthOk m i policy type kid mat auth || !typeSuits policy type || kidUsed || !materialOk type mat
    || (policy == 5 && !m.factory.orderL) || s.state == .pending || m.key.store == .zeroed
  if bad then keyRefuse m
  else if !backupOk then (setFault m Reg.KEY_FAULT 6 i, answer 0x0B)
  else
    let gen := (s.gen + 1) % 65536
    let bk : KeyBackup := ⟨i, gen, kid, policy, type, mat, false, backupKey m⟩
    if s.state = .empty then
      let s' : KeySlot := { kid := kid, policy := policy, type := type, gen := gen, state := .valid, cur := mat }
      let s' := { s' with tag := slotTag m i s' }
      let m := setSlot m i s'
      ({ m with key := { m.key with backups := m.key.backups ++ [{ bk with committed := true }] } }, answer 0)
    else
      let m := setSlot m i { s with
        state := .pending, cur := if s.state = .unusable then [] else s.cur, nxt := mat, nxtKid := kid, nxtType := type, nxtPolicy := policy }
      ({ m with key := { m.key with backups := m.key.backups ++ [bk] } }, answer 0)

/-- KEY_COMMIT: the pending key becomes current in one engine cycle; a policy-1 slot keeps the previous key for receipt
for the grace time (R471, R472); the commit checks the tag (R466). `named` says whether a loaded section names the slot. -/
def keyCommit (m : Mod) (i : Nat) (sealSlot : Bool) (named : Bool) : Mod × KResp :=
  let m := checkTag m i
  let s := keySlot m i
  if s.state ≠ .pending then keyRefuse m
  else if named || sealSlot then keyRefuse m
  else
    let gen := (s.gen + 1) % 65536
    let grace := s.policy == 1 && s.nxtPolicy == 1
    let s' : KeySlot := { s with
      kid := s.nxtKid, type := s.nxtType, policy := s.nxtPolicy, gen := gen, cur := s.nxt, nxt := []
      state := if grace then .grace else .valid
      prev := if grace then s.cur else [], prevKid := s.kid }
    let s' := { s' with tag := slotTag m i s' }
    let m := setSlot m i s'
    let m := { m with key := { m.key with
      backups := (m.key.backups.map fun b => if b.slot = i ∧ b.gen = gen then { b with committed := true } else b).filter
        fun b => !(b.slot == i && b.gen ≠ gen) } }
    let m := setFault m Reg.KEY_FAULT 4 i
    let g := min (regBits m Reg.KEY_CTRL 11 0) 3600
    (if grace then startTimer m .grace i (secs g) else m, answer 0)

/-- GRACE_EXPIRY: the previous key of a policy-1 slot is erased (R471). -/
def graceExpiry (m : Mod) (i : Nat) : Mod :=
  expire m .grace i fun m =>
    let s := keySlot m i
    setSlot m i { s with prev := [], prevKid := 0, state := if s.state = .grace then .valid else s.state }

/-- KEY_ERASE: empties a slot and its backups (R472). -/
def keyErase (m : Mod) (i : Nat) (sealSlot named : Bool) : Mod × KResp :=
  if named || sealSlot then keyRefuse m
  else
    let m := stopTimer (setSlot m i {}) .grace i
    ({ m with key := { m.key with backups := m.key.backups.filter (·.slot ≠ i) } }, answer 0)

/-- KEY_SIGN_LOG: an HMAC over event records under a log-signing slot (R465, R467). -/
def keySignLog (m : Mod) (i first count : Nat) : Mod × KResp :=
  let m := checkTag m i
  if !validPolicy m 3 i then keyRefuse m
  else
    let recs := (List.range count).map fun k => readRecord' m ((first + k) % 2 ^ 64)
    if recs.any (·.isNone) then (m, answer 0x0F)
    else (m, { result := 0, data := hmac256 (keySlot m i).cur (recs.filterMap id).flatten })
where
  /-- A committed record's bytes. -/
  readRecord' (m : Mod) (seq : Nat) : Option Bytes :=
    let b := tabGet m.evr.ring (seq % 524288)
    if b.length = 64 ∧ leNat (b.take 8) = seq then some b else none

/-- An authenticated frame passes (R467, R474): the frame names the slot's current key, or the previous one until its grace
time ends, and its MAC is the truncated HMAC-SHA-256 of the bytes covered. -/
def secOk (m : Mod) (i : Nat) (sec : Option SecExt) (covered : Bytes) : Bool :=
  match sec with
  | none => false
  | some x =>
    let s := keySlot m i
    let len := match s.type with | 1 => 10 | 2 => 16 | _ => 32
    let key := if x.kid = s.kid then s.cur else if x.kid = s.prevKid then s.prev else []
    slotLive s && x.hmac && key ≠ [] && (hmac256 key covered).take len == x.mac

/-- The security extension of a frame sent under a slot. -/
def secFor (m : Mod) (i : Nat) (covered : Bytes) : SecExt :=
  let s := keySlot m i
  let len := match s.type with | 1 => 10 | 2 => 16 | _ => 32
  ⟨s.kid, true, (hmac256 s.cur covered).take len⟩

/-- A slot can authenticate what the module sends (R467). -/
def canSign (m : Mod) (i : Nat) : Bool := validPolicy m 1 i

/-! ## Tamper (R475, R476) -/

/-- Steps 3 and 4 of zeroing, with the rails present: every non-empty slot Unusable, the store Zeroed, TAMPER and the
class-6 event with the latch (R476). -/
def zeroStore (m : Mod) : Mod :=
  let m := { m with key := { m.key with
    store := .zeroed, zeroPend := false
    slots := m.key.slots.map fun s => (s.1, { s.2 with state := .unusable, cur := [], nxt := [], prev := [], tag := [] }) } }
  let m := stopTimer m .commissioning 0
  -- KEY_FAULT.TAMPER is written to the recorder as every KEY_FAULT event is, and the class-6 event beside it
  let m := setFault m Reg.KEY_FAULT 1
  raiseEvent m 0x10 6 8 (leBytes 4 m.key.tamper)

/-- The seal becomes Broken with its event (R67). -/
def breakSeal (m : Mod) : Mod :=
  if sealState m = .broken ∨ sealState m = .notFitted then m
  else
    let code : SealState → Nat
      | .notFitted => 0 | .unsealed => 1 | .sealed => 2 | .broken => 3
    let old := code (sealState m)
    stateEvent { m with mode := { m.mode with sealSt := .broken } } 0xE 6 old 3 0

/-- TAMPER_DETECTED: a cause found on two consecutive samples, as its bit of KEY_TAMPER (R475). `rails` says whether the
module is supplied. -/
def tamperDetected (m : Mod) (cause : Nat) (rails : Bool) : Mod :=
  if cause = 2 ∧ !m.factory.orderL then m
  else
    let m := { m with key := { m.key with
      root := List.replicate 32 0, tamper := m.key.tamper ||| 2 ^ cause, zeroPend := true } }
    if !rails then m
    else
      let m := zeroStore m
      if cause = 2 then breakSeal m else m

/-- BATT_LOW_DETECTED: VBAT below 2.2 V for two samples (R477). -/
def battLow (m : Mod) (mv : Nat) : Mod :=
  setFault { m with key := { m.key with vbatMv := mv } } Reg.KEY_FAULT 2

/-- Step 2 of the start: a battery-domain SRAM found invalid latches BDOM_LOST; a zeroing whose steps the rails did not last to
complete is completed, with the seal Broken where the seal-break loop was a cause (R475, R476). -/
def bdomStart (m : Mod) (lost : Bool) : Mod :=
  let m := if lost then { m with key := { m.key with
      root := List.replicate 32 0, tamper := m.key.tamper ||| 64, zeroPend := true } } else m
  if !m.key.zeroPend then m
  else
    let m := zeroStore m
    if m.key.tamper.testBit 2 then breakSeal m else m

/-- The slot that a backup with its commit mark makes at start: Unusable where it does not decrypt (R468). -/
def restoreSlot (m : Mod) (b : KeyBackup) : Mod :=
  let s : KeySlot := { kid := b.kid, policy := b.policy, type := b.type, gen := b.gen }
  if m.key.store = .zeroed then setSlot m b.slot { s with state := .unusable }
  else if b.key ≠ backupKey m then setFault (setSlot m b.slot { s with state := .unusable }) Reg.KEY_FAULT 0 b.slot
  else
    let s := { s with state := .valid, cur := b.material }
    setSlot m b.slot { s with tag := slotTag m b.slot s }

/-- Start of the key store after power good: pending backups without a commit mark are discarded, the others fill the slots;
the previous keys of Grace slots, which have no backup, are gone (R468). -/
def keyStart (m : Mod) : Mod :=
  let lost := m.key.backups.any fun b => !b.committed
  let m := { m with key := { m.key with slots := [], backups := m.key.backups.filter (·.committed) } }
  let m := if lost then setFault m Reg.KEY_FAULT 5 else m
  m.key.backups.foldl restoreSlot m

/-! ## Registers -/

/-- KEY_STAT as read (R483). -/
def keyStat (m : Mod) : Nat :=
  let c (p : KeySlot → Bool) : Nat := ((List.range 256).filter fun i => p (keySlot m i)).length
  c (fun s => s.state == .unusable) + storeCode m.key.store * 2 ^ 12 + c slotHeld * 2 ^ 16

/-- KEY_SLOT_STAT of a slot as read. -/
def keySlotStat (s : KeySlot) : Nat :=
  let st : Nat := match s.state with
    | .empty => 0 | .valid => 1 | .pending => 2 | .grace => 3 | .unusable => 4
  if s.state = .empty then s.gen * 65536 else st + s.policy * 32 + s.type * 256 + s.gen * 65536

end Sys2Proof.Machine
end

