-- ==== Sys2Proof/Machine/SvIngress.lean ====
section
/-!
DEFINITION. The SV parser (R155 to R172): subscriptions, tags, supervision, missing samples, slips and blocks. Tag indices
are kept unreduced; the tag of an index is its value modulo 2^32.
-/
namespace Sys2Proof.Machine

/-- The record of a subscription in a loaded image. -/
def subCfg (m : Mod) (s : Nat) : Option SubCfg := ([0, 2, 3].filterMap fun p => (imageOf m p).subs.lookup s).head?

def stream (m : Mod) (s : Nat) : SvStream := tabGet m.sv.streams s
def modStream (m : Mod) (s : Nat) (f : SvStream → SvStream) : Mod :=
  { m with sv := { m.sv with streams := tabMod m.sv.streams s f } }

/-- Decimation D = r / m of a subscription (R159). -/
def subD (m : Mod) (c : SubCfg) : Nat := max 1 (c.rate / max 1 (masterRate m c.part))

/-- The tag of an index. -/
def ixTag (k : Int) : Nat := (k % ((2 ^ 32 : Nat) : Int)).toNat

/-- Local-clock instant of tag index k of a subscription's domain (R566). -/
def ixInstant (m : Mod) (c : SubCfg) (k : Int) : Nat := instantOf (masterRate m c.part, 1) k.toNat

/-- Channels of a subscription, ascending. -/
def subChans (m : Mod) (s : Nat) : List (Nat × ChanCfg) :=
  ([0, 2, 3].map fun p => (imageOf m p).chans.filter fun c => c.2.sub == s).flatten

/-- An event of a counted anomaly, when its SV_CTRL bit enables it (R195; the spec numbers no detail, log 24). -/
def svAnomaly (m : Mod) (bit sub : Nat) : Mod :=
  if regBits m Reg.SV_CTRL bit bit = 1 then raiseEvent m 4 0 (Config.axisCode (40 + bit) % 4096) (faultArg sub []) else m

/-! ## Emission (R168, R169, R172) -/

/-- The block state of a subscription at a tag index (R172). -/
def svBlocked (st : SvStream) (k : Int) : Bool :=
  match (st.blocks.filter fun b => decide (b.1 ≤ k)).getLast? with
  | some b => b.2
  | none => false

/-- The value of a raw sample: value × SCALE (R157, R183). -/
def scaled (v : Int) (scale : Nat) : Num := numRound false (v * fInt (BitVec.ofNat 32 scale)) 1

/-- The raw tokens of a tag, kind 0 (R183). -/
def rawTokens (m : Mod) (s : Nat) (c : SubCfg) (port tag : Nat) (vals : List (Int × Qual)) : Mod :=
  if !isLive m c.part then m
  else (subChans m s).foldl (fun m ch =>
    match ch.2.outs.getD 0 none with
    | none => m
    | some (t, op) =>
      let v := vals.getD ch.2.idx (0, 1)
      let x := scaled v.1 ch.2.scale
      pushCross m 3 ⟨⟨t, op, tag, s, .flt x.v, qOr v.2 (if x.sat then qRange else 0)⟩, none, .sv port⟩) m

/-- The lane input store of a subscription is full; how many samples one holds is not stated (R107, R193; log 230). -/
def laneFull (m : Mod) (s : Nat) : Bool := decide (Config.laneStore < (m.sv.lanes.filter fun x => x.sub == s).length)

/-- The parser holds a port, or reads it again (R107). -/
def holdPort (m : Mod) (p : Nat) (b : Bool) : Mod :=
  { m with net := { m.net with ports := tabMod m.net.ports p fun st => { st with held := b } } }

/-- A sample goes to its filter lane. A lane store that it fills makes the parser hold the ports that feed it (R193). -/
def toLane (m : Mod) (x : LaneSample) : Mod :=
  let m := { m with sv := { m.sv with lanes := m.sv.lanes ++ [x] } }
  match subCfg m x.sub with
  | some c =>
    if laneFull m x.sub then
      ((List.range 8).filter fun p => c.ports.testBit p).foldl (fun m p => holdPort m p true) m
    else m
  | none => m

/-- PARSER_HOLD_RELEASE: the port is read again once no token of it is held and no lane store that it feeds is full (R107). -/
def parserHoldRelease (m : Mod) (p : Nat) : Mod :=
  let feeds (s : Nat) : Bool := (subCfg m s).any fun c => c.ports.testBit p
  if (m.td.held.any fun x => x.src == .sv p) || (m.sv.lanes.any fun x => feeds x.sub && laneFull m x.sub) then m
  else holdPort m p false

/-- Zero values of validity 01 with further bits. -/
def zeroVals (n bits : Nat) : List (Int × Qual) := List.replicate n (0, BitVec.ofNat 16 (bits + 1))

/-- The values of a missing sample at index `k` with the run length `run` up to `limit` (R169): the last emitted values, or
values between them and the next accepted sample. `from_` is the index of the last emitted sample. -/
def fillVals (c : SubCfg) (mode run limit : Nat) (last : List Int) (from_ k : Int) (next : Option SvItem) : List (Int × Qual) :=
  if mode = 0 ∨ run > limit then zeroVals c.nch qGap
  else
    let q : Qual := BitVec.ofNat 16 (qGap + 3)
    (List.range c.nch).map fun i =>
      let l := last.getD i 0
      match mode, next with
      | 2, some n =>
        let v := (n.vals.getD i (0, 0)).1
        (l + divEvenInt ((v - l) * (k - from_)) (n.ix - from_).toNat, q)
      | _, _ => (l, q)

/-- MISS_MODE as applied: 0 in the wrong-rate and mismatch states (R166). -/
def missMode (st : SvStream) (c : SubCfg) : Nat := if st.state = .wrongRate ∨ st.state = .mismatch then 0 else c.missMode

/-- The accepted sample that follows index `k`. -/
def nextItem (st : SvStream) (k : Int) : Option SvItem :=
  (st.store.filter fun x => decide (k < x.ix)).foldl (fun b x => match b with
    | none => some x
    | some y => if x.ix < y.ix then some x else some y) none

/-- Bit 6 of an unsynchronised stream (R161, R171). -/
def syncBit (st : SvStream) : Nat := if st.synced then 0 else qUnlocked

/-- The untagged samples of a D = 3 stream before tag index `k`, to their lane: accepted ones, or filled. -/
def emitUntagged (m : Mod) (s : Nat) (c : SubCfg) (d : Nat) (k : Int) : Mod :=
  (List.range (d - 1)).foldl (fun m (i : Nat) =>
    let st := stream m s
    let ix : Int := k * d - d + 1 + i
    match st.store.find? fun x => x.ix == ix with
    | some x =>
      let m := modStream m s fun st => { st with
        store := st.store.erase x, done := (x :: st.done).take 64, missSub := 0, last := x.vals.map (·.1), disc := false }
      toLane m ⟨s, none, some x.cnt, st.disc, x.vals, false, x.sim, ix, false, !st.synced⟩
    | none =>
      let run := st.missSub + 1
      let vals := fillVals c (missMode st c) run (3 * c.holdMax) st.last (ix - 1) ix (nextItem st ix)
      let m := modStream m s fun st => { st with missSub := run, last := vals.map (·.1), disc := false }
      toLane m ⟨s, none, none, st.disc, vals, false, st.simSrc, ix, true, !st.synced⟩) m

/-- The next tag of a stream emitted from an accepted sample. -/
def emitItem (m : Mod) (s : Nat) (c : SubCfg) (x : SvItem) : Mod :=
  let d := subD m c
  let k := x.ix / d
  let m := if (stream m s).next.isSome && d != 1 then emitUntagged m s c d k else m
  let st := stream m s
  let vals := if svBlocked st k then zeroVals c.nch (syncBit st) else x.vals
  let m := rawTokens m s c x.port (ixTag k) vals
  let m := toLane m ⟨s, some (ixTag k), if st.synced then some x.cnt else none, st.disc, vals, false, x.sim, x.ix, false, !st.synced⟩
  modStream m s fun st => { st with
    store := st.store.erase x, done := (x :: st.done).take 64, next := some (k + 1), missRun := 0, missSub := 0, disc := false
    last := vals.map (·.1), state := if st.state = .lost then (if st.synced then .sync else .unsync) else st.state }

/-- A tag declared missing (R168, R169): its gap token, its count, and the lost state after HOLD_MAX of them. -/
def emitMissing (m : Mod) (s : Nat) (c : SubCfg) (k : Int) : Mod :=
  let d := subD m c
  let m := if (stream m s).next.isSome && d != 1 then emitUntagged m s c d k else m
  let st := stream m s
  let run := st.missRun + 1
  let vals :=
    if svBlocked st k then zeroVals c.nch (syncBit st)
    else (fillVals c (missMode st c) run c.holdMax st.last (k * d - 1) (k * d) (nextItem st (k * d))).map fun v =>
      (v.1, qOr v.2 (syncBit st))
  let m := rawTokens m s c st.port (ixTag k) vals
  let lost := decide (run > c.holdMax) && st.state != .wrongRate && st.state != .mismatch
  -- the lane counts the missing samples of a D = 3 stream
  let laneVals := if d = 1 || svBlocked st k then vals
    else (fillVals c (missMode st c) (st.missSub + 1) (3 * c.holdMax) st.last (k * d - 1) (k * d) (nextItem st (k * d))).map fun v =>
      (v.1, qOr v.2 (syncBit st))
  let m := toLane m ⟨s, some (ixTag k), none, st.disc, laneVals, decide (run > c.holdMax), st.simSrc, k * d, true, !st.synced⟩
  let m := modStream m s fun st => { st with
    next := some (k + 1), missRun := run, missSub := st.missSub + 1, last := laneVals.map (·.1), disc := false
    state := if lost then .lost else st.state }
  let m := svAnomaly (bumpO m Reg.SV_CNT_MISS s) 3 s
  if lost && st.state != .lost then setFault m Reg.SV_FAULT 3 s else m

/-- Everything that can be emitted without a declaration: accepted samples in tag order. `n` bounds the number. -/
def emitReady : Nat → Mod → Nat → SubCfg → Mod
  | 0, m, _, _ => m
  | n + 1, m, s, c =>
    let st := stream m s
    match st.next with
    | none => m
    | some k =>
      match st.store.find? fun x => x.ix == k * subD m c with
      | some x => emitReady n (emitItem m s c x) s c
      | none => m

/-- Tags before `k` emitted or declared missing. `n` bounds the number. -/
def catchUp : Nat → Mod → Nat → SubCfg → Int → Mod
  | 0, m, _, _, _ => m
  | n + 1, m, s, c, k =>
    match (stream m s).next with
    | none => m
    | some j =>
      if j < k then
        match (stream m s).store.find? fun x => x.ix == j * subD m c with
        | some x => catchUp n (emitItem m s c x) s c k
        | none => catchUp n (emitMissing m s c j) s c k
      else m

/-! ## Tags of a stream (R160 to R164) -/

/-- smpSynch that synchronises (R160). -/
def syncValue (c : SubCfg) (v : Nat) : Bool := v == 2 || decide (5 ≤ v ∧ v ≤ 254) || (v == 1 && c.localOk)

def asduSynced (m : Mod) (c : SubCfg) (v : Nat) : Bool := syncValue c v && m.clk.state != .freeRun

/-- Sample index of a synchronised ASDU received at local time `t` (2^-48 ns): S × r + s (R160). -/
def syncIndex (c : SubCfg) (s : Nat) (t : Int) : Int :=
  let sec : Int := (secs 1 : Nat)
  let r : Int := c.rate
  let S := (2 * (t * r - s * sec) + r * sec) / (2 * r * sec)
  S * r + s

/-- Index of the master instant nearest to `t` − H / 2 (R161). -/
def nearIndex (m : Mod) (c : SubCfg) (t : Int) : Int :=
  let r : Int := masterRate m c.part
  let sec : Int := (secs 1 : Nat)
  (2 * (t - (usec c.h : Nat) / 2) * r + sec) / (2 * sec)

/-- The step of smpCnt from the highest accepted count, across the wrap that makes it least: at RATE, or at 65,536 for a stream
that has shown a count of RATE or more (R163). -/
def cntStep (c : SubCfg) (wide : Bool) (old new : Nat) : Int :=
  let d : Int := (new : Int) - old
  let w : Int := if wide || decide (c.rate ≤ new) then 65536 else c.rate
  [d, d + w, d - w].foldl (fun b x => if x.natAbs < b.natAbs then x else b) d

/-- A slip counts and shows (R162). -/
def slipTaken (m : Mod) (s : Nat) : Mod :=
  setFault (bumpO (modStream m s fun st => { st with slip := none, deltas := [] }) Reg.SV_CNT_SLIP s) Reg.SV_FAULT 6 s

/-- SV_SLIP: a scheduled slip takes effect when the stream has reached the tag before its tag (R162): an inserted tag is passed
over, a discard waits for its sample. -/
def svSlip (m : Mod) (s : Nat) : Mod :=
  let st := stream m s
  match st.slip, st.high with
  | some (k, ins), some (h, cnt) =>
    if k ≤ h + 1 then
      modStream (slipTaken m s) s fun st => if ins then { st with high := some (h + 1, cnt) } else { st with drop := some (h + 1) }
    else m
  | _, _ => m

/-- The index of an unsynchronised ASDU by continuity, and whether it is a discontinuity (R161, R163). -/
def unsyncIndex (m : Mod) (s : Nat) (c : SubCfg) (cnt : Nat) (t : Int) : Int × Bool :=
  let st := stream m s
  match st.high with
  | none => (nearIndex m c t, false)
  | some (h, old) =>
    let d := cntStep c st.wide old cnt
    if -8 ≤ d ∧ d ≤ 8 then (h + d, false) else (nearIndex m c t, true)

/-- A sample whose index would be `ix` meets a slip at or before it: it goes one higher, one lower, or is the discarded one. -/
def slipIndex (m : Mod) (s : Nat) (ix : Int) : Mod × Option Int :=
  let st := stream m s
  let less (k : Int) : Option Int := if ix = k then none else some (ix - 1)
  match st.drop, st.slip with
  | some k, _ => if ix < k then (m, some ix) else (modStream m s fun st => { st with drop := none }, less k)
  | none, some (k, ins) =>
    if ix < k then (m, some ix)
    else (slipTaken m s, if ins then some (ix + 1) else less k)
  | none, none => (m, some ix)

/-- δ of an unsynchronised frame and the slip it may call for (R162). -/
def noteDelta (m : Mod) (s : Nat) (c : SubCfg) (ix : Int) (t : Int) : Mod :=
  let d := t - ixInstant m c ix
  let m := modStream m s fun st => { st with deltas := (d :: st.deltas).take 64 }
  let st := stream m s
  if st.deltas.length < 64 ∨ st.slip.isSome ∨ m.mode.role = .standby then m
  else
    let mean := st.deltas.foldl (· + ·) 0 / 64
    let half : Int := (usec c.h : Nat) / 2
    let lim : Int := min ((usec c.h : Nat) / 4) ((secs 1 : Nat) / (2 * (masterRate m c.part : Int)))
    if lim < ((mean - half).natAbs : Nat) then
      let ins := decide (half < mean)
      let tag := tagAdd (latestTag m c.part) 8
      let k := ix + tagDiff (ixTag ix) tag
      let m := modStream m s fun st => { st with slip := some (k, ins) }
      noteCopy m (.slip s tag ins)
    else m

/-! ## Accepted ASDUs (R167) -/

/-- Both samples carry the same values and qualities, as received. -/
def sameVals (a b : SvItem) : Bool := a.raw == b.raw

/-- A duplicate: counted, and flagged when it differs. -/
def svDup (m : Mod) (s : Nat) (x y : SvItem) : Mod :=
  let m := svAnomaly (bumpO m Reg.SV_CNT_DUP s) 0 s
  if sameVals x y then m else setFault m Reg.SV_FAULT 4 s

def svLate (m : Mod) (s : Nat) : Mod := svAnomaly (bumpO m Reg.SV_CNT_LATE s) 2 s

/-- What SV_STAT and SV_LAST show of the last accepted frame and ASDU (R195). -/
def noteLast (m : Mod) (s port : Nat) (a : SvAsdu) : Mod :=
  modStream m s fun st => { st with
    port := port, lastCnt := a.smpCnt, lastSynch := a.smpSynch, test := a.chans.any fun v => qBit (iecQual v.2) qTest }

/-- An accepted sample placed by its index (R167), received at local time `t`; `a` is its ASDU. -/
def placeItem (m : Mod) (s : Nat) (c : SubCfg) (x : SvItem) (a : SvAsdu) (t : Int) : Mod :=
  let d := subD m c
  let k := (x.ix + d - 1) / d
  let tagged := x.ix % d == 0
  let m := if tagged then noteTag m c.part (ixTag k) else m
  let st := stream m s
  match st.store.find? fun y => y.ix == x.ix, st.done.find? fun y => y.ix == x.ix, st.next with
  | some y, _, _ => svDup m s x y
  | _, some y, _ => svDup m s x y
  | none, none, none => m
  | none, none, some nx =>
    if k < nx || decide (((ixInstant m c k + usec c.h : Nat) : Int) < t) then svLate m s
    else
      let ooo := tagged && st.store.any fun y => decide (x.ix < y.ix) && y.ix % d == 0
      let m := bumpO m Reg.SV_CNT_RX s
      let m := if ooo then svAnomaly (bumpO m Reg.SV_CNT_OOO s) 1 s else m
      let m := modStream (noteLast m s x.port a) s fun st => { st with store := st.store ++ [x] }
      if tagged then
        let m := catchUp ((k - nx).toNat + 1) m s c (k - c.w)
        emitReady 8 m s c
      else m

/-- The quality words of an ASDU's channels (R136, R170, R171). -/
def asduVals (synced : Bool) (sim : Bool) (a : SvAsdu) : List (Int × Qual) :=
  a.chans.map fun v =>
    let ends := v.1 == -2147483648 || v.1 == 2147483647
    (v.1, qOr (iecQual v.2) ((if ends then qRange else 0) ||| (if synced then 0 else qUnlocked) ||| (if sim then qTest else 0)))

/-- One ASDU that passed every check. In the wrong-rate and mismatch states it counts toward leaving them, the stream's tags
are followed, and nothing is emitted of it (R166). -/
def svAsdu (m : Mod) (s : Nat) (c : SubCfg) (port : Nat) (sim : Bool) (t : Int) (first : Bool) (a : SvAsdu) : Mod :=
  let st := stream m s
  let bad := (st.state == .wrongRate || st.state == .mismatch) && decide (st.good + 1 < c.rate)
  let now := asduSynced m c a.smpSynch
  let changed := st.state != .unseen && st.synced != now
  let m := if changed then stateEvent m 4 8 (if st.synced then 1 else 2) (if now then 1 else 2) s else m
  let m := modStream m s fun st => { st with
    synced := now, good := if bad then st.good + 1 else 0
    state := if bad || st.state == .lost then st.state else if now then .sync else .unsync
    -- what a change of synchronisation makes earlier is late, not a copy (R164)
    done := if changed then [] else st.done, wide := st.wide || decide (c.rate ≤ a.smpCnt) }
  let (raw, disc) := if now then (syncIndex c a.smpCnt t, false) else unsyncIndex m s c a.smpCnt t
  let (m, ix?) := if now || disc then (m, some raw) else slipIndex m s raw
  match ix? with
  | none =>
    -- the sample that a slip discards
    modStream m s fun st => { st with high := some (raw - 1, a.smpCnt) }
  | some ix =>
    let m := if disc then modStream m s fun st => { st with disc := true, deltas := [], done := [], slip := none, drop := none } else m
    let m := if !now && first then noteDelta (noteTag m c.part (ixTag ix)) s c ix t else m
    let higher := match (stream m s).high with
      | some h => disc || decide (h.1 < ix)
      | none => true
    let m := modStream m s fun st => { st with
      high := if now then some (ix / subD m c, a.smpCnt) else if higher then some (ix, a.smpCnt) else st.high
      simSrc := sim, loc := now && a.smpSynch == 1 }
    if bad then noteLast m s port a
    else placeItem m s c ⟨ix, a.smpCnt, asduVals now sim a, a.chans, sim, port⟩ a t

/-! ## Frames (R165, R170) -/

/-- The frame's header names the subscription. -/
def headerMatch (c : SubCfg) (port : Nat) (f : Frame) (v : SvFrame) : Bool :=
  v.appid == c.appid && f.dst == c.dst && c.ports.testBit port
    && (match f.tags with
      | [] => c.vid == 0
      | [t] => t.2 == c.vid
      | _ => false)

/-- SVID without its padding. -/
def trimZeros (b : Bytes) : Bytes := (b.reverse.dropWhile (· == 0)).reverse

/-- The subscription a frame belongs to: by header and svID, or by header alone when it does not decode so far. -/
def svSubOf (m : Mod) (port : Nat) (f : Frame) (v : SvFrame) : Option Nat :=
  let all := ([0, 2, 3].map fun p => (imageOf m p).subs).flatten
  (all.find? fun x => headerMatch x.2 port f v && (v.asdus.isEmpty || v.asdus.all fun a => a.svId == trimZeros x.2.svId)).map (·.1)

/-- R155 holds for a frame. -/
def svDecodes (f : Frame) (v : SvFrame) : Bool :=
  !v.malformed && decide (f.tags.length ≤ 1) && decide (0x4000 ≤ v.appid ∧ v.appid ≤ 0x7FFF)
    && decide (1 ≤ v.noAsdu ∧ v.noAsdu ≤ 8) && v.asdus.length == v.noAsdu
    && v.asdus.all fun a => decide (a.svId.length ≤ 64) && decide (1 ≤ a.chans.length ∧ a.chans.length ≤ 16)
      && (decide (a.smpSynch ≤ 2) || decide (5 ≤ a.smpSynch ∧ a.smpSynch ≤ 254))
      && (match a.smpMod with | some k => decide (k ≤ 2) | none => true)
      && a.chans.all fun x => decide (-2147483648 ≤ x.1 ∧ x.1 ≤ 2147483647)

/-- Nominal frequency of a subscription's channel groups, none without a filter channel (R165, R184). -/
def subF0 (m : Mod) (s : Nat) : Option Nat :=
  (subChans m s).head?.bind fun ch => ([0, 2, 3].filterMap fun p => (imageOf m p).groups.lookup ch.2.group).head?.map (·.f0)

/-- smpRate and smpMod agree with RATE (R165). -/
def rateAgrees (m : Mod) (s : Nat) (c : SubCfg) (a : SvAsdu) : Bool :=
  match a.smpMod, a.smpRate with
  | some 2, _ => false
  | some 1, some r => r == c.rate
  | _, some r => match subF0 m s with
    | some f => r * f == c.rate
    | none => r * 50 == c.rate || r * 60 == c.rate
  | _, none => true

/-- smpCnt rises by 1 between the ASDUs of one frame, across a wrap of the stream. -/
def cntRises (c : SubCfg) : List SvAsdu → Bool
  | a :: b :: l => (b.smpCnt == a.smpCnt + 1 || (b.smpCnt == 0 && (a.smpCnt + 1 == c.rate || a.smpCnt == 65535))) && cntRises c (b :: l)
  | _ => true

/-- The rate checks of R165. An unsynchronised stream with D = 3 is a rate mismatch (R161). -/
def rateOk (m : Mod) (s : Nat) (c : SubCfg) (v : SvFrame) : Bool :=
  v.noAsdu == c.nasdu && cntRises c v.asdus && v.asdus.all fun a =>
    rateAgrees m s c a && (if asduSynced m c a.smpSynch then decide (a.smpCnt < c.rate) else subD m c == 1)

/-- Discarded ASDUs: counted, with the FAULT bit. -/
def svBad (m : Mod) (s n bit : Nat) : Mod :=
  let m := modStream m s fun st => { st with good := 0 }
  setFault (addCntO m Reg.SV_CNT_BAD s n) Reg.SV_FAULT bit s

/-- A stream enters the wrong-rate or mismatch state: its tags are missing from then on, those of stored samples too (R166). -/
def setSvState (m : Mod) (s : Nat) (x : SvState) : Mod := modStream m s fun st => { st with state := x, good := 0, store := [] }

/-- The simulation check of R170: none when the frame is discarded, else the module with the source noted. -/
def simCheck (m : Mod) (s : Nat) (c : SubCfg) (sim : Bool) : Option Mod :=
  let st := stream m s
  if tabGet m.mode.partTest c.part = .simulation then
    if sim then
      if st.simSrc then some m
      else some (setFault (modStream m s fun st => { st with simSrc := true }) Reg.SV_FAULT 5 s)
    else if st.simSrc then none else some m
  else if sim then none
  else some (modStream m s fun st => { st with simSrc := false })

/-- A frame of a subscription (R165). -/
def svFrame (m : Mod) (s : Nat) (c : SubCfg) (port : Nat) (ts : Int) (f : Frame) (v : SvFrame) : Mod :=
  let n := max 1 v.asdus.length
  let t := ts * (2 ^ 32 : Nat)
  if !svDecodes f v then svBad m s n 7
  else if c.auth && !secOk m c.key v.sec (Config.svSigned v) then svBad m s n 2
  else if v.asdus.any fun a => a.confRev ≠ c.confRev ∨ a.chans.length ≠ c.nch then svBad (setSvState m s .mismatch) s n 1
  else if !rateOk m s c v then svBad (setSvState m s .wrongRate) s n 0
  else match simCheck m s c v.sim with
    | none => addCntO (modStream m s fun st => { st with good := 0 }) Reg.SV_CNT_SIM s n
    | some m => ((v.asdus.zip (List.range v.asdus.length)).foldl (fun m a => svAsdu m s c port v.sim t (a.2 == 0) a.1) m)

/-- The oldest frame of a kind in a port's parser buffer, and the buffer without it. -/
def takeItem (l : List RxItem) (f : Payload → Bool) : Option (RxItem × List RxItem) :=
  (l.find? fun x => f x.frame.payload).map fun x => (x, l.erase x)

def isSv : Payload → Bool
  | .sv _ => true
  | _ => false

/-- SV_FRAME_RECEIVED: the SV parser processes the oldest SV frame of a port's parser buffer, unless back-pressure holds the
port (R107, R165). -/
def svFrameReceived (m : Mod) (port : Nat) : Mod :=
  let p := tabGet m.net.ports port
  if p.held then m
  else match takeItem p.parser isSv with
    | none => m
    | some (x, rest) =>
      let m := { m with net := { m.net with ports := tabMod m.net.ports port fun q => { q with parser := rest } } }
      match x.frame.payload with
      | .sv v => match svSubOf m port x.frame v with
        | some s => match subCfg m s with
          | some c => if isLive m c.part then svFrame m s c port x.ts x.frame v else m
          | none => m
        | none => m
      | _ => m

/-- SV_TAG_MISSING: the deadline I(k) + H of a stream's next tag passes without it (R168). Nothing is declared while
back-pressure holds a port of the stream, or while a frame received in time waits there. -/
def svTagMissing (m : Mod) (s : Nat) : Mod :=
  match subCfg m s with
  | none => m
  | some c =>
    if !isLive m c.part || (partOf m c.part).stopped then m
    else
      match (stream m s).next with
      | none => m
      | some k =>
        let due := ixInstant m c k + usec c.h
        let ports := (List.range 8).filter fun p => c.ports.testBit p
        let waits := ports.any fun p =>
          let q := tabGet m.net.ports p
          q.held || q.parser.any fun x => isSv x.frame.payload && decide (x.ts * (2 ^ 32 : Nat) ≤ (due : Int))
        if waits then m
        else
          let m := advanceLocal m due
          emitReady 8 (noteTag (emitMissing m s c k) c.part (ixTag k)) s c

/-- A block or unblock with its effective tag; the ones before it that no tag still to come can need are dropped. -/
def addBlock (m : Mod) (s : Nat) (c : SubCfg) (tag : Nat) (b : Bool) : Mod :=
  modStream m s fun st => { st with blocks := (st.blocks ++ [(((tagIndex m c.part tag : Nat) : Int), b)]).drop (st.blocks.length - 15) }

/-- SV_BLOCK: a write blocks or unblocks a subscription from tag T + 8 (R172). -/
def svBlock (m : Mod) (v : Word) : Mod :=
  let s := v.toNat % 512
  let b := v.toNat.testBit 31
  if m.mode.role = .standby ∨ m.mode.role = .referee then setFault m Reg.SV_FAULT 8 s
  else match subCfg m s with
    | none => m
    | some c =>
      let tag := tagAdd (latestTag m c.part) 8
      let m := setReg m Reg.SV_BLOCK (v &&& 0x800001FF)
      noteCopy (addBlock m s c tag b) (.svBlock s tag b)

/-- SV_STAT of a subscription (R195). -/
def svStat (m : Mod) (s : Nat) : Nat :=
  match subCfg m s with
  | none => 7
  | some c =>
    let st := stream m s
    let code := match st.state with
      | .unseen => 0 | .sync => 1 | .unsync => 2 | .wrongRate => 3 | .mismatch => 4 | .lost => 5
    let code := if svBlocked st (tagIndex m c.part (latestTag m c.part) : Nat) then 6 else code
    st.port * 2 ^ 16 + (if st.loc then 32 else 0) + (if st.test then 16 else 0) + (if st.simSrc then 8 else 0) + code

/-- SV_LAST of a subscription. -/
def svLast (m : Mod) (s : Nat) : Nat :=
  let st := stream m s
  st.lastCnt % 65536 * 2 ^ 16 + st.lastSynch % 256 * 2 ^ 8

end Sys2Proof.Machine
end

