-- ==== Sys2Proof/Machine/Filter.lean ====
section
/-!
DEFINITION. The filter array (R173 to R191): the chain's outputs at master tags, group-delay reports, Palette switching.
-/
namespace Sys2Proof.Machine

def groupCfg (m : Mod) (g : Nat) : Option GroupCfg := ([0, 2, 3].filterMap fun p => (imageOf m p).groups.lookup g).head?
def groupSt (m : Mod) (g : Nat) : GroupSt := tabGet m.sv.groups g
def modGroup (m : Mod) (g : Nat) (f : GroupSt → GroupSt) : Mod := { m with sv := { m.sv with groups := tabMod m.sv.groups g f } }

/-- Channels of a group, ascending, with their numbers. -/
def groupChans (m : Mod) (g : Nat) : List (Nat × ChanCfg) :=
  ([0, 2, 3].map fun p => (imageOf m p).chans.filter fun c => c.2.group == g).flatten

/-- The partition of a group's channels. -/
def groupPart (m : Mod) (g : Nat) : Nat :=
  match (groupChans m g).head? with
  | some c => match subCfg m c.2.sub with
    | some s => s.part
    | none => 0
  | none => 0

/-! ## The chain of one channel -/

/-- Binomial weights of the CIC response: `n` boxcars of length `r`. -/
def boxcar (r : Nat) (l : List Nat) : List Nat :=
  (List.range (l.length + r - 1)).map fun i =>
    (List.range r).foldl (fun a j => if j ≤ i then a + l.getD (i - j) 0 else a) 0
def cicWeights (n r : Nat) : List Nat := (List.range n).foldl (fun l _ => boxcar r l) [1]

/-- CIC output at input lag `lag`: the exact comb output divided by the gain and scaled, rounded once (R173). -/
def cicOut (g : GroupCfg) (scale : Nat) (hist : List (Int × Qual)) (lag : Nat) : Num :=
  let w := cicWeights g.cicN g.cicR
  let s := ((hist.drop lag).take w.length).zip w |>.foldl (fun a p => a + p.1.1 * (p.2 : Int)) 0
  numRound false (s * fInt (BitVec.ofNat 32 scale)) (g.cicR ^ g.cicN)

/-- FIR output at input lag `lag` (R174). -/
def firOut (g : GroupCfg) (p : PalCfg) (scale : Nat) (hist : List (Int × Qual)) (lag : Nat) : Num :=
  if p.fir.isEmpty then cicOut g scale hist lag
  else (p.fir.zip (List.range p.fir.length)).foldl (fun acc c =>
    nFma (num (BitVec.ofNat 32 c.1)) (cicOut g scale hist (lag + c.2 * g.cicR)) acc) (num 0)

/-- The fine phasor of a Palette, ascending n (R174). -/
def finePhasor (g : GroupCfg) (p : PalCfg) (scale : Nat) (hist : List (Int × Qual)) : Cpx :=
  let d := g.cicR * g.firR
  (p.win.zip (List.range p.win.length)).foldl (fun acc c =>
    let y := firOut g p scale hist (c.2 * d)
    ⟨nFma (num (BitVec.ofNat 32 c.1.1)) y acc.re, nFma (num (BitVec.ofNat 32 c.1.2)) y acc.im⟩) (cpx 0 0)

/-- Input samples up to the last one that a Palette's fine phasor can reach. -/
def fineReach (g : GroupCfg) (p : PalCfg) : Nat :=
  (p.win.length - 1) * (g.cicR * g.firR) + (p.fir.length - 1) * g.cicR + g.cicN * (g.cicR - 1) + 1

/-- An input lag reaches the fine phasor with non-zero coefficients (R179). -/
def reaches (g : GroupCfg) (p : PalCfg) (lag : Nat) : Bool :=
  let d := g.cicR * g.firR
  let fir := if p.fir.isEmpty then [(1, 0)] else p.fir.zip (List.range p.fir.length)
  (p.win.zip (List.range p.win.length)).any fun c =>
    (c.1.1 % 2 ^ 31 != 0 || c.1.2 % 2 ^ 31 != 0) && fir.any fun h =>
      let o := c.2 * d + h.2 * g.cicR
      h.1 % 2 ^ 31 != 0 && decide (o ≤ lag ∧ lag ≤ o + g.cicN * (g.cicR - 1))

/-- Quality over a span, with bit 4 while the span is not yet filled (R179). -/
def spanQual (qs : List Qual) (age n : Nat) : Qual := qOr (combine qs) (if age < n then qGap else 0)

def fineQual (g : GroupCfg) (p : PalCfg) (hist : List (Int × Qual)) (age : Nat) : Qual :=
  let n := fineReach g p
  spanQual (((hist.take n).zip (List.range n)).filterMap fun x => if reaches g p x.2 then some x.1.2 else none) age n

/-- Nh = round(r / (2 f₀)) (R175). -/
def fastLen (r f0 : Nat) : Nat := divEven r (2 * f0)

/-- β of the half-cycle sum: with `Nh` inputs it turns the phasor X of a steady sinusoid at f₀ into X + β·conj X. -/
def fastLeak (r f0 : Nat) : Int × Int :=
  let nh := fastLen r f0
  let s := (List.range nh).foldl (fun (a : Int × Int) i =>
    let c := fxSinCos (4 * fxPi * ((f0 * i : Nat) : Int) / (r : Int))
    (a.1 + c.2, a.2 + c.1)) (0, 0)
  (s.1 / (nh : Int), s.2 / (nh : Int))

/-- The gain constants that make the phasor of a steady sinusoid at f₀ exact (R175): of the sum, 1 / (1 − |β|²), and of its
conjugate, −β / (1 − |β|²). DESIGN CHOICE (log 35): where r / (2 f₀) is not an integer one constant cannot do so. -/
def fastGain (r f0 : Nat) : Cpx × Cpx :=
  let b := fastLeak r f0
  let d := fxOne - (fxMul b.1 b.1 + fxMul b.2 b.2)
  let w (x : Int) : Num := fxNum (x * fxOne / d) 0
  (⟨w fxOne, num 0⟩, ⟨w (-b.1), w (-b.2)⟩)

/-- The fast phasor (R175): the half-cycle sum turned to the newest sample's instant and corrected. -/
def fastPhasor (r f0 scale : Nat) (hist : List (Int × Qual)) : Cpx :=
  let nh := fastLen r f0
  let s := ((hist.take nh).zip (List.range nh)).foldl (fun acc x =>
    let th := nDiv (nMul (nMul n2Pi (numNat f0)) (numNat x.2)) (numNat r)
    let v := scaled x.1.1 scale
    ⟨nFma v (nCos th) acc.re, nFma v (nSin th) acc.im⟩) (cpx 0 0)
  let y := cScale (nDiv n2 (numNat nh)) s
  let g := fastGain r f0
  cFma (cMul g.1 y) g.2 (cConj y)

/-- e(j) of R177, with e(−1) = −1. -/
def halfEnd (r f0 : Nat) (j : Int) : Int := (-(-((j + 1) * r) / (2 * f0 : Nat))) - 1

/-- The half cycle that ends at count `c` of a second, if one does. -/
def halfCycle (r f0 c : Nat) : Option Nat :=
  let j1 := (c + 1) * (2 * f0) / r
  if 1 ≤ j1 ∧ halfEnd r f0 (j1 - 1 : Int) = c then some (j1 - 1) else none

/-- Samples of the RMS window that ends with half cycle `j`. -/
def rmsLen (r f0 j : Nat) : Nat :=
  (if j = 0 then halfEnd r f0 0 + r - halfEnd r f0 (2 * f0 - 2 : Nat) else halfEnd r f0 j - halfEnd r f0 (j - 2 : Int)).toNat

/-- RMS over the newest `n` samples, squares summed in ascending sample order (R177). -/
def rmsOver (scale n : Nat) (hist : List (Int × Qual)) : Num :=
  let xs := (hist.take n).reverse
  let s := xs.foldl (fun acc x => let v := scaled x.1 scale; nAdd acc (nMul v v)) (num 0)
  nSqrt (nDiv s (numNat n))

/-! ## Palettes -/

/-- The active Palette of a group, or the empty one. -/
def palOf (g : GroupCfg) (i : Nat) : PalCfg := g.pals.getD i default

/-- The Palettes of a group at tag k: the one that runs, or the old, the new and the weight while a fade runs (R189). -/
def palsAt (g : GroupCfg) (st : GroupSt) (k : Nat) : PalCfg × Option (PalCfg × Num) :=
  match st.fade with
  | none => (palOf g st.active, none)
  | some f =>
    if tagBefore k f.etag then (palOf g st.active, none)
    else
      let n := (tagDiff f.etag k).toNat
      if f.fade && decide (n < g.xf) then (palOf g st.active, some (palOf g f.pal, numOfFrac (n + 1 : Nat) g.xf))
      else (palOf g f.pal, none)

/-- The fine phasor of a channel at tag k with its quality. -/
def fineAt (g : GroupCfg) (st : GroupSt) (k scale age : Nat) (hist : List (Int × Qual)) : Cpx × Qual :=
  let (p, mix) := palsAt g st k
  let a := finePhasor g p scale hist
  let qa := fineQual g p hist age
  match mix with
  | none => (a, qa)
  | some (p2, w) =>
    let b := finePhasor g p2 scale hist
    (cAdd (cScale (nSub n1 w) a) (cScale w b), combine [qa, fineQual g p2 hist age])

/-- The fine-path and fast-path delay of a channel (R180), EXTDELAY included. -/
def fineDelay (ch : ChanCfg) (p : PalCfg) : Num := nAdd (num (BitVec.ofNat 32 p.delay)) (num (BitVec.ofNat 32 ch.extDelay))
def fastDelayWord (r f0 : Nat) : Num := numOfFrac ((fastLen r f0 : Int) - 1) (2 * r)
def fastDelay (ch : ChanCfg) (r f0 : Nat) : Num := nAdd (fastDelayWord r f0) (num (BitVec.ofNat 32 ch.extDelay))

/-- A token of the filter array. -/
def filterTok (m : Mod) (g s : Nat) (r : Option (Nat × Nat)) (tag : Nat) (v : Val) (q : Qual) (etag : Option Nat) : Mod :=
  match r with
  | none => m
  | some (t, op) => pushCross m 2 ⟨⟨t, op, tag, s, v, q⟩, etag, .filter g⟩

/-- The group-delay reports of a channel with effective tag `e` (R181). -/
def reportDelays (m : Mod) (ch : ChanCfg) (pal : Nat) (e : Nat) : Mod :=
  match groupCfg m ch.group, subCfg m ch.sub with
  | some g, some c =>
    let q := if (groupSt m ch.group).coefUe then withValidity 0 1 else 0
    let m := filterTok m ch.group ch.sub (ch.outs.getD 3 none) e (.flt (fastDelay ch c.rate g.f0).v) q (some e)
    filterTok m ch.group ch.sub (ch.outs.getD 4 none) e (.flt (fineDelay ch (palOf g pal)).v) q (some e)
  | _, _ => m

/-- The reports of a partition at its first Live tag (R181). -/
def reportPart (m : Mod) (p tag : Nat) : Mod :=
  if tabGet m.sv.reported p then m
  else
    let m := { m with sv := { m.sv with reported := tabSet m.sv.reported p true } }
    (imageOf m p).chans.foldl (fun m ch => reportDelays m ch.2 (groupSt m ch.2.group).active tag) m

/-! ## FILTER_LANE_SAMPLE -/

/-- Frequency and ROCOF of a group at a tag from its reference angles, newest first (R176). -/
def groupFreq (g : GroupCfg) (rate k : Nat) (refs : List (Nat × Qual)) (i : Nat) : Num :=
  let d := nSub (ofWord (refs.getD i (0, 0)).1) (ofWord (refs.getD (i + k) (0, 0)).1)
  nAdd (numNat g.f0) (angleOver d (nDiv (nMul n2Pi (numNat k)) (numNat rate)))

/-- K = ⌈LW / 4⌉ of the Palette that runs. -/
def freqK (p : PalCfg) : Nat := (p.win.length + 3) / 4

/-- The frequency and ROCOF tokens of a group at tag `tag`: its reference phasor P is `p` with quality `q` (R176). -/
def emitFreq (m : Mod) (gn : Nat) (g : GroupCfg) (first : ChanCfg) (rate tag : Nat) (p : Cpx) (q : Qual) : Mod :=
  let k := freqK (palsAt g (groupSt m gn) tag).1
  let refs := ((word32 (cArg p).1, q) :: (groupSt m gn).refs).take (2 * 1024 + 1)
  let gap := if refs.length ≤ 2 * k then qGap else 0
  let f := groupFreq g rate k refs 0
  let r := nDiv (nSub f (groupFreq g rate k refs k)) (nDiv (numNat k) (numNat rate))
  let qf := combine [q, (refs.getD k (0, 0)).2]
  let qr := combine [q, (refs.getD k (0, 0)).2, (refs.getD (2 * k) (0, 0)).2]
  let m := modGroup m gn fun st => { st with refs := refs }
  let m := filterTok m gn first.sub (first.outs.getD 6 none) tag (.flt f.v) (qOr qf gap) none
  filterTok m gn first.sub (first.outs.getD 7 none) tag (.flt r.v) (qOr qr gap) none

/-- The longest history that an output of a group or its RMS can need. -/
def histLen (g : GroupCfg) (rate : Nat) : Nat :=
  (g.pals.map (fineReach g)).foldl max (rate / g.f0 + 4)

/-- The quality an output carries for a lost stream and for an unreadable Palette. -/
def outQual (q : Qual) (lost ue : Bool) : Qual := if lost || ue then withValidity q 1 else q

/-- One channel takes a sample: history and RMS refresh. Answers whether the RMS was refreshed. -/
def chanTake (m : Mod) (n : Nat) (ch : ChanCfg) (rate age cnt : Nat) (x : LaneSample) : Mod × Bool :=
  match groupCfg m ch.group with
  | none => (m, false)
  | some g =>
    let st := tabGet m.sv.chans n
    let hist := (x.vals.getD ch.idx (0, 1) :: st.hist).take (histLen g rate)
    match halfCycle rate g.f0 cnt with
    | some j =>
      let w := rmsLen rate g.f0 j
      let v := rmsOver ch.scale w hist
      let q := qOr (spanQual ((hist.take w).map (·.2)) age w) (if v.sat then qRange else 0)
      ({ m with sv := { m.sv with chans := tabSet m.sv.chans n { hist := hist, rms := word32 v, rmsQ := q } } }, true)
    | none =>
      let q := qOr st.rmsQ ((if age = 1 then qGap else 0) ||| (if x.unsync then qUnlocked else 0))
      ({ m with sv := { m.sv with chans := tabSet m.sv.chans n { st with hist := hist, rmsQ := q } } }, false)

/-- A phasor token's payload with its quality. -/
def phasorTok (m : Mod) (g s : Nat) (r : Option (Nat × Nat)) (tag : Nat) (z : Cpx) (q : Qual) : Mod :=
  filterTok m g s r tag (.cpx z.re.v z.im.v) (qOr q (if z.re.sat || z.im.sat then qRange else 0)) none

/-- The outputs of one channel at a master tag: fast phasor, fine phasor, RMS (R183). -/
def chanEmit (m : Mod) (n : Nat) (ch : ChanCfg) (rate age tag : Nat) (lost : Bool) : Mod :=
  match groupCfg m ch.group with
  | none => m
  | some g =>
    let st := tabGet m.sv.chans n
    let gs := groupSt m ch.group
    let nh := fastLen rate g.f0
    let m := match ch.outs.getD 1 none with
      | none => m
      | r => phasorTok m ch.group ch.sub r tag (fastPhasor rate g.f0 ch.scale st.hist)
          (outQual (spanQual ((st.hist.take nh).map (·.2)) age nh) lost gs.coefUe)
    let m := match ch.outs.getD 2 none with
      | none => m
      | r =>
        let f := fineAt g gs tag ch.scale age st.hist
        phasorTok m ch.group ch.sub r tag f.1 (outQual f.2 lost gs.coefUe)
    filterTok m ch.group ch.sub (ch.outs.getD 5 none) tag (.flt (BitVec.ofNat 32 st.rms)) (outQual st.rmsQ lost gs.coefUe) none

/-- The reference phasor of a group at a tag and its frequency tokens (R176). -/
def groupEmit (m : Mod) (gn : Nat) (rate age tag : Nat) (lost : Bool) : Mod :=
  match groupCfg m gn, groupChans m gn with
  | some g, first :: rest =>
    if g.freqMode = 0 then m
    else
      let gs := groupSt m gn
      let fine (c : Nat × ChanCfg) : Cpx × Qual := fineAt g gs tag c.2.scale age (tabGet m.sv.chans c.1).hist
      let a := fine first
      let (p, q) := match g.freqMode, rest with
        | 2, cb :: cc :: _ =>
          let b := fine cb
          let c := fine cc
          let s := cAdd (cAdd a.1 (cMul opA b.1)) (cMul opA2 c.1)
          ((⟨nDiv s.re n3, nDiv s.im n3⟩ : Cpx), combine [a.2, b.2, c.2])
        | _, _ => a
      emitFreq m gn g first.2 rate tag p (outQual q lost gs.coefUe)
  | _, _ => m

/-- The groups of a subscription, each once. -/
def subGroups (m : Mod) (s : Nat) : List Nat :=
  (subChans m s).foldl (fun l c => if l.contains c.2.group then l else l ++ [c.2.group]) []

/-- Every channel group's stream has passed tag `e`: its next tag to emit is `e` or a later one, and no sample of an earlier tag
waits in a lane. -/
def groupPassed (m : Mod) (g e : Nat) : Bool :=
  let subs := (groupChans m g).map (·.2.sub)
  subs.all (fun s => (stream m s).next.all fun k => tagLe e (ixTag k))
    && m.sv.lanes.all fun x => !subs.contains x.sub || x.tag.all fun t => tagLe e t

/-- An abrupt switch whose tag has come for every channel: the new Palette is the active one, and its request leaves the queue
(R189). -/
def settleSwitch (m : Mod) (g : Nat) : Mod :=
  match (groupSt m g).fade with
  | some f =>
    if !f.fade && groupPassed m g f.etag then
      let m := modGroup m g fun st => { st with active := f.pal, fade := none }
      { m with sv := { m.sv with queue := m.sv.queue.erase g } }
    else m
  | none => m

/-- A subscription's lane is stopped: a token of one of its groups is held (R107). -/
def laneHeld (m : Mod) (s : Nat) : Bool :=
  let gs := subGroups m s
  m.td.held.any fun x => match x.src with
    | .filter g => gs.contains g
    | _ => false

/-- FILTER_LANE_SAMPLE: the oldest delivered sample whose lane is not stopped is processed (R173 to R183). Answers the sample
and the channels whose RMS was refreshed. -/
def filterSample (m : Mod) : Mod × Option LaneSample × List Nat :=
  match m.sv.lanes.find? fun x => !laneHeld m x.sub with
  | none => (m, none, [])
  | some x =>
    let m := { m with sv := { m.sv with lanes := m.sv.lanes.erase x } }
    match subCfg m x.sub with
    | none => (m, some x, [])
    | some c =>
      let ls := tabGet m.sv.laneSt x.sub
      let cnt := match x.cnt with
        | some n => n
        | none => if x.disc || ls.age == 0 then 0 else (ls.cnt + 1) % c.rate
      let age := if x.disc then 1 else ls.age + 1
      let m := { m with sv := { m.sv with laneSt := tabSet m.sv.laneSt x.sub { age := age, cnt := cnt } } }
      let chans := subChans m x.sub
      let (m, fresh) := chans.foldl (fun (a : Mod × List Nat) ch =>
        let (m, r) := chanTake a.1 ch.1 ch.2 c.rate age cnt x
        (m, if r then a.2 ++ [ch.1] else a.2)) (m, [])
      match x.tag with
      | none => (m, some x, fresh)
      | some tag =>
        let m := if isLive m c.part then reportPart m c.part tag else m
        let gs := subGroups m x.sub
        let m := if isLive m c.part then
            let m := chans.foldl (fun m ch => chanEmit m ch.1 ch.2 c.rate age tag x.lost) m
            gs.foldl (fun m g => groupEmit m g (masterRate m c.part) age tag x.lost) m
          else m
        (gs.foldl settleSwitch m, some x, fresh)

/-! ## Palette switching (R187 to R191) -/

/-- The fade queue's count of pending requests (FLT_QUEUE). -/
def fadePending (m : Mod) : Nat := (m.sv.groups.filter fun g => g.2.pending.isSome).length

/-- PALETTE_SWITCH_REQUEST: a request taken at the FLT apply point is queued or refused (R187, R188). -/
def palRequest (m : Mod) (w : Word) : Mod :=
  let g := w.toNat % 1024
  let pal := bitsOf w.toNat 16 16
  let refuse := setFault m Reg.FLT_FAULT 0 g
  match groupCfg m g with
  | none => refuse
  | some c =>
    if c.pals.length ≤ pal ∨ (partOf m (groupPart m g)).state = .absent ∨ m.mode.role = .standby ∨ m.mode.role = .referee then refuse
    else
      let st := groupSt m g
      if st.active = pal ∧ st.fade.isNone ∧ st.pending.isNone then m
      else
        let fresh := st.pending.isNone
        let m := modGroup m g fun st => { st with pending := some pal }
        if fresh then { m with sv := { m.sv with queue := m.sv.queue ++ [g] } } else m

/-- A switch to Palette `pal` with effective tag `e` begins: cross-fade or abrupt (R189, R190). -/
def beginSwitch (m : Mod) (g pal e : Nat) : Mod :=
  match groupCfg m g with
  | none => m
  | some c =>
    let st := groupSt m g
    let same := (palOf c st.active).delay == (palOf c pal).delay
    let fade := decide (0 < c.xf) && same
    let m := modGroup m g fun st => { st with pending := none, fade := some ⟨e, pal, fade⟩ }
    if same then m else (groupChans m g).foldl (fun m ch => reportDelays m ch.2 pal e) m

/-- PALETTE_SWITCH_START: the request at the head of the fade queue gets its effective tag T + 8 (R189). -/
def palSwitchStart (m : Mod) : Mod :=
  match m.sv.queue with
  | [] => m
  | g :: _ =>
    let st := groupSt m g
    match st.fade, st.pending with
    | none, some pal =>
      let e := tagAdd (latestTag m (groupPart m g)) 8
      noteCopy (beginSwitch m g pal e) (.palette g e pal)
    | _, _ => m

/-- PALETTE_FADE_END: after XF tags only the new Palette runs, and the request leaves the queue (R189). -/
def palFadeEnd (m : Mod) (g : Nat) : Mod :=
  match (groupSt m g).fade, groupCfg m g with
  | some f, some c =>
    if f.fade && groupPassed m g (tagAdd f.etag c.xf) then
      let m := modGroup m g fun st => { st with active := f.pal, fade := none }
      { m with sv := { m.sv with queue := m.sv.queue.erase g } }
    else m
  | _, _ => m

/-- A partition's halt meets its switches: a fade ends with the new Palette, pending requests are discarded (R191). -/
def fltHalt (m : Mod) (p : Nat) : Mod :=
  let gs := ((imageOf m p).groups.map (·.1))
  gs.foldl (fun m g =>
    let m := modGroup m g fun st => match st.fade with
      | some f => { st with active := f.pal, fade := none, pending := none }
      | none => { st with pending := none }
    { m with sv := { m.sv with queue := m.sv.queue.filter (· ≠ g) } }) m

/-- PALETTE_REWRITE: Keeper rewrites a group's Palettes from the committed image (R197, R500). -/
def palRewrite (m : Mod) (g : Nat) : Mod := modGroup m g fun st => { st with coefUe := false }

/-- FLT_GRP_STAT, FLT_GRP_DFINE and FLT_GRP_DFAST of a group (R197). -/
def fltStat (m : Mod) (g : Nat) : Nat :=
  match groupCfg m g with
  | none => 0
  | some c =>
    let st := groupSt m g
    let left := match st.fade with
      | some f => if f.fade then min (c.xf - (tagDiff f.etag (tagAdd (latestTag m (groupPart m g)) 1)).toNat) c.xf else 0
      | none => 0
    let fading := match st.fade with
      | some f => f.fade
      | none => false
    left * 2 ^ 16 + c.freqMode * 64 + (palOf c st.active).cls * 32 + (if c.pals.length = 2 then 16 else 0)
      + (if fading then 8 else 0) + (st.pending.getD 0) * 4 + (if st.pending.isSome then 2 else 0) + st.active
def fltFine (m : Mod) (g : Nat) : Nat := match groupCfg m g with
  | none => 0
  | some c => (palOf c (groupSt m g).active).delay
def fltFast (m : Mod) (g : Nat) : Nat := match groupCfg m g, (groupChans m g).head? with
  | some c, some ch => match subCfg m ch.2.sub with
    | some s => (fastDelayWord s.rate c.f0).v.toNat
    | none => 0
  | _, _ => 0

end Sys2Proof.Machine
end

