-- ==== Sys2Proof/Machine/PrimLogic.lean ====
section
/-!
DEFINITION. Comparators, logic, timers, latches and counters, codes 35 to 51 (R147 to R149).
-/
namespace Sys2Proof.Machine

/-! ## Comparators, codes 35 to 39 -/

/-- An operand of validity 01 holds the previous result, with validity 01 (state: bit 0 set). -/
def cmpHold (x : PrimIn) : Raw := ({ rawB (x.st 0 == 1) with inv := true } : Raw).keep x

/-- The comparator state from entry and exit conditions. -/
def hyst (was set clear : Bool) : Bool := if was then !clear else set

def primCmpOver (x : PrimIn) : Raw :=
  if x.bad 0 then cmpHold x
  else
    let v := valExact (x.op 0).val
    rawState (hyst (x.st 0 == 1) (decide (fInt (x.pNum 0).v < v)) (decide (v < fInt (x.pNum 1).v)))

def primCmpUnder (x : PrimIn) : Raw :=
  if x.bad 0 then cmpHold x
  else
    let v := valExact (x.op 0).val
    rawState (hyst (x.st 0 == 1) (decide (v < fInt (x.pNum 0).v)) (decide (fInt (x.pNum 1).v < v)))

def primCmpBand (x : PrimIn) : Raw :=
  if x.bad 0 then cmpHold x
  else
    let v := valExact (x.op 0).val
    let lo := x.pNum 0
    let hi := x.pNum 1
    let h := x.pNum 2
    let out := nSub lo h
    let top := nAdd hi h
    (rawState (hyst (x.st 0 == 1) (decide (fInt lo.v < v ∧ v < fInt hi.v)) (decide (v < fInt out.v ∨ fInt top.v < v)))).on
      [out, top]

/-- A history by tag, newest first, of the `k` tags before: an operand of validity 01 is not stored, and its place keeps what it
held `k` tags before. DESIGN CHOICE (log 368): the rule says that xₙ₋ₖ exists from the (k + 1)-th tag and not what it is where
that operand was not stored. -/
def ringPush (bad : Bool) (k w : Nat) (h : List Nat) : List Nat := ((if bad then h.getD (k - 1) 0 else w) :: h).take k

/-- Fewer than k + 1 tags seen, this one counted (R147). -/
def PrimIn.early (x : PrimIn) : Bool := decide ((x.seg.n : Int) < x.pInt 0)

def primCmpRate (x : PrimIn) : Raw :=
  let k := x.pNat 0
  let h := [ringPush (x.bad 0) k (word32 (x.oNum 0)) (x.hist 0)]
  if x.bad 0 then { cmpHold x with bits := if x.early then qGap else 0, h := h }
  else if x.early then { rawB false with bits := qGap, a := [0], h := h }
  else
    let rho := nDiv (nSub (x.oNum 0) (ofWord ((x.hist 0).getD (k - 1) 0))) (nMul (numNat k) x.dt)
    let d := match x.pInt 3 with
      | 0 => rho
      | 1 => nNeg rho
      | _ => nAbs rho
    ({ rawState (hyst (x.st 0 == 1) (nLt (x.pNum 1) d) (nLt d (x.pNum 2))) with h := h } : Raw).on [rho]

def primCmpDelta (x : PrimIn) : Raw :=
  let k := x.pNat 0
  let z := x.oCpx 0
  let h := [ringPush (x.bad 0) k (word32 z.re) (x.hist 0), ringPush (x.bad 0) k (word32 z.im) (x.hist 1)]
  if x.bad 0 then { cmpHold x with bits := if x.early then qGap else 0, h := h }
  else if x.early then { rawB false with bits := qGap, a := [0], h := h }
  else
    let o : Cpx := ⟨ofWord ((x.hist 0).getD (k - 1) 0), ofWord ((x.hist 1).getD (k - 1) 0)⟩
    let d := match (x.op 0).val with
      | .cpx _ _ => cMag (cSub z o)
      | _ => nAbs (nSub z.re o.re)
    ({ rawState (hyst (x.st 0 == 1) (nLt (x.pNum 1) d) (nLt d (x.pNum 2))) with h := h } : Raw).on [d]

/-! ## Logic, codes 40 to 43 -/

/-- Byte `k` of a run of little-endian parameter words that starts at word `w`. -/
def PrimIn.pByte (x : PrimIn) (w k : Nat) : Nat := bitsOf (x.pWord (w + k / 4)) (8 * (k % 4) + 7) (8 * (k % 4))

/-- The low `w` bits of a 32-bit word. -/
def lowBits (v : Int) (w : Nat) : Nat := codedOf 32 v % 2 ^ w

/-- The 64-bit input vector of LOGIC64 (R148). -/
def logicVector (x : PrimIn) : Nat :=
  ((List.range x.n).foldl (fun (s : Nat × Nat) k =>
    let w := x.pByte 0 k
    let bits := if x.bad k then (if (x.pWord 2).testBit k then 2 ^ w - 1 else 0) else lowBits (x.oInt k) w
    (s.1 + bits * 2 ^ s.2, s.2 + w)) (0, 0)).1

/-- Term `j` of LOGIC64: care, value and output masks. -/
def logicTerm (x : PrimIn) (j : Nat) : Nat × Nat × Nat :=
  let b := 4 + 5 * j
  (x.pWord b + 2 ^ 32 * x.pWord (b + 1), x.pWord (b + 2) + 2 ^ 32 * x.pWord (b + 3), x.pWord (b + 4) % 2 ^ 16)

def primLogic64 (x : PrimIn) : Raw :=
  let v := logicVector x
  let out := (List.range (x.pNat 3)).foldl (fun o j =>
    let t := logicTerm x j
    if v &&& t.1 = t.2.1 then o ||| t.2.2 else o) 0
  { rawI (out : Nat) with bits := if (List.range x.n).any x.bad then qSubst else 0 }

def primBitPack (x : PrimIn) : Raw :=
  let v := (List.range x.n).foldl (fun o k => o ||| (lowBits (x.oInt k) (x.pByte 0 k) <<< x.pByte 2 k)) 0
  { val := .int (BitVec.ofNat 32 v) }

def primBitExtract (x : PrimIn) : Raw :=
  { val := .int (BitVec.ofNat 32 (codedOf 32 (x.oInt 0) / 2 ^ x.pNat 0 % 2 ^ x.pNat 1)) }

/-- EDGE arms only when it reports an edge. -/
def primEdge (x : PrimIn) : Raw :=
  let b := lowBits (x.oInt 0) 1
  let r := if b = 1 ∧ x.st 0 = 0 then 1 else if b = 0 ∧ x.st 0 = 1 then 2 else 0
  { rawI (r : Nat) with arm := some (r != 0), a := [b] }

/-! ## Timers, latches and counters, codes 44 to 51 -/

def bit (b : Bool) : Nat := if b then 1 else 0

/-- State: consecutive true tags. -/
def primTimerOn (x : PrimIn) : Raw :=
  let n := x.pNat 0
  if x.hasOp 1 && x.oTrue 1 then { rawB false with a := [0] }
  else
    let c := if x.oTrue 0 then min (x.st 0 + 1) n else 0
    { rawB (decide (n ≤ c)) with a := [c] }

/-- State: tags the result stays true after a fall. -/
def primTimerOff (x : PrimIn) : Raw :=
  let t := x.oTrue 0
  { rawB (t || decide (0 < x.st 0)) with a := [if t then x.pNat 0 else x.st 0 - 1] }

/-- State: tags left, previous input. -/
def primPulse (x : PrimIn) : Raw :=
  let t := x.oTrue 0
  let rise := t && x.st 1 == 0
  let left := if rise && (x.st 0 == 0 || x.pInt 1 == 1) then x.pNat 0 else x.st 0
  { rawB (decide (0 < left)) with a := [left - 1, bit t] }

/-- State: the latch. -/
def primLatchSr (x : PrimIn) : Raw :=
  let s := x.oTrue 0
  let r := x.oTrue 1
  let q := if s && r then x.pInt 0 == 1 else if s then true else if r then false else x.st 0 == 1
  rawState q

/-- COUNT_CONSEC (R149). State: count, state, rise tag plus one. `tag` is the task's tag. -/
def primCountConsec (tag : Nat) (x : PrimIn) : Raw :=
  let t := x.oTrue 0
  let n := x.pNat 0
  let c := if t then min (x.st 0 + 1) 65535 else 0
  let was := x.st 1 == 1
  let riseTag := x.st 2
  let expired := !x.bad 1 && (match (x.op 1).etag with
    | some e => tagBefore riseTag e
    | none => false)
  let now := if was then !((!t || decide (c < n)) && expired) else decide (n ≤ c)
  let rise := now && !was
  { rawB now with arm := some rise, a := [c, bit now, if rise then tag else riseTag] }

/-- State: count, previous count input. -/
def primCountEvent (x : PrimIn) : Raw :=
  let t := x.oTrue 0
  let rise := t && x.st 1 == 0
  let c := if x.oTrue 1 then 0 else if rise then min (x.st 0 + 1) (2 ^ 31 - 1) else x.st 0
  { rawB (decide (x.pNat 0 ≤ c)) with a := [c, bit t] }

/-- State: count, result. -/
def primTimerInteg (x : PrimIn) : Raw :=
  let n := x.pNat 0
  let c := if x.oTrue 0 then min (x.st 0 + 1) n else x.st 0 - x.pNat 1
  let r := if c = n then true else if c = 0 then false else x.st 1 == 1
  { rawB r with a := [c, bit r] }

/-- State: value type plus one, value words and quality held; type 0 before the first true gate. -/
def primSampleHold (x : PrimIn) : Raw :=
  let g := x.oTrue 1
  let v := (x.op 0).val
  if g then
    { val := v, arm := some true, a := [valType v + 1, (valWords v).1, (valWords v).2, (x.op 0).q.toNat] }
  else
    let held := if x.st 0 = 0 then zeroLike v else valOf (x.st 0 - 1) (x.st 1) (x.st 2)
    ({ val := held, arm := some false, base := some [BitVec.ofNat 16 (x.st 3), (x.op 1).q], only := some [1] } : Raw).keep x

end Sys2Proof.Machine
end

