-- ==== Sys2Proof/Machine/PrimStat.lean ====
section
/-!
DEFINITION. Window statistics, modal kernels and output primitives, codes 52 to 71 (R132, R147, R150 to R152).
-/
namespace Sys2Proof.Machine

/-! ## Accuracy (R132)

These families do not follow R130 bit for bit. Each value they give is the free value of Config where that one meets the
accuracy the primitive states, and the exact value rounded once where it does not. -/

/-- The free value for an exact `n / d` units of 2^-149 if `ok` accepts it, else that value rounded once. -/
def held (ok : Int → Bool) (code : Nat) (n : Int) (d : Nat) : Num :=
  let c := num (Config.kernelRound code n d)
  let r := numRound false n d
  if ok (fInt c.v) then { r with v := c.v } else r

/-- Within one unit in the last place of the exact value: DESIGN CHOICE (log 369) where the spec states no accuracy. -/
def nearHeld (code : Nat) (n : Int) (d : Nat) : Num :=
  held (fun v => decide ((v * d - n).natAbs < 2 ^ (Nat.log2 (n.natAbs / d) - 23) * d)) code n d

/-- Within `p / q` of the exact value, relative to it. -/
def relHeld (p q : Nat) (code : Nat) (n : Int) (d : Nat) : Num :=
  held (fun v => decide ((v * d - n).natAbs * q ≤ p * n.natAbs)) code n d

/-- `v` differs from the exact `n / d` units of 2^-149 by at most 4 units in the last place of that value plus 2^-24 times
`big` units (MEAN_WIN, RMS_WIN). -/
def nearWin (v : Int) (n : Int) (d big : Nat) : Bool :=
  let e := Nat.log2 (n.natAbs / d) - 23
  decide ((v * d - n).natAbs * 2 ^ 24 ≤ (4 * 2 ^ e * 2 ^ 24 + big) * d)

/-- The accuracy of the window statistics. -/
def winHeld (code : Nat) (n : Int) (d big : Nat) : Num := held (fun v => nearWin v n d big) code n d

/-- Exact values of the running statistics and the modal kernels: fixed point of 640 bits (`fxW`), kept in the segment. -/
def fxWord (v : Int) : Nat := codedOf 2048 v
def fxBack (w : Nat) : Int := signedOf 2048 w
def PrimIn.stFx (x : PrimIn) (k : Nat) : Int := fxBack (x.st k)
def fxDiv (a b : Int) : Int := a * fxOne / b

/-- Units of 2^-640 in one of 2^-149. -/
def fxUnit : Nat := 2 ^ (fxW - 149)

/-! ## Statistics, codes 52 to 58 -/

/-- A window with one more value, an invalid one replaced by the previous value. -/
def winPush (x : PrimIn) (w : Nat) : List Nat :=
  ((if x.bad 0 then (x.hist 0).headD 0 else w) :: x.hist 0).take (x.pNat 0)

/-- Bit 4 until N values are stored, and on a substituted value. -/
def winBits (x : PrimIn) (h : List Nat) : Nat := if x.bad 0 || decide (h.length < x.pNat 0) then qGap else 0

def primMeanWin (x : PrimIn) : Raw :=
  let h := winPush x (word32 (x.oNum 0))
  let vs := h.map fun w => fInt (ofWord w).v
  let s := vs.foldl (· + ·) 0
  { rawF (winHeld 52 s h.length (vs.foldl (fun a v => max a v.natAbs) 0)) with bits := winBits x h, h := [h] }

/-- |x|² of a value as stored: the two histories hold the parts. -/
def primRmsWin (x : PrimIn) : Raw :=
  let z := x.oCpx 0
  let h := winPush x (word32 z.re)
  let hi := ((if x.bad 0 then (x.hist 1).headD 0 else word32 z.im) :: x.hist 1).take (x.pNat 0)
  let sq := (h.zip hi).map fun p => cMag2 ⟨ofWord p.1, ofWord p.2⟩
  let mean := sq.foldl (· + ·) 0
  -- the exact root mean square in units of 2^-149, to 40 more bits
  let r := isqrt (mean * 2 ^ 80 / h.length)
  let big := isqrt (sq.foldl max 0) + 1
  { rawF (winHeld 53 r (2 ^ 40) big) with bits := winBits x h, h := [h, hi] }

/-- The least and greatest word of a window. -/
def winMin (l : List Nat) : Nat := l.getD (pickIndex false (l.map fun w => fInt (ofWord w).v)) 0
def winMax (l : List Nat) : Nat := l.getD (pickIndex true (l.map fun w => fInt (ofWord w).v)) 0

def primMinMaxWin (x : PrimIn) : Raw :=
  let h := winPush x (word32 (x.oNum 0))
  let v := match x.pInt 1 with
    | 0 => ofWord (winMin h)
    | 1 => ofWord (winMax h)
    | _ => nSub (ofWord (winMax h)) (ofWord (winMin h))
  { rawF v with bits := winBits x h, h := [h] }

/-- An operand of validity 01 leaves the state and repeats the previous result. -/
def statRepeat (x : PrimIn) : Raw := ({ val := x.prev (.flt 0) } : Raw).keep x

/-- m + (1 − λ)(x − m), and λ(v + (1 − λ)(x − m)(y − k)) from the differences. -/
def ewMean (lam m d : Int) : Int := m + fxMul (fxOne - lam) d
def ewVar (lam v d1 d2 : Int) : Int := fxMul lam (v + fxMul (fxOne - lam) (fxMul d1 d2))

/-- Square root of a fixed-point number. -/
def fxSqrt (v : Int) : Int := (isqrt ((v * fxOne).toNat) : Nat)

/-- EW_STAT. State: mean and variance, exact. -/
def primEwStat (x : PrimIn) : Raw :=
  if x.bad 0 then statRepeat x
  else
    let lam := fxOf (x.pNum 0)
    let d := fxOf (x.oNum 0) - x.stFx 0
    let m := ewMean lam (x.stFx 0) d
    let v := ewVar lam (x.stFx 1) d d
    let r := match x.pInt 1 with
      | 0 => m
      | 1 => v
      | _ => fxSqrt v
    { rawF (nearHeld 55 r fxUnit) with a := [fxWord m, fxWord v] }

/-- CORR_EW. State: the two means, the two variances and the covariance, exact. The coefficient is within 10⁻³ of the exact
one for λ ≤ 1 − 10⁻⁵; for a greater λ no accuracy is stated, and the free value stands as it is. -/
def primCorrEw (x : PrimIn) : Raw :=
  if x.bad 0 || x.bad 1 then statRepeat x
  else
    let lam := fxOf (x.pNum 0)
    let dx := fxOf (x.oNum 0) - x.stFx 0
    let dy := fxOf (x.oNum 1) - x.stFx 1
    let vx := ewVar lam (x.stFx 2) dx dx
    let vy := ewVar lam (x.stFx 3) dy dy
    let cv := ewVar lam (x.stFx 4) dx dy
    let a := [ewMean lam (x.stFx 0) dx, ewMean lam (x.stFx 1) dy, vx, vy, cv].map fxWord
    if vx = 0 ∨ vy = 0 then { rawF (num 0) with quest := true, a := a }
    else
      let n := cv * (fUnit : Nat)
      let d := isqrt ((vx * vy).toNat)
      let r := if lam * 100000 ≤ 99999 * fxOne then relHeld 1 1000 56 n d else held (fun _ => true) 56 n d
      { rawF r with a := a }

/-- The greatest gap between neighbouring angles of an ascending list on the circle of circumference `c`. -/
def widestGap (c : Int) (l : List Int) : Int :=
  match l with
  | [] => c
  | a :: _ => (l.zip (l.drop 1 ++ [a + c])).foldl (fun m p => max m (p.2 - p.1)) 0

def primSpread (x : PrimIn) : Raw :=
  let good := (List.range x.n).filter fun k => !x.bad k
  let qs := some (good.map fun k => (x.op k).q)
  if good.length < 2 then { rawF (num 0) with inv := true, base := qs }
  else if x.pInt 0 = 0 then
    let vs := good.map fun k => fInt (x.oNum k).v
    let hi := vs.foldl max (vs.headD 0)
    let lo := vs.foldl min (vs.headD 0)
    { rawF (nearHeld 57 (hi - lo) 1) with base := qs }
  else
    let vs := (good.map fun k => fxReduce (fxOf (x.oNum k))).insertionSort (· ≤ ·)
    let c := 2 * fxPi
    { rawF (nearHeld 57 (c - widestGap c vs) fxUnit) with base := qs }

/-- INTEGRATE. State: the sum and its compensation term, what the rounding of the sum left out, both words. -/
def primIntegrate (x : PrimIn) : Raw :=
  if x.hasOp 1 && x.oTrue 1 then { rawF (num 0) with a := [0, 0] }
  else if x.bad 0 then statRepeat x
  else
    -- exact, in units of 2^-447
    let s := (fInt (ofWord (x.st 0)).v + fInt (ofWord (x.st 1)).v) * (2 ^ 298 : Nat)
      + fInt (x.pNum 0).v * fInt (x.oNum 0).v * fInt x.dt.v
    let v := nearHeld 58 s (2 ^ 298)
    let c := nearHeld 58 (s - fInt v.v * (2 ^ 298 : Nat)) (2 ^ 298)
    { rawF v with a := [word32 v, word32 c] }

/-! ## Modal kernels, codes 59 to 63 -/

/-- The domain's frame rate over `d`, and λ = exp(−1 / (W·rate)), exact (R150). -/
def fxRate (x : PrimIn) (d : Nat) : Int := (x.rate.1 : Int) * fxOne / ((x.rate.2 * d : Nat) : Int)
def fxLam (w rate : Int) : Int := expSeries 160 fxOne (-(fxDiv fxOne (fxMul w rate))) 1

/-- MODAL_ACC. State: mean, sum, n; histories: the ring of decimated values, newest first, and the lag sums, all exact. -/
def primModalAcc (x : PrimIn) : Raw :=
  let d := x.pNat 0
  let l := x.pNat 1
  let w := fxOf (x.pNum 2)
  let v := if x.bad 0 then x.stFx 0 else fxOf (x.oNum 0)
  let mean := x.stFx 0 + fxMul (v - x.stFx 0) (fxDiv fxOne (fxMul w (fxRate x 1)))
  let sum := x.stFx 1 + (v - mean)
  let n := x.st 2 + 1
  let bits := if x.bad 0 then qGap else 0
  if n = d then
    let y := sum / (d : Int)
    let ring := (fxWord y :: x.hist 0).take l
    let lam := fxLam w (fxRate x d)
    let rk := (List.range l).map fun k =>
      fxWord (fxMul lam (fxBack ((x.hist 1).getD k 0)) + fxMul y (fxBack (ring.getD k 0)))
    { rawF (nearHeld 59 y fxUnit) with bits := bits, a := [fxWord mean, 0, 0], h := [ring, rk] }
  else { rawF (num 0) with bits := bits, a := [fxWord mean, fxWord sum, n], h := x.seg.h }

/-- Lag sum `k` of a MODAL_ACC segment as the kernel holds it: within 2·10⁻³ of the exact one. DESIGN CHOICE (log 370): the
bound stated for W = 600 s stands for every W. -/
def lagSum (s : Seg) (k : Nat) : Num := relHeld 2 1000 59 (fxBack ((s.h.getD 1 []).getD k 0)) fxUnit

/-- Tags per update: the domain's frame rate in tags (R150). -/
def updatePeriod (x : PrimIn) : Nat := max 1 (x.rate.1 / x.rate.2)

/-- The first tag of the flow after load: that of the first task of its MODAL_FIT or PGRAM_PEAK, whose segment keeps it (as
word `k`, plus one); a task before it is the first. -/
def firstTag (s : Seg) (k tag : Nat) : Nat := if s.a.getD k 0 = 0 then tag else s.a.getD k 0 - 1

/-- An update firing: the tag is a whole number of periods after the first. -/
def isUpdate (x : PrimIn) (first tag : Nat) : Bool := (tag + 2 ^ 32 - first) % 2 ^ 32 % updatePeriod x == 0

/-- The MODAL_ACC segments of the flow that have a positive lag sum at zero, with their parameters. -/
def liveSignals (x : PrimIn) : List (List Nat × Seg) :=
  (x.group.filter fun g => g.1 == 59 && decide (0 < fInt (lagSum g.2.2 0).v)).map (·.2)

/-- The normalised lag sums added over the live signals. -/
def fitRho (live : List (List Nat × Seg)) : List Int :=
  let l := live.foldl (fun a s => max a (s.2.h.getD 1 []).length) 0
  (List.range l).map fun k => live.foldl (fun acc s =>
    acc + fxOf (num (BitVec.ofNat 32 (s.1.getD 3 0))) * fInt (lagSum s.2 k).v / fInt (lagSum s.2 0).v) 0

/-- One order of the Levinson–Durbin recursion: coefficients so far and prediction error. -/
def levinsonStep (rho : List Int) (s : List Int × Int) : List Int × Int :=
  let n := s.1.length
  let acc := (List.range n).foldl (fun t j => t + fxMul (s.1.getD j 0) (rho.getD (n - j) 0)) (rho.getD (n + 1) 0)
  let k := if s.2 = 0 then 0 else -(fxDiv acc s.2)
  (((List.range n).map fun j => s.1.getD j 0 + fxMul k (s.1.getD (n - 1 - j) 0)) ++ [k], s.2 - fxMul (fxMul k k) s.2)

/-- The AR coefficients a₁ to aₚ. -/
def levinson (rho : List Int) (p : Nat) : List Int :=
  ((List.range p).foldl (fun s _ => levinsonStep rho s) ([], rho.headD 0)).1

/-- Complex fixed-point arithmetic. -/
def fcMul (a b : Int × Int) : Int × Int := (fxMul a.1 b.1 - fxMul a.2 b.2, fxMul a.1 b.2 + fxMul a.2 b.1)
def fcSub (a b : Int × Int) : Int × Int := (a.1 - b.1, a.2 - b.2)
def fcMag2 (a : Int × Int) : Int := fxMul a.1 a.1 + fxMul a.2 a.2
def fcDiv (a b : Int × Int) : Int × Int :=
  let n := fcMul a (b.1, -b.2)
  (fxDiv n.1 (fcMag2 b), fxDiv n.2 (fcMag2 b))

/-- The companion matrix of `a` has the eigenvalues at which z^p + a₁z^(p−1) + … + aₚ is zero. -/
def companionAt (a : List Int) (z : Int × Int) : Int × Int :=
  a.foldl (fun s c => let t := fcMul s z; (t.1 + c, t.2)) (fxOne, 0)

/-- One simultaneous correction of all estimates, each by the value at it over the product of its distances. -/
def eigenSweep (a : List Int) (zs : List (Int × Int)) : List (Int × Int) :=
  (zs.zip (List.range zs.length)).map fun z =>
    let d := (zs.zip (List.range zs.length)).foldl (fun p y => if y.2 = z.2 then p else fcMul p (fcSub z.1 y.1)) (fxOne, 0)
    fcSub z.1 (fcDiv (companionAt a z.1) d)

/-- The eigenvalues: 1,024 corrections from the powers of 0.4 + 0.9j. The kernel's own sequence, 64 shifted QR sweeps, is
held to these by the accuracy that R150 states (log 370). -/
def eigenvalues (a : List Int) : List (Int × Int) :=
  let start := ((List.range a.length).foldl (fun (s : List (Int × Int) × (Int × Int)) _ =>
    (s.1 ++ [s.2], fcMul s.2 (4 * fxOne / 10, 9 * fxOne / 10))) ([], (fxOne, 0))).1
  (List.range 1024).foldl (fun zs _ => eigenSweep a zs) start

/-- sk / fa = ln z: logarithm of the magnitude, and angle. -/
def fcLn (z : Int × Int) : Int × Int :=
  ((fxLnMag (fcMag2 z).toNat - ((fxW - 149 : Nat) : Int) * fxLn2) / 2, fxAngle z.2 z.1)

/-- A root lies 0.02 Hz or more from another: |sk − sj| / 2π. -/
def apart (fa : Int) (a b : Int × Int) : Bool :=
  let d := fcSub (fcLn a) (fcLn b)
  decide (2 * fxPi * fxOne ≤ 50 * (fa * fxSqrt (fcMag2 d)))

/-- Frequency, damping ratio and |z| that MODAL_FIT reports of eigenvalue `z`, as words: frequency within 0.5 mHz and damping
within 0.002 of the exact ones where the root lies apart from every other; elsewhere the spec states no accuracy, and the
free values stand as they are (log 370). -/
def reportMode (fa : Int) (others : List (Int × Int)) (z : Int × Int) : Nat × Nat × Nat :=
  let s := fcLn z
  let f := fxDiv (fxMul fa s.2) (2 * fxPi)
  let zeta := -(fxDiv s.1 (fxSqrt (fcMag2 s)))
  let sure := others.all (apart fa z)
  let within (p q : Nat) (n v : Int) : Bool := !sure || decide ((v * fxUnit - n).natAbs * q ≤ p * 2 ^ fxW)
  (word32 (held (within 1 2000 f) 60 f fxUnit), word32 (held (within 2 1000 zeta) 60 zeta fxUnit),
   word32 (nearHeld 60 (fxSqrt (fcMag2 z)) fxUnit))

/-- The modes of MODAL_FIT in ascending frequency, at most 16. -/
def fitModes (p : Nat) (fa : Int) (fmin fmax : Num) (rho : List Int) : List (Nat × Nat × Nat) :=
  let zs := (eigenvalues (levinson rho p)).zip (List.range p)
  let found := (zs.filter fun z => decide (0 < z.1.2)).map fun z =>
    reportMode fa ((zs.filter fun y => y.2 ≠ z.2).map (·.1)) z.1
  ((found.filter fun f => nLe fmin (ofWord f.1) && nLe (ofWord f.1) fmax).insertionSort
    fun a b => nLe (ofWord a.1) (ofWord b.1) = true).take 16

/-- MODAL_FIT. State: count of modes, validity, and, each plus one, the tags of the latest update and of the first task after
load; history: the modes as triples of words, ascending in frequency. -/
def primModalFit (tag : Nat) (x : PrimIn) : Raw :=
  let first := firstTag x.seg 3 tag
  if !isUpdate x first tag then
    ({ val := x.prev (.int 0), inv := x.st 1 == 1, quest := x.st 1 == 3 } : Raw).keep x
  else
    let total := (x.group.filter (·.1 == 59)).length
    let live := liveSignals x
    let fa := fxRate x (match live with | s :: _ => s.1.getD 0 1 | [] => 1)
    let modes := if live.isEmpty then [] else fitModes (x.pNat 0) fa (x.pNum 1) (x.pNum 2) (fitRho live)
    let v := if live.isEmpty then 1 else if 2 * live.length < total then 3 else 0
    { rawI (modes.length : Nat) with
      inv := v == 1, quest := v == 3, a := [modes.length, v, tag + 1, first + 1]
      h := [(modes.map fun f => [f.1, f.2.1, f.2.2]).flatten] }

/-- Mode triples of a MODAL_FIT segment. -/
def triples : List Nat → List (Nat × Nat × Nat)
  | a :: b :: c :: l => (a, b, c) :: triples l
  | _ => []

/-- MODAL_TRACK. State: result bits; history: for each tracked mode, updates below ζa, updates at or above or without a
mode, and the words of the latest assigned mode (frequency, damping). DESIGN CHOICE (log 362): of two equally near tracked
modes the one of lower number takes the found mode, as does the found mode of lower frequency among two equally near; and the
updates that clear a bit are consecutive, as those that set it are. -/
def primModalTrack (tag : Nat) (x : PrimIn) : Raw :=
  let fit := (x.group.find? (·.1 == 60)).elim ({} : Seg) (·.2.2)
  if !isUpdate x (firstTag fit 3 tag) tag then ({ val := x.prev (.int 0) } : Raw).keep x
  else
    let modes := triples (fit.h.getD 0 [])
    let m := x.pNat 0
    let fn (k : Nat) : Num := x.pNum (1 + 4 * k)
    let dist (f k : Nat) : Nat := (fInt (ofWord f).v - fInt (fn k).v).natAbs
    -- the tracked mode a found mode is assigned to: the nearest, within its tolerance
    let home (f : Nat) : Option Nat :=
      ((List.range m).filter fun k => decide ((dist f k : Int) ≤ fInt (x.pNum (2 + 4 * k)).v)).foldl (fun b k => match b with
        | none => some k
        | some j => if dist f k < dist f j then some k else some j) none
    let step (k : Nat) : List Nat × Bool :=
      let old := x.hist k
      let mine := modes.filter fun f => home f.1 == some k
      let best : Option (Nat × Nat × Nat) := mine.foldl (fun (b : Option (Nat × Nat × Nat)) f => match b with
        | none => some f
        | some g => if dist f.1 k < dist g.1 k then some f else some g) none
      let lo : Bool := match best with
        | some f => nLt (ofWord f.2.1) (x.pNum (3 + 4 * k))
        | none => false
      let up : Nat := if lo then old.getD 0 0 + 1 else 0
      let dn : Nat := if lo then 0 else old.getD 1 0 + 1
      let was := (x.st 0).testBit k
      let conf := x.pNat (4 + 4 * k)
      let now := if was then decide (dn < conf) else decide (conf ≤ up)
      ([up, dn, (best.map (·.1)).getD 0, (best.map (·.2.1)).getD 0], now)
    let all := (List.range m).map step
    let bits := (all.zip (List.range m)).foldl (fun a s => a + if s.1.2 then 2 ^ s.2 else 0) 0
    { rawI (bits : Nat) with a := [bits], h := all.map (·.1) }

/-- PGRAM_ACC: one complex bin a frequency; histories: real and imaginary parts, exact. DESIGN CHOICE (log 363): λ is that of
the frame rate, one firing a tag, and an operand of validity 01 accumulates 0. -/
def primPgramAcc (x : PrimIn) : Raw :=
  let rate := fxRate x 1
  let lam := fxLam (fxOf (x.pNum 3)) rate
  let v := if x.bad 0 then 0 else fxOf (x.oNum 0)
  let binAt (b : Nat) : Int × Int :=
    let f := fxOf (x.pNum 1) + (b : Int) * fxOf (x.pNum 2)
    let sc := fxSinCos (fxDiv (2 * fxMul fxPi f) rate)
    let y := fcMul (fxMul lam sc.2, fxMul lam sc.1) (fxBack ((x.hist 0).getD b 0), fxBack ((x.hist 1).getD b 0))
    (y.1 + v, y.2)
  let bins := (List.range (x.pNat 0)).map binAt
  { val := .flt (x.oNum 0).v, h := [bins.map fun b => fxWord b.1, bins.map fun b => fxWord b.2] }

/-- The middle of a list of powers; the mean of the two middle ones for an even number. -/
def medianOf (l : List Int) : Int :=
  let s := l.insertionSort (· ≤ ·)
  let n := s.length
  if n % 2 = 1 then s.getD (n / 2) 0 * 2 else s.getD (n / 2 - 1) 0 + s.getD (n / 2) 0

/-- The power of bin `k` summed over the PGRAM_ACC segments of the flow. -/
def binPower (gs : List (List Nat × Seg)) (k : Nat) : Num :=
  nearHeld 63 (gs.foldl (fun acc g =>
    acc + fcMag2 (fxBack ((g.2.h.getD 0 []).getD k 0), fxBack ((g.2.h.getD 1 []).getD k 0))) 0) fxUnit

/-- PGRAM_PEAK: the frequency of the largest bin above κ times the median and above both neighbours. State, each plus one: the
tags of the latest update and of the first task after load. DESIGN CHOICE (log 363): an edge bin exceeds the neighbour it has
not. -/
def primPgramPeak (tag : Nat) (x : PrimIn) : Raw :=
  let first := firstTag x.seg 1 tag
  if !isUpdate x first tag then ({ val := x.prev (.flt 0) } : Raw).keep x
  else
    let gs := (x.group.filter (·.1 == 62)).map (·.2)
    let ps := match gs with | g :: _ => g.1 | [] => []
    let b := ps.getD 0 0
    let pw := (List.range b).map fun k => fInt (binPower gs k).v
    let med := medianOf pw
    let ok (k : Nat) : Bool :=
      let p := pw.getD k 0
      decide (fInt (x.pNum 0).v * med < 2 * p * (fUnit : Nat))
        && (k == 0 || decide (pw.getD (k - 1) 0 < p)) && (k + 1 == b || decide (pw.getD (k + 1) 0 < p))
    let best := ((List.range b).filter ok).foldl (fun (o : Option Nat) k => match o with
      | none => some k
      | some j => if pw.getD j 0 < pw.getD k 0 then some k else some j) none
    let f (k : Nat) : Num :=
      nearHeld 63 (fInt (num (BitVec.ofNat 32 (ps.getD 1 0))).v + (k : Int) * fInt (num (BitVec.ofNat 32 (ps.getD 2 0))).v) 1
    { rawF (match best with | some k => f k | none => num 0) with a := [tag + 1, first + 1] }

/-! ## Outputs, codes 64 to 71 -/

/-- The result is operand 0. -/
def primPass (x : PrimIn) : Raw := { val := (x.op 0).val }

/-- The claim number in force (R152). -/
def primClaim (x : PrimIn) : Raw := rawI (x.claim : Nat)

/-- A condition watched for a rise (1) or fall (2), kept for the retire (R141): state previous condition, edge. An invalid
condition counts as false for `asFalse`, else it is no evaluation (R152). -/
def condEdge (asFalse : Bool) (x : PrimIn) : Raw :=
  let was := x.st 0
  if x.bad 0 && !asFalse then { val := (x.op 0).val, a := [was, 0] }
  else
    let c := bit (x.oTrue 0)
    { val := (x.op 0).val, a := [c, if c = 1 ∧ was = 0 then 1 else if c = 0 ∧ was = 1 then 2 else 0] }

end Sys2Proof.Machine
end

