-- ==== Sys2Proof/Machine/Engines.lean ====
section
/-!
DEFINITION. Completion of a task on its engine (R121, R134, R135, R139), and settings groups (R145, R146).
-/
namespace Sys2Proof.Machine

/-! ## The claim number (R271, R272) -/

/-- Epoch and rank in force. -/
def epochOf (m : Mod) : Nat := regBits m Reg.OUT_EPOCH 23 0
def rankOf (m : Mod) : Nat := m.out.unit % 256

/-- The claim number in force: 0 on a unit that does not claim. -/
def claimNow (m : Mod) : Nat := if m.out.claiming then epochOf m * 256 + rankOf m else 0

/-! ## Completion -/

/-- The parameters that set a primitive's flow-state size (R119): their indices in the record. -/
def sizeParams (prim : Nat) : List Nat :=
  match prim with
  | 25 | 38 | 39 | 52 | 53 | 54 | 61 | 62 => [if prim = 25 then 1 else 0]
  | 59 => [1]
  | _ => []

/-- A primitive has flow state (R139, R147). -/
def hasState (prim : Nat) : Bool :=
  prim == 25 || decide (26 ≤ prim ∧ prim ≤ 39) || prim == 43 || decide (44 ≤ prim ∧ prim ≤ 56)
    || decide (58 ≤ prim ∧ prim ≤ 63) || prim == 67 || prim == 68 || prim == 71

/-- The segment a task of tag `tag` starts from: zero when a change of group that alters its size takes effect (R119). -/
def startSeg (m : Mod) (t : Template) (tag : Nat) (seg : Seg) : Seg :=
  let a := paramsFor m t (tagAdd tag (-1))
  let b := paramsFor m t tag
  if (sizeParams t.prim).any fun k => a.getD k 0 ≠ b.getD k 0 then {} else seg

/-- The committed segment of a template. -/
def segOf (m : Mod) (t : Template) : Seg :=
  match t.flow with
  | some f => tabGet (tabGet m.td.flows f).segs t.num
  | none => {}

/-- The accumulating templates and MODAL_FIT of a flow in FLOW_SEQ order with parameters and committed segments (R150). -/
def flowGroup (m : Mod) (t : Template) (tag : Nat) : List (Nat × List Nat × Seg) :=
  match t.flow with
  | none => []
  | some f =>
    (flowTemplates m (tmplPart t) f).filterMap fun x => match template m x.2 with
      | some u => if u.prim = 59 ∨ u.prim = 60 ∨ u.prim = 62 then some (u.prim, paramsFor m u tag, segOf m u) else none
      | none => none

/-- What a task reads (R121). -/
def taskInput (m : Mod) (t : Template) (k : Task) : PrimIn :=
  let tv := testFor m t.domain k.tag
  let rate := domainRate m t.domain
  { params := paramsFor m t k.tag
    ops := k.ops.map fun o => { o with val := (readVal o.val).1, q := testRead tv o.q }
    dt := if rate.1 = 0 then num 0 else numOfFrac rate.2 rate.1
    rate := rate
    seg := startSeg m t k.tag (segOf m t)
    group := flowGroup m t k.tag
    claim := claimNow m }

/-- An engine completes the task of template `tn` and tag `tag` when it executes primitive `code` there: the result of `f`
with its quality and arm flag, and the write log (R138 to R140). A late sticky operand sets bit 5 (R85). A bad word in the memories
it uses makes it a task fault instead (R124). -/
def complete (code : Nat) (f : Nat → PrimIn → Raw) (m : Mod) (tn tag : Nat) : Mod :=
  match findTask m tn tag, template m tn with
  | some k, some t =>
    if k.state ≠ .executing ∨ t.prim ≠ code then m
    else match memFault m t k with
    | some kind => taskFault m tn tag kind
    | none =>
      let x := taskInput m t k
      let nan (i : Nat) : Bool := (readVal ((k.ops.getD i default).val)).2
      let (r, seg) := finish (hasState code) x nan (f k.tag x)
      let q := if k.late then qOr r.q qLate else r.q
      modTask m tn tag fun k => { k with
        state := .done, result := some { r with q := q }, log := if t.flow.isSome ∧ hasState code then some seg else none }
  | _, _ => m

/-! ## Settings groups (R145, R146) -/

/-- The tag domains of a partition. -/
def partDomains (m : Mod) (p : Nat) : List Nat := if p = 1 then (imageOf m 1).outs.map fun o => 4 + o.1 else [p]

/-- A partition's group count (R144). -/
def groupCount (m : Mod) (p : Nat) : Nat := ((imageOf m p).templates.map fun t => t.2.groups.length).foldl max 1

/-- A change of group of one domain with its effective tag; changes 2^20 tags behind are folded into the base. -/
def addGroup (m : Mod) (d tag g : Nat) : Mod :=
  let l := tabGet m.pe.pend d
  let old := l.filter fun x => tagBefore x.1 (tagAdd tag (-(2 ^ 20 : Nat)))
  let base := match old.getLast? with
    | some x => some x.2
    | none => tabGet m.pe.group d
  { m with pe := { m.pe with group := tabSet m.pe.group d base, pend := tabSet m.pe.pend d ((l.drop old.length) ++ [(tag, g)]) } }

/-- The group of a partition that Keeper retains (R146). -/
def keepGroup (m : Mod) (p g : Nat) : Mod := { m with pe := { m.pe with kept := tabSet m.pe.kept p (some g) } }

/-- A refused request: flag, fault bit and event. -/
def groupRefuse (m : Mod) (p : Nat) : Mod :=
  setFault { m with pe := { m.pe with refused := m.pe.refused ||| 2 ^ p } } Reg.PE_FAULT 6 p

/-- SETTINGS_GROUP_REQUEST: a request for group `g` of partition `p` reaches the PE block (R145). -/
def groupRequest (m : Mod) (p g : Nat) : Mod :=
  if g = 0 ∨ groupCount m p < g ∨ (partOf m p).state = .absent ∨ m.mode.role = .standby ∨ m.mode.role = .referee then groupRefuse m p
  else
    let m := setReg m Reg.PE_SGRP_REQ (BitVec.ofNat 32 (p * 256 + g))
    let m := keepGroup { m with pe := { m.pe with refused := m.pe.refused &&& (15 - 2 ^ p) } } p g
    (partDomains m p).foldl (fun m d =>
      let tag := tagAdd (latestTag m d) 3
      noteCopy (addGroup m d tag g) (.group d tag g)) m

/-- A partition resumes its retained group at a start or a load (R146). -/
def resumeGroup (m : Mod) (p : Nat) : Mod :=
  let g := (tabGet m.pe.kept p).getD 1
  let g := if g ≤ groupCount m p then g else 1
  (partDomains m p).foldl (fun m d => { m with pe := { m.pe with group := tabSet m.pe.group d (some g), pend := tabSet m.pe.pend d [] } }) m

/-- PE_SGRP_STAT (R154). DESIGN CHOICE (log 361): a partition with several domains shows the group of the first of them. -/
def sgrpStat (m : Mod) : Nat :=
  (List.range 4).foldl (fun a p =>
    let d := (partDomains m p).headD p
    let g := if (partOf m p).state = .absent then 1 else groupFor m d (latestTag m d)
    a + g * 2 ^ (4 * p)) (m.pe.refused * 2 ^ 16)

end Sys2Proof.Machine
end

