-- ==== Sys2Proof/Machine/Ptp.lean ====
section
/-!
DEFINITION. The PTP protocol engine, the external reference and the registers of the time base (R313 to R337).
-/
namespace Sys2Proof.Machine

/-! ## Configuration -/

def ptpProfile (m : Mod) : Nat := regBits m Reg.PTP_CFG 1 0
def ptpDomain (m : Mod) : Nat := regBits m Reg.PTP_CFG 15 8
def ptpEnabled (m : Mod) (p : Nat) : Bool := (reg m (Reg.PTP_PCFG p)).toNat % 2 == 1

/-- 2^n seconds on the elapsed-time count. -/
def logSecs (n : Int) : Nat := if 0 ≤ n then secs (2 ^ n.toNat) else secs 1 / 2 ^ (-n).toNat

/-- An interval of PTP_INTV, from its 4-bit signed field at `lo`. -/
def intvAt (m : Mod) (lo : Nat) : Nat := logSecs (signedOf 4 (regBits m Reg.PTP_INTV (lo + 3) lo))

/-- announceReceiptTimeout as a time. -/
def announceTimeout (m : Mod) : Nat := regBits m Reg.PTP_INTV 19 16 * intvAt m 4

def ptpPort (m : Mod) (p : Nat) : PtpPort := tabGet m.clk.ports p
def modPtpPort (m : Mod) (p : Nat) (f : PtpPort → PtpPort) : Mod :=
  { m with clk := { m.clk with ports := tabMod m.clk.ports p f } }

/-! ## Own data set and messages (R331, R332) -/

/-- clockClass, clockAccuracy and timeSource announced (R332). -/
def ownQuality (m : Mod) : Nat × Nat × Nat :=
  match m.clk.state with
  | .locked => if m.clk.mode = .master then (6, 0x21, 0x20) else (248, 0xFE, 0xA0)
  | .holdover =>
    match clkErr m with
    | some e => if e ≤ 1000 then (7, Config.accuracyCode e, 0xA0) else (52, 0xFE, 0xA0)
    | none => (52, 0xFE, 0xA0)
  | _ => (248, 0xFE, 0xA0)

/-- The Announce body a MASTER port sends, under PROFILE 3 with its TLV (R330): the parent's grandmaster fields on a boundary clock with a SLAVE port, else
the module's own data set (R332). -/
def announceBody (m : Mod) : AnnounceData :=
  let utcValid := m.clk.mode == .master || m.clk.utcFromAnn
  let leap := pendingLeap m
  let tlv := if ptpProfile m = 3 then some (ptpErrWord m) else none
  match m.clk.parent, m.clk.mode, m.clk.slavePort with
  | some f, .boundary, some _ =>
    { f.ann with
      steps := f.ann.steps + 1, utcOffset := utcOffset m, leap61 := leap == 1, leap59 := leap == 2, inaccuracy := tlv }
  | _, _, _ =>
    let (cl, acc, src) := ownQuality m
    ⟨Config.clockIdentity, cl, acc, Config.clockVariance, regBits m Reg.PTP_CFG 31 24, regBits m Reg.PTP_CFG 23 16, 0,
      utcOffset m, utcValid, leap == 1, leap == 2, src, tlv⟩

/-- The port identity of port `p`. -/
def ownPortId (p : Nat) : PtpPortId := ⟨Config.clockIdentity, p + 1⟩

/-- A message with everything but its kind, sequence number and origin at rest. -/
def ptpMsg (m : Mod) (p : Nat) (k : PtpKind) (seq origin : Nat) (twoStep : Bool) (corr : Int) (req : PtpPortId) : PtpMsg :=
  ⟨k, ptpDomain m, regBits m (Reg.PTP_PCFG p) 2 2 == 1 && ptpProfile m == 0, twoStep, ownPortId p, seq, corr, origin, req,
    if k = .announce then announceBody m else default⟩

/-- A PTP message queued on queue 7 of its port, without redundancy processing (R349, R357). -/
def ptpSend (m : Mod) (p : Nat) (msg : PtpMsg) (ev : Nat) : Mod :=
  let c := (reg m (Reg.PTP_PCFG p)).toNat
  let tags := if c.testBit 3 then [(bitsOf c 15 13, bitsOf c 27 16)] else []
  let pl := Payload.ptp msg
  let len := Config.wireLen pl
  let peer : Bool := match msg.kind with
    | .pdelayReq | .pdelayResp | .pdelayRespFollowUp => true
    | _ => false
  let dst := if msg.udp then (if peer then 0x01005E00006B else 0x01005E000181) else if peer then 0x0180C200000E else 0x011B19000000
  queueModule m p 7 ⟨⟨dst, (portCfg m p).mac, tags, len, false, false, none, pl, Config.wireBytes pl⟩, len, none, ev⟩

/-- PTP_MESSAGE_TIMER: an interval of a port runs out: `k` 0 Sync, 1 Announce, 2 delay request (R330). -/
def ptpMessageTimer (m : Mod) (p k : Nat) : Mod :=
  expire m .ptpMessage (4 * p + k) fun m =>
    if !ptpEnabled m p then m else
      let q := ptpPort m p
      let one := regBits m Reg.PTP_CTRL 1 1 == 1
      let p2p := ptpProfile m ≠ 0
      let m := startTimer m .ptpMessage (4 * p + k)
        (intvAt m (match k with | 0 => 0 | 1 => 4 | _ => if p2p then 8 else 12))
      match k with
      | 0 =>
        if q.state = .master then
          let m := modPtpPort m p fun q => { q with seqSync := (q.seqSync + 1) % 65536 }
          ptpSend m p (ptpMsg m p .sync q.seqSync 0 (!one) 0 default) (if one then 2 else 1)
        else m
      | 1 =>
        if q.state = .master then
          let m := modPtpPort m p fun q => { q with seqAnn := (q.seqAnn + 1) % 65536 }
          ptpSend m p (ptpMsg m p .announce q.seqAnn 0 false 0 default) 0
        else m
      | _ =>
        if (p2p && q.state ≠ .disabled) || (!p2p && q.state == .slave) then
          let m := modPtpPort m p fun q => { q with
            seqReq := (q.seqReq + 1) % 65536, req := some ⟨q.seqReq, default, 0, 0, 0⟩, resp := none }
          ptpSend m p (ptpMsg m p (if p2p then .pdelayReq else .delayReq) q.seqReq 0 false 0 default) 1
        else m

/-- The message timers of an enabled port, started when they do not run. -/
def armPtp (m : Mod) (p : Nat) : Mod :=
  if !ptpEnabled m p then m else
    [0, 1, 2].foldl (fun m k => if timerOn m .ptpMessage (4 * p + k) then m
      else startTimer m .ptpMessage (4 * p + k)
        (intvAt m (match k with | 0 => 0 | 1 => 4 | _ => if ptpProfile m = 0 then 12 else 8))) m

/-- A PTP message left its port with transmit timestamp `ts`: the engine notes it or sends the follow-up (R330). -/
def ptpSentAt (m : Mod) (p : Nat) (msg : PtpMsg) (ts : Int) : Mod :=
  match msg.kind with
  | .sync => if msg.twoStep then ptpSend m p { msg with kind := .followUp, origin := ts.toNat } 0 else m
  | .pdelayResp => if msg.twoStep then ptpSend m p { msg with kind := .pdelayRespFollowUp, origin := ts.toNat } 0 else m
  | .delayReq | .pdelayReq =>
    modPtpPort m p fun q => { q with req := q.req.map fun r => if r.seq = msg.seq then { r with t1 := ts } else r }
  | _ => m

/-! ## Best master clock (R330, R331) -/

/-- Order of two announced data sets: true when `a` is better than `b` (the default comparison of IEEE 1588-2019,
log 22). -/
def annBetter (a b : AnnounceData) (sa sb : PtpPortId) : Bool :=
  let ka := [a.prio1, a.gmClass, a.gmAcc, a.gmVar, a.prio2, a.gmId]
  let kb := [b.prio1, b.gmClass, b.gmAcc, b.gmVar, b.prio2, b.gmId]
  if a.gmId = b.gmId then
    decide (a.steps < b.steps) || (a.steps == b.steps && (decide (sa.clock < sb.clock)
      || (sa.clock == sb.clock && decide (sa.port < sb.port))))
  else decide (ka < kb)

/-- A foreign master counts once it has announced itself twice (log 22). -/
def qualified (f : ForeignMaster) : Bool := decide (2 ≤ f.seen)

/-- The best qualified foreign master of a list. -/
def bestForeign (fs : List ForeignMaster) : Option ForeignMaster :=
  (fs.filter qualified).foldl (fun b f => match b with
    | none => some f
    | some g => if annBetter f.ann g.ann f.src g.src then some f else some g) none

/-- The best foreign master over the enabled ports, with its port. -/
def bestOverall (m : Mod) : Option (Nat × ForeignMaster) :=
  ((List.range 8).filter (ptpEnabled m)).foldl (fun b p =>
    match bestForeign (ptpPort m p).foreigns, b with
    | some f, some (q, g) => if annBetter f.ann g.ann f.src g.src then some (p, f) else some (q, g)
    | some f, none => some (p, f)
    | none, b => b) none

/-- The other port of an HSR pair takes no own role (R331): the even port carries the module's port role. -/
def hsrSilent (m : Mod) (p : Nat) : Bool := (pairCfg m p).mode == 2 && p % 2 == 1

/-- The state of a port after the state decision of the Time mode (R331). -/
def decidePort (m : Mod) (best : Option (Nat × ForeignMaster)) (p : Nat) : PtpPortState :=
  let own := announceBody { m with clk := { m.clk with slavePort := none } }
  let mine := ownPortId p
  let erb := bestForeign (ptpPort m p).foreigns
  if !ptpEnabled m p || hsrSilent m p then .disabled
  else match m.clk.mode with
    | .slave =>
      match best with
      | some (q, _) => if q = p then .slave else if erb.isSome then .passive else .listening
      | none => .listening
    | .master =>
      match erb with
      | some f => if annBetter f.ann own f.src mine then .passive else .master
      | none => .master
    | .boundary =>
      match best with
      | some (q, f) =>
        if annBetter f.ann own f.src mine then
          if q = p then .slave
          else match erb with
            | some g => if annBetter g.ann { f.ann with steps := f.ann.steps + 1 } g.src mine then .passive else .master
            | none => .master
        else .master
      | none => .master
    | .holdover => (ptpPort m p).state
    | .freeRun => if (ptpPort m p).state = .master then .master else .disabled

/-- UTC values and pending leap taken from the parent's Announce when it marks them valid (R322). -/
def utcFromParent (m : Mod) : Mod :=
  match m.clk.parent with
  | some f =>
    if m.clk.mode = .slave ∨ m.clk.mode = .boundary then
      if f.ann.utcValid then
        let lp := if f.ann.leap61 then 1 else if f.ann.leap59 then 2 else 0
        let m := setReg m Reg.PTP_UTC (BitVec.ofNat 32 (codedOf 16 f.ann.utcOffset + lp * 65536))
        { m with clk := { m.clk with utcFromAnn := true } }
      else { m with clk := { m.clk with utcFromAnn := false } }
    else m
  | none => { m with clk := { m.clk with utcFromAnn := false } }

/-- The state decision over all ports; a new parent sets GM_CHANGE and returns a Locked clock to Acquiring (R314, R331). -/
def runBmca (m : Mod) : Mod :=
  if m.clk.mode = .freeRun ∨ m.clk.mode = .holdover then m else
    let best := bestOverall m
    let sts := (List.range 8).map fun p => (p, decidePort m best p)
    let m := sts.foldl (fun m ps => modPtpPort m ps.1 fun q => { q with state := ps.2 }) m
    let sp := (sts.find? fun ps => ps.2 == .slave).map (·.1)
    let par := if m.clk.mode = .master then none else if sp.isSome then best.map (·.2) else none
    let id (f : Option ForeignMaster) := f.map fun f => (f.ann.gmId, f.src)
    let changed := id par != id m.clk.parent
    let m := { m with clk := { m.clk with slavePort := sp, parent := par } }
    let m := if changed && par.isSome then setFault { m with clk := { m.clk with lastSyncAt := m.clk.elapsed } } Reg.PTP_FAULT 8 else m
    let m := if changed && m.clk.state == .locked && m.clk.mode ≠ .master then setClkState m .acquiring else m
    utcFromParent m

/-! ## Offsets and the servo (R314, R319) -/

/-- The correction of an offset of `d` ns (local minus reference): a slew, or a step (R319). -/
def correctOffset (m : Mod) (d : Int) : Mod :=
  let maxNs := regBits m Reg.PTP_SERVO 9 0 * 1000
  if d.natAbs ≤ maxNs ∨ regBits m Reg.PTP_CTRL 0 0 = 0 then
    { m with clk := { m.clk with slewLeft := -d * nsUnit } }
  else stepClock m ((localTime m.clk : Int) - d * nsUnit).toNat

/-- A signed ns value saturated at ±(2^31 − 1) (R337). -/
def satNs (d : Int) : Int := max (-2147483647) (min 2147483647 d)

/-- An offset from the parent in ns accepted: it is counted toward lock, shown, and corrected; RATE follows the servo's
law, which the spec does not give (log 23). -/
def acceptOffset (m : Mod) (d mpd : Int) : Mod :=
  let lockNs := regBits m Reg.PTP_SERVO 25 16
  let (k, m) := drawFree m
  let good := if d.natAbs < lockNs then m.clk.goodRun + 1 else 0
  let bad := if d.natAbs > 1000 then m.clk.badRun + 1 else 0
  let m := setReg (setReg m Reg.PTP_OFFSET (BitVec.ofInt 32 (satNs d))) Reg.PTP_MPD (BitVec.ofInt 32 mpd)
  let m := setReg m Reg.PTP_RATE (BitVec.ofInt 32 (Config.servoRate k (rateWord m) d))
  let m := { m with clk := { m.clk with offsets := (d :: m.clk.offsets).take 16, goodRun := good, badRun := bad } }
  let m := if m.clk.state = .acquiring ∧ 16 ≤ good then setClkState m .locked
    else if m.clk.state = .locked ∧ 4 ≤ bad then setClkState m .acquiring else m
  let m := if m.clk.state = .acquiring && m.clk.fromHoldover then m
    else { m with clk := { m.clk with lastOffAt := m.clk.elapsed, e0 := clkErr m } }
  correctOffset m d

/-- A Sync with its origin time accepted on the SLAVE port: automatic Holdover ends, the offset is formed (R314). -/
def acceptSync (m : Mod) (p : Nat) (t1 t2 corr : Int) : Mod :=
  let m := { m with clk := { m.clk with lastSyncAt := m.clk.elapsed } }
  let m := modPtpPort m p fun q => { q with sync := some ⟨0, default, t1 + corr, t2, 0⟩ }
  let m := if m.clk.mode = .holdover && !m.clk.cmdHoldover then
      setClkState (runBmca (setTimeAxis m m.clk.fromMode)) .acquiring else m
  if m.clk.cmdHoldover then m
  else if m.clk.state = .acquiring ∨ m.clk.state = .locked then
    let q := ptpPort m p
    acceptOffset m ((t2 - t1 - corr - q.mpd) / 65536) (q.mpd / 65536)
  else m

/-! ## Messages received (R329, R330) -/

/-- Announce of a foreign master: its record is renewed or, while fewer than eight are kept, added. -/
def gotAnnounce (m : Mod) (p : Nat) (msg : PtpMsg) : Mod :=
  let f := (ptpPort m p).foreigns
  let now := m.clk.elapsed
  let fs := if f.any (·.src == msg.src)
    then f.map fun x => if x.src == msg.src then ⟨x.src, msg.ann, x.seen + 1, now, msg.ann.utcValid⟩ else x
    else if f.length < 8 then f ++ [⟨msg.src, msg.ann, 1, now, msg.ann.utcValid⟩] else f
  runBmca (modPtpPort m p fun q => { q with foreigns := fs })

/-- The message comes from the parent on the SLAVE port. In an automatic Holdover, in which the ports keep their roles, any master
counts that would be the parent, on the port that would be SLAVE (R314, R331). -/
def fromParent (m : Mod) (p : Nat) (msg : PtpMsg) : Bool :=
  if m.clk.mode == .holdover && !m.clk.cmdHoldover then
    let m := { m with clk := { m.clk with mode := m.clk.fromMode } }
    let best := bestOverall m
    decidePort m best p == .slave && best.any fun b => b.2.src == msg.src
  else (ptpPort m p).state == .slave && (match m.clk.parent with
    | some f => f.src == msg.src
    | none => false)

/-- The answer to a peer delay request (R330). -/
def answerPdelay (m : Mod) (p : Nat) (msg : PtpMsg) (t2 : Int) : Mod :=
  if regBits m Reg.PTP_CTRL 1 1 = 1 then
    ptpSend m p (ptpMsg m p .pdelayResp msg.seq 0 false (msg.corr - t2) msg.src) 2
  else ptpSend m p (ptpMsg m p .pdelayResp msg.seq t2.toNat true 0 msg.src) 1

/-- The peer delay formed from t1 to t4. -/
def setMpd (m : Mod) (p : Nat) (d : Int) : Mod :=
  modPtpPort m p fun q => { q with mpd := max 0 (d / 2), req := none, resp := none }

/-- A PTP message handled by the engine on a port that takes part (R330). -/
def ptpHandle (m : Mod) (p : Nat) (msg : PtpMsg) (ts : Int) : Mod :=
  let q := ptpPort m p
  let p2p := ptpProfile m ≠ 0
  if !ptpEnabled m p || q.state == .disabled || (msg.udp && ptpProfile m ≠ 0) || msg.domain ≠ ptpDomain m || msg.src.clock == Config.clockIdentity then m
  else match msg.kind with
    | .announce => if m.clk.mode = .freeRun then m else gotAnnounce m p msg
    | .sync =>
      if !fromParent m p msg then m
      else if msg.twoStep then modPtpPort m p fun q => { q with sync := some ⟨msg.seq, msg.src, 0, ts, msg.corr⟩ }
      else acceptSync m p msg.origin ts msg.corr
    | .followUp =>
      match q.sync with
      | some s => if fromParent m p msg && s.seq == msg.seq && s.src == msg.src
          then acceptSync m p msg.origin s.t2 (s.corr + msg.corr) else m
      | none => m
    | .delayReq => if !p2p && q.state == .master then
        ptpSend m p (ptpMsg m p .delayResp msg.seq ts.toNat false msg.corr msg.src) 0 else m
    | .delayResp =>
      match q.req, q.sync with
      | some r, some s => if !p2p && msg.req == ownPortId p && r.seq == msg.seq && fromParent m p msg
          then setMpd m p ((s.t2 - s.t1) + ((msg.origin : Int) - r.t1 - msg.corr)) else m
      | _, _ => m
    | .pdelayReq => if p2p then answerPdelay m p msg ts else m
    | .pdelayResp =>
      match q.req with
      | some r =>
        if p2p && msg.req == ownPortId p && r.seq == msg.seq then
          if msg.twoStep then modPtpPort m p fun q => { q with resp := some ⟨msg.seq, msg.src, msg.origin, ts, msg.corr⟩ }
          else setMpd m p (ts - r.t1 - msg.corr)
        else m
      | none => m
    | .pdelayRespFollowUp =>
      match q.req, q.resp with
      | some r, some a =>
        if p2p && msg.req == ownPortId p && r.seq == msg.seq && a.seq == msg.seq then
          setMpd m p ((a.t2 - r.t1) - ((msg.origin : Int) - a.t1) - a.corr - msg.corr)
        else m
      | _, _ => m
    | .other => m

/-- An HSR pair forwards Sync, its follow-up and Announce between the ring directions with the residence time added
to the correction field of the Sync (R331). -/
def ptpForward (m : Mod) (p : Nat) (it : RxItem) (msg : PtpMsg) : Mod :=
  if (pairCfg m p).mode ≠ 2 then m else
    let o := if p % 2 = 0 then p + 1 else p - 1
    let f := it.frame
    let put (msg : PtpMsg) (ev : Nat) := queueModule m o 7 ⟨{ f with payload := .ptp msg }, f.len, none, ev⟩
    match msg.kind with
    | .sync => put { msg with corr := msg.corr + (ptpPort m p).mpd - it.ts } 2
    | .followUp | .announce => put msg 0
    | _ => m

/-- The first frame of a port's control buffer that `want` takes, and the module without it. -/
def takeControl (m : Mod) (p : Nat) (want : Payload → Bool) : Option (RxItem × Mod) :=
  let c := (netPort m p).control
  match c.find? fun it => want it.frame.payload with
  | some it =>
    let i := c.findIdx fun it => want it.frame.payload
    some (it, modPort m p fun st => { st with control := st.control.eraseIdx i })
  | none => none

/-- PTP_MESSAGE_RECEIVED: the engine takes the oldest PTP message of a port's control buffer (R329, R342). -/
def ptpReceived (m : Mod) (p : Nat) : Mod :=
  match takeControl m p (fun pl => match pl with | .ptp _ => true | _ => false) with
  | some (it, m) =>
    match it.frame.payload with
    | .ptp msg => ptpForward (ptpHandle m p msg it.ts) p it msg
    | _ => m
  | none => m

/-! ## Loss of references -/

/-- Automatic entry into Holdover (R66, R314, R318). -/
def autoHoldover (m : Mod) : Mod :=
  let m := holdRate { m with clk := { m.clk with fromMode := m.clk.mode, cmdHoldover := false } }
  setClkState (setTimeAxis m .holdover) .holdover

/-- REFERENCE_LOST: the parent's announce receipt timeout, or three sync intervals without a Sync, end (R314). -/
def referenceLost (m : Mod) : Mod :=
  if (m.clk.mode = .slave ∨ m.clk.mode = .boundary) ∧ (m.clk.state = .locked ∨ m.clk.state = .acquiring) then
    match m.clk.parent, m.clk.slavePort with
    | some f, some p =>
      let last := match (ptpPort m p).foreigns.find? (·.src == f.src) with
        | some g => g.lastAt
        | none => f.lastAt
      autoHoldover (advanceTo m (min (last + announceTimeout m) (m.clk.lastSyncAt + 3 * intvAt m 0)))
    | _, _ => m
  else m

/-- The foreign masters of a port that have not announced for announceReceiptTimeout leave it; when the parent is among them the
reference is lost (R314), else the ports are decided again. -/
def dropForeigns (m : Mod) (p : Nat) : Mod :=
  let stale (x : ForeignMaster) : Bool := decide (x.lastAt + announceTimeout m ≤ m.clk.elapsed)
  let parent : Bool := m.clk.slavePort == some p && (ptpPort m p).foreigns.any fun x =>
    stale x && some x.src == m.clk.parent.map (·.src)
  let lost := parent && (m.clk.mode == .slave || m.clk.mode == .boundary) && (m.clk.state == .locked || m.clk.state == .acquiring)
  let m := modPtpPort m p fun q => { q with foreigns := q.foreigns.filter fun x => !stale x }
  if lost then autoHoldover m else runBmca m

/-- FOREIGN_MASTER_RECORD_TIMEOUT: time passes until the oldest foreign master of a port leaves it (R330, R331). -/
def foreignTimeout (m : Mod) (p : Nat) : Mod :=
  match (ptpPort m p).foreigns with
  | [] => m
  | f :: fs => dropForeigns (advanceTo m (fs.foldl (fun a x => min a x.lastAt) f.lastAt + announceTimeout m)) p

/-- EXT_1PPS_EDGE: a rising edge of the external 1PPS, with whether the 10 MHz input is within ±10 ppm (R318). -/
def extPpsEdge (m : Mod) (tenOk : Bool) : Mod :=
  let t := localTime m.clk
  let prev := m.clk.extCap.map fun c => c.1 * secs 1 + c.2.1 * nsUnit + c.2.2 * 2 ^ 32
  let ok := match prev with
    | some p => decide (((t : Int) - (p + secs 1 : Nat)).natAbs ≤ usec 1)
    | none => false
  let fine := t % secs 1
  let off : Int := if fine ≤ secs 1 / 2 then (fine : Int) else (fine : Int) - secs 1
  let use := regBits m Reg.PTP_CTRL 2 2 == 1
  let run := if use && ok && decide (off.natAbs ≤ 100 * nsUnit) then m.clk.extRun + 1 else 0
  let m := { m with clk := { m.clk with
    ext10 := tenOk, extPps := ok, extRun := run, extCap := some (m.clk.sec, m.clk.ns, m.clk.frac)
    extEdge := if ok then some (m.clk.sec, m.clk.ns, m.clk.frac) else m.clk.extEdge } }
  if !use then { m with clk := { m.clk with extState := 0 } }
  else
    -- in Holdover the frequency follows the 10 MHz input (R317)
    let m := if tenOk && m.clk.state == .holdover then holdRate m else m
    if !(ok && tenOk) then
      let m : Mod := { m with clk := { m.clk with extState := if m.clk.extState = 0 then 1 else m.clk.extState } }
      if m.clk.state = .acquiring then settleExt { m with clk := { m.clk with extState := 1 } } else m
    else
      let m := { m with clk := { m.clk with extState := if 16 ≤ run then 2 else 1 } }
      let m := if m.clk.mode = .holdover && !m.clk.cmdHoldover && m.clk.fromMode == .master
        then setClkState (setTimeAxis m .master) .acquiring else settleExt m
      if m.clk.mode ≠ .master || !m.clk.hostSet then m
      else
        let m := if m.clk.state = .acquiring ∧ 16 ≤ run then setClkState m .locked else m
        -- the local 1PPS edge is aligned by slewing (R318)
        let m := { m with clk := { m.clk with slewLeft := -off } }
        if m.clk.state == .locked then { m with clk := { m.clk with lastOffAt := m.clk.elapsed, e0 := some 100 } } else m

/-- EXT_REFERENCE_LOST: an external input lost for 2 s; a Locked master enters Holdover (R318). -/
def extLost (m : Mod) (ten : Bool) : Mod :=
  if regBits m Reg.PTP_CTRL 2 2 = 0 then m else
    let c := m.clk
    let m := { m with clk := { c with
      ext10 := c.ext10 && !ten, extPps := c.extPps && ten, extRun := 0, extState := 3 } }
    let m := setFault m Reg.PTP_FAULT 6
    if m.clk.mode = .master ∧ m.clk.state = .locked then autoHoldover m
    else if m.clk.mode = .master ∧ m.clk.state = .acquiring then setClkState m .grandmaster else m

/-- SLEW_COMPLETE: time passes until the slew has removed the offset; the slew term is then zero (R319). -/
def slewComplete (m : Mod) : Mod :=
  let m := takeSet m
  let n := ceilDiv m.clk.slewLeft.natAbs slewTick
  if n = 0 then m else runTicks (n / 12500000 + 2) m n

/-! ## UTC (R322, R323) -/

/-- LEAP_SECOND_APPLY: time passes up to the UTC midnight of the pending leap, where `leapEdge` applies it (R323). -/
def leapApply (m : Mod) : Mod :=
  if pendingLeap m = 1 ∨ pendingLeap m = 2 then
    let at_ := leapSecond m * secs 1
    toPps (advanceLocal m (at_ - secs 1 / 2))
  else m

/-! ## Registers -/

/-- PTP_SET_CMD.GO: a host time set at the next tick, only in Free-run and Grandmaster (R320). -/
def ptpSetCmd (m : Mod) (v : Word) (be : BitVec 4) : Mod :=
  guardedWrite m Reg.PTP_SET_CMD be fun m =>
    if v.toNat % 2 = 0 then m
    else
      let ns := (reg m Reg.PTP_SET_NS).toNat
      if (m.clk.state = .freeRun ∨ m.clk.state = .grandmaster) ∧ ns < 1000000000 then
        { m with clk := { m.clk with
          pendStep := some ((reg m Reg.PTP_SET_SECL).toNat + 2 ^ 32 * (reg m Reg.PTP_SET_SECH).toNat, ns) } }
      else setFault m Reg.PTP_FAULT 10

/-- PTP_UTC: offset and pending leap, refused while the parent's Announce is the source (R322). -/
def ptpUtcWrite (m : Mod) (v : Word) (be : BitVec 4) : Mod :=
  guardedWrite m Reg.PTP_UTC be fun m =>
    let src := (m.clk.mode == .slave || m.clk.mode == .boundary) && m.clk.parent.any fun f => f.ann.utcValid
    if src || bitsOf v.toNat 17 16 = 3 then setFault m Reg.PTP_FAULT 10
    else setReg m Reg.PTP_UTC (BitVec.ofNat 32 (v.toNat % 2 ^ 18))

/-- PTP_FREQ: the rate word in Free-run and Grandmaster, refused otherwise (R337). -/
def ptpFreqWrite (m : Mod) (v : Word) (be : BitVec 4) : Mod :=
  guardedWrite m Reg.PTP_FREQ be fun m =>
    if m.clk.state = .freeRun ∨ m.clk.state = .grandmaster then setReg (setReg m Reg.PTP_FREQ v) Reg.PTP_RATE v
    else setFault m Reg.PTP_FAULT 10

/-- PTP_STAT as read (R337). -/
def ptpStat (m : Mod) : Nat :=
  let c := m.clk
  let cs : Nat := match c.state with
    | .freeRun => 0 | .grandmaster => 1 | .acquiring => 2 | .locked => 3 | .holdover => 4
  let pend := pendingLeap m ≠ 0 && decide (leapSecond m ≤ c.sec + 60)
  let recent := match c.leapAt with
    | some t => decide (c.sec < t + 86400) && decide (t ≤ c.sec)
    | none => false
  let dir := if pend then pendingLeap m - 1 else c.leapDir
  timeModeCode c.mode + cs * 2 ^ 8 + dir * 2 ^ 13 + (if recent then 2 ^ 14 else 0) + (if pend then 2 ^ 15 else 0)
    + (if clkLocked c then 2 ^ 16 else 0) + (if clkTod c then 2 ^ 17 else 0) + c.extState * 2 ^ 18
    + (c.slavePort.getD 0xF) * 2 ^ 24

/-- PTP_PARENT as read: the parent's grandmaster class, accuracy and steps, else the module's own (R337). -/
def ptpParent (m : Mod) : Nat :=
  match m.clk.parent with
  | some f => f.ann.gmClass * 2 ^ 24 + f.ann.gmAcc * 2 ^ 16 + f.ann.steps
  | none => (ownQuality m).1 * 2 ^ 24 + (ownQuality m).2.1 % 256 * 2 ^ 16

/-- PTP_PnSTAT as read. -/
def ptpPortStat (m : Mod) (p : Nat) : Nat :=
  let st : Nat := match (ptpPort m p).state with
    | .initializing => 0 | .faulty => 1 | .disabled => 2 | .listening => 3 | .preMaster => 4 | .master => 5
    | .passive => 6 | .uncalibrated => 7 | .slave => 8
  st + (if (pairCfg m p).mode = 2 then 16 else 0) + (tabGet m.clk.tsq p).length * 256

/-- Layout of the time codes of the PTP mailbox (R334). -/
def timeWords (sec ns frac ident : Nat) (present notSent : Bool) : List Nat :=
  [frac * 65536 + ident, ns + (if notSent then 2 ^ 30 else 0) + (if present then 2 ^ 31 else 0), sec % 2 ^ 32,
    sec / 2 ^ 32 % 2 ^ 32]

/-- PTP mailbox words by code (R334). -/
def ptpMbox (m : Mod) (code : Nat) : Option (List Nat) :=
  let c := m.clk
  if code = 0 then some (timeWords c.sec c.ns c.frac 0 true false)
  else if code = 1 then
    let e := c.elapsed
    some (timeWords (e / secs 1) (e % secs 1 / nsUnit) (e % nsUnit / 2 ^ 32) 0 true false)
  else if code = 2 then
    match c.parent with
    | some f => some [leNat (beBytes 4 (f.ann.gmId / 2 ^ 32)), leNat (beBytes 4 (f.ann.gmId % 2 ^ 32)), 0, 0]
    | none => some [0, 0, 0, 0]
  else if code = 3 then
    match c.extEdge with
    | some (s, n, f) => some (timeWords s n f 0 true false)
    | none => some [0, 0, 0, 0]
  else if 0x10 ≤ code ∧ code ≤ 0x17 then
    match tabGet c.tsq (code - 0x10) with
    | e :: _ => some (timeWords e.sec e.ns e.frac e.ident true e.notSent)
    | [] => some (timeWords 0 0 0 0 false false)
  else none

/-- A shadowed PTP register's value lies in its stated range (R337, R330). -/
def ptpInRange (off : Nat) (v : Word) : Bool :=
  let n := v.toNat
  let sb (lo : Nat) : Int := signedOf 4 (bitsOf n (lo + 3) lo)
  let within (i lo hi : Int) : Bool := decide (lo ≤ i) && decide (i ≤ hi)
  if off = Reg.PTP_CFG then decide (2 ≤ bitsOf n 1 0) || decide (bitsOf n 15 8 ≤ 127)
  else if off = Reg.PTP_INTV then
    decide (2 ≤ bitsOf n 19 16) && decide (bitsOf n 19 16 ≤ 10) && within (sb 12) (-4) 3 && within (sb 8) (-4) 3
      && within (sb 4) (-3) 3 && within (sb 0) (-4) 1
  else if off = Reg.PTP_SERVO then
    decide (20 ≤ bitsOf n 25 16) && decide (bitsOf n 25 16 ≤ 1000) && decide (1 ≤ bitsOf n 9 0) && decide (bitsOf n 9 0 ≤ 1000)
  else true

/-- The apply point of the PTP block: values out of range are discarded with SET_REFUSED; a change of profile or domain
returns the ports to LISTENING; Keeper retains the values (R312, R337). -/
def ptpApply (m : Mod) : Mod :=
  let offs := [Reg.PTP_CTRL, Reg.PTP_CFG, Reg.PTP_INTV, Reg.PTP_SERVO]
    ++ (List.range 8).map (fun p => Reg.PTP_PCFG p) ++ (List.range 8).map (fun p => Reg.PTP_PLAT p)
  let prof := bitsOf (reg m Reg.PTP_CFG).toNat 15 0
  let was := (List.range 8).map (ptpEnabled m)
  let m := offs.foldl (fun m o =>
    if ptpInRange o (shadowReg m o) then setReg m o (shadowReg m o)
    else setFault (setShadow m o (reg m o)) Reg.PTP_FAULT 10) m
  let m := { m with clk := { m.clk with
    savedRegs := (offs ++ [Reg.PTP_UTC, Reg.PTP_FREQ, Reg.PTP_INT_EN]).map fun o => (o, reg m o) } }
  let m := settleExt (if regBits m Reg.PTP_CTRL 2 2 = 0 then { m with clk := { m.clk with extState := 0, extRun := 0 } } else m)
  let m := if bitsOf (reg m Reg.PTP_CFG).toNat 15 0 ≠ prof then
      let m := listenPorts m
      if (m.clk.mode = .slave ∨ m.clk.mode = .boundary) then setClkState m .acquiring else m
    else m
  let m := (List.range 8).foldl (fun m p =>
    if ptpEnabled m p && !(was.getD p false) && m.clk.mode ≠ .freeRun
      then modPtpPort m p fun q => { q with state := .listening } else m) m
  runBmca ((List.range 8).foldl armPtp m)

/-- CLOCK_SECONDS_RETAIN: every 60 s Keeper retains the clock's seconds (R312). -/
def clockRetain (m : Mod) : Mod :=
  expire m .clockRetain 0 fun m =>
    startTimer { m with clk := { m.clk with savedSec := m.clk.sec } } .clockRetain 0 (secs 60)

/-- Start of the clock at power good: 0 s, 0 ns, Free-run; the elapsed-time count from zero (R311, R312). -/
def clockPowerOn (m : Mod) : Mod :=
  { m with clk := { savedSec := m.clk.savedSec, savedRegs := m.clk.savedRegs } }

/-- Keeper restores the retained PTP values and steps the clock to the retained second plus 1 (R312). -/
def clockRestore (m : Mod) : Mod :=
  let m := m.clk.savedRegs.foldl (fun m kv => loadReg m kv.1 kv.2) m
  let m := setReg m Reg.PTP_RATE (reg m Reg.PTP_FREQ)
  startTimer (stepClock m ((m.clk.savedSec + 1) * secs 1)) .clockRetain 0 (secs 60)

/-- FRAME_TRANSMIT: the next frame of a port leaves, from the highest queue that holds one; a requested or engine
timestamp is taken (R324, R326, R348). -/
def frameTransmit (m : Mod) (p : Nat) : Mod :=
  let st := netPort m p
  if !st.link || st.paused then m else
    match [7, 6, 5, 4, 3, 2, 1, 0].find? fun q => !(tabGet st.txq q).isEmpty with
    | none => m
    | some q =>
      match tabGet st.txq q with
      | [] => m
      | it :: rest =>
        let m := modPort m p fun st => { st with txq := tabSet st.txq q rest }
        let ts := txStamp m p
        let m := bump m (Reg.MAC_PTX_OK p)
        match it.frame.payload, it.ptp with
        | .ptp msg, 1 => ptpSentAt (emit m (.frame p it.frame)) p msg ts
        | .ptp msg, 2 =>
          let msg := if msg.kind = .sync && msg.src.clock == Config.clockIdentity
            then { msg with origin := ts.toNat } else { msg with corr := msg.corr + ts }
          emit m (.frame p { it.frame with payload := .ptp msg })
        | _, _ =>
          let m := emit m (.frame p it.frame)
          match it.tsId with
          | some i =>
            let (s, n, f) := stampParts ts
            tsqAdd m p ⟨i, false, s, n, f⟩
          | none => m

end Sys2Proof.Machine
end

