-- ==== Sys2Proof/Machine/Goose.lean ====
section
/-!
DEFINITION. GOOSE publications and subscriptions (R258 to R264, R270 to R274).
-/
namespace Sys2Proof.Machine

/-! ## Publications -/

/-- The records of publications and subscriptions of the loaded images. -/
def allPubs (m : Mod) : Cells PubCfg := ([0, 1, 2, 3].map fun p => (imageOf m p).pubs).flatten
def pubCfg (m : Mod) (n : Nat) : Option PubCfg := (allPubs m).lookup n
def allGSubs (m : Mod) : Cells GSubCfg := ([0, 1, 2, 3].map fun p => (imageOf m p).gsubs).flatten

def pubSt (m : Mod) (n : Nat) : PubSt := tabGet m.out.pubs n
def modPub (m : Mod) (n : Nat) (f : PubSt → PubSt) : Mod := { m with out := { m.out with pubs := tabMod m.out.pubs n f } }
def gsubSt (m : Mod) (s : Nat) : GSubSt := tabGet m.out.subs s
def modGSub (m : Mod) (s : Nat) (f : GSubSt → GSubSt) : Mod := { m with out := { m.out with subs := tabMod m.out.subs s f } }

/-- The unit publishes under the side-B identities (R259). -/
def sideB (m : Mod) : Bool := m.out.unit.testBit 15
def pubId (b : Bool) (c : PubCfg) : PubId := if b then c.idB else c.idA

def roleCode : Role → Nat
  | .standalone => 0 | .active => 1 | .standby => 2 | .referee => 3

/-- R278. -/
def isFit (m : Mod) : Bool := isLive m 0 && (m.mode.role != .standby || m.mode.syncSt == 2)

/-- The synchronisation state a unit reports (R277): an Active its Standby's, Isolated with the Towpath down (log 51). -/
def syncCode (m : Mod) : Nat :=
  match m.mode.role, m.out.peer with
  | .standby, _ => m.mode.syncSt
  | .active, some p => if m.out.towUp then p.sync else 3
  | .active, none => 3
  | _, _ => 0

/-- The unit's Test value (R65): that of the protection partition. -/
def unitTest (m : Mod) : TestVal := tabGet m.mode.partTest 0

/-- The heartbeat status word (R270). -/
def statusWord (m : Mod) : Nat :=
  roleCode m.mode.role + (if unitTest m ≠ .off then 4 else 0) + syncCode m * 16 + (if isFit m then 128 else 0)
    + (if m.out.refPresent then 256 else 0)

/-- The unit identifier member for a tag (R274). -/
def unitWord (m : Mod) (tag : Nat) : Nat :=
  m.out.unit / 65536 * 65536 + (if inTakeover m tag then 32768 else 0) + roleCode m.mode.role * 4096 + rankOf m

/-- The quality published for a quality word of a partition (R65, R136): the test element follows the Test value. -/
def pubQual (t : TestVal) (q : Qual) : Nat :=
  toIec (if t = .off then BitVec.ofNat 16 (q.toNat - (q.toNat &&& qTest)) else qOr q qTest)

/-- A member encoded by its descriptor (R260, R266). -/
def memberVals (t : TestVal) (d : Nat × Bool) (v : MemberVal) : List GooseVal :=
  let w := valWords v.val
  let x : List GooseVal := match d.1 with
    | 0 => [.bool (w.1 != 0)]
    | 1 => [.int32 (signedOf 32 w.1)]
    | 2 => [.float32 w.1]
    | _ => [.float32 w.1, .float32 w.2]
  x ++ (if d.2 then [.quality (pubQual t v.q)] else [])

/-- A publication's member values in place; zero with quality 0 where none has been written (log 5). -/
def memberNow (st : PubSt) (d : Nat × Bool) (i : Nat) : MemberVal :=
  (tabGet st.vals i).getD ⟨valOf (if d.1 = 0 then 0 else d.1 - 1) 0 0, 0⟩

def membersNow (c : PubCfg) (st : PubSt) : List MemberVal :=
  (c.members.zip (List.range c.members.length)).map fun d => memberNow st d.1 d.2

/-- The dataset of a publication for a tag of a domain, Palza members included (R260). -/
def dataset (m : Mod) (c : PubCfg) (st : PubSt) (dom tag : Nat) : List GooseVal :=
  let t := testFor m dom tag
  let own := ((c.members.zip (membersNow c st)).map fun x => memberVals t x.1 x.2).flatten
  match c.kind with
  | 0 => own ++ [.uint32 (claimNow m), .uint32 (unitWord m tag)]
  | 1 => [.uint32 (claimNow m), .uint32 (unitWord m tag), .uint32 (statusWord m)]
  | _ => own

/-- A publication that a Test value keeps from being sent (R65, R263). -/
def pubBlocked (t : TestVal) (c : PubCfg) : Bool := c.kind == 0 && t == .testBlocked

/-- The TimeQuality octet (R262), bits numbered as IEC 61850 numbers them (PRESUMED). -/
def timeQuality (m : Mod) : Nat :=
  let lock := clkLocked m.clk && (m.clk.mode == .slave || m.clk.mode == .boundary)
  128 + (if m.clk.state = .freeRun then 64 else 0) + (if lock then 0 else 32) + (if clkLocked m.clk then 20 else 10)

/-- A frame of the module is not sent for want of a key: counted on each of its ports (R467). -/
def dropUnsigned (m : Mod) (ports : Nat) : Mod := (maskPorts ports).foldl (fun m p => bump m (Reg.MAC_PTX_DROP p)) m

/-- The number after a stNum or sqNum (R261). -/
def nextNum (n : Nat) : Nat := if n ≥ 0xFFFFFFFF then 1 else n + 1

/-- The frame of a publication as its stream stands, on each of its ports (R259, R262, R263). -/
def sendPub (m : Mod) (n : Nat) (c : PubCfg) : Mod :=
  let st := pubSt m n
  let id := pubId (sideB m) c
  let tal := if c.kind = 1 then ceilDiv 3000 (max 1 (masterRate m c.part)) else ceilDiv (3 * st.interval) 1000
  let f : GooseFrame :=
    { appid := id.appid, gocbRef := id.gocbRef, datSet := id.datSet, goId := id.goId, tal := tal, stNum := st.stNum
      sqNum := st.sqNum, tSec := st.chgSec, tNs := st.chgNs, tQual := st.chgQual, sim := false, confRev := c.confRev
      ndsCom := false, vals := st.sent.getD [], malformed := false, sec := none }
  let tags := if c.tagged then [(c.prio, c.vid)] else []
  if !c.auth then sendFrame m c.ports c.queue id.dst tags (.goose f)
  else if canSign m c.key then
    sendFrame m c.ports c.queue id.dst tags (.goose { f with sec := some (secFor m c.key (Config.gooseSigned f)) })
  else dropUnsigned m c.ports

/-- The gap record of a stream that continues after a start: retained and new stNum (R261). -/
def streamGap (m : Mod) (n old new : Nat) : Mod := raiseEvent m 8 2 1 (leBytes 2 n ++ leBytes 2 0 ++ leBytes 8 old ++ leBytes 8 new)

/-- A dataset handed over for a tag of a domain: sent with the next stNum when it differs from the dataset last sent (R261 to R263). -/
def handOver (m : Mod) (n : Nat) (c : PubCfg) (dom tag : Nat) : Mod :=
  if pubBlocked (testFor m dom tag) c then m
  else
    let st := pubSt m n
    let ds := dataset m c st dom tag
    if st.sent = some ds then m
    else
      let new := nextNum st.stNum
      let m := if st.sent.isNone then streamGap m n st.stNum new else m
      let q := timeQuality m
      let m := modPub m n fun s => { s with
        sent := some ds, stNum := new, sqNum := 0, interval := c.tmin, chgSec := m.clk.sec, chgNs := m.clk.ns, chgQual := q }
      let m := sendPub m n c
      if c.kind = 1 then m else startTimer m .gooseRetransmit n (usec c.tmin)

/-- The heartbeat publication at a cycle close: a change, or the same dataset with the next sqNum (R262, R269). -/
def heartbeat (m : Mod) (n : Nat) (tag : Nat) : Mod :=
  match pubCfg m n with
  | none => m
  | some c =>
    if (pubSt m n).sent = some (dataset m c (pubSt m n) 0 tag) then
      sendPub (modPub m n fun s => { s with sqNum := nextNum s.sqNum }) n c
    else handOver m n c 0 tag

/-- A change of claim or role sends every kind-0 publication: at a takeover all, else those sent before (R261, R297). -/
def republish (m : Mod) (all : Bool) (tag : Nat) : Mod :=
  (allPubs m).foldl (fun m x => if x.2.kind = 0 ∧ (all || (pubSt m x.1).sent.isSome) then handOver m x.1 x.2 0 tag else m) m

/-- GOOSE_RETRANSMIT: the interval of a publication runs out: the frame goes out again with sqNum raised and the next
interval twice as long, up to TMAX (R261, R262). A stream that Test-blocked keeps from being sent does not advance. -/
def gooseRetransmit (m : Mod) (n : Nat) : Mod :=
  expire m .gooseRetransmit n fun m =>
    match pubCfg m n with
    | none => m
    | some c =>
      if pubBlocked (unitTest m) c then startTimer m .gooseRetransmit n (usec (max 1 (pubSt m n).interval))
      else
        let m := modPub m n fun s => { s with sqNum := nextNum s.sqNum, interval := min (2 * s.interval) c.tmax }
        let m := sendPub m n c
        startTimer m .gooseRetransmit n (usec (max 1 (pubSt m n).interval))

/-! ## GOOSE_STAGE and GOOSE_PUB at retire (R141, R151) -/

/-- The member values that an output task gives: its operands, or zero and invalid for a quarantined template. -/
def taskMembers (m : Mod) (t : Template) (k : Task) : List MemberVal :=
  let tv := testFor m t.domain k.tag
  k.ops.map fun o => if k.quar then ⟨zeroLike o.val, 1⟩ else ⟨(readVal o.val).1, testRead tv o.q⟩

/-- The origin of an event that a task raises (R451 to R453). -/
def taskOrigin (m : Mod) (t : Template) (k : Task) : Origin :=
  { src := 0x30 + tmplPart t, time := some (tagInstant m t.domain k.tag), test := testFor m t.domain k.tag != .off
    tko := k.ops.any fun o => qBit o.q qTakeover, tag := k.tag }

/-- GOOSE_STAGE at retire. -/
def actStage (m : Mod) (t : Template) (k : Task) : Mod :=
  let ps := paramsFor m t k.tag
  let vals := taskMembers m t k
  let new := (vals.zip (List.range vals.length)).map fun v => (k.tag, ps.getD 1 0 + v.2, v.1)
  modPub m (ps.getD 0 0) fun s => { s with staged := s.staged ++ new }

/-- GOOSE_PUB at retire: the members of its tag are put in place and the dataset is handed over. -/
def actPub (m : Mod) (t : Template) (k : Task) : Mod :=
  let n := (paramsFor m t k.tag).getD 0 0
  match pubCfg m n with
  | none => m
  | some c =>
    let m := actStage m t k
    let put (vs : Cells (Option MemberVal)) (x : Nat × Nat × MemberVal) : Cells (Option MemberVal) := tabSet vs x.2.1 (some x.2.2)
    let due (x : Nat × Nat × MemberVal) : Bool := tagLe x.1 k.tag
    let m := modPub m n fun s => { s with
      vals := (s.staged.filter due).foldl put s.vals, staged := s.staged.filter fun x => !due x }
    let m := modPub m n fun s => { s with handed := ((k.tag, membersNow c s) :: s.handed).take 64 }
    handOver m n c t.domain k.tag

/-! ## Subscriptions (R264) -/

/-- A received frame meets R258. -/
def gooseDecodes (f : Frame) (g : GooseFrame) : Bool :=
  !g.malformed && decide (f.tags.length ≤ 1) && decide (g.appid ≤ 0x3FFF) && !g.ndsCom
    && decide (g.gocbRef.length ≤ 129 ∧ g.datSet.length ≤ 129 ∧ g.goId.length ≤ 129)

/-- The dataset as its values, each with the quality that follows it. -/
def gooseMembers : List GooseVal → List (GooseVal × Nat)
  | .quality _ :: l => gooseMembers l
  | v :: .quality q :: l => (v, q) :: gooseMembers l
  | v :: l => (v, 0) :: gooseMembers l
  | [] => []

/-- The value of a routed member (R258, R267); none when the dataset does not hold it in that type. A complex value is two
FLOAT32 entries, the index naming the first of them (log 45). -/
def routedVal (l : List (GooseVal × Nat)) (r : GooseRoute) : Option MemberVal :=
  match r.type, l[r.member]?, l[r.member + 1]? with
  | 0, some (.bool b, q), _ => some ⟨.int (if b then 1 else 0), iecQual q⟩
  | 1, some (.int32 v, q), _ => some ⟨.int (BitVec.ofInt 32 v), iecQual q⟩
  | 2, some (.float32 v, q), _ => some ⟨.flt (BitVec.ofNat 32 v), iecQual q⟩
  | 3, some (.float32 a, _), some (.float32 b, q) => some ⟨.cpx (BitVec.ofNat 32 a) (BitVec.ofNat 32 b), iecQual q⟩
  | _, _, _ => none

/-- The sticky tokens of routed members, of every one or of those whose value or quality changed (R264); their effective tags
are assigned at the match stage. -/
def gooseTokens (m : Mod) (s : Nat) (c : GSubCfg) (vals : List MemberVal) (every : Bool) : Mod :=
  let old := (gsubSt m s).vals
  let m := ((c.routes.zip vals).zip (List.range vals.length)).foldl (fun m x =>
    if !every ∧ old[x.2]? = some x.1.2 then m
    else pushCross m 5 ⟨⟨x.1.1.target, x.1.1.op, 0, s, x.1.2.val, x.1.2.q⟩, none, .async⟩) m
  modGSub m s fun st => { st with vals := vals }

/-- A discarded frame. -/
def gooseBad (m : Mod) (s : Nat) : Mod :=
  setFault (modGSub m s fun st => { st with bad := st.bad + 1 }) Reg.OUT_FAULT 13 s

/-- The settings-group source's member 0 as a group request (R145, R264). -/
def gooseGroup (m : Mod) (s : Nat) (c : GSubCfg) (l : List (GooseVal × Nat)) : Mod :=
  match c.sgrp, l.head? with
  | true, some (.int32 v, _) =>
    if (gsubSt m s).grp = some v then m
    else groupRequest (modGSub m s fun st => { st with grp := some v }) c.part v.toNat
  | _, _ => m

/-- An accepted frame of a subscription: repeat, retransmission or state change (R264). Of the earlier stNum values none is kept
that is the last one again, and the first frame of a Live partition delivers every member (DEDUCED, log 380). -/
def gooseAccept (m : Mod) (s : Nat) (c : GSubCfg) (g : GooseFrame) (vals : List MemberVal) (l : List (GooseVal × Nat)) : Mod :=
  let st := gsubSt m s
  let fresh := st.state != .valid || st.first
  let same := match st.last with
    | some (a, _) => a == g.stNum
    | none => false
  let again := match st.last with
    | some (a, b) => (a == g.stNum && tagLe g.sqNum b) || st.earlier.contains g.stNum
    | none => false
  let renew (m : Mod) : Mod := startTimer m .gooseTal s (msec g.tal)
  if again && !fresh then m
  else if same && !fresh then
    renew (modGSub m s fun st => { st with last := some (g.stNum, g.sqNum) })
  else
    let m := modGSub m s fun st => { st with
      state := .valid, last := some (g.stNum, g.sqNum), first := false
      earlier := ((match st.last with
        | some (a, _) => a :: st.earlier
        | none => st.earlier).filter (· ≠ g.stNum)).take 16
      test := vals.any fun v => qBit v.q qTest }
    gooseGroup (gooseTokens (renew m) s c vals st.first) s c l

/-- The simulation bit by the partition's Test value (R170, R258): none when the frame is discarded. The switch to a simulated
source is an event. -/
def gooseSim (m : Mod) (s : Nat) (c : GSubCfg) (sim : Bool) : Option Mod :=
  let st := gsubSt m s
  if tabGet m.mode.partTest c.part = .simulation then
    if sim then
      let m' := modGSub m s fun st => { st with simSrc := true }
      some (if st.simSrc then m' else stateEvent m' 8 13 0 1 s)
    else if st.simSrc then none else some m
  else if sim then none
  else some (modGSub m s fun st => { st with simSrc := false })

/-- A frame that names a subscription. -/
def gooseSubFrame (m : Mod) (s : Nat) (c : GSubCfg) (f : Frame) (g : GooseFrame) : Mod :=
  let l := gooseMembers g.vals
  let vals := c.routes.map (routedVal l)
  if !gooseDecodes f g || vals.any (·.isNone) then gooseBad m s
  else if c.auth && !secOk m c.key g.sec (Config.gooseSigned { g with sec := none }) then gooseBad m s
  else if g.confRev ≠ c.confRev then modGSub m s fun st => { st with state := .confMismatch }
  else match gooseSim m s c g.sim with
    | none => m
    | some m =>
      gooseAccept m s c g ((vals.filterMap id).map fun v => if g.sim then { v with q := qOr v.q qTest } else v) l

/-- A frame of the other side of the pair: kind and publication record, by its identity (R259, R276). -/
def peerPub (m : Mod) (f : Frame) (g : GooseFrame) : Option PubCfg :=
  ((allPubs m).find? fun x =>
    let id := pubId (!sideB m) x.2
    decide (x.2.kind ≤ 1) && id.appid == g.appid && id.dst == f.dst && id.gocbRef == g.gocbRef).map (·.2)

/-- A claim of the peer seen: a higher one of an Active makes this Active yield at its next cycle boundary (R301). -/
def seeClaim (m : Mod) (claim role : Nat) : Mod :=
  if m.mode.role = .active ∧ role = 1 ∧ claimNow m < claim then { m with out := { m.out with yielding := true } } else m

/-- The Palza members of a frame of the pair (R273, R301, R302). -/
def peerFrame (m : Mod) (c : PubCfg) (g : GooseFrame) : Mod :=
  let l := g.vals.reverse
  let two := match c.kind, l with
    | 0, .uint32 u :: .uint32 k :: _ => some (k, u)
    | 1, .uint32 _ :: .uint32 u :: .uint32 k :: _ => some (k, u)
    | _, _ => none
  match two with
  | none => m
  | some (claim, unit) =>
    let role := unit / 4096 % 4
    let m := { m with out := { m.out with busEpoch := max m.out.busEpoch (claim / 256), peerTko := unit.testBit 15 } }
    let m := if c.kind = 1 then
        let m := { m with out := { m.out with hbHeard := true } }
        if role = 1 then startTimer { m with out := { m.out with hbLost := false } } .hbWait 0 (usec (imageOf m 0).outHdr.hbWait)
        else m
      else m
    seeClaim m claim role

def isGoose : Payload → Bool
  | .goose _ => true
  | _ => false

/-- GOOSE_FRAME_RECEIVED: the outputs block takes the oldest GOOSE frame of a port's control buffer (R264). -/
def gooseReceived (m : Mod) (p : Nat) : Mod :=
  match takeControl m p isGoose with
  | none => m
  | some (it, m) =>
    match it.frame.payload with
    | .goose g =>
      let m := match peerPub m it.frame g with
        | some c =>
          if gooseDecodes it.frame g && (!c.auth || secOk m c.key g.sec (Config.gooseSigned { g with sec := none }))
          then peerFrame m c g else m
        | none => m
      (allGSubs m).foldl (fun m x =>
        if x.2.appid = g.appid ∧ x.2.dst = it.frame.dst ∧ x.2.gocbRef = g.gocbRef ∧ x.2.ports.testBit p ∧ isLive m x.2.part
        then gooseSubFrame m x.1 x.2 it.frame g else m) m
    | _ => m

/-- GOOSE_TAL_EXPIRY: timeAllowedtoLive runs out without a further frame: each routed member once with its last value,
validity 01 and bit 4 (R264). -/
def gooseTalExpiry (m : Mod) (s : Nat) : Mod :=
  expire m .gooseTal s fun m =>
    match (allGSubs m).lookup s with
    | none => m
    | some c =>
      let vals := (gsubSt m s).vals.map fun v => { v with q := BitVec.ofNat 16 (qGap + 1) }
      let m := gooseTokens m s c vals true
      setFault (modGSub m s fun st => { st with state := .expired }) Reg.OUT_FAULT 12 s

/-! ## Registers -/

/-- OUT_SUB_STAT of a subscription (R308). -/
def gsubStat (m : Mod) (s : Nat) : Nat :=
  match (allGSubs m).lookup s with
  | none => 7
  | some c =>
    let st := gsubSt m s
    let code := match st.state with
      | .unseen => 0
      | .valid => if st.simSrc then 5 else if st.test then 4 else 1
      | .expired => 2
      | .confMismatch => 3
    (match st.last with | some (a, _) => a % 65536 | none => 0) * 65536 + (if c.auth then 8 else 0) + code

end Sys2Proof.Machine
end

