-- ==== Sys2Proof/Machine/Basin.lean ====
section
/-!
DEFINITION. The Basin (R198 to R208, R211 to R213, R216 to R222): inputs, timestamps, members, output frames. The layout of
C37.118.2 frames and of its FORMAT, PHUNIT, ANUNIT, FNOM and time-quality fields is that of the standard (PRESUMED, log 46).
Set indices are not reduced; the tag of an index is its value modulo 2^32.
-/
namespace Sys2Proof.Machine

def inCfg (m : Mod) (n : Nat) : Option InCfg := (imageOf m 1).ins.lookup n
def outCfg (m : Mod) (o : Nat) : Option OutCfg := (imageOf m 1).outs.lookup o
def bsnIn (m : Mod) (n : Nat) : BsnIn := tabGet m.bsn.ins n
def modIn (m : Mod) (n : Nat) (f : BsnIn → BsnIn) : Mod := { m with bsn := { m.bsn with ins := tabMod m.bsn.ins n f } }
def bsnOut (m : Mod) (o : Nat) : BsnOut := tabGet m.bsn.outs o
def modOut (m : Mod) (o : Nat) (f : BsnOut → BsnOut) : Mod := { m with bsn := { m.bsn with outs := tabMod m.bsn.outs o f } }

/-- An event of a counted anomaly that BSN_CTRL enables (R226; the spec numbers no detail, log 24). -/
def bsnAnomaly (m : Mod) (bit n : Nat) : Mod :=
  if regBits m Reg.BSN_CTRL bit bit = 1 then raiseEvent m 6 0 (Config.axisCode (60 + bit) % 4096) (faultArg n []) else m

/-! ## Conversions (R200) -/

/-- magnitude `n / d` at a fixed-point angle, as rectangular words rounded once each. -/
def polarWords (n : Int) (d : Nat) (angle : Int) : Nat × Nat :=
  let sc := fxSinCos angle
  (word32 (fxNum (n * sc.2 / (d : Int)) 0), word32 (fxNum (n * sc.1 / (d : Int)) 0))

/-- A phasor of a frame in volts or amperes, rectangular. -/
def inPhasor (b : CfgBlock) (unit : Nat) (w : Nat × Nat) : Nat × Nat :=
  let polar := b.format.testBit 0
  let factor : Int := (unit % 2 ^ 24 : Nat)
  if b.format.testBit 1 then
    if polar then polarWords (fInt (ofWord w.1).v) fUnit (fxOf (ofWord w.2)) else (w.1 % 2 ^ 32, w.2 % 2 ^ 32)
  else if polar then polarWords ((w.1 % 65536 : Nat) * factor) 100000 (signedOf 16 w.2 * fxOne / 10000)
  else (word32 (numOfFrac (signedOf 16 w.1 * factor) 100000), word32 (numOfFrac (signedOf 16 w.2 * factor) 100000))

/-- Frequency in Hz, and ROCOF in Hz/s. -/
def inFreq (b : CfgBlock) (w : Nat) : Nat :=
  if b.format.testBit 3 then w % 2 ^ 32
  else word32 (numOfFrac ((if b.fnom % 2 = 1 then 50000 else 60000) + signedOf 16 w) 1000)
def inRocof (b : CfgBlock) (w : Nat) : Nat := if b.format.testBit 3 then w % 2 ^ 32 else word32 (numOfFrac (signedOf 16 w) 100)

/-- An analogue value. -/
def inAnalog (b : CfgBlock) (unit w : Nat) : Nat :=
  if b.format.testBit 2 then w % 2 ^ 32 else word32 (numOfInt (signedOf 16 w * signedOf 24 unit) 0)

/-- Bits of STAT that the Basin retains (R200). -/
def statKept (s : Nat) : Nat := s &&& 0x0DFF

/-- A block of a frame as stored. -/
def inBlock (b : CfgBlock) (p : PmuBlock) (stat : Nat) : BlockVal :=
  { q := statQual stat, stat := statKept stat, phasors := (b.phUnits.zip p.phasors).map fun x => inPhasor b x.1 x.2
    freq := inFreq b p.freq, rocof := inRocof b p.dfreq
    analogs := (b.anUnits.zip p.analogs).map fun x => inAnalog b x.1 x.2, digitals := p.digitals }

/-- A block without values (R212). -/
def zeroBlock (b : CfgBlock) (q : Nat) : BlockVal :=
  { q := BitVec.ofNat 16 q, phasors := b.phUnits.map fun _ => (0, 0), analogs := b.anUnits.map fun _ => 0
    digitals := List.replicate b.digitals 0 }

/-- Bytes of a block on the line by its FORMAT, and of a data frame. -/
def blockLen (b : CfgBlock) : Nat :=
  2 + b.phUnits.length * (if b.format.testBit 1 then 8 else 4) + (if b.format.testBit 3 then 8 else 4)
    + b.anUnits.length * (if b.format.testBit 2 then 4 else 2) + 2 * b.digitals
def dataLen (c : CfgBody) : Nat := 16 + (c.blocks.map blockLen).foldl (· + ·) 0

/-! ## UTC and timestamps (R203, R204, R217) -/

/-- Leap seconds the time base knows: the UTC second of the midnight, and the offsets before and after it. -/
def leaps (m : Mod) : List (Int × Int × Int) :=
  let off := utcOffset m
  let past := match m.clk.leapAt with
    | some l => [((l : Int) - off, off - (if m.clk.leapDir = 0 then 1 else -1), off)]
    | none => []
  let next := if pendingLeap m = 0 then [] else
    let new := off + (if pendingLeap m = 1 then 1 else -1)
    [((leapSecond m : Int) - new, off, new)]
  past ++ next

/-- TAI − UTC at a UTC second. -/
def offsetAtUtc (m : Mod) (s : Int) : Int :=
  (leaps m).foldl (fun off l => if l.1 ≤ s then l.2.2 else off) (match leaps m with
    | l :: _ => l.2.1
    | [] => utcOffset m)

/-- The UTC second of a TAI second; an inserted second bears the number of the following midnight (R204). -/
def utcOfTai (m : Mod) (t : Nat) : Int :=
  (t : Int) - (leaps m).foldl (fun (off : Int) l => if l.1 + l.2.2 ≤ (t : Int) then l.2.2 else off) (match leaps m with
    | l :: _ => l.2.1
    | [] => utcOffset m)

/-- The UTC second is the midnight of an inserted leap second: the offsets before and after it. -/
def ambiguous (m : Mod) (s : Int) : Option (Int × Int) :=
  ((leaps m).find? fun l => l.1 == s && decide (l.2.1 < l.2.2)).map (·.2)

/-- TAI second of a frame's SOC, its FRACSEC in units of 1 / `base` s, received at local time `t` (2^-48 ns): the second, and
whether a leap second was resolved. -/
def socToTai (m : Mod) (c : InCfg) (f : PmuFrame) (base : Nat) (t : Int) : Int × Bool :=
  let s : Int := f.soc
  match ambiguous m s, f.v905 with
  | some (b, a), false =>
    let dist (o : Int) : Nat := (((s + o) * base + f.fracsec) * (secs 1 : Nat) - t * base).natAbs
    let o := if c.noLeap then (if dist b ≤ dist a then b else a) else if f.tq.testBit 5 then a else b
    (s + o, true)
  | _, _ => (s + offsetAtUtc m s, false)

/-- Index at F_in of a time `s + frac / base` seconds; none more than 1 µs off the grid (R203). -/
def gridIndex (rate : Nat) (s : Int) (frac base : Nat) : Option Int :=
  let num : Int := (s * base + frac) * rate
  let n := (2 * num + base) / (2 * (base : Int))
  if (rate * base : Nat) < (num - n * base).natAbs * 1000000 then none else some n

/-! ## Sets (R205, R209, R211) -/

/-- T(k) and D(k) on the local clock, D(k) + SUPP. -/
def setTime (c : OutCfg) (k : Int) : Nat := instantOf (c.rate, 1) k.toNat
def setDue (c : OutCfg) (k : Int) : Nat := setTime c k + usec c.wait
def suppOf (c : OutCfg) : Nat := if c.lateSupp then c.supp else 0
def setEnd (c : OutCfg) (k : Int) : Nat := setDue c k + usec (suppOf c)

/-- Entries of an output's ring. -/
def ringLen (c : OutCfg) : Nat := ceilDiv ((c.wait + suppOf c) * c.rate) 1000000 + 2

/-- Tokens of set `k` of an output that have not been delivered. -/
def setPending (m : Mod) (o : Nat) (k : Int) : Bool :=
  let mine (x : XTok) : Bool := x.src == .sluice o && x.tok.tag == ixTag k
  m.td.held.any mine || (tabGet m.td.cross 4).any mine

/-- A set still holds its ring entry. -/
def entryHeld (m : Mod) (o : Nat) (c : OutCfg) (s : BsnSet) : Bool :=
  !s.decided || setPending m o s.ix || decide (localTime m.clk ≤ setEnd c s.ix)

/-- Entries that are free again leave the ring. -/
def pruneSets (m : Mod) (o : Nat) (c : OutCfg) : Mod :=
  modOut m o fun st => { st with sets := st.sets.filter (entryHeld m o c) }

/-- The set of an index, or a new one. -/
def setOf (st : BsnOut) (k : Int) : BsnSet := (st.sets.find? fun s => s.ix == k).getD { ix := k }

/-- A set changed, or added. -/
def putSet (st : BsnOut) (s : BsnSet) : BsnOut := { st with sets := (st.sets.filter fun x => x.ix ≠ s.ix) ++ [s] }

/-! ## Output frames (R217, R218) -/

/-- LEAP_PEND, LEAP_RECENT and LEAP_DIR of PTP_STAT. -/
def leapFlags (m : Mod) : Bool × Bool × Bool :=
  let s := ptpStat m
  (s.testBit 15, s.testBit 14, s.testBit 13)

/-- The time-quality code of the local clock (R217): the bounds of the standard run from 1 ns (1) tenfold to 10 s (11); an
unknown error has no code that covers it. -/
def tqCode (m : Mod) : Nat :=
  if clkLocked m.clk then 0
  else if m.clk.state = .freeRun then 15
  else match clkErr m with
    | some e => ((List.range 11).find? fun k => decide (e ≤ 10 ^ k)).elim 15 (· + 1)
    | none => 15

/-- The time-quality byte. -/
def tqByte (m : Mod) : Nat :=
  let l := leapFlags m
  tqCode m + (if l.1 then 16 else 0) + (if l.2.1 then 32 else 0) + (if l.2.2 then 64 else 0)

/-- STAT [8:6] from the estimated error, and [5:4] from the time since the local clock lost lock (R218). -/
def errCode (m : Mod) : Nat :=
  match clkErr m with
  | some e => if e < 100 then 1 else if e < 1000 then 2 else if e < 10000 then 3 else if e < 100000 then 4
      else if e < 1000000 then 5 else if e < 10000000 then 6 else 7
  | none => 7
def unlockCode (m : Mod) : Nat :=
  let s := unlockSeconds m
  if s < 10 then 0 else if s < 100 then 1 else if s < 1000 then 2 else 3

/-- Quality of an output block: bit 6 outside Locked (R316), the test bit by the Test value (R65). -/
def outQuality (m : Mod) (tv : TestVal) (q : Qual) : Qual :=
  let q := if clkLocked m.clk then q else qOr q qUnlocked
  if tv = .off then BitVec.ofNat 16 (q.toNat - (q.toNat &&& qTest)) else qOr q qTest

/-- STAT of an output block (R137, R218). -/
def outStat (m : Mod) (tv : TestVal) (chg : Bool) (x : Member) (b : BlockVal) : Nat :=
  let base := statBits [outQuality m tv b.q]
  let bit13 := base.testBit 13
  let c10 := if chg then 1024 else 0
  if x.absent then base + c10 + 0x1C0
  else if x.own then base + c10 + errCode m * 64 + (if bit13 then unlockCode m * 16 else 0)
  else base + ((b.stat &&& 0xC00) ||| c10) + (b.stat &&& 0x1C0) + (if bit13 then b.stat &&& 0x30 else 0) + b.stat % 16

/-- A phasor of an output frame: rectangular or polar float. -/
def outPhasor (c : OutCfg) (w : Nat × Nat) : Nat × Nat :=
  if c.rect then w
  else
    let z : Cpx := ⟨ofWord w.1, ofWord w.2⟩
    (word32 (cMag z), word32 (cArg z).1)

/-- A frame of a set with the members given, in member-list and block order. -/
def outFrame (m : Mod) (o : Nat) (c : OutCfg) (k : Int) (id : Nat) (ms : List Member) : PmuFrame :=
  let chg := (bsnOut m o).cfgChg
  let tv := testFor m (4 + o) (ixTag k)
  let sec := k.toNat / max 1 c.rate
  let blocks := (ms.map fun x => x.blocks.map fun b => (⟨outStat m tv chg x b, b.phasors.map (outPhasor c), b.freq, b.rocof,
    b.analogs, b.digitals⟩ : PmuBlock)).flatten
  { kind := .data, v905 := false, version := 2, idcode := id, soc := (utcOfTai m sec).toNat
    fracsec := divEven (k.toNat % max 1 c.rate * c.cfg.timeBase) (max 1 c.rate), tq := tqByte m, locked := clkLocked m.clk
    blocks := blocks, crcBad := false, malformed := false, sec := none, len := dataLen c.cfg }

/-- A frame sent to the output's destination. -/
def sendOut (m : Mod) (c : OutCfg) (port : Nat) (f : PmuFrame) : Mod :=
  sendUdp m c.ports c.queue c.dstIp (Config.udpSource port) port [] (.pmu f)

/-- A supplement frame of a set (R213): the set as released with its late members in place, carrying bit 5. -/
def sendSupplement (m : Mod) (o : Nat) (c : OutCfg) (s : BsnSet) : Mod :=
  let late (x : Member) : Member := { x with blocks := x.blocks.map fun b => { b with q := qOr b.q qLate } }
  let ms := (s.released.zip (List.range s.released.length)).map fun x => match tabGet s.late x.2 with
    | some y => late y
    | none => x.1
  if (bsnOut m o).txOff then m
  else bumpO (sendOut m c c.suppPort (outFrame m o c s.ix c.suppId ms)) Reg.BSN_OUT_CNT_SUPP o

/-! ## Storing a member (R207) -/

/-- What became of a frame for one output. -/
inductive StoreCase where
  | intime | dup | late | early | none
  deriving DecidableEq, Repr, Inhabited

/-- A frame's member for one output: index `k` of the output, member index `i` (R207 from "Early" on). -/
def storeOut (m : Mod) (o : Nat) (c : OutCfg) (i : Nat) (k : Int) (x : Member) : Mod × StoreCase :=
  let m := pruneSets m o c
  let st := bsnOut m o
  let now := localTime m.clk
  if now + 2 * secs 1 / max 1 c.rate < setTime c k then (m, .early)
  else if st.next.isNone || decide (k < st.first) then (m, .late)
  else
    let s := setOf st k
    match tabGet s.stored i, tabGet s.late i with
    | some y, _ | none, some y =>
      (if y.blocks = x.blocks then m else setFault m Reg.BSN_FAULT 3 o, .dup)
    | none, none =>
      let decided := match st.next with
        | some n => decide (k < n)
        | none => false
      if decided then
        if c.lateSupp && decide (now < setEnd c k) && s.decided then
          let s := { s with late := tabSet s.late i (some x) }
          (sendSupplement (modOut m o fun st => putSet st s) o c s, .late)
        else (bumpO m Reg.BSN_OUT_CNT_STALE o, .late)
      else if st.sets.any fun y => decide (y.ix < k) && (k - y.ix) % (ringLen c : Nat) == 0 then
        (setFault (bumpO m Reg.BSN_OUT_CNT_OVR o) Reg.BSN_FAULT 5 o, .none)
      else (modOut m o fun st => putSet st { s with stored := tabSet s.stored i (some x) }, .intime)

/-- The outputs that an input feeds, with the member index. -/
def outsOf (m : Mod) (n : Nat) : List (Nat × OutCfg × Nat) :=
  (imageOf m 1).outs.filterMap fun o => (o.2.members.idxOf? n).map fun i => (o.1, o.2, i)

/-- A member stored for every output whose grid holds its index at F_in; the counters count once for the frame. -/
def storeMember (m : Mod) (n : Nat) (c : InCfg) (ix : Int) (x : Member) : Mod :=
  let (m, cases) := (outsOf m n).foldl (fun (r : Mod × List StoreCase) (o : Nat × OutCfg × Nat) =>
    let d : Int := (c.rate / max 1 o.2.1.rate : Nat)
    if d = 0 ∨ ix % d ≠ 0 then r
    else
      let (m, k) := storeOut r.1 o.1 o.2.1 o.2.2 (ix / d) x
      (m, k :: r.2)) (m, [])
  let m := if cases.contains .intime then bumpO m Reg.BSN_IN_CNT_RX n else m
  let m := if cases.contains .dup then bsnAnomaly (bumpO m Reg.BSN_IN_CNT_DUP n) 0 n else m
  let m := if cases.contains .late then bsnAnomaly (bumpO m Reg.BSN_IN_CNT_LATE n) 2 n else m
  if cases.contains .early then bsnAnomaly (bumpO m Reg.BSN_IN_CNT_EARLY n) 1 n else m

/-! ## Frames (R201, R202, R207, R208) -/

/-- A block has the shape of its stored CFG-2. -/
def blockFits (b : CfgBlock) (p : PmuBlock) : Bool :=
  p.phasors.length == b.phUnits.length && p.analogs.length == b.anUnits.length && p.digitals.length == b.digitals

/-- A data frame is well-formed by R201 or R202. -/
def pmuFits (c : InCfg) (f : PmuFrame) : Bool :=
  !f.malformed && !f.crcBad && f.v905 == (c.transport == 2) && (f.v905 || f.version == 1 || f.version == 2)
    && f.blocks.length == c.cfg.blocks.length && (c.cfg.blocks.zip f.blocks).all (fun x => blockFits x.1 x.2)
    && (f.v905 || f.len == dataLen c.cfg)

/-- STAT of a block; smpSynch stands for bit 13 of a 90-5 frame (R202). -/
def frameStat (f : PmuFrame) (p : PmuBlock) : Nat :=
  if f.v905 then p.stat - (p.stat &&& 0x2000) + (if f.locked then 0 else 0x2000) else p.stat

def pmuBad (m : Mod) (n bit : Nat) : Mod := setFault (bumpO m Reg.BSN_IN_CNT_BAD n) Reg.BSN_FAULT bit n

/-- A data frame of an input, received at local time `t` on `port` (R207 up to the case "Unlocked", then each output). An
accepted frame is one that none of the cases malformed, mismatch and off-grid discards (log 47). -/
def pmuData (m : Mod) (n : Nat) (c : InCfg) (port : Nat) (t : Int) (f : PmuFrame) : Mod :=
  if (bsnIn m n).mis then bumpO m Reg.BSN_IN_CNT_BAD n
  else
    let base := if f.v905 then 1000000000 else max 1 c.cfg.timeBase
    let (sec, resolved) := socToTai m c f base t
    match gridIndex c.rate sec f.fracsec base with
    | none => bumpO m Reg.BSN_IN_CNT_BAD n
    | some ix =>
      let m := if resolved ∧ (bsnIn m n).leapSoc ≠ some f.soc then
          setFault (modIn m n fun st => { st with leapSoc := some f.soc }) Reg.BSN_FAULT 7 n else m
      let stats := f.blocks.map (frameStat f)
      let unlocked := stats.any (·.testBit 13)
      let now := m.clk.elapsed
      let m := modIn m n fun st => { st with
        state := if unlocked then .unlocked else .locked, lastSoc := f.soc, port := port
        cfgChg := stats.any (·.testBit 10), leapAt := if f.tq.testBit 4 || f.tq.testBit 5 then some now else st.leapAt }
      let m := startTimer m .inputLost n (secs 1)
      if (bsnIn m n).blocked then m
      else if c.unlockDrop && stats.any fun s => s.testBit 13 && decide (c.unlockMax < bitsOf s 5 4) then
        bumpO m Reg.BSN_IN_CNT_UNLOCK n
      else
        -- a 90-5 dataset is rectangular and binary32 whatever FORMAT says (R202)
        let blocks := ((c.cfg.blocks.zip f.blocks).zip stats).map fun x =>
          inBlock (if f.v905 then { x.1.1 with format := 14 } else x.1.1) x.1.2 x.2
        storeMember m n c ix { blocks := blocks }

/-- What Keeper sends on the connection of a TCP input: a command word (R201). -/
def tcpAsk (m : Mod) (n cmd : Nat) : Mod := emit m (.c37 true n cmd [])

/-- A received CFG-2 compared with the stored one (R207); a TCP input that asked for it is turned on (R201). -/
def pmuCfg (m : Mod) (n : Nat) (c : InCfg) (f : PmuFrame) (body : Bytes) : Mod :=
  if f.malformed || f.crcBad || !(f.version == 1 || f.version == 2) then pmuBad m n 0
  else if body ≠ c.cfg.raw then
    setFault (bumpO (modIn m n fun st => { st with state := .mismatch, mis := true, wantCfg := false }) Reg.BSN_IN_CNT_BAD n)
      Reg.BSN_FAULT 1 n
  else
    let m := if (bsnIn m n).wantCfg then tcpAsk (modIn m n fun st => { st with wantCfg := false }) n 2 else m
    modIn m n fun st => { st with mis := false, state := if st.state = .mismatch then .unseen else st.state }

/-- A frame of an input. -/
def pmuFrame (m : Mod) (n : Nat) (c : InCfg) (port : Nat) (t : Int) (f : PmuFrame) : Mod :=
  match f.kind with
  | .ignored => m
  | .cfg2 b => pmuCfg m n c f b
  | .data =>
    if c.transport = 2 && !secOk m c.key f.sec (Config.pmuSigned f) then pmuBad m n 2
    else if !pmuFits c f then pmuBad m n 0
    else pmuData m n c port t f

def isPmu : Payload → Bool
  | .udp _ _ _ _ (.pmu _) => true
  | _ => false

/-- The UDP input that a datagram belongs to (R198, R223). -/
def inputOf (m : Mod) (port src dst dport : Nat) (f : PmuFrame) : Option (Nat × InCfg) :=
  (imageOf m 1).ins.find? fun x =>
    let c := x.2
    c.transport == (if f.v905 then 2 else 0) && c.ports.testBit port && c.udpPort == dport && c.dstIp == dst
      && (c.srcIp == 0 || c.srcIp == src) && (f.v905 || c.idcode == f.idcode)

/-- PMU_FRAME_RECEIVED: the PMU frame parser takes the oldest phasor frame of a port's parser buffer (R207). -/
def pmuReceived (m : Mod) (port : Nat) : Mod :=
  let p := netPort m port
  if p.held then m
  else match takeItem p.parser isPmu with
    | none => m
    | some (x, rest) =>
      let m := modPort m port fun q => { q with parser := rest }
      match x.frame.payload with
      | .udp src dst _ dport (.pmu f) =>
        match inputOf m port src dst dport f with
        | some (n, c) => if isLive m 1 then pmuFrame m n c port (x.ts * (2 ^ 32 : Nat)) f else m
        | none => m
      | _ => m

/-- Keeper takes the segments of a TCP input from the control buffers of its ports (R342). -/
def takeSegments (m : Mod) (c : InCfg) : Mod :=
  let mine (it : RxItem) : Bool := match it.frame.payload with
    | .tcp src _ _ _ _ => src == c.srcIp
    | _ => false
  (maskPorts c.ports).foldl (fun m p => modPort m p fun st => { st with control := st.control.filter fun it => !mine it }) m

/-- PMU_TCP_FRAME: Keeper writes a frame of a connected TCP input through the parser interface (R207). -/
def pmuTcpFrame (m : Mod) (n : Nat) (f : PmuFrame) : Mod :=
  match inCfg m n with
  | some c =>
    if c.transport = 1 ∧ (bsnIn m n).tcp ∧ isLive m 1 then
      let port := ((List.range 8).find? fun p => c.ports.testBit p).getD 8
      pmuFrame (takeSegments m c) n c port (localTime m.clk : Int) f
    else m
  | none => m

/-- The state of an input whose connection is there again: a mismatch holds; without an accepted frame for 1 s it is lost,
which it entered while the state read "TCP not connected" (R207, R208; DEDUCED, log 375). -/
def reconnected (m : Mod) (n : Nat) (st : BsnIn) : BsnInState :=
  if st.state ≠ .tcpDown then st.state else if st.mis then .mismatch else if timerOn m .inputLost n then .unseen else .lost

/-- PMU_TCP_RECONNECT: 5 s after the last attempt Keeper connects again; connected, it asks for CFG-2 (R201). -/
def pmuTcpReconnect (m : Mod) (n : Nat) (ok : Bool) : Mod :=
  expire m .tcpReconnect n fun m =>
    if ok then
      tcpAsk (modIn m n fun st => { st with tcp := true, wantCfg := true, state := reconnected m n st }) n 5
    else startTimer m .tcpReconnect n (secs 5)

/-- PMU_TCP_DOWN: the connection of a TCP input drops (R208). -/
def pmuTcpDown (m : Mod) (n : Nat) : Mod :=
  if (bsnIn m n).tcp then
    let m := modIn m n fun st => { st with tcp := false, wantCfg := false, state := .tcpDown }
    startTimer (setFault m Reg.BSN_FAULT 10 n) .tcpReconnect n (secs 5)
  else m

/-- PMU_INPUT_LOST: no accepted frame of an input for 1 s (R208). A latched mismatch goes on discarding its frames. -/
def pmuInputLost (m : Mod) (n : Nat) : Mod :=
  expire m .inputLost n fun m =>
    setFault (modIn m n fun st => { st with state := if st.state = .tcpDown then .tcpDown else .lost }) Reg.BSN_FAULT 4 n

/-! ## Own PMU (R221) -/

/-- PMU_PUB at retire: one block of an own-PMU input, at tags whose instant is on the input's grid. -/
def actPmu (m : Mod) (t : Template) (k : Task) : Mod :=
  let n := (paramsFor m t k.tag).getD 0 0
  match inCfg m n with
  | none => m
  | some c =>
    let r := domainRate m t.domain
    let i := tagIndex m t.domain k.tag
    if !isLive m 1 || c.transport ≠ 3 || i * c.rate % max 1 r.1 ≠ 0 then m
    else
      let ms := taskMembers m t k
      let phs := ms.filterMap fun v => match v.val with
        | .cpx a b => some (a.toNat, b.toNat)
        | _ => none
      let fs := ms.filterMap fun v => match v.val with
        | .flt a => some a.toNat
        | _ => none
      let q := combine (ms.map (·.q))
      let b : BlockVal := { q := q, phasors := phs, freq := fs.getD 0 0, rocof := fs.getD 1 0 }
      let m := modIn m n fun st => { st with
        state := if qBit q qUnlocked then .unlocked else .locked, lastSoc := (utcOfTai m (i / max 1 r.1)).toNat }
      let m := startTimer m .inputLost n (secs 1)
      if (bsnIn m n).blocked then m
      else storeMember m n c (i * c.rate / max 1 r.1 : Nat) { blocks := [b], own := true }

/-! ## Commands and registers -/

/-- A gap record of an output: first tag and count (R216, R454). -/
def outGap (m : Mod) (o first count : Nat) : Mod :=
  raiseEvent m 6 2 2 (leBytes 2 o ++ leBytes 2 0 ++ leBytes 8 first ++ leBytes 8 count)

def isC37Cmd : Payload → Bool
  | .udp _ _ _ _ (.c37cmd ..) => true
  | _ => false

/-- What Keeper answers a request with: the image's STATION for a header, else the configuration (R219). -/
def c37Answer (m : Mod) (obj cmd : Nat) (cfg : Bytes) : Mod :=
  emit m (.c37 false obj cmd (if cmd = 3 then (imageOf m 1).station else cfg))

/-- Name field of a CFG-2: 16 characters, padded with spaces. -/
def nameField (s : Bytes) : Bytes := (s ++ List.replicate 16 0x20).take 16

/-- A block of the alarm stream in a CFG-2 (R248): WAD_ALM0 or WAD_ALM1, ALM_IDCODE, float FREQ, sixteen digital words, whose
names and units the spec leaves open (log 377), F0, change count 0. -/
def alarmCfgBlock (w : WadCfg) (i : Nat) : Bytes :=
  let be (n v : Nat) : Bytes := (leBytes n v).reverse
  nameField ([0x57, 0x41, 0x44, 0x5F, 0x41, 0x4C, 0x4D, 0x30 + BitVec.ofNat 8 i]) ++ be 2 w.almId ++ be 2 8 ++ be 2 0 ++ be 2 0
    ++ be 2 16 ++ (Config.alarmChannels i).take 4096 ++ (Config.alarmUnits i).take 64 ++ be 2 (if w.f0 = 50 then 1 else 0) ++ be 2 0

/-- The CFG-2 body of the alarm stream (R248), one frame a second. -/
def alarmCfg2 (w : WadCfg) : Bytes :=
  let be (n v : Nat) : Bytes := (leBytes n v).reverse
  be 4 Config.alarmTimeBase ++ be 2 2 ++ alarmCfgBlock w 0 ++ alarmCfgBlock w 1 ++ be 2 1

/-- A command to an output's data stream (R201, R215). -/
def outCommand (m : Mod) (o cmd : Nat) : Mod :=
  match cmd with
  | 1 => if (bsnOut m o).txOff then m else setFault (modOut m o fun st => { st with txOff := true, gap := none }) Reg.BSN_FAULT 8 o
  | 2 =>
    let g := (bsnOut m o).gap
    let m := modOut m o fun st => { st with txOff := false, gap := none }
    match g with
    | some (first, count) => outGap m o first count
    | none => m
  | 3 | 4 | 5 => c37Answer m o cmd (match outCfg m o with | some c => c.cfg.raw | none => [])
  | _ => { m with bsn := { m.bsn with cmdOther := m.bsn.cmdOther + 1 } }

/-- A command to the alarm stream (R248), numbered 64 in what leaves. -/
def alarmCommand (m : Mod) (cmd : Nat) : Mod :=
  match cmd with
  | 1 => { m with bsn := { m.bsn with almOff := true } }
  | 2 => { m with bsn := { m.bsn with almOff := false } }
  | 3 | 4 | 5 => c37Answer m 64 cmd (alarmCfg2 (imageOf m 1).wad)
  | _ => { m with bsn := { m.bsn with cmdOther := m.bsn.cmdOther + 1 } }

/-- C37_COMMAND_FRAME: Keeper takes the oldest command frame of a port's control buffer (R201, R219). -/
def c37Command (m : Mod) (p : Nat) : Mod :=
  match takeControl m p isC37Cmd with
  | none => m
  | some (it, m) =>
    match it.frame.payload with
    | .udp _ _ _ dport (.c37cmd id cmd bad) =>
      if bad then m
      else
        let m := ((imageOf m 1).outs.filter fun o => o.2.cmdPort ≠ 0 ∧ o.2.cmdPort = dport ∧ o.2.idcode = id).foldl
          (fun m o => outCommand m o.1 cmd) m
        let w := (imageOf m 1).wad
        if w.almCmd ≠ 0 ∧ w.almCmd = dport ∧ w.almId = id then alarmCommand m cmd else m
    | _ => m

/-- CONFIG_CHANGE_FLAG_EXPIRY (R218). -/
def cfgChangeExpiry (m : Mod) (o : Nat) : Mod := expire m .cfgChange o fun m => modOut m o fun st => { st with cfgChg := false }

/-- BSN_IN_BLOCK: blocks or unblocks an input (R226). -/
def bsnInBlock (m : Mod) (v : Word) (be : BitVec 4) : Mod :=
  guardedWrite m Reg.BSN_IN_BLOCK be fun m =>
    let n := v.toNat % 8192
    let m := setReg m Reg.BSN_IN_BLOCK (v &&& 0x80001FFF)
    if (inCfg m n).isNone then setFault m Reg.BSN_FAULT 9 n
    else modIn m n fun st => { st with blocked := v.getLsbD 31 }

/-- BSN_IN_STAT of an input (R226). -/
def bsnInStat (m : Mod) (n : Nat) : Nat :=
  match inCfg m n with
  | none => 0x000F0007
  | some c =>
    let st := bsnIn m n
    let code := match st.state with
      | .unseen => 0 | .locked => 1 | .unlocked => 2 | .mismatch => 3 | .lost => 4 | .tcpDown => 6
    let code := if st.blocked then 5 else code
    let leap := match st.leapAt with
      | some t => decide (m.clk.elapsed < t + secs 86400)
      | none => false
    st.port * 65536 + (if st.cfgChg then 128 else 0) + (if leap then 64 else 0) + c.transport * 16 + code

/-- BSN_OUT_STAT of an output. -/
def bsnOutStat (m : Mod) (o : Nat) : Nat :=
  match outCfg m o with
  | none => 0
  | some c =>
    c.rate * 65536 + (if (bsnOut m o).txOff then 16 else 0) + (if m.td.held.any (·.src == .sluice o) then 8 else 0)
      + (if c.lateSupp then 4 else 0) + (if isLive m 1 then 2 else 1)

/-- Slots of an output's ring: N × the sum of SLOTS over its members (R211). -/
def outSlots (img : PartImage) (c : OutCfg) : Nat :=
  ringLen c * (c.members.map fun n => match img.ins.lookup n with | some i => i.slots | none => 0).foldl (· + ·) 0

/-- Slots that the outputs of an image demand (R31, R211). -/
def ringSlots (img : PartImage) : Nat := (img.outs.map fun o => outSlots img o.2).foldl (· + ·) 0
def bsnSlots (m : Mod) : Nat := ringSlots (imageOf m 1)

/-- BSN_CFG. -/
def bsnCfgWord (m : Mod) : Nat :=
  let i := imageOf m 1
  i.ins.length + i.outs.length * 65536 + (i.ins.filter fun x => x.2.transport == 1).length * 2 ^ 23

end Sys2Proof.Machine
end

