-- ==== Sys2Proof/Machine/Wad.lean ====
section
/-!
DEFINITION. Wide-area detection (R227 to R257): areas, island criteria, alarms and their publication, federation messages.
-/
namespace Sys2Proof.Machine

def wadCfg (m : Mod) : WadCfg := (imageOf m 1).wad
def alarmCfg (m : Mod) (a : Nat) : Option AlarmCfg := (wadCfg m).alarms.lookup a
def alarmSt (m : Mod) (a : Nat) : AlarmSt := tabGet m.wad.alarms a
def modAlarm (m : Mod) (a : Nat) (f : AlarmSt → AlarmSt) : Mod := { m with wad := { m.wad with alarms := tabMod m.wad.alarms a f } }

/-- Raised or latched. -/
def AlarmSt.raised (s : AlarmSt) : Bool := s.on || s.latched

/-! ## Alarm words (R246) -/

/-- Bits and quality of word n. -/
def alarmWord (m : Mod) (n : Nat) : Nat × Qual :=
  let l := (List.range 32).map fun b => (b, alarmSt m (32 * n + b), (alarmCfg m (32 * n + b)).isSome)
  (l.foldl (fun a x => a + if x.2.2 && x.2.1.raised then 2 ^ x.1 else 0) 0,
    combine (l.map fun x => if x.2.2 then x.2.1.q else 0))

def alarmWords (m : Mod) : List (Nat × Qual) := (List.range 16).map (alarmWord m)

/-! ## Federation messages (R250 to R253) -/

/-- Bytes +0x00 to +0x27 of a message. -/
def fedBody (id origin hops flags alarm sev trig seq timeS timeNs q : Nat) : Bytes :=
  leBytes 4 0x46414C4D ++ leBytes 4 id ++ leBytes 2 origin ++ leBytes 1 hops ++ leBytes 1 flags ++ leBytes 2 alarm
    ++ leBytes 1 sev ++ leBytes 1 trig ++ leBytes 8 seq ++ leBytes 8 timeS ++ leBytes 4 timeNs ++ leBytes 2 q ++ leBytes 2 0

/-- A message sent under FED_KEY, or not for want of the key (R467). -/
def fedSend (m : Mod) (body : Bytes) : Mod :=
  let w := wadCfg m
  if canSign m w.fedKey then
    let b := body ++ (hmac256 (keySlot m w.fedKey).cur body).take 16
    bump (sendUdp m w.fedPorts w.fedQueue w.fedIp (Config.udpSource w.fedUdp) w.fedUdp [] (.raw b)) Reg.WAD_FED_CNT_TX
  else dropUnsigned m w.fedPorts

/-- The next SEQ of an alarm's series (R253): one more than the retained one; a series that none is retained of starts above
every SEQ sent before, by the operating seconds at the start. -/
def fedSeq (m : Mod) (a : Nat) : Nat :=
  match (alarmSt m a).seqTx with
  | some s => (s + 1) % 2 ^ 64
  | none => m.wad.startSecs % 2 ^ 32 * 2 ^ 32

/-- The message of an alarm change, with its two repeats (R251). -/
def fedChange (m : Mod) (a : Nat) (c : AlarmCfg) (time : Nat) : Mod :=
  let w := wadCfg m
  let s := alarmSt m a
  let seq := fedSeq m a
  let flags := (if s.raised then 1 else 0) + (if s.latched then 2 else 0)
  let body := fedBody w.fedId w.member w.hops flags a c.sev c.trig seq (time / secs 1) (time % secs 1 / nsUnit) s.q.toNat
  let m := modAlarm m a fun s => { s with seqTx := some seq, repeats := 2, msg := body }
  startTimer (fedSend m body) .fedRepeat a (msec 10)

/-- FEDERATION_REPEAT: 10 ms and 100 ms after the change the same message goes out again (R251). -/
def fedRepeat (m : Mod) (a : Nat) : Mod :=
  expire m .fedRepeat a fun m =>
    let s := alarmSt m a
    if s.repeats = 0 then m
    else
      let m := fedSend (modAlarm m a fun s => { s with repeats := s.repeats - 1 }) s.msg
      if s.repeats = 2 then startTimer m .fedRepeat a (msec 90) else m

/-! ## The alarm stream (R248) -/

/-- Block `b` of an alarm frame: STAT and its sixteen digital words. -/
def alarmBlock (m : Mod) (b : Nat) : PmuBlock :=
  let nums := (List.range 256).map fun i => 256 * b + i
  let up := nums.filter fun a => (alarmCfg m a).isSome && (alarmSt m a).raised
  let qs := nums.map fun a => if (alarmCfg m a).isSome then (alarmSt m a).q else 0
  let trig := match up.head? with
    | some a => match alarmCfg m a with | some c => c.trig | none => 0
    | none => 0
  { stat := statBits qs % 2 ^ 14 + (if up.isEmpty then 0 else 2048) + trig, phasors := [], freq := 0, dfreq := 0, analogs := []
    digitals := ((List.range 8).map fun i =>
      let w := (alarmWord m (8 * b + i)).1
      [w % 65536, w / 65536]).flatten }

/-- A frame of the alarm stream with a timestamp (2^-48 ns). -/
def alarmFrame (m : Mod) (time : Nat) : Mod :=
  let w := wadCfg m
  if regBits m Reg.WAD_CTRL 2 2 = 0 || m.bsn.almOff || (partOf m 1).image.isNone then m
  else
    let f : PmuFrame :=
      { kind := .data, v905 := false, version := 2, idcode := w.almId, soc := (utcOfTai m (time / secs 1)).toNat
        fracsec := divEven (time % secs 1 * Config.alarmTimeBase) (secs 1), tq := tqByte m, locked := clkLocked m.clk
        blocks := [alarmBlock m 0, alarmBlock m 1], crcBad := false, malformed := false, sec := none, len := 100 }
    sendUdp m w.almPorts w.almQueue w.almIp (Config.udpSource w.almDport) w.almDport [] (.pmu f)

/-- ALARM_STREAM_SECOND: the frame of the next whole second of TAI (R248). -/
def alarmSecond (m : Mod) : Mod :=
  let m := toPps m
  alarmFrame m (m.clk.sec * secs 1)

/-! ## Publication of changes (R245 to R249) -/

/-- Alarm changes published: `before` are the alarm words before them, `changed` the alarms that changed. -/
def publishAlarms (m : Mod) (before : List (Nat × Qual)) (changed : List Nat) (time : Nat) : Mod :=
  let after := alarmWords m
  let w := wadCfg m
  -- alarm-word tokens; effective tags are assigned at the match stage
  let m := w.words.foldl (fun m r =>
    if before.getD r.1 (0, 0) = after.getD r.1 (0, 0) then m
    else
      let x := after.getD r.1 (0, 0)
      pushCross m 5 ⟨⟨r.2.1, r.2.2, 0, 0, .int (BitVec.ofNat 32 x.1), x.2⟩, none, .async⟩) m
  let m := if before = after ∨ w.almPub = 0xFFFF then m else
    match pubCfg m w.almPub with
    | none => m
    | some c =>
      let put (vs : Cells (Option MemberVal)) (x : (Nat × Qual) × Nat) : Cells (Option MemberVal) :=
        tabSet vs x.2 (some ⟨.int (BitVec.ofNat 32 x.1.1), x.1.2⟩)
      let m := modPub m w.almPub fun s => { s with vals := (after.zip (List.range 16)).foldl put s.vals }
      handOver m w.almPub c 1 (latestTag m 1)
  if changed.isEmpty then m
  else
    let m := alarmFrame m time
    changed.foldl (fun m a => match alarmCfg m a with
      | some c => if c.fed ∧ regBits m Reg.WAD_CTRL 0 0 = 1 then fedChange m a c time else m
      | none => m) m

/-- What an evaluation does to an alarm's source state. -/
inductive AlarmMove where
  | hold | raise | clear
  deriving DecidableEq, Repr, Inhabited

/-- The class-4 event of a change: 1 raise, 2 clear, 3 validity, 4 acknowledge (R454). -/
def alarmEvent (m : Mod) (org : Origin) (a : Nat) (c : AlarmCfg) (code op1 : Nat) : Mod :=
  originEvent m org 4 a (leBytes 1 code ++ leBytes 1 c.src ++ leBytes 1 c.sev ++ leBytes 1 c.trig ++ leBytes 4 op1)

/-- The origin of an event that the WAD block itself raises. -/
def wadOrigin : Origin := { src := 7 }

/-- The partition of an alarm's source: that of its ALARM template, concentration for a criterion
(R244). A template may name the alarm in any of its settings groups. -/
def alarmPart (m : Mod) (a : Nat) (c : AlarmCfg) : Option Nat :=
  match c.src with
  | 0 => [0, 1, 2, 3].find? fun p => (imageOf m p).templates.any fun t =>
      t.2.prim == 68 && t.2.groups.any fun g => g.getD 0 0 == a
  | 1 => some 1
  | _ => none

/-- One evaluation of an alarm (R241 to R243): the new state, and whether the alarm changed. -/
def evalAlarm (m : Mod) (org : Origin) (a : Nat) (c : AlarmCfg) (mv : AlarmMove) (q : Qual) (op1 : Nat) : Mod × Bool :=
  let s := alarmSt m a
  let s' : AlarmSt := match mv with
    | .hold => s
    | .raise => { s with on := true, latched := false }
    | .clear => { s with on := false, latched := s.latched || (s.on && c.latch) }
  let up := s'.raised && !s.raised
  let down := s.raised && !s'.raised
  let val := validity q != validity s.q
  let s' := { s' with q := q, acked := s'.acked && !down, home := (alarmPart m a c).map fun p => (p, c), tag := if up || down || val then org.tag else s'.tag }
  let m := modAlarm m a fun _ => s'
  let m := if up then setFault (bumpO m Reg.WAD_ALM_CNT a) Reg.WAD_FAULT 0 a else m
  let m := if val && validity q == 1 then setFault m Reg.WAD_FAULT 3 a else m
  let changed := up || down || val
  (if changed then alarmEvent m org a c (if up then 1 else if down then 2 else 3) op1 else m, changed)

/-- One alarm evaluated and its change published. -/
def oneAlarm (m : Mod) (org : Origin) (a : Nat) (mv : AlarmMove) (q : Qual) (op1 time : Nat) : Mod :=
  match alarmCfg m a with
  | none => m
  | some c =>
    let before := alarmWords m
    let (m, ch) := evalAlarm m org a c mv q op1
    publishAlarms m before (if ch then [a] else []) time

/-! ## Areas (R236) -/

/-- An island signal as read: usable for f, usable for θ, quest, w, V, f. -/
structure SigVal where
  useF : Bool
  useT : Bool
  quest : Bool
  w : Num
  v : Cpx
  f : Num

/-- A stored word as operand; one that is NaN or infinite is read as +0.0 and makes the result invalid (R129). -/
def storedNum (w : Nat) : Num := if fNotFinite (BitVec.ofNat 32 w) then numInvalid else ofWord w

def readSignal (tv : TestVal) (ms : List Member) (g : IslSignal) : SigVal :=
  let b := ((ms.getD g.member default).blocks.getD g.block default)
  let q := testRead tv b.q
  let p := b.phasors.getD g.phasor (0, 0)
  let v : Cpx := ⟨storedNum p.1, storedNum p.2⟩
  let useF := validity q != 1 && !qBit q qGap
  { useF := useF, useT := useF && !qBit q qUnlocked && cMag2 v != 0
    quest := useF && (validity q == 3 || qBit q qDerived), w := ofWord g.weight, v := v, f := storedNum b.freq }

def sumNum (l : List Num) : Num := l.foldl nAdd (num 0)

/-- The aggregates of an area, and whether it is coherent. An invalid result of their arithmetic (R129) makes it invalid. -/
def evalArea (tv : TestVal) (c : AreaCfg) (ms : List Member) : AreaSt × Bool :=
  let l := c.signals.map (readSignal tv ms)
  let fs := l.filter (·.useF)
  let ts := l.filter (·.useT)
  let wf := sumNum (fs.map (·.w))
  let fa := nDiv (sumNum (fs.map fun x => nMul x.w x.f)) wf
  let u := ts.foldl (fun (u : Cpx) x =>
    let mag := cMag x.v
    cAdd u ⟨nDiv (nMul x.w x.v.re) mag, nDiv (nMul x.w x.v.im) mag⟩) ⟨num 0, num 0⟩
  let bad := fa.inv || u.re.inv || u.im.inv
  let coherent := fs.all (fun x => nLe (nAbs (nSub x.f fa)) (ofWord c.coh))
    && nLe (nMul nHalf (sumNum (ts.map (·.w)))) (cMag u)
  ({ valid := decide (c.amin ≤ fs.length) && decide (c.amin ≤ ts.length) && coherent && !bad, quest := l.any (·.quest)
     th := word32 (cArg u).1, f := word32 fa }, coherent)

/-- An area's evaluation stored, with its faults and events. -/
def noteArea (m : Mod) (a : Nat) (c : AreaCfg) (ms : List Member) : Mod :=
  let (s, coh) := evalArea (tabGet m.mode.partTest 1) c ms
  let old := tabGet m.wad.areas a
  let m := { m with wad := { m.wad with areas := tabSet m.wad.areas a s } }
  let m := if coh then m else setFault m Reg.WAD_FAULT 2 a
  let m := if old.valid && !s.valid then setFault m Reg.WAD_FAULT 1 a else m
  if old.valid ≠ s.valid ∧ regBits m Reg.WAD_CTRL 3 3 = 1 then
    stateEvent m 7 7 (if old.valid then 1 else 0) (if s.valid then 1 else 0) a else m

/-! ## Criteria (R237) -/

/-- An angle difference reduced to (−π, π] (R131). -/
def wrapNum (x : Num) : Num := angleWord ((fxNum (fxReduce (fxOf x)) 0).with [x])

/-- NB = ⌈TBASE × F_out⌉. -/
def critNb (c : CritCfg) (rate : Nat) : Nat := ceilDiv (fMag (ofWord c.tbase).v * rate) fUnit

/-- One update of a criterion: its new state and what it does to its alarm. -/
def stepCrit (c : CritCfg) (rate : Nat) (s : CritSt) (a b : AreaSt) : CritSt × AlarmMove :=
  let s := { s with aValid := a.valid, bValid := b.valid }
  if !(a.valid && b.valid) then ({ s with run := 0, rj := 0 }, .hold)
  else
    let nB := critNb c rate
    let lam := nExp (nNeg (nDiv n1 (nMul (ofWord c.tbase) (numNat rate))))
    let dth := wrapNum (nSub (ofWord a.th) (ofWord b.th))
    let df := nSub (ofWord a.f) (ofWord b.f)
    let base := ofWord s.base
    let adth := nAbs dth
    let big := nLe (ofWord c.angAbs) adth
    let moved := nLe (ofWord c.dangOn) (nAbs (wrapNum (nSub dth base)))
    let sep := (nLe (ofWord c.dfOn) (nAbs df) && decide (nB ≤ s.nb) && moved) || big
    let s := { s with dth := word32 dth, df := word32 df }
    if !s.separated then
      let run := if sep then s.run + 1 else 0
      if c.confirm ≤ run then ({ s with separated := true, run := 0, rj := 0 }, .raise)
      else if run = 0 then
        let b' := if s.nb = 0 then dth else wrapNum (nAdd base (nMul (nSub n1 lam) (wrapNum (nSub dth base))))
        ({ s with run := 0, base := word32 b', nb := min (s.nb + 1) nB }, .hold)
      else ({ s with run := run }, .hold)
    else
      let rj := if nLt (nAbs df) (ofWord c.dfOff) && nLt adth (ofWord c.angAbs) then s.rj + 1 else 0
      if c.rejoin ≤ rj then ({ s with separated := false, base := word32 dth, nb := 1, rj := 0 }, .clear)
      else ({ s with rj := rj }, .hold)

/-- The evaluation of the areas and criteria of an output at a release decision (R236, R237, R242): `ms` are the members as
released, `k` the set index. -/
def wadEvaluate (m : Mod) (o : Nat) (oc : OutCfg) (k : Int) (ms : List Member) : Mod :=
  let w := wadCfg m
  let areas := w.areas.filter fun x => x.2.out == o
  let m := areas.foldl (fun m x => noteArea m x.1 x.2 ms) m
  let before := alarmWords m
  let org : Origin := { src := 7, time := some (setTime oc k), test := tabGet m.mode.partTest 1 != .off, tag := ixTag k }
  let crits := w.crits.filter fun c => areas.any (·.1 == c.2.areaA)
  let (m, changed) := crits.foldl (fun (r : Mod × List Nat) c =>
    let m := r.1
    let a := tabGet m.wad.areas c.2.areaA
    let b := tabGet m.wad.areas c.2.areaB
    let (s, mv) := stepCrit c.2 oc.rate (tabGet m.wad.crits c.1) a b
    let m := { m with wad := { m.wad with crits := tabSet m.wad.crits c.1 s } }
    let q : Nat := if !(a.valid && b.valid) then 1 else if a.quest || b.quest then 3 else 0
    match alarmCfg m c.2.alm with
    | none => (m, r.2)
    | some ac =>
      let (m, ch) := evalAlarm m org c.2.alm ac mv (BitVec.ofNat 16 q) 0
      (m, if ch then r.2 ++ [c.2.alm] else r.2)) (m, [])
  publishAlarms m before changed (setTime oc k)

/-! ## ALARM at retire (R232, R241, R242) -/

/-- ALARM at retire: a rise or a fall of its condition, or an evaluation of validity 01. -/
def actAlarm (m : Mod) (t : Template) (k : Task) : Mod :=
  let a := (paramsFor m t k.tag).getD 0 0
  let ms := taskMembers m t k
  let q := combine [(ms.headD ⟨.int 0, 1⟩).q]
  let edge := match k.log with | some s => s.a.getD 1 0 | none => 0
  let mv : AlarmMove := if validity q = 1 then .hold else if edge = 1 then .raise else if edge = 2 then .clear else .hold
  let op1 := match ms[1]? with | some v => (valWords v.val).1 | none => 0
  oneAlarm m (taskOrigin m t k) a mv q op1 (tagInstant m t.domain k.tag)

/-! ## Acknowledgement (R243) -/

/-- WAD_ALM_ACK. -/
def wadAlmAck (m : Mod) (v : Word) (be : BitVec 4) : Mod :=
  hostWrite m Reg.WAD_ALM_ACK be fun m =>
    let a := v.toNat % 512
    let s := alarmSt m a
    match alarmCfg m a with
    | none => setFault m Reg.WAD_FAULT 5 a
    | some c =>
      if s.on then modAlarm m a fun s => { s with acked := true }
      else if s.latched then
        let before := alarmWords m
        let m := modAlarm m a fun s => { s with latched := false, acked := false }
        publishAlarms (alarmEvent m wadOrigin a c 4 0) before [a] (localTime m.clk)
      else setFault m Reg.WAD_FAULT 5 a

/-! ## Federation receipt (R252, R253) -/

def isRawTo (port : Nat) : Payload → Bool
  | .udp _ _ _ d (.raw _) => d == port
  | _ => false

/-- `b` follows `a` in the serial order of R37 applied to 64 bits. -/
def seqAfter (a b : Nat) : Bool :=
  let d := (b + 2 ^ 64 - a % 2 ^ 64) % 2 ^ 64
  decide (1 ≤ d) && decide (d ≤ 2 ^ 63 - 1)

/-- A federation message's bytes checked and taken. -/
def fedTake (m : Mod) (b : Bytes) : Mod :=
  let w := wadCfg m
  let fld (o n : Nat) : Nat := leNat ((b.drop o).take n)
  let drop (m : Mod) : Mod := bump m Reg.WAD_FED_CNT_DROP
  let origin := fld 8 2
  let alarm := fld 12 2
  let key := keySlot m w.fedKey
  let mac (k : Bytes) : Bool := k ≠ [] && (hmac256 k (b.take 40)).take 16 == b.drop 40
  if b.length ≠ 56 ∨ fld 0 4 ≠ 0x46414C4D ∨ fld 4 4 ≠ w.fedId then drop m
  else if origin = w.member then drop m
  else if !(slotLive key && (mac key.cur || mac key.prev)) then setFault (drop m) Reg.WAD_FAULT 4
  else
    match w.alarms.find? fun x => x.2.src == 2 && x.2.origin == origin && x.2.remote == alarm with
    | none => drop m
    | some (a, _) =>
      let seq := fld 16 8
      let idx := origin * 512 + alarm
      let old := match tabGet m.wad.seqRx idx with
        | some s => !seqAfter s seq
        | none => false
      if old then drop m
      else
        let m := bump { m with wad := { m.wad with seqRx := tabSet m.wad.seqRx idx (some seq) } } Reg.WAD_FED_CNT_RX
        let time := fld 24 8 * secs 1 + fld 32 4 * nsUnit
        let m := oneAlarm m wadOrigin a (if (fld 11 1).testBit 0 then .raise else .clear) (BitVec.ofNat 16 (fld 36 2)) 0 time
        let hops := fld 10 1
        if regBits m Reg.WAD_CTRL 1 1 = 1 ∧ 1 ≤ hops then
          fedSend m (b.take 10 ++ leBytes 1 (hops - 1) ++ (b.take 40).drop 11) else m

/-- FEDERATION_MESSAGE_RECEIVED: the WAD block takes the oldest federation message of a port's control buffer (R252). -/
def fedReceived (m : Mod) (p : Nat) : Mod :=
  let w := wadCfg m
  if !w.fedPorts.testBit p then m
  else match takeControl m p (isRawTo w.fedUdp) with
    | none => m
    | some (it, m) =>
      match it.frame.payload with
      | .udp _ _ _ _ (.raw b) => fedTake m b
      | _ => m

/-! ## Load, start and halt of a partition (R244) -/

/-- The alarms whose source lies in a partition. -/
def partAlarms (m : Mod) (p : Nat) : List (Nat × AlarmCfg) := (wadCfg m).alarms.filter fun x => alarmPart m x.1 x.2 == some p

/-- The alarms that a load of a partition clears: those of its sources, and those evaluated under the image before. -/
def clearedAlarms (m : Mod) (p : Nat) : List (Nat × AlarmCfg) :=
  let now := partAlarms m p
  now ++ (m.wad.alarms.filterMap fun x => match x.2.home with
    | some (h, c) => if h = p ∧ !now.any (·.1 == x.1) then some (x.1, c) else none
    | none => none)

/-- One alarm cleared at a load, with its event where it was raised or its validity changes; the changed alarms follow in `r.2`. -/
def clearAlarm (r : Mod × List Nat) (x : Nat × AlarmCfg) : Mod × List Nat :=
  let s := alarmSt r.1 x.1
  let m := modAlarm r.1 x.1 fun s => { s with on := false, latched := false, acked := false, q := 0, home := none }
  if s.raised then (alarmEvent m wadOrigin x.1 x.2 2 0, r.2 ++ [x.1])
  else if validity s.q ≠ 0 then (alarmEvent m wadOrigin x.1 x.2 3 0, r.2 ++ [x.1])
  else (m, r.2)

/-- A partition goes Live after a load: its alarms clear, with one event for each that was raised, or whose validity changes
(R244, R245); its criteria start Coupled. -/
def wadReload (m : Mod) (p : Nat) : Mod :=
  let before := alarmWords m
  let (m, ch) := (clearedAlarms m p).foldl clearAlarm (m, [])
  let m := if p = 1 then { m with wad := { m.wad with crits := [], areas := [] } } else m
  publishAlarms m before ch (localTime m.clk)

/-- PARTITION_START keeps alarms and criteria, but for run and rj. -/
def wadStart (m : Mod) (p : Nat) : Mod :=
  if p = 1 then
    { m with wad := { m.wad with crits := (wadCfg m).crits.foldl (fun l c => tabMod l c.1 fun s => { s with run := 0, rj := 0 }) m.wad.crits } }
  else m

/-- A Halted partition's alarms keep their state with validity 01. -/
def wadHalt (m : Mod) (p : Nat) : Mod :=
  let before := alarmWords m
  let (m, ch) := (partAlarms m p).foldl (fun (r : Mod × List Nat) x =>
    let (m, c) := evalAlarm r.1 { wadOrigin with tag := (alarmSt r.1 x.1).tag } x.1 x.2 .hold 1 0
    (m, if c then r.2 ++ [x.1] else r.2)) (m, [])
  publishAlarms m before ch (localTime m.clk)

/-! ## Registers (R257) -/

def wadCfgWord (m : Mod) : Nat :=
  let w := wadCfg m
  w.areas.length + w.crits.length * 256 + w.alarms.length * 65536 + w.groups.length * 2 ^ 26

def wadAlmStat (m : Mod) (a : Nat) : Nat :=
  match alarmCfg m a with
  | none => 0
  | some c =>
    let s := alarmSt m a
    (if s.raised then 1 else 0) + validity s.q * 16 + (if s.acked then 64 else 0) + (if s.latched then 128 else 0)
      + c.sev * 1024 + c.trig * 4096 + c.src * 65536

/-- The segment of a group's template. -/
def grpSeg (m : Mod) (t : Nat) : Seg := match template m t with | some x => segOf m x | none => {}

def grpOf (m : Mod) (g : Nat) : WadGroup := ((wadCfg m).groups.lookup g).getD {}

/-- Frequency and damping words of tracked mode `i`. -/
def grpMode (m : Mod) (g i : Nat) : List Nat := ((grpSeg m (grpOf m g).track).h.getD i []).drop 2

def wadGrpStat (m : Mod) (g : Nat) : Nat :=
  let s := grpSeg m (grpOf m g).track
  s.a.getD 0 0 % 65536 + 65536 * (List.range 16).foldl (fun a i => a + if (grpMode m g i).getD 0 0 ≠ 0 then 2 ^ i else 0) 0

def wadGrpInfo (m : Mod) (g : Nat) : Nat :=
  let c := grpOf m g
  let s := grpSeg m c.fit
  (if c.mflow ≠ 0xFFFF then 1 else 0) + (if c.pflow ≠ 0xFFFF then 2 else 0) + s.a.getD 0 0 * 65536 + s.a.getD 1 0 * 2 ^ 24

def wadGrpPeak (m : Mod) (g : Nat) : Nat := match (grpSeg m (grpOf m g).peak).prev with
  | some v => (valWords v).1
  | none => 0

/-- Tag of the latest update firing, as the segment of the group's MODAL_FIT, or else of its PGRAM_PEAK, keeps it. -/
def wadGrpUpd (m : Mod) (g : Nat) : Nat :=
  let c := grpOf m g
  if c.fit = 0xFFFF then (grpSeg m c.peak).a.getD 0 0 - 1 else (grpSeg m c.fit).a.getD 2 0 - 1

def wadIslStat (m : Mod) (i : Nat) : Nat :=
  match (wadCfg m).crits.lookup i with
  | none => 0
  | some c =>
    let s := tabGet m.wad.crits i
    let rate := match (wadCfg m).areas.lookup c.areaA with
      | some a => match outCfg m a.out with | some o => o.rate | none => 1
      | none => 1
    (if !isLive m 1 then 3 else if s.separated then 2 else 1) + (if critNb c rate ≤ s.nb then 8 else 0)
      + (if s.aValid then 16 else 0) + (if s.bValid then 32 else 0) + s.run * 256 + s.rj * 65536

end Sys2Proof.Machine
end

