-- ==== Sys2Proof/Machine/Sluice.lean ====
section
/-!
DEFINITION. The Sluice (R209 to R216, R220): release of the sets of an output.
-/
namespace Sys2Proof.Machine

/-- Member `i` (input `n`) of a set as released (R212): the member, its run of missing sets, and the module with the missing
one counted. -/
def releaseMember (m : Mod) (o : Nat) (c : OutCfg) (s : BsnSet) (i n : Nat) : Mod × Member × Nat :=
  let blocks := match inCfg m n with | some x => x.cfg.blocks | none => []
  let own := match inCfg m n with | some x => x.transport == 3 | none => false
  if (bsnIn m n).blocked then (m, { blocks := blocks.map fun b => zeroBlock b 1, own := own, absent := true }, 0)
  else match tabGet s.stored i with
    | some x => (m, x, 0)
    | none =>
      let st := bsnOut m o
      let run := st.runs.getD i 0 + 1
      let m := bsnAnomaly (bumpO m Reg.BSN_IN_CNT_MISS n) 3 n
      let held : List BlockVal := match st.prev[i]? with
        | some p => p.blocks
        | none => blocks.map fun b => zeroBlock b 0
      let bs := if c.missHold && decide (run ≤ c.holdMax)
        then held.map fun b => { b with q := BitVec.ofNat 16 (3 + qGap), stat := 0 }
        else blocks.map fun b => zeroBlock b (1 + qGap)
      (m, { blocks := bs, own := own, absent := true }, run)

/-- The tokens of a released set, in member order and then routing order (R220). -/
def releaseTokens (m : Mod) (o : Nat) (c : OutCfg) (k : Int) (ms : List Member) : Mod :=
  let one (m : Mod) (i : Nat) (r : BsnRoute) : Mod :=
    let b := (ms.getD i default).blocks.getD r.block default
    let v : Val := match r.kind with
      | 0 =>
        let p := b.phasors.getD r.index (0, 0)
        .cpx (BitVec.ofNat 32 p.1) (BitVec.ofNat 32 p.2)
      | 1 => .flt (BitVec.ofNat 32 b.freq)
      | 2 => .flt (BitVec.ofNat 32 b.rocof)
      | 3 => .flt (BitVec.ofNat 32 (b.analogs.getD r.index 0))
      | _ => .int (BitVec.ofNat 32 (b.digitals.getD r.index 0))
    pushCross m 4 ⟨⟨r.target, r.op, ixTag k, c.members.getD i 0, v, b.q⟩, none, .sluice o⟩
  (List.range c.members.length).foldl (fun m i => (c.routes.filter (·.member == i)).foldl (fun m r => one m i r) m) m

/-- The release of set `k`: members frozen, areas evaluated, tokens queued, the frame sent (R210, R214, R217, R236). -/
def releaseSet (m : Mod) (o : Nat) (c : OutCfg) (k : Int) (complete : Bool) : Mod :=
  let s := setOf (bsnOut m o) k
  let (m, ms, runs) := (c.members.zip (List.range c.members.length)).foldl (fun (r : Mod × List Member × List Nat) x =>
    let (m, y, n) := releaseMember r.1 o c s x.2 x.1
    (m, r.2.1 ++ [y], r.2.2 ++ [n])) (m, [], [])
  let held := c.lateSupp || (s.stored.any fun x => x.2.isSome)
  let m := modOut m o fun st =>
    let st := { st with next := some (k + 1), prev := ms, runs := runs, lastTag := ixTag k }
    if held then putSet st { s with decided := true, released := ms } else st
  let m := noteTag m (4 + o) (ixTag k)
  let m := bumpO m Reg.BSN_OUT_CNT_REL o
  let m := bumpO m (if complete then Reg.BSN_OUT_CNT_COMPL else Reg.BSN_OUT_CNT_DEADL) o
  let m := wadEvaluate m o c k ms
  let m := releaseTokens m o c k ms
  if !c.publish then m
  else if (bsnOut m o).txOff then
    modOut m o fun st => { st with gap := match st.gap with
      | some (f, n) => some (f, n + 1)
      | none => some (ixTag k, 1) }
  else sendOut m c c.dstPort (outFrame m o c k c.idcode ms)

/-- Every member of an output that is not blocked is stored in the set, and one is. -/
def setComplete (m : Mod) (c : OutCfg) (s : BsnSet) : Bool :=
  let l := c.members.zip (List.range c.members.length)
  l.all (fun x => (bsnIn m x.1).blocked || (tabGet s.stored x.2).isSome) && l.any fun x => (tabGet s.stored x.2).isSome

/-- SLUICE_RELEASE: the next set of an output is released: at once when it is complete, else at its deadline, up to which
time passes (R210, R215). -/
def sluiceRelease (h : Hooks) (m : Mod) (o : Nat) : Mod :=
  match outCfg m o, (bsnOut m o).next with
  | some c, some k =>
    if !isLive m 1 || (partOf m 1).stopped then m
    else
      let m := pruneSets m o c
      let complete := setComplete m c (setOf (bsnOut m o) k)
      let m := if complete then m else advanceLocal m (setDue c k)
      h.cyc (releaseSet m o c k complete) 1 (ixTag k)
  | _, _ => m

/-- SLUICE_RELEASE_RESUME: the token at which an output's release is held enters its slot once it is free (R107, R214). -/
def sluiceResume (m : Mod) (o : Nat) : Mod :=
  match m.td.held.find? (·.src == .sluice o) with
  | some x => heldEntry m x.tok.tmpl x.tok.op
  | none => m

/-- The outputs start with the first set whose T(k) is at or after now, when the partition goes Live (R208, R210). -/
def bsnGoLive (m : Mod) : Mod :=
  let m := (imageOf m 1).outs.foldl (fun m o =>
    let k : Int := (ceilDiv (localTime m.clk * o.2.rate) (secs 1) : Nat)
    modOut m o.1 fun st => { st with first := k, next := some k, sets := [], prev := [], runs := [] }) m
  (imageOf m 1).ins.foldl (fun m i =>
    let m := startTimer m .inputLost i.1 (secs 1)
    if i.2.transport = 1 ∧ !(bsnIn m i.1).tcp then startTimer m .tcpReconnect i.1 0 else m) m

/-- A halted concentration partition releases no further set; each output's gap record names the first tag not released and
how many deadlines have passed since (R59 step 4, R215, R216). -/
def bsnHalt (m : Mod) : Mod :=
  (imageOf m 1).outs.foldl (fun m o =>
    match (bsnOut m o.1).next with
    | some k =>
      let last : Int := (indexAt (o.2.rate, 1) (localTime m.clk - usec o.2.wait) : Nat)
      outGap (modOut m o.1 fun st => { st with next := none, sets := [] }) o.1 (ixTag k) (last - k + 1).toNat
    | none => m) m

end Sys2Proof.Machine
end

