-- ==== Sys2Proof/Machine/Pair.lean ====
section
/-!
DEFINITION. The redundant pair and the Referee (R268 to R306): cycle close, claims, the Towpath, copies, takeover, revert.
-/
namespace Sys2Proof.Machine

def outHdr (m : Mod) : OutHdr := (imageOf m 0).outHdr
def modO (m : Mod) (f : Out → Out) : Mod := { m with out := f m.out }

/-- The protection partition's cycle on the elapsed-time count. -/
def cycleTime (m : Mod) : Nat := ceilDiv (secs 1) (max 1 (masterRate m 0))

/-- The tag that the unit closes next, and the latest one it closed. -/
def lastClosed (m : Mod) : Nat := m.out.lastTag.getD 0

/-! ## Claims and roles (R271 to R273, R301) -/

/-- The role axis changes, with its event. -/
def setRole (m : Mod) (r : Role) : Mod :=
  if m.mode.role = r then m
  else stateEvent { m with mode := { m.mode with role := r } } 8 2 (roleCode m.mode.role) (roleCode r) 0

/-- R272. -/
def claimsNow (m : Mod) : Bool :=
  m.mode.role == .active || (m.mode.role == .standalone && isLive m 0 && unitTest m != .testBlocked)

/-- The epoch is raised when a unit starts to claim; EPOCH_MAX sets when it reaches 0xFF_FFFF or would pass it (R273, R308). -/
def raiseEpoch (m : Mod) : Mod :=
  let peer := match m.out.peer with | some p => p.epoch | none => 0
  let new := max (max (epochOf m) peer) (max m.out.busEpoch m.out.refEpoch) + 1
  if new < 0xFFFFFF then setReg m Reg.OUT_EPOCH (BitVec.ofNat 32 new)
  else setFault (setReg m Reg.OUT_EPOCH 0xFFFFFF) Reg.OUT_FAULT 8

/-- The unit starts or stops claiming as R272 states. -/
def settleClaim (m : Mod) : Mod :=
  if claimsNow m = m.out.claiming then m
  else if claimsNow m then modO (raiseEpoch m) fun o => { o with claiming := true }
  else modO m fun o => { o with claiming := false }

/-- A unit enters the Standby role, Unsynchronised, its claim 0; its heartbeat watch of the other begins (R302). -/
def becomeStandby (m : Mod) : Mod :=
  let m := setRole m .standby
  let m := { m with mode := { m.mode with syncSt := 0, copyTag := none } }
  let m := modO m fun o => { o with claiming := false, yielding := false, tko := none, hbLost := false, copies := [], open_ := [] }
  let m := modO m fun o => { o with sweepEnd := false, sweeping := false, sweepLeft := [], revOut := none, lost := [] }
  startTimer m .hbWait 0 (usec (outHdr m).hbWait)

/-- The timers of a Standby end. -/
def dropStandby (m : Mod) : Mod :=
  let m := stopTimer (stopTimer (stopTimer m .hbWait 0) .takeoverRetry 0) .peerWait 0
  let m := stopTimer m .revertHold 0
  { m with timers := m.timers.filter fun t => t.kind != .copyBound && t.kind != .verdictWait }

/-- A unit becomes Active. It starts to claim at its next cycle boundary (R273), at a takeover (R297) and at a revert (R304) at
once. -/
def becomeActive (m : Mod) : Mod :=
  let m := setRole (dropStandby m) .active
  let m := { m with mode := { m.mode with syncSt := 0, copyTag := none } }
  let m := modO m fun o => { o with deciding := false, hbLost := false, copies := [], lost := [], open_ := [], sweepEnd := false }
  modO m fun o => { o with reqs := [], yielding := false, revReq := none, revSince := none }

/-! ## The Towpath and Referee messages (R281, R288 to R290) -/

/-- A frame sent on the Towpath while a lane is in lock. -/
def towSend (m : Mod) (f : TowFrame) : Mod := if m.out.lanes = 0 then m else emit m (.tow f)

def helloOf (m : Mod) : HelloData :=
  let u := m.out.unit
  { imageId := (imageOf m 0).imageId, unitId := u / 65536, side := bitsOf u 15 15, rank := u % 256, pref := u.testBit 14
    role := m.mode.role, epoch := epochOf m, sync := syncCode m, fit := isFit m }

/-- A message to the Referee or the units (R288), or none for want of the key (R467). -/
def refSend (m : Mod) (type : Nat) (body : Bytes) : Mod :=
  let h := outHdr m
  if h.refPorts = 0 then m
  else if canSign m h.refKey then
    let seq := (m.out.seq + 1) % 2 ^ 64
    let m := modO m fun o => { o with seq := seq }
    let b := leBytes 4 0x52505A4C ++ leBytes 2 h.pairId ++ leBytes 2 (m.out.unit / 65536) ++ leBytes 1 type ++ leBytes 1 0
      ++ leBytes 2 body.length ++ leBytes 4 0 ++ leBytes 8 seq ++ body
    let mac := (hmac256 (keySlot m h.refKey).cur b).take 16
    sendUdp m h.refPorts 7 h.refIp (Config.udpSource h.refUdp) h.refUdp [] (.raw (b ++ mac))
  else dropUnsigned m h.refPorts

/-- A Referee message of a type, addressed to REF_IP:REF_UDP. -/
def isRefMsg (ip port type : Nat) : Payload → Bool
  | .udp _ dst _ d (.raw b) => dst == ip && d == port && (b.getD 8 0).toNat == type
  | _ => false

/-- Body length of a message type (R290). -/
def refLen (type : Nat) : Nat :=
  match type with
  | 1 | 0x82 | 0x83 => 16
  | 2 => 60
  | _ => 12

/-- The oldest Referee message of a type in a port's control buffer, checked (R288): sender, SEQ and body, none when it is
discarded or there is none. -/
def refTake (m : Mod) (p type : Nat) : Option (Nat × Nat × Bytes) × Mod :=
  let h := outHdr m
  if !h.refPorts.testBit p then (none, m)
  else match takeControl m p (isRefMsg h.refIp h.refUdp type) with
    | none => (none, m)
    | some (it, m) =>
      match it.frame.payload with
      | .udp _ _ _ _ (.raw b) =>
        let fld (o n : Nat) : Nat := leNat ((b.drop o).take n)
        let len := fld 10 2
        let unit := fld 6 2
        let seq := fld 16 8
        let key := keySlot m h.refKey
        let mac (k : Bytes) : Bool := k ≠ [] && (hmac256 k (b.take (24 + len))).take 16 == b.drop (24 + len)
        let next : Bool := match tabGet m.out.seqs unit with
          | some s => seqAfter s seq
          | none => true
        if len = refLen type ∧ b.length = 40 + len ∧ fld 0 4 = 0x52505A4C ∧ fld 4 2 = h.pairId ∧ slotLive key
            ∧ (mac key.cur || mac key.prev) ∧ next then
          (some (unit, seq, (b.drop 24).take len), modO m fun o => { o with seqs := tabSet o.seqs unit (some seq) })
        else (none, m)
      | _ => (none, m)

def bodyNat (b : Bytes) (o n : Nat) : Nat := leNat ((b.drop o).take n)

/-- TAKEOVER_REQ sent, its SEQ noted (R289, R290). -/
def askTakeover (m : Mod) (reason : Nat) : Mod :=
  let body := leBytes 4 m.out.copied ++ leBytes 4 (epochOf m) ++ leBytes 1 (Config.takeoverReason reason) ++ leBytes 3 0
  let m := refSend m 3 body
  modO m fun o => { o with reqs := (o.seq :: o.reqs).take 4096 }

/-! ## Revert (R303, R304) -/

/-- The conditions of R303. -/
def revertReady (m : Mod) : Bool :=
  m.mode.role == .standby && m.mode.syncSt == 2 && isFit m && m.out.unit.testBit 14 && m.out.tko.isNone && !m.out.peerTko
    && (match m.out.peer with
      | some p => m.out.towUp && p.role == .active && !p.pref
      | none => false)
    && regBits m Reg.OUT_CTRL 0 0 == 1 && (reg m Reg.OUT_REVERT).toNat != 0

/-- The hold runs from the instant at which the conditions began to hold, by the HOLD in force, and ends with them. -/
def watchRevert (m : Mod) : Mod :=
  if !revertReady m then stopTimer (modO m fun o => { o with revSince := none }) .revertHold 0
  else if m.out.revReq.isSome then m
  else
    let since := m.out.revSince.getD m.clk.elapsed
    setTimerAt (modO m fun o => { o with revSince := some since }) .revertHold 0
      (max m.clk.elapsed (since + secs (min 3600 (regBits m Reg.OUT_REVERT 11 0))))

/-- A revert in progress ends on this unit, which keeps its role, and the hold starts again (R304). -/
def endRevert (m : Mod) : Mod :=
  if m.out.revReq.isSome || m.out.revOut.isSome then
    let m := modO m fun o => { o with revReq := none, revOut := none, revSince := none }
    watchRevert (stopTimer (setFault m Reg.OUT_FAULT 11) .revertHold 0)
  else m

/-- A revert in progress is abandoned (R304). DESIGN CHOICE (log 372): the other unit hears of it by REVERT_NAK, so that both
keep their roles. -/
def abandonRevert (m : Mod) : Mod :=
  match m.out.revReq, m.out.revOut with
  | some (tr, _), _ | none, some tr => endRevert (towSend m (.revertNak tr))
  | none, none => m

/-! ## Takeover (R296, R297) -/

/-- What a takeover loses of copies received and not applied: an event for each Palette, group and slip (R190, R297). -/
def noteLost (m : Mod) (r : CopyRec) : Mod :=
  match r with
  | .palette g _ _ => setFault m Reg.FLT_FAULT 1 g
  | .group d tag g => raiseEvent m 8 3 (Config.axisCode 50 % 4096) (leBytes 4 tag ++ leBytes 4 g ++ leBytes 4 d)
  | .slip s tag _ => raiseEvent m 8 3 (Config.axisCode 51 % 4096) (leBytes 4 tag ++ leBytes 4 0 ++ leBytes 4 s)
  | _ => m

/-- What becomes of a copy that is not applied when its unit takes over: the Palette switches of a complete one are applied
(R190), the other changes are lost. -/
def leaveCopy (m : Mod) (c : CopyIn) : Mod :=
  c.recs.foldl (fun m r => match r with
    | .palette g tag pal => if c.ended then beginSwitch m g pal tag else noteLost m r
    | _ => noteLost m r) m

/-- A Standby takes over (R297, R298). -/
def takeover (m : Mod) : Mod :=
  if m.mode.role ≠ .standby ∨ !isLive m 0 then m
  else
    let m := abandonRevert m
    let left := m.out.lost ++ m.out.copies
    let m := bump (setFault (settleClaim (becomeActive m)) Reg.OUT_FAULT 0) Reg.OUT_CNT_TKO
    let first := closingTag m
    let m := modO m fun o => { o with tko := some (first, tagAdd first ((outHdr m).tkoCycles - 1 : Nat)) }
    republish (left.foldl leaveCopy m) true first

/-- What a Standby without the Towpath does when its heartbeat watch or the Referee changes (R296, R302). -/
def isolatedStep (m : Mod) : Mod :=
  if m.mode.role ≠ .standby || m.out.towUp || m.out.deciding || !m.out.hbLost then m
  else if m.out.refPresent then askTakeover m 1
  else takeover m

/-- The Active leaves its role at once: FAULT sent, claim 0 (R70, R296). `reason` is the model's index of the reason. -/
def leaveActive (m : Mod) (reason : Nat) : Mod :=
  if m.mode.role ≠ .active then m
  else
    let m := towSend (abandonRevert m) (.fault (Config.faultReason reason) (lastClosed m))
    let m := becomeStandby m
    republish m false (closingTag m)

/-! ## Start of a role (R279) -/

/-- The role decision while it is open. -/
def decideRole (m : Mod) : Mod :=
  if !m.out.deciding || !isLive m 0 || m.mode.role ≠ .standby then m
  else if m.out.towUp then
    match m.out.peer with
    | none => m
    | some p =>
      let u := helloOf m
      let done (m : Mod) : Mod := stopTimer (stopTimer (modO m fun o => { o with deciding := false }) .takeoverRetry 0) .peerWait 0
      if p.rank = u.rank ∨ p.side = u.side ∨ p.unitId = u.unitId then
        if bitsOf (reg m Reg.OUT_FAULT).toNat 10 10 = 1 then m else setFault m Reg.OUT_FAULT 10
      else match p.role with
        | .active => done m
        | .standby =>
          let win := if u.pref = p.pref then decide (p.rank < u.rank) else u.pref
          if win then becomeActive m else done m
        | _ => m
  else if m.out.refPresent then
    if timerOn m .takeoverRetry 0 then m else startTimer (askTakeover m 2) .takeoverRetry 0 (msec 1)
  else if timerOn m .peerWait 0 then m
  else startTimer m .peerWait 0 (secs 1)

/-- TAKEOVER_REQ_RETRY: at a start the request goes out again every 1 ms until it is answered. -/
def takeoverRetry (m : Mod) : Mod :=
  expire m .takeoverRetry 0 fun m =>
    if m.out.deciding && !m.out.towUp && m.out.refPresent then startTimer (askTakeover m 2) .takeoverRetry 0 (msec 1) else m

/-- START_PEER_WAIT_EXPIRY: 1 s after protection went Live. -/
def peerWaitExpiry (m : Mod) : Mod :=
  expire m .peerWait 0 fun m =>
    if !m.out.deciding || m.mode.role ≠ .standby || !isLive m 0 then m
    else if m.out.hbHeard then
      { modO m fun o => { o with deciding := false } with mode := { m.mode with syncSt := 3 } }
    else becomeActive m

/-! ## Copies (R283 to R286) -/

/-- A segment from its words (the inverse of its committed form). -/
def wordsSeg (w : List Nat) : Seg :=
  match w with
  | p :: ty :: lo :: hi :: n :: k :: rest =>
    let hs : Nat → List Nat → List (List Nat) := fun c l =>
      ((List.range c).foldl (fun (r : List (List Nat) × List Nat) _ => match r.2 with
        | len :: t => (r.1 ++ [t.take len], t.drop len)
        | [] => r) (([] : List (List Nat)), l)).1
    let tail := rest.drop k
    { prev := if p = 1 then some (valOf ty lo hi) else none, n := n, a := rest.take k, h := hs (tail.headD 0) (tail.drop 1) }
  | _ => {}

/-- A copy or sweep record applied on the Standby (R283 to R285). -/
def applyRec (m : Mod) (r : CopyRec) : Mod :=
  match r with
  | .segment f t ws => modTd m fun d => { d with flows := tabMod d.flows f fun x => { x with segs := tabSet x.segs t (wordsSeg ws) } }
  | .delay l t op e v live =>
    let same (x : DelayEntry) : Bool := x.target == t && x.op == op
    let old := m.td.delays.find? same
    let m := modTd m fun d => { d with delays := d.delays.filter fun x => !same x }
    if live then
      let dom := match template m t with | some x => x.domain | none => 0
      let due := match old with
        | some x => if x.etag = e then x.due else m.clk.elapsed + (tagInstant m dom e - localTime m.clk)
        | none => m.clk.elapsed + (tagInstant m dom e - localTime m.clk)
      let x : DelayEntry :=
        { list := l, target := t, op := op, tag := v.getD 4 0, etag := e, val := valOf (v.getD 0 0) (v.getD 1 0) (v.getD 2 0)
          q := BitVec.ofNat 16 (v.getD 3 0), cancel := v.getD 5 0 == 1, due := due, order := m.td.insSeq }
      settleHolds (modTd m fun d => { d with delays := d.delays ++ [x], insSeq := d.insSeq + 1 }) t
    else settleHolds m t
  | .sticky t op e v q => match template m t with
    | some x => putSticky m x op e (valOf (v.getD 0 0) (v.getD 1 0) (v.getD 2 0)) (BitVec.ofNat 16 q)
    | none => m
  | .group d tag g => keepGroup (addGroup m d tag g) (domainPart d) g
  | .slip s tag ins => modStream m s fun st => match st.high with
    | some (h, _) => { st with slip := some (h + tagDiff (ixTag h) tag, ins) }
    | none => st
  | .svBlock s tag b => match subCfg m s with
    | some c => addBlock m s c tag b
    | none => m
  | .palette g tag pal => beginSwitch m g pal tag
  | .quarantine fl n tag =>
    let was := if fl then (tabGet m.td.flows n).quar.isSome else (tabGet m.td.quar n).isSome
    let m := if was then m else setReg m Reg.TD_QUAR_CNT (BitVec.ofNat 32 ((reg m Reg.TD_QUAR_CNT).toNat + 1))
    if fl then modTd m fun d => { d with flows := tabMod d.flows n (fun x => { x with quar := some tag }) }
    else modTd m fun d => { d with quar := tabSet d.quar n (some tag) }

def modCopy (m : Mod) (tag : Nat) (f : CopyIn → CopyIn) : Mod :=
  modO m fun o => { o with copies := o.copies.map fun c => if c.tag = tag then f c else c }

/-- The copy of a tag among those on their way, in tag order. -/
def openCopy (m : Mod) (tag : Nat) : Mod :=
  if m.out.copies.any (·.tag == tag) then m
  else
    let cs := m.out.copies
    let new := (cs.filter fun c => tagBefore c.tag tag) ++ [{ tag := tag }] ++ (cs.filter fun c => !tagBefore c.tag tag)
    modO m fun o => { o with copies := new }

/-- The step of the preferred unit at t_r (R304 step 4). -/
def revertApplied (m : Mod) (tag : Nat) : Mod :=
  match m.out.revReq with
  | some (tr, true) => if tagAdd tag 1 = tr && isFit m then settleClaim (becomeActive m) else m
  | _ => m

/-- One copy applied (R284). The copies that waited for a held one get at least a cycle. -/
def applyCopy (m : Mod) (c : CopyIn) : Mod :=
  let m := modO m fun o => { o with copies := o.copies.filter (·.tag ≠ c.tag), copied := c.tag }
  let m := stopTimer (stopTimer m .copyBound c.tag) .verdictWait c.tag
  let m := c.recs.foldl applyRec m
  let m := setReg { m with mode := { m.mode with copyTag := some c.tag } } Reg.OUT_COPYTAG (BitVec.ofNat 32 c.tag)
  let m := if !c.held then m else
    m.out.copies.foldl (fun m x =>
      setTimerAt m .copyBound x.tag (max ((timerDue m .copyBound x.tag).getD 0) (m.clk.elapsed + cycleTime m))) m
  revertApplied m c.tag

/-- Copies that may be applied, in tag order. `n` bounds their number. -/
def applyReady : Nat → Mod → Mod
  | 0, m => m
  | n + 1, m =>
    if m.mode.role ≠ .standby then m
    else match m.out.copies with
      | c :: _ =>
        if c.ended && (c.clear || m.mode.syncSt == 1) && (m.mode.syncSt == 1 || m.mode.syncSt == 2)
        then applyReady n (applyCopy m c) else m
      | [] => m

/-! ## Digests (R269, R287) -/

def digest8 (b : Bytes) : Nat := leNat ((sha256 b).take 8)

/-- The datasets of kind 0 handed over for a tag. -/
def handedFor (m : Mod) (tag : Nat) : List (Nat × List MemberVal) :=
  (allPubs m).filterMap fun x => if x.2.kind ≠ 0 then none else
    ((pubSt m x.1).handed.find? fun h => h.1 == tag).map fun h => (x.1, h.2)

def outDigest (m : Mod) (tag : Nat) : Nat :=
  digest8 (Config.outDigestBytes tag ((handedFor m tag).map fun x =>
    (x.1, x.2.map fun v => (valType v.val, (valWords v.val).1, (valWords v.val).2, v.q.toNat))))

/-- A record's place in ascending flow number: its flow, or 65,536 for what belongs to none, and the segment's FLOW_SEQ. -/
def recPlace (m : Mod) (r : CopyRec) : Nat × Nat :=
  let of (t : Nat) : Nat × Nat := match template m t with
    | some x => (x.flow.getD 65536, x.flowSeq)
    | none => (65536, 0)
  match r with
  | .segment f t _ => (f, (of t).2)
  | .delay _ t _ _ _ _ | .sticky t _ _ _ _ => ((of t).1, 0)
  | .quarantine true f _ => (f, 0)
  | _ => (65536, 0)

/-- Records in ascending flow number and segment order. -/
def byFlow (m : Mod) (recs : List CopyRec) : List CopyRec :=
  recs.insertionSort fun a b =>
    (recPlace m a).1 < (recPlace m b).1 ∨ ((recPlace m a).1 = (recPlace m b).1 ∧ (recPlace m a).2 ≤ (recPlace m b).2)

def stateDigest (m : Mod) (tag : Nat) (recs : List CopyRec) : Nat :=
  digest8 (Config.stateDigestBytes tag (byFlow m (recs.filter fun r => match r with
    | .segment .. => true
    | _ => false)))

/-- Both digests of a tag at hand: agreement clears the copy, a difference is counted and holds it (R284, R287). -/
def compareDigests (m : Mod) (tag : Nat) : Mod :=
  if m.mode.role ≠ .active ∧ m.mode.role ≠ .standby then m
  else match m.out.own.find? (·.1 == tag), m.out.theirs.find? (·.1 == tag) with
    | some (_, o, s, at_), some (_, o', s') =>
      if o = o' then
        let m := if s = s' then m else
          let m := bump m Reg.OUT_CNT_MISMATCH
          raiseEvent m 8 0 (Config.axisCode 52 % 4096) (faultArg noObj [tag])
        modCopy m tag fun c => { c with clear := true }
      else
        -- the flag's event, and one for each further mismatch when MISMATCH_EVT is set
        let new := bitsOf (reg m Reg.OUT_FAULT).toNat 5 5 = 0 ∨ regBits m Reg.OUT_CTRL 1 1 = 1
        let m := bump m Reg.OUT_CNT_MISMATCH
        let m := abandonRevert (if new then setFault m Reg.OUT_FAULT 5 noObj [tag] else m)
        let due := at_ + usec (outHdr m).verdictWait
        let wait (m : Mod) : Mod := setTimerAt (modO m fun x => { x with open_ := (tag :: x.open_).take 64 }) .verdictWait tag due
        if m.mode.role = .active then (if m.out.refPresent then wait m else m)
        else if m.mode.syncSt ≠ 2 then m
        else if m.out.refPresent then
          let m := wait (modCopy m tag fun c => { c with held := true })
          setTimerAt m .copyBound tag (max ((timerDue m .copyBound tag).getD 0) (due + usec 10))
        else setFault (modCopy m tag fun c => { c with clear := true }) Reg.OUT_FAULT 6
    | _, _ => m

/-- A Standby falls out of synchronism (R284): the copies it has not applied are lost, and so is a revert it asked for (R278). -/
def unsync (m : Mod) : Mod :=
  let m := { m with mode := { m.mode with syncSt := 0, copyTag := none } }
  let m := abandonRevert (modO m fun o => { o with lost := o.lost ++ o.copies, copies := [], open_ := [], sweepEnd := false })
  { m with timers := m.timers.filter fun t => t.kind != .copyBound && t.kind != .verdictWait }

/-! ## Sweeps (R285) -/

/-- Every record of the protection state, in ascending flow number: segments, delay entries, sticky values, standing quarantines. -/
def allRecs (m : Mod) : List CopyRec := byFlow m <|
  let prot (t : Nat) : Bool := match template m t with | some x => tmplPart x == 0 | none => false
  let mine (f : Nat) : Bool := (imageOf m 0).flows.any (·.1 == f)
  let fl := m.td.flows.filter fun f => mine f.1
  (fl.map fun f => f.2.segs.map fun s => CopyRec.segment f.1 s.1 (commitLog.segWords s.2)).flatten
    ++ ((m.td.delays.filter fun e => prot e.target).map fun e =>
      let w := valWords e.val
      .delay e.list e.target e.op e.etag [valType e.val, w.1, w.2, e.q.toNat, e.tag, if e.cancel then 1 else 0] true)
    ++ ((m.td.sticky.filter fun s => prot (s.1 / 8)).map fun s => s.2.reverse.map fun v =>
      let w := valWords v.val
      CopyRec.sticky (s.1 / 8) (s.1 % 8) v.etag [valType v.val, w.1, w.2] v.q.toNat).flatten
    ++ (fl.filterMap fun f => f.2.quar.map fun t => .quarantine true f.1 t)
    ++ ((m.td.quar.filter fun q => prot q.1).filterMap fun q => q.2.map fun t => .quarantine false q.1 t)

/-- What a record of the sweep stands for: its kind and the objects it names. -/
def recKey : CopyRec → List Nat
  | .segment f t _ => [0, f, t]
  | .delay _ t op _ _ _ => [1, t, op]
  | .sticky t op e _ _ => [2, t, op, e]
  | .quarantine true f _ => [3, f]
  | .quarantine false t _ => [4, t]
  | _ => [5]

/-- Bytes of payload that one cycle may carry (R32), at half the rate on one lane (R286). -/
def copyLimit (m : Mod) : Nat :=
  min 1048576 ((cycleTime m - usec 20) * (if m.out.lanes < 2 then 3 else 6) / nsUnit)

/-- The records of the sweep that fit in `room` bytes. -/
def sweepFit : Nat → Nat → List CopyRec → List CopyRec
  | 0, _, _ => []
  | _, _, [] => []
  | n + 1, room, r :: rs =>
    let k := (Config.copyBytes [r]).length
    if k ≤ room then r :: sweepFit n (room - k) rs else []

/-- The Active's copy of a tag, and the part of the sweep that the cycle has room for: each record as it stands when it is
sent (R285). -/
def sendCopy (m : Mod) (tag : Nat) (recs : List CopyRec) : Mod :=
  let b := Config.copyBytes recs
  let m := towSend (towSend m (.copy tag recs)) (.copyEnd tag recs.length b.length (crc32c b))
  let m := setReg m Reg.OUT_COPYTAG (BitVec.ofNat 32 tag)
  let m := if (reg m Reg.OUT_COPY_MAX).toNat < b.length then setReg m Reg.OUT_COPY_MAX (BitVec.ofNat 32 b.length) else m
  let wants := match m.out.peer with
    | some p => p.role == .standby && (p.sync == 0 || p.sync == 3)
    | none => false
  let m := if wants && !m.out.sweeping then modO m fun o => { o with sweeping := true, sweepLeft := allRecs m } else m
  if !m.out.sweeping then m
  else
    let keys := m.out.sweepLeft.map recKey
    let left := (allRecs m).filter fun r => keys.contains (recKey r)
    let now := sweepFit left.length (copyLimit m - b.length) left
    let rest := left.drop now.length
    if now.isEmpty && !rest.isEmpty then m
    else modO (towSend m (.sweep now rest.isEmpty)) fun o => { o with sweeping := !rest.isEmpty, sweepLeft := rest }

/-! ## Cycle close (R268, R269) -/

/-- The decision vector of a tag (R290, R294): logic values of the decision members, invalid ones 0. -/
def decisionVector (m : Mod) (tag : Nat) : Nat × RedCfg :=
  let red := (imageOf m 0).red.getD {}
  let l := handedFor m tag
  let bitOf (x : Nat × Nat) : Bool := match l.lookup x.1 with
    | some vs => match vs[x.2]? with
      | some v => validity v.q != 1 && valInt v.val != 0
      | none => false
    | none => false
  ((red.entries.zip (List.range red.entries.length)).foldl (fun a x => a + if bitOf x.1 then 2 ^ x.2 else 0) 0, red)

/-- The REPORT of a tag. -/
def sendReport (m : Mod) (tag : Nat) (o : Nat) : Mod :=
  let (v, red) := decisionVector m tag
  refSend m 2 (leBytes 4 tag ++ leBytes 4 (claimNow m) ++ leBytes 8 o ++ leBytes 8 red.id ++ leBytes 2 red.entries.length
    ++ leBytes 2 0 ++ leBytes 32 v)

/-- The tags, by domain of a partition, that the boundary of `tag` ends: those of the outputs' latest released sets for the
concentration partition (R57). -/
def boundaryTags (m : Mod) (p tag : Nat) : List (Nat × Nat) :=
  if p ≠ 1 then [(p, tag)]
  else (imageOf m 1).outs.filterMap fun o => (tabGet m.td.lastTag (4 + o.1)).map fun t => (4 + o.1, t)

/-- What is kept of earlier Test values: at a boundary, `old` for the tags up to it where the value changes, and what no task
in flight can still need, more than 65,536 tags back, is dropped; at a start nothing. -/
def keepTests (m : Mod) (p : Nat) (tag : Option Nat) (old : Option TestVal) : Cells (List (Nat × TestVal)) :=
  match tag with
  | some t => (boundaryTags m p t).foldl (fun w x => tabMod w x.1 fun l =>
      (match old with | some v => [(x.2, v)] | none => []) ++ l.filter fun e => decide ((x.2 + 2 ^ 32 - e.1) % 2 ^ 32 < 65536)) m.mode.testWas
  | none => m.mode.testWas.filter fun x => domainPart x.1 ≠ p

/-- The Test value of a partition changes at its boundary, of a tag or at its start (R65, R57). -/
def testBoundary (m : Mod) (p : Nat) (tag : Option Nat) : Mod :=
  let code : TestVal → Nat
    | .off => 0 | .test => 1 | .testBlocked => 2 | .simulation => 3
  let old := tabGet m.mode.partTest p
  let new := (tabGet m.mode.pendTest p).getD old
  let was := keepTests m p tag (if old = new then none else some old)
  let m := { m with mode := { m.mode with
    pendTest := tabSet m.mode.pendTest p none, partTest := tabSet m.mode.partTest p new, testWas := was } }
  if old = new then m else stateEvent m keeperSrc 3 (code old) (code new) p

/-- A Test value from its code of R488. -/
def testVal (c : Nat) : TestVal := match c % 4 with | 0 => .off | 1 => .test | 2 => .testBlocked | _ => .simulation

/-- The Active's Test value as a unit of role `r` knows it: a Standby from its peer, a Referee from the Active's STATUS. -/
def activeTest (m : Mod) (r : Role) : Option TestVal :=
  match r with
  | .standby => if m.out.peer.any (·.role == .active) then m.out.peerTest else none
  | .referee => m.out.refTest
  | _ => none

/-- A Standby or Referee takes the Active's Test value (R69 I4). -/
def followTest (m : Mod) : Mod :=
  match activeTest m m.mode.role with
  | some v =>
    if m.mode.test ≠ v then
      { m with mode := { m.mode with test := v
                                     pendTest := [0, 1, 2, 3].foldl (fun l k => tabSet l k (some v)) m.mode.pendTest } }
    else m
  | none => m

/-- The combinations of role, protection image and seal that stand (R69 I1, I2, I7). -/
def modeOk (role : Role) (prot : Option PartImage) (sealSt : SealState) (metering : Bool) : Bool :=
  (match prot with
    | none => role != .active && role != .standby
    | some i => i.referee == (role == .referee)) && (sealSt != .sealed || metering)

/-- The peer of a pair clashes with OUT_UNIT: equal SIDE, RANK or UNIT_ID (R275). -/
def rankClash (m : Mod) (h : HelloData) : Bool :=
  let u := (reg m Reg.OUT_UNIT).toNat
  h.side == bitsOf u 15 15 || h.rank == u % 256 || h.unitId == bitsOf u 31 16

/-- What ROLE_SET to `r` checks against the role `left` before it (R68, R69, R275, R305): its result code, and whether RANK_CLASH
sets. -/
def roleCheck (m : Mod) (left r : Role) : Nat × Bool :=
  let pair := r == .active || r == .standby
  let prot := (partOf m 0).image
  let ok := modeOk r prot (sealState m) true
  if !ok || (r == .standalone && left == .standby && isLive m 0) then (0x21, false)
  else match pair, m.out.peer, prot with
    | true, some h, some i => if rankClash m h then (0x21, true) else if h.imageId ≠ i.imageId then (0x22, false) else (0, false)
    | _, _, _ => (0, false)

/-- A commanded role takes effect (R64, R57); after an automatic change of role it is checked against the new one first and
dropped where that check fails (R306). -/
def takeRole (m : Mod) : Mod :=
  match m.mode.pendRole with
  | some r =>
    let ok := m.mode.role == m.mode.pendFrom || (roleCheck m m.mode.role r).1 == 0
    let m := { m with mode := { m.mode with pendRole := none } }
    if !ok then m
    else match r with
    | .active => if m.mode.role = .active then m else
        -- a Standalone that claims keeps its claim (R305 step 8)
        if m.out.claiming then setRole m .active else becomeActive m
    | .standby => becomeStandby m
    | r => setRole (dropStandby m) r
  | none => m

/-- What takes effect at the cycle boundary of a tag: a yield, a commanded role, a revert, the Test value, the claim. -/
def pairBoundary (m : Mod) (tag : Nat) : Mod :=
  let m := if m.out.yielding && m.mode.role == .active then setFault (becomeStandby m) Reg.OUT_FAULT 1
    else modO m fun o => { o with yielding := false }
  let m := takeRole m
  let m := if m.out.revOut = some (tagAdd tag 1) && m.mode.role == .active then becomeStandby m else m
  let m := match m.out.revReq with
    | some (tr, false) => if tagLe (tagAdd tr (-8)) tag then abandonRevert m else m
    | _ => m
  let m := if m.mode.role = .standby ∧ m.out.sweepEnd ∧ m.mode.syncSt = 1 then
      modO { m with mode := { m.mode with syncSt := 2 } } fun o => { o with sweepEnd := false, lost := [] } else m
  watchRevert (settleClaim (testBoundary (followTest m) 0 (some tag)))

/-- The close of the protection cycle of a tag, at the retire of CLAIM. -/
def closeCycle (m : Mod) (tag : Nat) : Mod :=
  let m := modO m fun o => { o with lastTag := some tag }
  let mine := (m.td.copyRecs.filter fun r => tagLe r.1 tag).reverse.map (·.2)
  let m := modTd m fun d => { d with copyRecs := d.copyRecs.filter fun r => !tagLe r.1 tag }
  let o := outDigest m tag
  let s := stateDigest m tag mine
  let m := modO m fun x => { x with own := ((tag, o, s, m.clk.elapsed) :: x.own).take 64 }
  let h := outHdr m
  let m := if h.hbPub = 0xFFFF then m else heartbeat m h.hbPub tag
  let m := towSend m (.digest tag o s)
  let m := if m.mode.role = .active then sendCopy m tag mine else m
  let m := if h.refPorts = 0 ∨ m.mode.role = .referee then m else sendReport m tag o
  let done (x : PubSt) : PubSt := { x with handed := x.handed.filter fun e => !tagLe e.1 tag }
  let m := modO m fun x => { x with pubs := x.pubs.map fun e => (e.1, done e.2) }
  let m := applyReady 64 (compareDigests m tag)
  pairBoundary m tag

/-! ## Towpath receipt (R280 to R287) -/

/-- A frame arrives on the Towpath: it needs a lane, its CRC must pass, and it renews the watch of a Towpath that is up. -/
def towRx (m : Mod) (crcOk : Bool) (f : Mod → Mod) : Mod :=
  if m.out.lanes = 0 then m
  else if !crcOk then bump m Reg.OUT_CNT_TPCRC
  else f (if m.out.towUp then startTimer m .towpath 0 (usec 12) else m)

/-- HELLO. -/
def towHello (m : Mod) (crcOk : Bool) (d : HelloData) : Mod :=
  towRx m crcOk fun m =>
    let m := startTimer (modO m fun o => { o with peer := some d, towUp := true }) .towpath 0 (usec 12)
    let m := seeClaim m (d.epoch * 256 + d.rank) (roleCode d.role)
    let m := if m.mode.role = .standby ∧ m.mode.syncSt = 3 then { m with mode := { m.mode with syncSt := 0 } } else m
    watchRevert (decideRole m)

/-- HEARTBEAT. -/
def towHeartbeat (m : Mod) (crcOk : Bool) (d : HeartbeatData) : Mod :=
  towRx m crcOk fun m =>
    match m.out.peer with
    | none => m
    | some p =>
      let m := modO m fun o => { o with peer := some { p with role := d.role, epoch := d.epoch, fit := d.fit }, peerTest := some d.test }
      watchRevert (seeClaim m (d.epoch * 256 + p.rank) (roleCode d.role))

/-- DIGEST. On the Standby the copy's bound begins (R284). -/
def towDigest (m : Mod) (crcOk : Bool) (tag o s : Nat) : Mod :=
  towRx m crcOk fun m =>
    let m := modO m fun x => { x with theirs := ((tag, o, s) :: x.theirs).take 64 }
    let m := if m.mode.role = .standby ∧ m.mode.syncSt = 2 then startTimer (openCopy m tag) .copyBound tag (cycleTime m) else m
    applyReady 64 (compareDigests m tag)

/-- COPY: records of a tag. -/
def towCopy (m : Mod) (crcOk : Bool) (tag : Nat) (recs : List CopyRec) : Mod :=
  towRx m crcOk fun m =>
    if m.mode.role ≠ .standby ∨ (m.mode.syncSt ≠ 1 ∧ m.mode.syncSt ≠ 2) then m
    else modCopy (openCopy m tag) tag fun c => { c with recs := c.recs ++ recs }

/-- COPY_END. -/
def towCopyEnd (m : Mod) (crcOk : Bool) (tag count bytes crc : Nat) : Mod :=
  towRx m crcOk fun m =>
    if m.mode.role ≠ .standby ∨ (m.mode.syncSt ≠ 1 ∧ m.mode.syncSt ≠ 2) then m
    else
      let m := openCopy m tag
      let m := modCopy m tag fun c =>
        let b := Config.copyBytes c.recs
        { c with ended := c.recs.length == count && b.length == bytes && crc32c b == crc }
      -- a digest that agreed before the copy came clears it now
      let agreed := match m.out.own.find? (·.1 == tag), m.out.theirs.find? (·.1 == tag) with
        | some (_, o, _), some (_, o', _) => o == o'
        | _, _ => false
      watchRevert (applyReady 64 (if agreed then modCopy m tag fun c => { c with clear := true } else m))

/-- SWEEP. -/
def towSweep (m : Mod) (crcOk : Bool) (recs : List CopyRec) (last : Bool) : Mod :=
  towRx m crcOk fun m =>
    if m.mode.role ≠ .standby ∨ m.mode.syncSt = 2 then m
    else
      let m := { m with mode := { m.mode with syncSt := 1 } }
      let m := recs.foldl applyRec m
      if last then modO m fun o => { o with sweepEnd := true } else m

/-- FAULT: the Standby takes over; an Active notes its Standby's (R296). -/
def towFault (m : Mod) (crcOk : Bool) (_reason _tag : Nat) : Mod := towRx m crcOk takeover

/-- REVERT_REQ: acknowledged, or refused when the Active commits, is in a takeover interval or has an unresolved mismatch. -/
def towRevertReq (m : Mod) (crcOk : Bool) (tr : Nat) : Mod :=
  towRx m crcOk fun m =>
    let busy := m.img.commit.isSome || m.out.tko.isSome || !m.out.open_.isEmpty
    if m.mode.role ≠ .active ∨ busy then towSend m (.revertNak tr)
    else towSend (modO m fun o => { o with revOut := some tr }) (.revertAck tr)

/-- REVERT_ACK. -/
def towRevertAck (m : Mod) (crcOk : Bool) (tr : Nat) : Mod :=
  towRx m crcOk fun m => match m.out.revReq with
    | some (t, _) => if t = tr then modO m fun o => { o with revReq := some (t, true) } else m
    | none => m

/-- REVERT_NAK, of a request or of one acknowledged. -/
def towRevertNak (m : Mod) (crcOk : Bool) (tr : Nat) : Mod :=
  towRx m crcOk fun m => if (m.out.revReq.map (·.1)) = some tr ∨ m.out.revOut = some tr then endRevert m else m

/-! ## Towpath timers and lanes -/

/-- HELLO_TIMER. -/
def helloTimer (m : Mod) : Mod := expire m .hello 0 fun m => startTimer (towSend m (.hello (helloOf m))) .hello 0 (msec 1)

/-- HEARTBEAT_TIMER. -/
def heartbeatTimer (m : Mod) : Mod :=
  expire m .heartbeat 0 fun m =>
    let d : HeartbeatData := { role := m.mode.role, epoch := epochOf m, tag := lastClosed m, fit := isFit m
                               flags := (reg m Reg.OUT_FAULT).toNat, test := unitTest m }
    startTimer (towSend m (.heartbeat d)) .heartbeat 0 (usec 5)

/-- STATUS_TIMER. -/
def statusTimer (m : Mod) : Mod :=
  expire m .status 0 fun m =>
    let b := leBytes 1 (roleCode m.mode.role) ++ leBytes 1 (syncCode m) ++ leBytes 1 (if isFit m then 1 else 0)
      ++ leBytes 1 (if m.out.towUp then 1 else 0) ++ leBytes 4 (epochOf m) ++ leBytes 4 (claimNow m) ++ leBytes 4 (lastClosed m)
    startTimer (if m.mode.role = .referee then m else refSend m 1 b) .status 0 (usec 5)

/-- The Towpath is declared lost (R282, R296, R302). -/
def towLost (m : Mod) : Mod :=
  if !m.out.towUp then m
  else
    let m := setFault (modO m fun o => { o with towUp := false, sweeping := false, sweepLeft := [] }) Reg.OUT_FAULT 2
    let m := stopTimer m .towpath 0
    let m := abandonRevert m
    if m.mode.role ≠ .standby || m.out.deciding then decideRole m
    else
      let m := unsync m
      let m := { m with mode := { m.mode with syncSt := 3 } }
      if m.out.refPresent then askTakeover m 0
      else isolatedStep (if timerOn m .hbWait 0 || m.out.hbLost then m else startTimer m .hbWait 0 (usec (outHdr m).hbWait))

/-- TOWPATH_LOST: no valid frame for 12 µs. -/
def towpathLost (m : Mod) : Mod := expire m .towpath 0 towLost

/-- TOWPATH_LANE_LOCK_LOSS: a lane loses lock; with the second the Towpath is lost (R282, R286). -/
def laneLoss (m : Mod) : Mod :=
  if m.out.lanes = 0 then m
  else
    let m := setFault (modO m fun o => { o with lanes := o.lanes - 1 }) Reg.OUT_FAULT 3
    if m.out.lanes = 0 then towLost m else m

/-- TOWPATH_LANE_LOCK_REGAIN: a lane regains lock; at link-up a HELLO goes out (R281, R286). -/
def laneRegain (m : Mod) : Mod :=
  if 2 ≤ m.out.lanes then m
  else
    let first := m.out.lanes == 0
    let m := modO m fun o => { o with lanes := o.lanes + 1 }
    if first then towSend m (.hello (helloOf m)) else m

/-- HB_WAIT_EXPIRY: no heartbeat of the Active for HB_WAIT (R302). -/
def hbWaitExpiry (m : Mod) : Mod := expire m .hbWait 0 fun m => isolatedStep (modO m fun o => { o with hbLost := true })

/-- VERDICT_WAIT_EXPIRY: no verdict in time: the Standby applies the copy (R287). DESIGN CHOICE (log 371): on the Active the
mismatch counts as resolved from then on. -/
def verdictWaitExpiry (m : Mod) (tag : Nat) : Mod :=
  expire m .verdictWait tag fun m =>
    let m := modO m fun o => { o with open_ := o.open_.filter (· ≠ tag) }
    if m.mode.role = .standby then
      watchRevert (applyReady 64 (setFault (modCopy m tag fun c => { c with clear := true }) Reg.OUT_FAULT 6))
    else m

/-- COPY_BOUND_MISS: a copy not applied by its bound (R284); one that waits behind a held copy has its bound from the instant at
which that one is applied. -/
def copyBoundMiss (m : Mod) (tag : Nat) : Mod :=
  expire m .copyBound tag fun m =>
    let waits := m.out.copies.any fun c => c.held && tagBefore c.tag tag
    if m.mode.role = .standby ∧ m.mode.syncSt = 2 ∧ !waits then watchRevert (unsync (setFault m Reg.OUT_FAULT 4)) else m

/-- TAKEOVER_INTERVAL_END: the last tag of the interval has closed (R298). -/
def takeoverEnd (m : Mod) : Mod :=
  match m.out.tko, m.out.lastTag with
  | some (_, b), some t => if tagLe b t then modO m fun o => { o with tko := none } else m
  | _, _ => m

/-- REVERT_HOLD_EXPIRY: the preferred unit asks for the revert (R303, R304 step 1). -/
def revertHoldExpiry (m : Mod) : Mod :=
  expire m .revertHold 0 fun m =>
    if revertReady m then
      let tr := tagAdd (lastClosed m) 16
      towSend (modO m fun o => { o with revReq := some (tr, false) }) (.revertReq tr)
    else m

/-! ## Referee messages at a unit (R287, R289, R291, R294, R295) -/

/-- EPOCH_MAX of an accepted message. -/
def noteEpochMax (m : Mod) (e : Nat) : Mod := modO m fun o => { o with refEpoch := e }

/-- VERDICT (R291): a Standby acts on one of a tag whose copy is held, an Active on one of a tag whose mismatch is open; any
other is only counted (R287, R289). -/
def refVerdict (m : Mod) (p : Nat) : Mod :=
  match refTake m p 0x81 with
  | (none, m) => m
  | (some (_, _, b), m) =>
    if m.mode.role = .referee then m
    else
      let tag := bodyNat b 0 4
      let code := bodyNat b 4 1
      let m := bump (noteEpochMax m (bodyNat b 8 4)) Reg.OUT_CNT_VERDICT
      let held := m.out.copies.any fun c => c.tag == tag && c.held
      if m.mode.role = .standby ∧ !held then
        -- the copy was applied before the verdict came
        setFault m Reg.OUT_FAULT 6
      else if m.mode.role ≠ .standby ∧ !m.out.open_.contains tag then m
      else
        let m := stopTimer (modO m fun o => { o with open_ := o.open_.filter (· ≠ tag) }) .verdictWait tag
        let m := if code = 4 then setFault m Reg.OUT_FAULT 5 noObj [tag] else m
        if m.mode.role = .standby then
          if code = 2 then takeover m else applyReady 64 (modCopy m tag fun c => { c with clear := true })
        else if m.mode.role = .active ∧ code = 2 then
          let m := becomeStandby m
          republish m false (closingTag m)
        else m

/-- GRANT (R289, R292, R306). -/
def refGrant (m : Mod) (p : Nat) : Mod :=
  match refTake m p 0x82 with
  | (none, m) => m
  | (some (_, _, b), m) =>
    if m.mode.role = .referee then m
    else
      let m := noteEpochMax m (bodyNat b 12 4)
      if !m.out.reqs.contains (bodyNat b 0 8) ∨ m.mode.role ≠ .standby then m
      else
        let start := m.out.deciding
        let m := stopTimer (modO m fun o => { o with reqs := o.reqs.filter (· ≠ bodyNat b 0 8) }) .takeoverRetry 0
        -- at a start the claim follows at the next cycle boundary (R273)
        if bodyNat b 8 1 = 1 then (if start then becomeActive m else takeover m)
        else
          let m := modO m fun o => { o with deciding := false }
          if m.out.towUp then m else { m with mode := { m.mode with syncSt := 3 } }

/-- The Referee counts as absent (R294, R295, R302). -/
def refGone (m : Mod) : Mod :=
  isolatedStep (decideRole (setFault (modO m fun o => { o with refPresent := false }) Reg.OUT_FAULT 7))

/-- REF_STATUS (R294, R295). -/
def refStatus (m : Mod) (p : Nat) : Mod :=
  match refTake m p 0x83 with
  | (none, m) => m
  | (some (_, _, b), m) =>
    if m.mode.role = .referee then m
    else
      let m := noteEpochMax m (bodyNat b 0 4)
      if bodyNat b 8 8 ≠ ((imageOf m 0).red.getD {}).id then refGone (stopTimer m .refereeAbsent 0)
      else decideRole (startTimer (modO m fun o => { o with refPresent := true }) .refereeAbsent 0 (msec 3))

/-- REFEREE_ABSENT: no REF_STATUS for 3 ms (R295). -/
def refereeAbsent (m : Mod) : Mod := expire m .refereeAbsent 0 refGone

/-! ## The Referee (R291 to R294) -/

def modUnit (m : Mod) (u : Nat) (f : RefUnit → RefUnit) : Mod := modO m fun o => { o with units := tabMod o.units u f }

/-- An epoch seen by the Referee: EPOCH_MAX is the largest (R290). -/
def seeEpoch (m : Mod) (e : Nat) : Mod := modO m fun o => { o with refEpoch := max o.refEpoch e }

/-- STATUS at the Referee. DESIGN CHOICE (log 373): no message carries the Test value that a Referee takes from the Active (R69
I4); the free value of the Active's STATUS stands for it. -/
def refereeStatus (m : Mod) (p : Nat) : Mod :=
  match refTake m p 1 with
  | (none, m) => m
  | (some (u, _, b), m) =>
    if m.mode.role ≠ .referee then m
    else
      let role := bodyNat b 0 1
      let fit := bodyNat b 2 1 == 1
      let now := m.clk.elapsed
      let m := if role = 1 then modO m fun o => { o with refTest := some (testVal (Config.statusTest b)) } else m
      modUnit (seeEpoch m (bodyNat b 4 4)) u fun x => { x with
        role := role, fit := fit, epoch := bodyNat b 4 4, claim := bodyNat b 8 4, at_ := some now
        actAt := if role = 1 then some now else x.actAt, actFit := if role = 1 then fit else x.actFit }

/-- The Referee's own decision vector for a tag, none until it has every bit. -/
def refVector (m : Mod) (tag : Nat) : Option Nat :=
  let n := ((imageOf m 0).red.getD {}).entries.length
  let l := m.out.vec.filter (·.1 == tag)
  if (List.range n).all fun d => l.any fun x => x.2.1 == d then
    some ((List.range n).foldl (fun a d => a + if l.any (fun x => x.2.1 == d && x.2.2) then 2 ^ d else 0) 0)
  else none

/-- A decision bit of the Referee's image, at the retire of its template (R294). -/
def noteVector (m : Mod) (t : Template) (k : Task) : Mod :=
  if m.mode.role ≠ .referee then m
  else match (imageOf m 0).red, k.result with
    | some red, some r =>
      (red.entries.zip (List.range red.entries.length)).foldl (fun m x =>
        if x.1.1 = t.num then modO m fun o => { o with vec := ((k.tag, x.2, validity r.q != 1 && valInt r.val != 0) :: o.vec).take 16384 }
        else m) m
    | _, _ => m

/-- REPORT at the Referee: with both reports of a tag and different digests it sends VERDICT (R291). -/
def refereeReport (m : Mod) (p : Nat) : Mod :=
  match refTake m p 2 with
  | (none, m) => m
  | (some (u, _, b), m) =>
    if m.mode.role ≠ .referee then m
    else
      let tag := bodyNat b 0 4
      let m := seeEpoch m (bodyNat b 4 4 / 256)
      let dig := bodyNat b 8 8
      let v := bodyNat b 28 32
      let m := modUnit m u fun x => { x with reports := ((tag, dig, v) :: x.reports).take 64 }
      match m.out.units.find? fun x => x.1 ≠ u ∧ x.2.reports.any (·.1 == tag) with
      | none => m
      | some (u2, x2) =>
        let (d2, v2) := match x2.reports.find? (·.1 == tag) with | some (_, d, w) => (d, w) | none => (dig, v)
        if d2 = dig then m
        else
          let first := (tabGet m.out.units u).role == 1 || (tabGet m.out.units u2).role != 1
          let a := if first then v else v2
          let s := if first then v2 else v
          let code := match refVector m tag with
            | none => 4
            | some r => if a = r ∧ s = r then 3 else if a = r then 1 else if s = r then 2 else 4
          refSend m 0x81 (leBytes 4 tag ++ leBytes 1 code ++ leBytes 3 0 ++ leBytes 4 m.out.refEpoch)

/-- TAKEOVER_REQ at the Referee (R292). -/
def refereeTakeover (m : Mod) (p : Nat) : Mod :=
  match refTake m p 3 with
  | (none, m) => m
  | (some (u, seq, b), m) =>
    if m.mode.role ≠ .referee then m
    else
      let e := bodyNat b 4 4
      let m := seeEpoch m e
      let now := m.clk.elapsed
      let alive := m.out.units.any fun x => x.1 ≠ u && (match x.2.actAt with
        | some t => decide (now < t + usec 12) && x.2.actFit
        | none => false)
      let unfit := match (m.out.units.filter fun x => x.1 ≠ u && x.2.actAt.isSome).foldl
          (fun (o : Option RefUnit) x => match o with
            | some y => if y.actAt.getD 0 < x.2.actAt.getD 0 then some x.2 else some y
            | none => some x.2) none with
        | some x => !x.actFit
        | none => false
      let past := match m.out.granted with
        | some g => decide (e ≤ (tabGet m.out.units g).epoch)
        | none => false
      let ok := (!alive || unfit) && !past
      let m := if ok then modUnit (modO m fun o => { o with granted := some u }) u fun x => { x with epoch := max x.epoch e } else m
      refSend m 0x82 (leBytes 8 seq ++ leBytes 1 (if ok then 1 else 0) ++ leBytes 3 0 ++ leBytes 4 m.out.refEpoch)

/-- REF_STATUS_TIMER. -/
def refStatusTimer (m : Mod) : Mod :=
  expire m .refStatus 0 fun m =>
    let red := (imageOf m 0).red.getD {}
    let b := leBytes 4 m.out.refEpoch ++ leBytes 2 red.entries.length ++ leBytes 2 0 ++ leBytes 8 red.id
    startTimer (if m.mode.role = .referee then refSend m 0x83 b else m) .refStatus 0 (msec 1)

/-! ## Registers (R273, R275, R308) -/

/-- OUT_UNIT_WRITE. -/
def outUnitWrite (m : Mod) (v : Word) (be : BitVec 4) : Mod :=
  guardedWrite m Reg.OUT_UNIT be fun m =>
    let rank := v.toNat % 256
    if m.mode.role = .active ∨ m.mode.role = .standby ∨ rank = 0 ∨ rank = 255 then setFault m Reg.OUT_FAULT 9
    else setReg m Reg.OUT_UNIT (v &&& 0xFFFFC0FF)

/-- OUT_EPOCH_SET. -/
def outEpochSet (m : Mod) (v : Word) (be : BitVec 4) : Mod :=
  guardedWrite m Reg.OUT_EPOCH_SET be fun m =>
    let e := v.toNat % 2 ^ 24
    if m.mode.role ≠ .standalone ∨ (partOf m 0).state ≠ .halted ∨ e = 0 then setFault m Reg.OUT_FAULT 9
    else setReg (setReg m Reg.OUT_EPOCH_SET (BitVec.ofNat 32 e)) Reg.OUT_EPOCH (BitVec.ofNat 32 e)

/-- OUT_STAT. -/
def outStatWord (m : Mod) : Nat :=
  roleCode m.mode.role + syncCode m * 16 + (if isFit m then 128 else 0) + (if m.out.claiming then 256 else 0)
    + (if m.out.towUp then 512 else 0) + m.out.lanes % 4 * 1024 + (if m.out.unit.testBit 14 then 4096 else 0)
    + (if m.out.refPresent then 8192 else 0) + (if m.out.tko.isSome then 32768 else 0)

/-- OUT_PEER. -/
def outPeerWord (m : Mod) : Nat :=
  match m.out.peer with
  | none => 0
  | some p => p.unitId % 65536 * 65536 + p.side % 2 * 32768 + roleCode p.role * 4096 + (if p.fit then 2048 else 0)
      + p.sync % 8 * 256 + p.rank % 256

end Sys2Proof.Machine
end

