-- ==== Sys2Proof/Machine/Catalogue.lean ====
section
/-!
DEFINITION. The primitive catalogue as admission reads it (R126, R142 to R144, R147): operand counts and types, parameter
records, worst-case cycles, flow-state and write sizes.
-/
namespace Sys2Proof.Machine

/-! ## Operands -/

/-- The least and largest operand count of a primitive. -/
def opCount (code : Nat) : Nat × Nat :=
  match code with
  | 0 | 6 | 10 | 57 => (2, 8)
  | 1 | 2 | 3 | 12 | 16 | 21 | 23 | 28 | 32 | 47 | 48 | 49 | 51 | 56 => (2, 2)
  | 4 | 18 | 19 | 22 | 24 | 34 => (3, 3)
  | 17 | 29 | 44 | 58 | 69 => (1, 2)
  | 20 => (2, 6)
  | 33 => (3, 8)
  | 40 | 41 | 64 | 65 | 66 | 67 | 68 | 70 | 71 => (1, 8)
  | _ => (1, 1)

/-- A count of operands within the catalogue. -/
def opCountOk (code n : Nat) : Bool :=
  decide ((opCount code).1 ≤ n) && decide (n ≤ (opCount code).2) && (code != 20 || n % 2 == 0)

/-- Types an operand admits as a mask: 1 integer, 2 binary32, 4 complex. `p0` is the first parameter word. -/
def opMask (code p0 n k : Nat) : Nat :=
  match code with
  | 5 | 6 | 11 | 35 | 36 | 37 => 3
  | 7 | 13 | 16 | 34 | 38 | 52 | 54 | 55 | 56 | 57 | 59 | 62 => 2
  | 12 | 40 | 41 | 42 | 43 | 44 | 45 | 46 | 47 | 48 | 49 | 50 | 61 => 1
  | 9 => match p0 with
    | 0 => 1
    | 1 | 2 => 2
    | _ => 4
  | 10 => if k = 0 then 1 else 7
  | 14 | 15 | 18 | 19 | 20 | 21 | 22 | 23 | 25 | 26 | 27 | 28 | 30 | 31 | 32 | 33 => 4
  | 17 => if k = 0 then 4 else 2
  | 24 => if k = 0 then 4 else 2
  | 29 => if k = 0 then 2 else 1
  | 39 | 53 => 6
  | 51 => if k = 0 then 7 else 1
  | 58 => if k = 0 then 2 else 1
  | 67 | 68 | 71 => if k = 0 then 1 else 7
  | 69 => if n = 1 then 4 else 2
  | 70 => if k + 2 < n then 4 else 2
  | _ => 7

/-- Operands that must be sticky. -/
def mustStick (code k : Nat) : Bool :=
  match code, k with
  | 24, 2 | 29, 1 | 44, 1 | 48, 1 | 58, 1 => true
  | _, _ => false

/-- The type of a result that the operands do not settle. -/
def fixedRes (code p0 : Nat) : Option Nat :=
  match code with
  | 0 | 1 | 2 | 3 | 4 | 5 | 8 | 10 | 11 | 51 | 64 | 65 | 67 | 68 | 69 | 70 | 71 => none
  | 6 => if p0 = 2 ∨ p0 = 3 then some 0 else none
  | 9 => match p0 with
    | 0 | 3 | 4 => some 1
    | 1 => some 0
    | _ => some 2
  | 7 | 13 | 14 | 15 | 23 | 25 | 52 | 53 | 54 | 55 | 56 | 57 | 58 | 59 | 62 | 63 => some 1
  | 16 | 17 | 18 | 19 | 20 | 21 | 22 | 24 => some 2
  | _ => some 0

/-- The type of a result from the operands' types as far as they are known. -/
def resOf (code p0 : Nat) (ops : List (Option Nat)) : Option Nat :=
  match fixedRes code p0 with
  | some t => some t
  | none => match code with
    | 2 => if ops.contains (some 2) then some 2 else (ops.filterMap id).head?
    | 10 => ((ops.drop 1).filterMap id).head?
    | 0 | 1 | 3 | 4 | 6 => (ops.filterMap id).head?
    | _ => ops.headD none

/-- Operand types of one template that agree: every "any" operand has one type, but for MUL by a complex, SELECT's
selector and the output primitives (R126, R147). DESIGN CHOICE (log 353): MUL of a complex and a binary32 is taken in either
order; the spec states f × c. -/
def typesAgree (code : Nat) (ops : List Nat) : Bool :=
  let same (l : List Nat) : Bool := l.all (· == l.headD 0)
  match code with
  | 2 => same ops || ops == [1, 2] || ops == [2, 1]
  | 10 => same (ops.drop 1)
  | 0 | 1 | 3 | 4 | 6 => same ops
  | _ => true

/-! ## Parameters -/

/-- What a parameter word may hold: an integer or a binary32 in a range, or any word. A bound on a binary32 is the one
nearest the number stated. -/
inductive ParamKind where
  | int (lo hi : Int)
  | flt (lo hi : Option (Int × Nat))
  | word

def pAny : ParamKind := .int (-2 ^ 31) (2 ^ 31 - 1)
def pPos : ParamKind := .int 1 (2 ^ 31 - 1)
def pF : ParamKind := .flt none none
def pIn (lo hi : Int × Nat) : ParamKind := .flt (some lo) (some hi)
def pUnit : ParamKind := pIn (0, 1) (1, 1)
def pH : ParamKind := pIn (0, 1) (1, 5)

/-- π and π/2 as the nearest binary32, as fractions. -/
def piFrac : Int × Nat := (13176795, 4194304)
def halfPiFrac : Int × Nat := (13176795, 8388608)

/-- A binary32 parameter: finite, not subnormal, in its range (R143). -/
def fltOk (w : Nat) (lo hi : Option (Int × Nat)) : Bool :=
  let x : F32 := BitVec.ofNat 32 w
  let le (b : Int × Nat) (up : Bool) : Bool :=
    let y := (numOfFrac b.1 b.2).v
    if up then decide (fInt x ≤ fInt y) else decide (fInt y ≤ fInt x)
  fExp x != 255 && !(fExp x == 0 && fFrac x != 0)
    && (match lo with | some b => le b false | none => true) && (match hi with | some b => le b true | none => true)

def paramOk : ParamKind → Nat → Bool
  | .int lo hi, w => decide (lo ≤ signedOf 32 w) && decide (signedOf 32 w ≤ hi)
  | .flt lo hi, w => fltOk w lo hi
  | .word, _ => true

/-- The parameters of a primitive in record order; those of a table follow its count word. -/
def paramKinds (code : Nat) (ws : List Nat) : List ParamKind :=
  match code with
  | 5 => [.int 0 1]
  | 6 => [.int 0 3]
  | 8 => [pF, pF]
  | 9 => [.int 0 4, .int (-31) 31]
  | 11 => [pF, pF]
  | 12 => [.int 0 8]
  | 13 => .int 0 7 :: List.replicate 8 pF
  | 17 | 20 | 21 | 24 | 58 => [pF]
  | 18 => [.int 0 2, .int 0 1]
  | 19 => [.int 0 2]
  | 22 => [pF, pF, pF]
  | 25 => [pF, .int 1 64, .int 0 1]
  | 26 => [pF, pF, pF, pF, pH]
  | 27 => [pF, pF, pF, pF, pF, pH]
  | 28 => [pF, pIn (0, 1) halfPiFrac, pF, pIn (0, 1) (1, 10)]
  | 29 => [pF, pF, pF, pF, pF, pF, pIn (21, 20) (13, 10), pIn (2, 1) (40, 1), .int 0 2, if ws.getD 8 0 = 1 then pPos else pAny]
  | 30 => [pF, pF, pH]
  | 31 => [pF, pF, pF, pAny, pAny]
  | 32 => [pF, pF, pF, pF, pF, pUnit]
  | 33 => [pF, pF, pF, pF, pF, pUnit, .int 0 1]
  | 34 => [pF, pF, pH]
  | 35 | 36 => [pF, pF]
  | 37 => [pF, pF, .flt (some (0, 1)) none]
  | 38 => [.int 1 256, pF, pF, .int 0 2]
  | 39 => [.int 1 256, pF, pF]
  | 40 => [.word, .word, .int 0 255, .int 1 16] ++ List.replicate (5 * ws.getD 3 0) .word
  | 41 => [.word, .word, .word, .word]
  | 42 => [.int 0 31, .int 1 32]
  | 44 | 45 => [pPos]
  | 46 => [pPos, .int 0 1]
  | 47 => [.int 0 1]
  | 48 => [.int 1 65535]
  | 49 => [pPos]
  | 50 => [pPos, .int 0 (signedOf 32 (ws.getD 0 0))]
  | 52 | 53 => [.int 1 16384]
  | 54 => [.int 1 256, .int 0 2]
  | 55 => [pUnit, .int 0 2]
  | 56 => [pUnit]
  | 57 => [.int 0 1]
  | 59 => [.int 1 24, .int 2 64, pIn (10, 1) (600, 1), pUnit]
  | 60 => [.int 4 32, .flt (some (1, 100)) none, .flt none (some (5, 1))]
  | 61 => .int 1 16 :: (List.replicate (ws.getD 0 0) [pF, pF, pF, pAny]).flatten
  | 62 => [.int 8 256, pF, pF, pIn (10, 1) (600, 1)]
  | 63 => [.flt (some (2, 1)) none]
  | 64 | 65 => [.int 0 255, .int 0 63]
  | 67 => [.int 0 63, .int 0 2]
  | 68 => [.int 0 511, .int 0 3]
  | 69 => [.int 0 255, pF]
  | 70 => [.int 0 8191]
  | 71 => [.int 0 4095]
  | _ => []

/-- The eight bytes of a word pair. -/
def pairBytes (a b : Nat) : List Nat := (leBytes 4 a ++ leBytes 4 b).map (·.toNat)

/-- Relations between parameters. -/
def paramRel (code : Nat) (ws : List Nat) : Bool :=
  let x (k : Nat) : Int := fInt (BitVec.ofNat 32 (ws.getD k 0))
  match code with
  | 11 => decide (x 0 ≤ x 1)
  | 35 => decide (x 1 ≤ x 0)
  | 36 => decide (x 0 ≤ x 1)
  | 40 =>
    let w := pairBytes (ws.getD 0 0) (ws.getD 1 0)
    w.all (· ≤ 32) && decide (w.foldl (· + ·) 0 ≤ 64)
  | _ => true

/-- A parameter record that matches the catalogue. -/
def recordOkFor (code : Nat) (ws : List Nat) : Bool :=
  (match code with
    | 40 => decide (ws.getD 3 0 ≤ 16)
    | 61 => decide (ws.getD 0 0 ≤ 16)
    | _ => true)
  && (let ks := paramKinds code ws
      ks.length == ws.length && (ks.zip ws).all (fun k => paramOk k.1 k.2)) && paramRel code ws

/-! ## Figures -/

/-- Worst-case cycles at an update firing and at another, flow-state bytes, bytes one task logs. -/
structure Figures where
  cycles : Nat
  other : Nat
  state : Nat
  writes : Nat

/-- The figures of a primitive for one parameter record. -/
def figuresOf (code : Nat) (ws : List Nat) : Figures :=
  let f (c s w : Nat) : Figures := ⟨c, c, s, w⟩
  let w0 := ws.getD 0 0
  let w1 := ws.getD 1 0
  match code with
  | 0 | 6 => f 22 0 0
  | 3 | 13 | 15 => f 30 0 0
  | 4 | 19 | 41 => f 20 0 0
  | 7 | 14 | 40 => f 24 0 0
  | 16 | 23 => f 34 0 0
  | 17 => f 36 0 0
  | 18 | 20 | 21 => f 40 0 0
  | 22 => f 48 0 0
  | 24 => f 44 0 0
  | 25 => f 48 (8 * w1 + 16) 16
  | 26 | 30 => f 40 8 8
  | 27 => f 48 8 8
  | 28 => f 44 8 8
  | 29 => f 96 16 16
  | 31 => f 56 24 24
  | 32 => f 120 16 16
  | 33 => f 200 16 16
  | 34 => f 36 8 8
  | 35 | 36 => f 22 8 8
  | 37 => f 24 8 8
  | 38 => f 30 (4 * w0 + 16) 16
  | 39 => f 32 (8 * w0 + 16) 24
  | 43 | 44 | 45 | 46 | 50 => f 20 8 8
  | 47 => f 18 8 8
  | 48 | 51 => f 20 16 16
  | 49 => f 22 16 16
  | 52 => f 30 (4 * w0 + 16) 16
  | 53 => f 34 (4 * w0 + 16) 16
  | 54 => f 560 (8 * w0 + 16) 24
  | 55 => f 30 16 16
  | 56 => f 48 40 40
  | 57 => f 60 0 0
  | 58 => f 26 16 16
  | 59 => f 180 (8 * w1 + 32) (4 * w1 + 16)
  | 60 => ⟨460000, 20, 272, 272⟩
  | 61 => ⟨3000, 20, 16 + 24 * w0, 16 + 24 * w0⟩
  | 62 => f (3 * w0 + 34) (8 * w0 + 32) (8 * w0 + 16)
  | 63 => ⟨20000, 20, 32, 32⟩
  | 64 | 70 => f 40 0 0
  | 65 => f 32 0 0
  | 66 => f 48 0 0
  | 67 | 68 | 71 => f 36 8 8
  | 69 => f 36 0 0
  | _ => f 18 0 0

/-- The figures of a template: largest over its settings groups, sizes rounded up to a multiple of 8 (R119). -/
def figures (t : Template) : Figures :=
  let fs := (if t.groups.isEmpty then [[]] else t.groups).map (figuresOf t.prim)
  let top (g : Figures → Nat) : Nat := (fs.map g).foldl max 0
  let r8 (n : Nat) : Nat := (n + 7) / 8 * 8
  ⟨top (·.cycles), top (·.other), r8 (top (·.state)), r8 (top (·.writes))⟩

end Sys2Proof.Machine
end

