-- ==== Sys2Proof/Machine/ImageFmt.lean ====
section
/-!
DEFINITION. The bytes of a structure image (R43 to R47) and of its sections, decoded under the layouts of their chapters. A
decoder answers none for bytes that do not decode or a field outside its range (R51: code 0x20).
-/
namespace Sys2Proof.Machine

/-! ## Reading fields -/

def rdN (b : Bytes) (o k : Nat) : Nat := leNat ((b.drop o).take k)
def rd8 (b : Bytes) (o : Nat) : Nat := rdN b o 1
def rd16 (b : Bytes) (o : Nat) : Nat := rdN b o 2
def rd32 (b : Bytes) (o : Nat) : Nat := rdN b o 4
/-- A MAC address in transmission order. -/
def rdMac (b : Bytes) (o : Nat) : Nat := beNat ((b.drop o).take 6)

/-- Bytes `o` to `o + k - 1` are zero. -/
def isZero (b : Bytes) (o k : Nat) : Bool := ((b.drop o).take k).all (· == 0)

/-- `n` records of `size` bytes from `off` on; none where they leave the section. -/
def rdRecs (b : Bytes) (off size n : Nat) : Option (List Bytes) :=
  if off + size * n ≤ b.length then some ((List.range n).map fun i => (b.drop (off + size * i)).take size) else none

/-- Every one of a list decoded, or none. -/
def allSome {α β : Type} (f : α → Option β) : List α → Option (List β)
  | [] => some []
  | a :: r => match f a, allSome f r with
    | some x, some xs => some (x :: xs)
    | _, _ => none

/-- Strictly rising. -/
def rising : List Nat → Bool
  | a :: b :: r => decide (a < b) && rising (b :: r)
  | _ => true

def inRange (x lo hi : Nat) : Bool := decide (lo ≤ x) && decide (x ≤ hi)

/-- A value under a condition. -/
def given {α : Type} (ok : Bool) (x : α) : Option α := if ok then some x else none

/-- Numbered records under strictly rising numbers. -/
def rdTable {α : Type} (b : Bytes) (off size n : Nat) (f : Bytes → Option (Nat × α)) : Option (Cells α) :=
  match rdRecs b off size n with
  | none => none
  | some rs => match allSome f rs with
    | none => none
    | some l => given (rising (l.map (·.1))) l

/-- Numbered records in any order, sorted by number. -/
def rdSorted {α : Type} (b : Bytes) (off size n : Nat) (f : Bytes → Option (Nat × α)) : Option (Cells α) :=
  match rdRecs b off size n with
  | none => none
  | some rs => (allSome f rs).map fun l => l.insertionSort fun x y => x.1 ≤ y.1

/-- Numbered records in any order, no number twice. -/
def rdTableAny {α : Type} (b : Bytes) (off size n : Nat) (f : Bytes → Option (Nat × α)) : Option (Cells α) :=
  match rdRecs b off size n with
  | none => none
  | some rs => match allSome f rs with
    | none => none
    | some l =>
      let keys := l.map (·.1)
      given (keys.eraseDups.length == keys.length) (l.insertionSort fun x y => x.1 ≤ y.1)

/-- A section that is only records of `size` bytes. -/
def rdAll {α : Type} (b : Bytes) (size : Nat) (f : Bytes → Option (Nat × α)) : Option (Cells α) :=
  if b.length % size ≠ 0 then none else rdTable b 0 size (b.length / size) f

/-- A zero-terminated string from `o` on, with the offset past it. -/
def rdStr (b : Bytes) (o : Nat) : Option (Bytes × Nat) :=
  let s := (b.drop o).takeWhile (· != 0)
  given (decide (o + s.length < b.length)) (s, o + s.length + 1)

/-- A binary32 word that is finite, between two bounds given as fractions. -/
def fltIn (w : Nat) (lo hi : Option (Int × Nat)) : Bool :=
  let x : F32 := BitVec.ofNat 32 w
  let y (b : Int × Nat) : Int := fInt (numOfFrac b.1 b.2).v
  fExp x != 255
    && (match lo with | some b => decide (y b ≤ fInt x) | none => true)
    && (match hi with | some b => decide (fInt x ≤ y b) | none => true)
def fltPos (w : Nat) : Bool := fltIn w none none && decide (0 < fInt (BitVec.ofNat 32 w))

/-! ## Dispatcher and engines: sections 0x0002 to 0x0006 (R78 to R82, R142) -/

/-- A routing of a template (R79). -/
def rdRouting (b : Bytes) : Option Routing :=
  let k := rd8 b 3
  given (decide (rd16 b 0 < 16384) && decide (rd8 b 2 < 8) && decide (k ≤ 4) && (k != 0 || isZero b 4 4))
    ⟨rd16 b 0, rd8 b 2, k, if k = 0 then 0 else rd32 b 4 + 1⟩

/-- The settings-group records of a parameter block (R142). -/
def rdParams (sec : Bytes) (o prim : Nat) : Option (List (List Nat)) :=
  let len := rd16 sec o
  let g := rd8 sec (o + 3)
  if o + 8 + len * g ≤ sec.length ∧ len % 4 = 0 ∧ len ≤ 4096 ∧ rd8 sec (o + 2) = prim ∧ 1 ≤ g ∧ g ≤ 8 ∧ isZero sec (o + 4) 4
  then some ((List.range g).map fun i => (List.range (len / 4)).map fun w => rd32 sec (o + 8 + len * i + 4 * w))
  else none

/-- A template record with its parameters (R78). -/
def rdTemplate (params : Bytes) (b : Bytes) : Option (Nat × Template) :=
  let nOps := rd8 b 4
  let nd := rd8 b 7
  let flow := rd16 b 8
  match allSome rdRouting ((List.range nd).map fun i => (b.drop (0x18 + 8 * i)).take 8), rdParams params (rd32 b 0xC) (rd8 b 2) with
  | some ds, some gs =>
    given (decide (rd16 b 0 < 16384) && decide (rd8 b 2 ≤ 71) && decide (rd8 b 3 < 8) && inRange nOps 1 8
        && decide (rd8 b 5 < 2 ^ nOps) && decide (nd ≤ 4) && (decide (flow < 4096) || flow == 0xFFFF)
        && (flow != 0xFFFF || rd8 b 0xA == 0) && isZero b 0xB 1 && inRange (rd16 b 0x10) 1 8192 && isZero b 0x14 4
        && isZero b (0x18 + 8 * nd) (32 - 8 * nd) && isZero b 0x38 8)
      (rd16 b 0, { num := rd16 b 0, prim := rd8 b 2, level := rd8 b 3, nOps := nOps, sticky := rd8 b 5, domain := rd8 b 6,
                   dests := ds, flow := if flow = 0xFFFF then none else some flow, flowSeq := rd8 b 0xA, ceil := rd16 b 0x10,
                   delayMax := rd16 b 0x12, groups := gs })
  | _, _ => none

def rdTemplates (sec params : Bytes) : Option (Cells Template) := rdAll sec 64 (rdTemplate params)

/-- Section 0x0002 (R80). -/
def rdBindings (sec : Bytes) : Option (Cells Nat) :=
  if sec.length % 4 ≠ 0 then none
  else rdTableAny sec 0 4 (sec.length / 4) fun b =>
    given (decide (rd8 b 2 < 16) && rd8 b 3 == 0) (rd16 b 0, rd8 b 2 + 1)

/-- Section 0x0004: `n` flow records, one for each flow that the partition's templates name, then initial states of zeros
(R81, R120). The section gives no count (log 62). -/
def rdFlows (sec : Bytes) (n : Nat) : Option (Cells FlowCfg) :=
  rdTableAny sec 0 16 n fun b =>
    given (decide (rd16 b 0 < 4096) && decide (rd8 b 2 < 16) && inRange (rd8 b 3) 1 255 && rd32 b 4 % 8 == 0
        && decide (rd32 b 4 ≤ 262144) && decide (16 * n ≤ rdN b 8 8) && decide (rdN b 8 8 + rd32 b 4 ≤ sec.length)
        && isZero sec (rdN b 8 8) (rd32 b 4))
      (rd16 b 0, (⟨rd8 b 2, rd8 b 3, rd32 b 4⟩ : FlowCfg))

/-- Section 0x0006 (R82): tick code and entries by list. -/
def rdDelayPlan (sec : Bytes) : Option (Cells DelayCfg) :=
  if sec.length ≠ 32 then none
  else rdTableAny sec 0 8 4 fun b =>
    given (decide (rd8 b 0 < 4) && decide (rd8 b 1 < 4) && isZero b 2 2 && decide (rd32 b 4 ≤ 65536))
      (rd8 b 0, ({ tick := rd8 b 1, entries := rd32 b 4 } : DelayCfg))

/-! ## Sampled values and filters: sections 0x0007 to 0x0009 (R158, R182 to R185) -/

def rdSub (b : Bytes) : Option (Nat × SubCfg) :=
  let fl := rd8 b 3
  let miss := fl / 4 % 4
  let rate := rd32 b 0x14
  given (decide (rd16 b 0 < 512) && [0, 2, 3].contains (rd8 b 2) && decide (fl < 16) && miss != 3
      && inRange (rd16 b 4) 0x4000 0x7FFF && decide (rd16 b 6 < 4096) && inRange (rd8 b 0xF) 1 8
      && [4000, 4800, 12800, 14400].contains rate && inRange (rd8 b 0x18) 1 16 && decide (rd8 b 0x19 ≤ 3)
      && inRange (rd8 b 0x1A) 1 8 && (fl.testBit 1 || rd8 b 0x1B == 0) && inRange (rd16 b 0x1C) 100 4000 && isZero b 0x1E 2
      && isZero b 0x60 32)
    (rd16 b 0, { part := rd8 b 2, localOk := fl.testBit 0, auth := fl.testBit 1, missMode := miss, appid := rd16 b 4,
                 vid := rd16 b 6, dst := rdMac b 8, ports := rd8 b 0xE, nasdu := rd8 b 0xF, confRev := rd32 b 0x10,
                 rate := rate, nch := rd8 b 0x18, w := rd8 b 0x19, holdMax := rd8 b 0x1A, key := rd8 b 0x1B,
                 h := rd16 b 0x1C, svId := (b.drop 0x20).take 64 })

/-- Section 0x0007: no two subscriptions with equal APPID, DST and SVID. -/
def rdSubs (sec : Bytes) : Option (Cells SubCfg) :=
  match rdAll sec 128 rdSub with
  | some l =>
    let ids := l.map fun s => (s.2.appid, s.2.dst, s.2.svId)
    given (ids.eraseDups.length == ids.length) l
  | none => none

def rdChan (b : Bytes) : Option (Nat × ChanCfg) :=
  let out (k : Nat) : Option (Option (Nat × Nat)) :=
    let r := (b.drop (0x10 + 8 * k)).take 8
    if rd8 r 3 = 0 then given (isZero r 4 4) none
    else given (rd8 r 3 == 1 && isZero r 4 4 && decide (rd8 r 2 < 8)) (some (rd16 r 0, rd8 r 2))
  match allSome out (List.range 8) with
  | some outs =>
    given (decide (rd16 b 0 < 4096) && decide (rd16 b 2 < 512) && decide (rd8 b 5 ≤ 2) && decide (rd16 b 6 < 1024)
        && fltIn (rd32 b 8) none none && fInt (BitVec.ofNat 32 (rd32 b 8)) != 0 && fltIn (rd32 b 0xC) (some (0, 1)) (some (1, 100))
        && isZero b 0x50 16)
      (rd16 b 0, { sub := rd16 b 2, idx := rd8 b 4, kind := rd8 b 5, group := rd16 b 6, scale := rd32 b 8,
                   extDelay := rd32 b 0xC, outs := outs })
  | none => none

def rdChans (sec : Bytes) : Option (Cells ChanCfg) := rdAll sec 96 rdChan

/-- A Palette body (R185): symmetric FIR coefficients, conjugate-symmetric window (R180). -/
def rdPalette (sec : Bytes) (o : Nat) : Option PalCfg :=
  let nfir := rd16 sec (o + 2)
  let lw := rd16 sec (o + 4)
  let ends := o + 16 + 4 * nfir + 8 * lw
  let fir := (List.range nfir).map fun i => rd32 sec (o + 16 + 4 * i)
  let win := (List.range lw).map fun i => (rd32 sec (o + 16 + 4 * nfir + 8 * i), rd32 sec (o + 20 + 4 * nfir + 8 * i))
  let v (w : Nat) : Int := fInt (BitVec.ofNat 32 w)
  let finite (w : Nat) : Bool := fltIn w none none
  given (decide (ends ≤ sec.length) && decide (rd8 sec o ≤ 1) && (rd8 sec o == 1 || rd8 sec (o + 1) == 0)
      && decide (nfir ≤ 256) && inRange lw 16 4096 && isZero sec (o + 6) 2 && isZero sec (o + 12) 4 && finite (rd32 sec (o + 8))
      && fir.all finite && win.all (fun c => finite c.1 && finite c.2)
      && fir == fir.reverse && (win.zip win.reverse).all fun c => v c.1.1 == v c.2.1 && v c.1.2 == - v c.2.2)
    { cls := rd8 sec o, rr := rd8 sec (o + 1), delay := rd32 sec (o + 8), fir := fir, win := win }

/-- Section 0x0009: `n` group records, as many as the partition's channels name groups, then the Palettes. -/
def rdGroups (sec : Bytes) (n : Nat) : Option (Cells GroupCfg) :=
  rdTable sec 0 32 n fun b =>
    let np := rd8 b 2
    let pals := if np = 2 then [rd32 b 0xC, rd32 b 0x10] else [rd32 b 0xC]
    match allSome (fun o => if o % 8 = 0 then rdPalette sec o else none) pals with
    | some ps =>
      given (decide (rd16 b 0 < 1024) && inRange np 1 2 && decide (rd8 b 3 ≤ 4) && inRange (rd8 b 4) 1 8
          && (rd8 b 4 == 1) == (rd8 b 3 == 0) && inRange (rd8 b 5) 1 8 && decide (rd8 b 6 ≤ 2)
          && (rd8 b 7 == 50 || rd8 b 7 == 60) && decide (rd16 b 8 ≤ 4096) && isZero b 0xA 2
          && (np == 2 || rd32 b 0x10 == 0) && isZero b 0x14 12)
        (rd16 b 0, { cicN := rd8 b 3, cicR := rd8 b 4, firR := rd8 b 5, freqMode := rd8 b 6, f0 := rd8 b 7, xf := rd16 b 8,
                     pals := ps })
    | none => none

/-! ## Basin: section 0x000A (R223) and the CFG-2 body (log 46) -/

/-- The rates of R201. -/
def frameRates : List Nat := [10, 12, 15, 20, 25, 30, 50, 60, 100, 120, 200, 240]

/-- One block of a CFG-2 body at `o`, big-endian as IEEE C37.118.2 lays it out, with the offset past it. -/
def rdCfgBlock (b : Bytes) (o : Nat) : Option (CfgBlock × Nat) :=
  let be16 (k : Nat) : Nat := beNat ((b.drop k).take 2)
  let be32 (k : Nat) : Nat := beNat ((b.drop k).take 4)
  let ph := be16 (o + 20)
  let an := be16 (o + 22)
  let dg := be16 (o + 24)
  let u := o + 26 + 16 * (ph + an + 16 * dg)
  let e := u + 4 * (ph + an + dg) + 4
  given (decide (ph ≤ 64) && decide (an ≤ 64) && decide (dg ≤ 16) && decide (e ≤ b.length))
    ({ format := be16 (o + 18), phUnits := (List.range ph).map fun i => be32 (u + 4 * i)
       anUnits := (List.range an).map fun i => be32 (u + 4 * ph + 4 * i), digitals := dg, fnom := be16 (e - 4) }, e)

/-- The blocks of a body from `o` on. -/
def rdCfgBlocks (b : Bytes) : Nat → Nat → Option (List CfgBlock × Nat)
  | 0, o => some ([], o)
  | n + 1, o => match rdCfgBlock b o with
    | none => none
    | some (x, e) => match rdCfgBlocks b n e with
      | some (xs, e') => some (x :: xs, e')
      | none => none

/-- A CFG-2 body, TIME_BASE to DATA_RATE. Answers it with its DATA_RATE. -/
def rdCfgBody (b : Bytes) : Option (CfgBody × Nat) :=
  let n := beNat ((b.drop 4).take 2)
  let tb := beNat ((b.drop 1).take 3)
  match rdCfgBlocks b n 6 with
  | some (bs, e) =>
    given (b.length == e + 2 && inRange n 1 255 && decide (1 ≤ tb) && isZero b 0 1)
      ({ raw := b, timeBase := tb, blocks := bs }, beNat ((b.drop e).take 2))
  | none => none

/-- Stored bytes of a block (R200). -/
def storedLen (c : CfgBlock) : Nat :=
  (4 + 8 * c.phUnits.length + 8 + 4 * c.anUnits.length + 2 * c.digitals + 3) / 4 * 4

def rdInput (sec : Bytes) (b : Bytes) : Option (Nat × InCfg) :=
  let tr := rd8 b 2
  let fl := rd8 b 3
  let ports := rd8 b 6
  let co := rd32 b 0x18
  let cl := rd32 b 0x1C
  if sec.length < co + cl then none
  else match rdCfgBody ((sec.drop co).take cl) with
    | none => none
    | some (cfg, rate) =>
      let bytes := (cfg.blocks.map storedLen).foldl (· + ·) 0
      given (decide (rd16 b 0 < 8192) && decide (tr ≤ 3) && decide (fl < 16) && inRange (rd16 b 4) 1 65534
          && (tr != 1 || [0, 1, 2, 4, 8, 16, 32, 64, 128].contains ports) && (tr != 3 || ports == 0) && (tr == 2 || rd8 b 7 == 0)
          && frameRates.contains (rd16 b 8) && rd16 b 8 == rate && rd8 b 0xA == cfg.blocks.length && (tr != 3 || rd8 b 0xA == 1)
          && isZero b 0xB 1 && (decide (tr ≠ 1 ∧ tr ≠ 3) || isZero b 0x10 4) && isZero b 0x16 2 && rd32 b 0x20 == bytes
          && rd16 b 0x24 == (bytes + 239) / 240 && isZero b 0x26 26)
        (rd16 b 0, { transport := tr, noLeap := fl.testBit 0, unlockDrop := fl.testBit 1, unlockMax := fl / 4 % 4,
                     idcode := rd16 b 4, ports := ports, key := rd8 b 7, rate := rd16 b 8, srcIp := rd32 b 0xC,
                     dstIp := rd32 b 0x10, udpPort := rd16 b 0x14, slots := rd16 b 0x24, cfg := cfg })

def rdBsnRoute (b : Bytes) : Option BsnRoute :=
  given (decide (rd8 b 3 ≤ 4) && decide (rd8 b 5 < 8) && decide (rd16 b 6 < 16384))
    ⟨rd16 b 0, rd8 b 2, rd8 b 3, rd8 b 4, rd8 b 5, rd16 b 6⟩

/-- An output record; `ins` are the section's inputs. The rules of R206, R209, R219 and R220 on it. -/
def rdOutput (sec : Bytes) (ins : Cells InCfg) (b : Bytes) : Option (Nat × OutCfg) :=
  let fl := rd8 b 1
  let rate := rd16 b 2
  let co := rd32 b 0x28
  let cl := rd32 b 0x2C
  if sec.length < co + cl then none
  else match rdRecs sec (rd32 b 0x1C) 4 (rd16 b 8), rdRecs sec (rd32 b 0x24) 8 (rd32 b 0x20), rdCfgBody ((sec.drop co).take cl) with
    | some ms, some rts, some (cfg, crate) =>
      let mem := ms.map fun x => rd32 x 0
      let blocks := (mem.map fun i => match ins.lookup i with | some c => c.cfg.blocks | none => []).flatten
      -- counts, kinds of the phasors and analogues, and nominal frequency (log 376)
      let shape (c : CfgBlock) : List Nat × List Nat × Nat × Nat :=
        (c.phUnits.map (· / 2 ^ 24), c.anUnits.map (· / 2 ^ 24), c.digitals, c.fnom % 2)
      let supp := rd32 b 0x30
      match allSome rdBsnRoute rts with
      | none => none
      | some routes =>
        let carried (r : BsnRoute) : Bool := match mem[r.member]? with
          | none => false
          | some i => match (ins.lookup i).bind fun c => c.cfg.blocks[r.block]? with
            | none => false
            | some c => match r.kind with
              | 0 => decide (r.index < c.phUnits.length)
              | 3 => decide (r.index < c.anUnits.length)
              | 4 => decide (r.index < c.digitals)
              | _ => true
        -- FORMAT: float frequency and analogues, float phasors, polar unless RECT
        let format := if fl.testBit 3 then 14 else 15
        given (decide (rd8 b 0 < 64) && decide (fl < 16) && frameRates.contains rate && inRange (rd32 b 4) 1000 2000000
            && inRange (rd16 b 8) 1 8192 && inRange (rd8 b 0xA) 1 8 && decide (rd8 b 0x1A ≤ 7) && isZero b 0x1B 1
            && decide (rd32 b 0x20 ≤ 65536) && decide (supp ≤ 1000000) && (fl.testBit 1 || supp == 0) && isZero b 0x34 12
            && mem.all (fun i => decide (i < 8192) && (ins.lookup i).isSome) && mem.eraseDups.length == mem.length
            && mem.all (fun i => match ins.lookup i with
              | some c => c.rate % rate == 0 && inRange (c.rate / rate) 1 24
              | none => false)
            && decide ((rd32 b 4 + supp) * rate + 2000000 ≤ 2000000 * rate)
            && crate == rate && cfg.blocks.map shape == blocks.map shape && cfg.blocks.all (fun c => c.format == format)
            && routes.all carried)
          (rd8 b 0, { publish := fl.testBit 0, lateSupp := fl.testBit 1, missHold := fl.testBit 2, rect := fl.testBit 3,
                      rate := rate, wait := rd32 b 4, holdMax := rd8 b 0xA, ports := rd8 b 0xB, idcode := rd16 b 0xC,
                      suppId := rd16 b 0xE, dstIp := rd32 b 0x10, dstPort := rd16 b 0x14, suppPort := rd16 b 0x16,
                      cmdPort := rd16 b 0x18, queue := rd8 b 0x1A, members := mem, routes := routes, supp := supp, cfg := cfg })
    | _, _, _ => none

/-- Section 0x000A. -/
def rdBasin (sec : Bytes) : Option (Cells InCfg × Cells OutCfg) :=
  match rdTable sec (rd32 sec 4) 64 (rd16 sec 0) (rdInput sec) with
  | none => none
  | some ins => match rdTable sec (rd32 sec 8) 64 (rd8 sec 2) (rdOutput sec ins) with
    | none => none
    | some outs =>
      let tcp := (ins.filter fun i => i.2.transport == 1).length
      let ids := ins.map (·.2.idcode) ++ outs.map (·.2.idcode)
      given (decide (32 ≤ sec.length) && inRange ins.length 1 8192 && inRange outs.length 1 64 && isZero sec 3 1 && isZero sec 0xC 20
          && decide (tcp ≤ 256) && decide ((ins.filter fun i => i.2.transport == 3).length ≤ 64)
          && outs.all (fun o => !o.2.lateSupp || !ids.contains o.2.suppId))
        (ins, outs)

/-! ## Wide-area detection: section 0x000B (R255) -/

def rdWad (sec : Bytes) : Option WadCfg :=
  let grp := rdTable sec (rd32 sec 0x28) 16 (rd8 sec 0) fun b =>
    given (decide (rd8 b 0 < 32) && decide (rd8 b 1 < 64) && !(rd16 b 2 == 0xFFFF && rd16 b 4 == 0xFFFF)
        && (rd16 b 2 != 0xFFFF || (rd16 b 6 == 0xFFFF && rd16 b 8 == 0xFFFF)) && (rd16 b 4 != 0xFFFF || rd16 b 10 == 0xFFFF)
        && isZero b 12 4)
      (rd8 b 0, (⟨rd8 b 1, rd16 b 2, rd16 b 4, rd16 b 6, rd16 b 8, rd16 b 10⟩ : WadGroup))
  let area := rdTable sec (rd32 sec 0x2C) 16 (rd8 sec 1) fun b =>
    match rdRecs sec (rd32 b 8) 8 (rd8 b 2) with
    | none => none
    | some ss =>
      given (decide (rd8 b 0 < 32) && decide (rd8 b 1 < 64) && inRange (rd8 b 2) 1 16 && inRange (rd8 b 3) 1 (rd8 b 2)
          && fltIn (rd32 b 4) (some (1, 1000)) (some (1, 1)) && isZero b 12 4 && ss.all fun s => fltPos (rd32 s 4))
        (rd8 b 0, ({ out := rd8 b 1, amin := rd8 b 3, coh := rd32 b 4,
                     signals := ss.map fun s => ⟨rd16 s 0, rd8 s 2, rd8 s 3, rd32 s 4⟩ } : AreaCfg))
  let crit := rdTable sec (rd32 sec 0x30) 32 (rd8 sec 2) fun b =>
    let v (o : Nat) : Int := fInt (BitVec.ofNat 32 (rd32 b o))
    given (decide (rd8 b 0 < 64) && decide (rd8 b 1 < 32) && decide (rd8 b 2 < 32) && rd8 b 1 != rd8 b 2 && inRange (rd8 b 3) 1 8
        && decide (1 ≤ rd16 b 4) && decide (rd16 b 6 < 512) && fltPos (rd32 b 8) && fltPos (rd32 b 12) && decide (v 12 < v 8)
        && fltIn (rd32 b 16) (some (1, 100)) (some (13176795, 4194304)) && fltIn (rd32 b 20) none (some (13176795, 4194304))
        && decide (v 16 ≤ v 20) && fltIn (rd32 b 24) (some (1, 1)) (some (60, 1)) && isZero b 28 4)
      (rd8 b 0, ({ areaA := rd8 b 1, areaB := rd8 b 2, confirm := rd8 b 3, rejoin := rd16 b 4, alm := rd16 b 6,
                   dfOn := rd32 b 8, dfOff := rd32 b 12, dangOn := rd32 b 16, angAbs := rd32 b 20, tbase := rd32 b 24 } : CritCfg))
  let alm := rdTableAny sec (rd32 sec 0x34) 16 (rd16 sec 4) fun b =>
    given (decide (rd16 b 0 < 512) && decide (rd8 b 2 ≤ 2) && decide (rd8 b 3 ≤ 3) && decide (rd8 b 4 ≤ 15) && decide (rd8 b 5 ≤ 3)
        && (rd8 b 2 == 2 || isZero b 6 4) && isZero b 10 6)
      (rd16 b 0, ({ src := rd8 b 2, sev := rd8 b 3, trig := rd8 b 4, fed := (rd8 b 5).testBit 0, latch := (rd8 b 5).testBit 1,
                    origin := rd16 b 6, remote := rd16 b 8 } : AlarmCfg))
  match grp, area, crit, alm, rdRecs sec (rd32 sec 0x38) 4 (rd16 sec 6) with
  | some g, some a, some c, some l, some rs =>
    let fl := rd8 sec 0xE
    given (decide (64 ≤ sec.length) && g.length ≤ 32 && a.length ≤ 32 && c.length ≤ 64 && (rd8 sec 3 == 50 || rd8 sec 3 == 60)
        && decide (l.length ≤ 512) && decide (rs.length ≤ 256) && decide (rd16 sec 0xC < 4096) && decide (fl < 8)
        && decide (rd8 sec 0xF ≤ 15) && (inRange (rd16 sec 0x12) 1 65534 || (rd16 sec 0x12 == 0 && !fl.testBit 2))
        && decide (rd8 sec 0x1D ≤ 7) && decide (rd8 sec 0x1F ≤ 7) && isZero sec 0x27 1 && isZero sec 0x3C 4
        && rs.all (fun r => decide (rd8 r 0 < 16) && decide (rd8 r 1 < 8) && decide (rd16 r 2 < 16384))
        && c.all (fun x => (a.lookup x.2.areaA).isSome && (a.lookup x.2.areaB).isSome))
      { f0 := rd8 sec 3, fedId := rd32 sec 8, member := rd16 sec 0xC, flags := fl, hops := rd8 sec 0xF, almPub := rd16 sec 0x10,
        almId := rd16 sec 0x12, almIp := rd32 sec 0x14, almDport := rd16 sec 0x18, almCmd := rd16 sec 0x1A,
        almPorts := rd8 sec 0x1C, almQueue := rd8 sec 0x1D, fedPorts := rd8 sec 0x1E, fedQueue := rd8 sec 0x1F,
        fedIp := rd32 sec 0x20, fedUdp := rd16 sec 0x24, fedKey := rd8 sec 0x26, groups := g, areas := a, crits := c, alarms := l,
        words := rs.map fun r => (rd8 r 0, rd16 r 2, rd8 r 1) }
  | _, _, _, _, _ => none

/-! ## Recording: section 0x000C (R369) -/

def rdRec (sec : Bytes) : Option RecCfg :=
  let defs := rdTable sec (rd32 sec 4) 96 (rd16 sec 0) fun b =>
    match rdRecs sec (rd32 b 0x1C) 2 (rd16 b 4), rdRecs sec (rd32 b 0x20) 4 (rd16 b 6) with
    | some an, some dg =>
      let pre := rd32 b 8
      let post := rd32 b 0xC
      given (decide (rd8 b 0 < 64) && decide (rd8 b 1 < 4) && decide (rd8 b 2 ≤ 3) && inRange (rd8 b 3) 1 10 && inRange (rd16 b 4) 1 256
          && decide (rd16 b 6 ≤ 256) && decide (pre < 2 ^ 31) && inRange post 1 (2 ^ 31 - 1)
          && inRange (rd32 b 0x10) (pre + post) (2 ^ 31 - 1) && decide (rd32 b 0x14 ≤ 3600000) && decide (rd8 b 0x1A < 16)
          && decide (rd8 b 0x1A % 8 ≤ 3) && isZero b 0x1B 1 && isZero b 0x44 28
          && an.all (fun x => decide (rd16 x 0 < 4096)) && dg.all (fun x => decide (rd8 x 2 < 8) && decide (rd8 x 3 < 32)))
        (rd8 b 0, ({ retrig := (rd8 b 1).testBit 0, autoExport := (rd8 b 1).testBit 1, holdMode := rd8 b 2, measCyc := rd8 b 3,
                     pre := pre, post := post, maxLen := rd32 b 0x10, holdT := rd32 b 0x14, holdN := rd16 b 0x18,
                     format := rd8 b 0x1A, ans := an.map fun x => rd16 x 0
                     digs := dg.map fun x => (rd16 x 0, rd8 x 2, rd8 x 3), name := (b.drop 0x24).take 32 } : RecDef))
    | _, _ => none
  let lvls := rdTable sec (rd32 sec 8) 32 (rd16 sec 2) fun b =>
    let v (o : Nat) : Int := fInt (BitVec.ofNat 32 (rd32 b o))
    given (decide (rd8 b 1 ≤ 1) && decide (rd8 b 2 ≤ 1) && isZero b 3 1 && decide (rd16 b 4 < 4096) && isZero b 6 2
        && fltPos (rd32 b 8) && fltIn (rd32 b 12) none none && (if rd8 b 1 = 0 then decide (v 12 ≤ v 8) else decide (v 8 ≤ v 12))
        && isZero b 0x18 8)
      (rd8 b 0, ({ under := rd8 b 1 == 1, rms := rd8 b 2 == 1, ch := rd16 b 4, l := rd32 b 8, q := rd32 b 12,
                   mask := rdN b 0x10 8 } : LvlCfg))
  match defs, lvls with
  | some d, some l =>
    given (decide (32 ≤ sec.length) && decide (d.length ≤ 64) && decide (l.length ≤ 256) && isZero sec 0xC 20)
      { defs := d, lvls := l }
  | _, _ => none

/-! ## Metering: section 0x000D (R447, R426) -/

def rdMtr (sec : Bytes) : Option MtrCfg :=
  let pts := rdTableAny sec (rd32 sec 8) 64 (rd16 sec 0) fun b =>
    given (decide (rd16 b 0 < 256) && decide (rd8 b 2 < 2) && isZero b 3 1
        && fltIn (rd32 b 4) (some (1, 1)) (some (20000000000, 1)) && isZero b 40 24)
      (rd16 b 0, ({ legal := rd8 b 2 == 1, pMax := rd32 b 4, name := (b.drop 8).take 32 } : PtCfg))
  let pqs := rdTableAny sec (rd32 sec 0xC) 32 (rd8 sec 2) fun b =>
    let n := rd8 b 1
    let chs := (List.range 4).map fun i => rd16 b (4 + 2 * i)
    let sag := rd16 b 16
    let swell := rd16 b 18
    let int := rd16 b 20
    let hyst := rd16 b 22
    given (decide (rd8 b 0 < 64) && inRange n 1 4 && isZero b 2 2 && (chs.take n).all (· < 4096) && (chs.drop n).all (· == 0xFFFF)
        && fltPos (rd32 b 12) && inRange sag 500 950 && inRange swell 1050 2000 && inRange int 10 500 && decide (int < sag)
        && decide (hyst ≤ 100) && decide (sag + hyst ≤ 1000) && decide (1000 + hyst ≤ swell) && isZero b 24 8)
      (rd8 b 0, ({ chans := chs.take n, udin := rd32 b 12, sag := sag, swell := swell, int := int, hyst := hyst } : PqCfg))
  let pls := rdTableAny sec (rd32 sec 0x10) 16 (rd8 sec 3) fun b =>
    given (decide (rd8 b 0 < 8) && decide (rd8 b 2 % 8 < 6) && decide (rd8 b 2 < 14) && decide (rd8 b 3 < 2)
        && fltIn (rd32 b 4) (some (1, 1000)) (some (1000000, 1)) && inRange (rd16 b 8) 5 10000 && isZero b 10 6)
      (rd8 b 0, ({ pt := rd8 b 1, reg := rd8 b 2, activeLow := rd8 b 3 == 1, k := rd32 b 4, pw := rd16 b 8 } : PulseCfg))
  match pts, pqs, pls with
  | some p, some q, some o =>
    -- K × P_MAX / (3.6 × 10^6) ≤ 1 / (2 × PW), PW in units of 10 µs
    let slow (x : PulseCfg) : Bool := match p.lookup x.pt with
      | none => false
      | some c => decide (fMag (BitVec.ofNat 32 x.k) * fMag (BitVec.ofNat 32 c.pMax) * x.pw ≤ 180000000000 * (fUnit * fUnit))
    given (decide (32 ≤ sec.length) && decide (p.length ≤ 256) && decide (q.length ≤ 64) && decide (o.length ≤ 8)
        && inRange (rd16 sec 4) 1 600 && isZero sec 6 2 && isZero sec 0x14 12 && o.all (fun x => slow x.2))
      { tSave := rd16 sec 4, points := p, pqs := q, pulses := o }
  | _, _, _ => none

/-! ## Outputs: sections 0x000E and 0x0010 (R265 to R267, R294) -/

/-- One side's identity: its APPID and three strings within R258. -/
def rdId (sec : Bytes) (appid dst o : Nat) : Option PubId :=
  match rdStr sec o with
  | none => none
  | some (a, o1) => match rdStr sec o1 with
    | none => none
    | some (d, o2) => (rdStr sec o2).bind fun g =>
      given (decide (appid ≤ 0x3FFF) && decide (a.length ≤ 129 ∧ d.length ≤ 129 ∧ g.1.length ≤ 129)) ⟨appid, dst, a, d, g.1⟩

def rdPub (sec : Bytes) (b : Bytes) : Option (Nat × PubCfg) :=
  let kind := rd8 b 3
  let n := rd8 b 4
  let fl := rd8 b 7
  match rdRecs sec (rd32 b 0x18) 4 n, rdId sec (rd16 b 0x20) (rdMac b 0x22) (rd32 b 0x30),
      rdId sec (rd16 b 0x28) (rdMac b 0x2A) (rd32 b 0x34) with
  | some ms, some ia, some ib =>
    given (decide (rd16 b 0 < 256) && decide (rd8 b 2 < 4) && decide (kind < 4) && decide (n ≤ 64) && (kind != 1 || n == 0)
        && decide (rd8 b 6 ≤ 7) && decide (fl < 4) && (fl.testBit 0 || rd8 b 8 == 0) && decide (rd8 b 9 < 8) && decide (rd16 b 0xA < 4096)
        && inRange (rd32 b 0x10) 500 100000 && inRange (rd32 b 0x14) 100000 60000000 && isZero b 0x1C 4 && isZero b 0x38 8
        && ms.all (fun x => decide (rd8 x 0 < 4) && decide (rd8 x 1 < 2) && isZero x 2 2) && (kind != 0 || rd8 b 2 == 0)
        && ia != ib)
      (rd16 b 0, { part := rd8 b 2, kind := kind, ports := rd8 b 5, queue := rd8 b 6, auth := fl.testBit 0, tagged := fl.testBit 1,
                   key := rd8 b 8, prio := rd8 b 9, vid := rd16 b 0xA, confRev := rd32 b 0xC, tmin := rd32 b 0x10,
                   tmax := rd32 b 0x14, members := ms.map fun x => (rd8 x 0, rd8 x 1 == 1), idA := ia, idB := ib })
  | _, _, _ => none

def rdGSub (sec : Bytes) (b : Bytes) : Option (Nat × GSubCfg) :=
  let fl := rd8 b 3
  match rdRecs sec (rd32 b 0x18) 8 (rd8 b 0xE), rdStr sec (rd32 b 0x14) with
  | some rs, some ref =>
    given (decide (rd16 b 0 < 512) && decide (rd8 b 2 < 4) && decide (fl < 4) && inRange (rd8 b 0xE) 1 16 && isZero b 0xF 1
        && isZero b 0x1C 36 && decide (rd16 b 4 ≤ 0x3FFF) && decide (ref.1.length ≤ 129)
        && rs.all fun r => decide (rd8 r 1 < 4) && decide (rd16 r 2 < 16384) && decide (rd8 r 4 < 8) && isZero r 5 3)
      (rd16 b 0, { part := rd8 b 2, auth := fl.testBit 0, sgrp := fl.testBit 1, appid := rd16 b 4, dst := rdMac b 6,
                   ports := rd8 b 0xC, key := rd8 b 0xD, confRev := rd32 b 0x10, gocbRef := ref.1,
                   routes := rs.map fun r => ⟨rd8 r 0, rd8 r 1, rd16 r 2, rd8 r 4⟩ })
  | _, _ => none

/-- Section 0x000E: the common fields, publications, subscriptions. -/
def rdOutputs (sec : Bytes) : Option (OutHdr × Cells PubCfg × Cells GSubCfg) :=
  match rdTable sec (rd32 sec 4) 64 (rd16 sec 0) (rdPub sec), rdTable sec (rd32 sec 8) 64 (rd16 sec 2) (rdGSub sec) with
  | some ps, some ss =>
    given (decide (64 ≤ sec.length) && decide (ps.length ≤ 256) && decide (ss.length ≤ 512) && inRange (rd16 sec 0x16) 100 2000
        && decide (1 ≤ rd16 sec 0x18) && inRange (rd16 sec 0x1A) 20 150 && decide (rd16 sec 0x1C ≤ 3600) && isZero sec 0x20 32
        && decide ((ps.filter fun p => p.2.kind == 1).length ≤ 1) && (decide (rd16 sec 0x1E ≤ 255) || rd16 sec 0x1E == 0xFFFF))
      ({ pairId := rd16 sec 0xC, refPorts := rd8 sec 0xE, refKey := rd8 sec 0xF, refIp := rd32 sec 0x10, refUdp := rd16 sec 0x14,
         hbWait := rd16 sec 0x16, tkoCycles := rd16 sec 0x18, verdictWait := rd16 sec 0x1A, revertHold := rd16 sec 0x1C,
         hbPub := rd16 sec 0x1E }, ps, ss)
  | _, _ => none

/-- Section 0x0010 of a pair image, or of a referee image. -/
def rdRed (referee : Bool) (sec : Bytes) : Option RedCfg :=
  let n := rd16 sec 8
  match rdRecs sec 16 4 n with
  | some rs =>
    given (sec.length == 16 + 4 * n && inRange n 1 256 && isZero sec 10 6
        && rs.all fun r => if referee then isZero r 2 2 else rd8 r 3 == 0)
      { id := rdN sec 0 8, entries := rs.map fun r => (rd16 r 0, if referee then 0 else rd8 r 2) }
  | none => none

/-! ## Ports: section 0x000F (R360) -/

/-- Section 0x000F. A pair or port number that stands twice is left for PORT_MAP to refuse. -/
def rdPortMap (sec : Bytes) : Option PortMap :=
  let n := rd8 sec 0
  let pairs := rdSorted sec 16 16 4 fun b =>
    given (decide (rd8 b 0 < 4) && decide (rd8 b 1 < 3) && inRange (rd16 b 2) 100 10000 && inRange (rd16 b 4) 1 600 && isZero b 7 9)
      (rd8 b 0, ({ mode := rd8 b 1, supIntv := rd16 b 2, forget := rd16 b 4, supOctet := rd8 b 6 } : PairCfg))
  let ports := rdSorted sec 80 48 8 fun b =>
    let fl := rd8 b 2
    let vids := (List.range 8).map fun i => rd16 b (0x14 + 2 * i)
    given (decide (rd8 b 0 < 8) && decide (rd8 b 1 < 4) && decide (fl < 32) && decide (rd8 b 3 ≤ 30) && inRange (rd16 b 4) 1518 9216
        && vids.all (· < 4096) && isZero b 0x24 12)
      (rd8 b 0, ({ mode := rd8 b 1, anEn := fl.testBit 0, pauseObey := fl.testBit 1, errDeliver := fl.testBit 2,
                   shared := fl.testBit 3, vlanFilter := fl.testBit 4, pfx := rd8 b 3, mtu := rd16 b 4, mac := rdMac b 6,
                   ip := rd32 b 0xC, gw := rd32 b 0x10, vids := vids.filter (· ≠ 0) } : PortCfg))
  match pairs, ports, rdRecs sec (rd32 sec 4) 16 n with
  | some pr, some po, some cs =>
    given (decide (n ≤ 64) && isZero sec 1 3 && isZero sec 8 8
        && cs.all fun c => decide (rd8 c 10 < 2) && decide (rd8 c 12 ≤ 2) && isZero c 13 3)
      { pairs := pr, ports := po
        classes := cs.map fun c => ⟨rd16 c 0, rd16 c 2, rdMac c 4, rd8 c 10 == 1, rd8 c 11, rd8 c 12⟩ }
  | _, _, _ => none

/-! ## Names: section 0x0011 (R498) -/

/-- The name map: (kind, number, reference). -/
def rdNames (sec : Bytes) : Option (List (Nat × Nat × Bytes)) :=
  match rdRecs sec 16 8 (rd32 sec 0) with
  | none => none
  | some es =>
    let one (b : Bytes) : Option (Nat × Nat × Bytes) := match rdStr sec (rd32 b 4) with
      | some s => given (inRange (rd8 b 0) 1 9 && rd8 b 1 == 0 && decide (s.1.length ≤ 129)) (rd8 b 0, rd16 b 2, s.1)
      | none => none
    if isZero sec 4 12 ∧ 16 ≤ sec.length then allSome one es else none

end Sys2Proof.Machine
end

