-- ==== Sys2Proof/Machine/Container.lean ====
section
/-!
DEFINITION. The container of a structure image: its header, section table, verification and decoding (R43 to R50).
-/
namespace Sys2Proof.Machine

/-! ## Header and section table (R44, R45) -/

def hKind (b : Bytes) : Nat := rd8 b 8
def hMask (b : Bytes) : Nat := rd8 b 9
def hTarget (b : Bytes) : Nat := rd8 b 0xA
def hReferee (b : Bytes) : Bool := (rd8 b 0xB).testBit 0
def hVersion (b : Bytes) : Nat := rd16 b 0xC
def hTotal (b : Bytes) : Nat := rdN b 0x10 8
def hStation (b : Bytes) : Bytes := (b.drop 0x28).take 32
def hImageId (b : Bytes) : Nat := rdN b 0x48 16
def hKeyId (b : Bytes) : Nat := rd32 b 0x5C
def hSigAlg (b : Bytes) : Nat := rd16 b 0x60

/-- A section table entry. -/
structure Sec where
  type : Nat
  part : Nat
  off : Nat
  len : Nat
  digest : Bytes
  zeroOk : Bool
  deriving DecidableEq, Repr, Inhabited

def secAt (b : Bytes) (i : Nat) : Sec :=
  let e := (b.drop (rd32 b 0x1C + 64 * i)).take 64
  ⟨rd16 e 0, rd8 e 2, rdN e 8 8, rdN e 0x10 8, (e.drop 0x18).take 32, isZero e 3 5 && isZero e 0x38 8⟩

def secTable (b : Bytes) : List Sec := (List.range (rd32 b 0x18)).map (secAt b)
def secBytes (b : Bytes) (s : Sec) : Bytes := (b.drop s.off).take s.len

/-- The partition codes a section type admits (R46); none for a type that is not in the table. -/
def typeParts (type : Nat) : List Nat :=
  if type = 6 ∨ type = 0xF then [0xFF]
  else if type = 7 ∨ type = 8 ∨ type = 9 then [0, 2, 3]
  else if type = 0xA ∨ type = 0xB then [1]
  else if type = 0xC then [3]
  else if type = 0xD then [2]
  else if type = 0x10 then [0]
  else if 1 ≤ type ∧ type ≤ 0x11 then [0, 1, 2, 3]
  else []

/-- Ascending offsets without overlap. -/
def secsApart : List Sec → Bool
  | a :: c :: r => decide (a.off < c.off) && decide (a.off + a.len ≤ c.off) && secsApart (c :: r)
  | _ => true

/-- R47. -/
def kindOk (b : Bytes) (l : List Sec) : Bool :=
  let count (t p : Nat) : Nat := (l.filter fun s => s.type == t && s.part == p).length
  let named (p : Nat) : Bool := (hMask b).testBit p
  let parts := (List.range 4).all fun p => count 1 p == if named p then 1 else 0
  let inside := l.all fun s => s.part == 0xFF || named s.part
  if hKind b = 1 then parts && inside && count 6 0xFF == 1 && count 0xF 0xFF == 1
  else parts && inside && l.all (·.part != 0xFF) && hMask b != 0

/-- Step 1 of R48. A KIND other than 1 and 2 fails here; DESIGN CHOICE (log 354): the spec gives such a KIND no code of its own. -/
def formOk (b : Bytes) : Bool :=
  let n := rd32 b 0x18
  decide (256 ≤ b.length) && rd32 b 0 == 0x4D495A50 && rd16 b 4 == 2 && rd16 b 6 == 256 && (hKind b == 1 || hKind b == 2)
    && decide (hMask b < 16) && decide (hTarget b < 4) && decide (rd8 b 0xB < 2) && isZero b 0xE 2 && isZero b 0x62 158
    && inRange n 1 4096 && decide (rd32 b 0x1C + 64 * n ≤ b.length)
    && (let l := secTable b
        l.all (fun s => decide (s.off + s.len ≤ b.length) && s.off % 64 == 0 && s.zeroOk && (typeParts s.type).contains s.part)
          && secsApart l && kindOk b l)

/-- The 128-byte signature block (R49). -/
def sigOk (b : Bytes) (key : Bytes) : Bool :=
  let body := b.take (b.length - 128)
  let sig := b.drop (b.length - 128)
  rd32 sig 0 == hSigAlg b && hSigAlg b == 1 && rd32 sig 4 == 96 && isZero sig 104 24 && ecdsaOk key ((sig.drop 8).take 96) body

/-- The key slot that a KEY_ID names. -/
def slotOfKid (m : Mod) (kid : Nat) : Option Nat :=
  (List.range 256).find? fun i => (keySlot m i).state ≠ .empty && (keySlot m i).kid == kid

/-- Verification of a container (R48): 0, or the code of the first check that fails. -/
def verifyImage (m : Mod) (b : Bytes) : Mod × Nat :=
  if !formOk b then (m, 1)
  else if hTotal b ≠ b.length ∨ 536870912 < hTotal b then (m, 2)
  else if !(hTarget b).testBit (if m.factory.orderL then 1 else 0) then (m, 3)
  else if !(secTable b).all fun s => sha256 (secBytes b s) == s.digest then (m, 4)
  else match slotOfKid m (hKeyId b) with
    | none => (m, 5)
    | some i =>
      if (keySlot m i).policy ≠ 2 then (m, 6)
      else
        let m := checkTag m i
        if !slotLive (keySlot m i) then (m, 7)
        else if !sigOk b (keySlot m i).cur then (m, 8)
        else if (List.range 4).any fun p => (hMask b).testBit p && decide (hVersion b < tabGet m.img.floors p) then (m, 9)
        else (m, 0)

/-! ## Decoding -/

/-- A partition's sections of a type, as the section table lists them. -/
def secsOf (b : Bytes) (p type : Nat) : List Bytes :=
  ((secTable b).filter fun s => s.type == type && s.part == p).map (secBytes b)

/-- A section that may be missing, decoded; none where it does not decode or its type stands twice. A section that stands in
the table with length zero is decoded as it is, never taken for a missing one (R51). -/
def secAs {α : Type} (b : Bytes) (p type : Nat) (dflt : α) (f : Bytes → Option α) : Option α :=
  match secsOf b p type with
  | [] => some dflt
  | [s] => f s
  | _ => none

/-- A section's bytes, empty where it is missing; none where its type stands twice. -/
def secOf (b : Bytes) (p type : Nat) : Option Bytes := secAs b p type [] some

/-- The rates a master stream may have (R158, R159). -/
def masterRates : List Nat := [4000, 4800, 12800, 14400]

/-- Dispatcher and engine sections of a partition. -/
def rdGraph (b : Bytes) (p : Nat) (i : PartImage) : Option PartImage :=
  match secOf b p 5 with
  | none => none
  | some params => match secAs b p 3 [] fun s => rdTemplates s params with
    | none => none
    | some ts =>
      let flows := (ts.filterMap fun t => t.2.flow).eraseDups.length
      match secAs b p 2 [] rdBindings, secAs b p 4 [] (fun s => rdFlows s flows) with
      | some bs, some fs => some { i with templates := ts, bound := bs, flows := fs }
      | _, _ => none

/-- Ingress sections. -/
def rdIngress (b : Bytes) (p : Nat) (i : PartImage) : Option PartImage :=
  match secAs b p 7 [] rdSubs, secAs b p 8 [] rdChans with
  | some ss, some cs =>
    let n := (cs.map fun c => c.2.group).eraseDups.length
    (secAs b p 9 [] fun s => rdGroups s n).map fun gs => { i with subs := ss, chans := cs, groups := gs }
  | _, _ => none

/-- Sections of one partition each. -/
def rdOwn (b : Bytes) (p : Nat) (i : PartImage) : Option PartImage :=
  match secAs b p 0xA ([], []) rdBasin, secAs b p 0xB {} rdWad, secAs b p 0xC {} rdRec, secAs b p 0xD {} rdMtr with
  | some (ins, outs), some w, some r, some t => some { i with ins := ins, outs := outs, wad := w, rec_ := r, mtr := t }
  | _, _, _, _ => none

/-- Outputs, referee reduction and names. -/
def rdOuts (b : Bytes) (p : Nat) (i : PartImage) : Option PartImage :=
  match secAs b p 0xE ({}, [], []) rdOutputs, secAs b p 0x10 none (fun s => (rdRed (hReferee b) s).map some),
      secAs b p 0x11 [] rdNames with
  | some (h, ps, ss), some r, some ns => some { i with outHdr := h, hasOut := !(secsOf b p 0xE).isEmpty, pubs := ps, gsubs := ss, red := r, names := ns }
  | _, _, _ => none

/-- The image of a partition that a container holds; none where a section does not decode (R51). -/
def rdPart (b : Bytes) (p : Nat) : Option PartImage :=
  match (secOf b p 1).bind Config.partDescr with
  | none => none
  | some d =>
    let i : PartImage := { imageId := hImageId b, referee := hReferee b, station := hStation b, rate := if p = 1 then 0 else d.rate
                           homeSet := d.homeSet % 65536, reserve := (d.slots, d.ceil, d.tasks)
                           raw := ((secTable b).filter fun s => s.part == p).map (secBytes b) }
    (given (p == 1 || masterRates.contains d.rate) i).bind fun i =>
      (rdGraph b p i).bind fun i => (rdIngress b p i).bind fun i => (rdOwn b p i).bind fun i => rdOuts b p i

/-- The common sections of a full image. -/
def rdCommon (b : Bytes) : Option Common :=
  match (secOf b 0xFF 0xF).bind rdPortMap, (secOf b 0xFF 6).bind rdDelayPlan with
  | some p, some d => some { ports := p, delays := d }
  | _, _ => none

end Sys2Proof.Machine
end

