-- ==== Sys2Proof/Machine/Structure.lean ====
section
/-!
DEFINITION. The structural rules of admission, code 0x20 (R41, R42, R51 and the rules of the chapters that name that code), and the
payload types of a graph (R126).
-/
namespace Sys2Proof.Machine

/-- The images that admission evaluates together: partitions and common sections (R51). -/
structure Uni where
  parts : Cells PartImage
  common : Common
  deriving Inhabited

def Uni.img (u : Uni) (p : Nat) : PartImage := (u.parts.lookup p).getD {}
def Uni.has (u : Uni) (p : Nat) : Bool := (u.parts.lookup p).isSome

/-- Every template with its partition. -/
def Uni.tmpls (u : Uni) : List (Nat × Template) := (u.parts.map fun x => x.2.templates.map fun t => (x.1, t.2)).flatten
def Uni.tmpl (u : Uni) (n : Nat) : Option (Nat × Template) := u.tmpls.find? fun x => x.2.num == n
def Uni.subs (u : Uni) : List (Nat × SubCfg) := (u.parts.map fun x => x.2.subs).flatten
def Uni.chans (u : Uni) : List (Nat × ChanCfg) := (u.parts.map fun x => x.2.chans).flatten
def Uni.groups (u : Uni) : List (Nat × GroupCfg) := (u.parts.map fun x => x.2.groups).flatten
def Uni.pubs (u : Uni) : List (Nat × PubCfg) := (u.parts.map fun x => x.2.pubs).flatten
def Uni.gsubs (u : Uni) : List (Nat × GSubCfg) := (u.parts.map fun x => x.2.gsubs).flatten

/-- No element twice. -/
def once (l : List Nat) : Bool := l.eraseDups.length == l.length

/-! ## Edges (R41, R72 to R77) -/

/-- Where the tokens of an edge come from: a template, a stream of a domain, or an asynchronous source. -/
inductive EdgeSrc where
  | task (t : Template)
  | stream (dom : Nat)
  | async

/-- An edge of the graph. `free` marks the edges that may cross partitions: those of record trigger, alarm and meter accumulate,
and of alarm words (R41, R249). -/
structure Edge where
  part : Nat
  src : EdgeSrc
  ty : Option Nat
  delayed : Bool
  free : Bool
  target : Nat
  op : Nat

/-- Type code of a GOOSE member. -/
def memberType (ty : Nat) : Nat := match ty with
  | 2 => 1
  | 3 => 2
  | _ => 0

/-- Type code of a Basin signal kind (R220). -/
def signalType (kind : Nat) : Nat := match kind with
  | 0 => 2
  | 4 => 0
  | _ => 1

def taskEdges (p : Nat) (t : Template) : List Edge :=
  t.dests.map fun r => ⟨p, .task t, none, r.kind != 0, t.prim == 67 || t.prim == 68 || t.prim == 69, r.target, r.op⟩

/-- The active routings of a channel (R183). -/
def chanEdges (p : Nat) (c : ChanCfg) : List Edge :=
  (c.outs.zip (List.range 8)).filterMap fun x => x.1.map fun r =>
    ⟨p, if x.2 = 3 ∨ x.2 = 4 then .async else .stream p, some (if x.2 = 1 ∨ x.2 = 2 then 2 else 1), false, false, r.1, r.2⟩

def partEdges (p : Nat) (i : PartImage) : List Edge :=
  (i.templates.map fun t => taskEdges p t.2).flatten ++ (i.chans.map fun c => chanEdges p c.2).flatten
    ++ (i.outs.map fun o => o.2.routes.map fun r => (⟨p, .stream (4 + o.1), some (signalType r.kind), false, false, r.target, r.op⟩ : Edge)).flatten
    ++ (i.gsubs.map fun s => s.2.routes.map fun r => (⟨p, .async, some (memberType r.type), false, false, r.target, r.op⟩ : Edge)).flatten
    ++ i.wad.words.map fun w => (⟨p, .async, some 0, false, true, w.2.1, w.2.2⟩ : Edge)

def Uni.edges (u : Uni) : List Edge := (u.parts.map fun x => partEdges x.1 x.2).flatten

/-- The edge's target exists, in its own partition unless it may cross, and is matched or sticky as R74, R75 and R77 ask. -/
def edgeOk (u : Uni) (e : Edge) : Bool :=
  match u.tmpl e.target with
  | none => false
  | some (q, t) =>
    decide (e.op < t.nOps) && (e.part == q || e.free) && (match e.src with
      | .task s => if e.delayed then isSticky t e.op else isSticky t e.op == (s.domain != t.domain)
      | .stream d => !isSticky t e.op && d == t.domain
      | .async => isSticky t e.op)

/-- Edges into one operand. -/
def edgesTo (es : List Edge) (t op : Nat) : List Edge := es.filter fun e => e.target == t && e.op == op

/-- Domain and partition agree (R72). -/
def domainOk (u : Uni) (p : Nat) (t : Template) : Bool :=
  if p = 1 then decide (4 ≤ t.domain) && ((u.img 1).outs.lookup (t.domain - 4)).isSome else t.domain == p

/-- At least one matched operand, and each with exactly one producer (R73, R74, R77). -/
def matchedOk (es : List Edge) (t : Template) : Bool :=
  !(matchedOps t).isEmpty && (matchedOps t).all fun k => (edgesTo es t.num k).length == 1

/-- Matched edges between templates, as (from, to). -/
def matchedPairs (u : Uni) (es : List Edge) : List (Nat × Nat) :=
  es.filterMap fun e => match e.src, u.tmpl e.target with
    | .task s, some (_, t) => if !e.delayed && !isSticky t e.op then some (s.num, t.num) else none
    | _, _ => none

/-- Templates left when those without a predecessor among the rest are taken away, at most `fuel` times. -/
def peel (ps : List (Nat × Nat)) : Nat → List Nat → List Nat
  | 0, l => l
  | n + 1, l =>
    let r := l.filter fun t => ps.any fun x => x.2 == t && l.contains x.1
    if r.length = l.length then l else peel ps n r

/-- Templates that reach one of `l` through matched edges. -/
def reachBack (ps : List (Nat × Nat)) : Nat → List Nat → List Nat
  | 0, l => l
  | n + 1, l =>
    let r := (l ++ (ps.filter fun x => l.contains x.2).map (·.1)).eraseDups
    if r.length = l.length then l else reachBack ps n r

/-! ## Types (R126) -/

/-- The type that an operand's producers bring. -/
def broughtType (res : Cells (Option Nat)) (es : List Edge) (t op : Nat) : Option Nat :=
  ((edgesTo es t op).filterMap fun e => match e.ty, e.src with
    | some x, _ => some x
    | none, .task s => tabGet res s.num
    | none, _ => none).head?

def maskType (mask : Nat) : Option Nat := match mask with
  | 1 => some 0
  | 2 => some 1
  | 4 => some 2
  | _ => none

def firstWord (t : Template) : Nat := (t.groups.headD []).headD 0

/-- The operand types of a template as far as they are settled. -/
def operandTypes (res : Cells (Option Nat)) (es : List Edge) (t : Template) : List (Option Nat) :=
  (List.range t.nOps).map fun k => match broughtType res es t.num k with
    | some x => some x
    | none => maskType (opMask t.prim (firstWord t) t.nOps k)

/-- Result types, settled round by round. -/
def settleTypes (u : Uni) (es : List Edge) : Nat → Cells (Option Nat) → Cells (Option Nat)
  | 0, res => res
  | n + 1, res =>
    let new := u.tmpls.foldl (fun r x => tabSet r x.2.num (resOf x.2.prim (firstWord x.2) (operandTypes r es x.2))) res
    if new = res then res else settleTypes u es n new

/-- Operand types of a settled template; a sticky operand without a producer takes the first settled type. -/
def finalTypes (res : Cells (Option Nat)) (es : List Edge) (t : Template) : List Nat :=
  let l := operandTypes res es t
  let d := (l.filterMap id).headD 0
  l.map (·.getD d)

/-- The first parameter word of each settings group: the mode of a primitive whose types depend on it. -/
def firstWords (t : Template) : List Nat := (if t.groups.isEmpty then [[]] else t.groups).map (·.headD 0)

/-- Types that match the catalogue, on every edge and within the template, in every settings group (R126, R145). -/
def typesOk (res : Cells (Option Nat)) (es : List Edge) (t : Template) : Bool :=
  let tys := finalTypes res es t
  let brought (e : Edge) : Option Nat := match e.ty, e.src with
    | some x, _ => some x
    | none, .task s => tabGet res s.num
    | none, _ => none
  (tabGet res t.num).isSome && typesAgree t.prim tys
    && (firstWords t).all (fun w => resOf t.prim w (tys.map some) == tabGet res t.num)
    && (tys.zip (List.range t.nOps)).all fun x =>
      (firstWords t).all (fun w => (opMask t.prim w t.nOps x.2).testBit x.1) && (edgesTo es t.num x.2).all fun e => brought e == some x.1

/-- A partition's templates with their types settled. -/
def typedImage (u : Uni) (p : Nat) : PartImage :=
  let es := u.edges
  let res := settleTypes u es (u.tmpls.length + 1) []
  let i := u.img p
  { i with templates := i.templates.map fun t =>
      (t.1, { t.2 with opTypes := finalTypes res es t.2, resType := (tabGet res t.1).getD 0 }) }

/-! ## Templates, flows, bindings (R42, R80, R81, R119, R120, R142 to R144) -/

/-- Count and stickiness of operands, parameter records, partition of the primitive (R73, R132, R144, R147, R221). -/
def templateOk (count p : Nat) (t : Template) : Bool :=
  opCountOk t.prim t.nOps && (List.range t.nOps).all (fun k => !mustStick t.prim k || isSticky t k)
    && (t.groups.length == 1 || t.groups.length == count) && t.groups.all (recordOkFor t.prim)
    && (decide (t.prim < 59 ∨ 63 < t.prim) || p == 1) && (t.prim != 70 || p != 1)
    && (t.flow.isSome || (figures t).state == 0)

/-- Templates of a flow, in ascending FLOW_SEQ. -/
def flowMembers (i : PartImage) (f : Nat) : List Template :=
  ((i.templates.filter fun t => t.2.flow == some f).map (·.2)).insertionSort fun a b => a.flowSeq ≤ b.flowSeq

def flowOk (i : PartImage) (f : Nat) (c : FlowCfg) : Bool :=
  let ts := flowMembers i f
  ts.length == c.nTempl && once (ts.map (·.flowSeq)) && ts.all (fun t => t.domain == (ts.headD default).domain)
    && (ts.map fun t => (figures t).state).foldl (· + ·) 0 == c.stateLen && i.homeSet.testBit c.home

def graphOk (i : PartImage) (p : Nat) : Bool :=
  let count := (i.templates.map fun t => t.2.groups.length).foldl max 1
  i.templates.all (fun t => templateOk count p t.2) && i.flows.all (fun f => flowOk i f.1 f.2)
    && i.templates.all (fun t => match t.2.flow with
      | some f => (i.flows.lookup f).isSome
      | none => true)
    && i.bound.all fun b => b.2 == 0 || ((i.templates.lookup b.1).isSome && i.homeSet.testBit (b.2 - 1))

/-! ## Modal and periodogram flows (R150, R229 to R231) -/

/-- `b` takes the result of `a` as a matched operand. -/
def feeds (a b : Template) : Bool := a.dests.any fun r => r.kind == 0 && r.target == b.num && !isSticky b r.op

/-- Each of a list is fed by the one before it. -/
def chained : List Template → Bool
  | a :: b :: r => feeds a b && chained (b :: r)
  | _ => true

/-- Parameter word `k` of a template in settings group `g`; a template with one record has it in every group (R145). -/
def wordIn (t : Template) (g k : Nat) : Nat := (t.groups.getD (if t.groups.length = 1 then 0 else g) []).getD k 0

/-- Such a word as a binary32, in multiples of `fUnit`. -/
def fltIn32 (t : Template) (g k : Nat) : Int := fInt (BitVec.ofNat 32 (wordIn t g k))

/-- The binary32 nearest to `n / d`, in multiples of `fUnit`: relations between binary32 parameters are taken against the
nearest binary32 of their bound, as the ranges of the catalogue are (log 277). -/
def nearest (n : Int) (d : Nat) : Int := fInt (numOfFrac n d).v

/-- The list's templates have the same words `ks` in settings group `g`. -/
def sameWords (ts : List Template) (g : Nat) (ks : List Nat) : Bool :=
  ks.all fun k => ts.all fun t => wordIn t g k == wordIn (ts.headD default) g k

/-- Settings groups that any of the list's templates has a record for. -/
def groupsOf (ts : List Template) : List Nat := List.range ((ts.map (·.groups.length)).foldl max 1)

/-- The list's templates stand at FLOW_SEQ 0, 1, 2 … (R229). -/
def numbered (ts : List Template) : Bool := ts.map (·.flowSeq) == List.range ts.length

/-- The relations of R150 and R231 for the accumulators and the fit of a modal flow in settings group `g`:
10 ≤ fa ≤ 50, W ≥ 2 / fmin, fmax ≤ fa / 2, with fa = F_out / D. -/
def modalRel (rate : Nat) (accs : List Template) (fit : Template) (g : Nat) : Bool :=
  let acc := accs.headD default
  let d := wordIn acc g 0
  sameWords accs g [0, 1, 2] && decide (10 * d ≤ rate) && decide (rate ≤ 50 * d)
    && decide (nearest (2 * fUnit) (fltIn32 fit g 1).toNat ≤ fltIn32 acc g 2) && decide (fltIn32 fit g 2 ≤ nearest rate (2 * d))

/-- The form of a flow that holds modal kernels; `rate` is its domain's frame rate. -/
def modalForm (rate : Nat) (ts : List Template) : Bool :=
  let accs := ts.takeWhile (·.prim == 59)
  let n := accs.length
  inRange n 1 64 && numbered accs && (ts.drop n).map (·.prim) == [60, 61, 68] && chained (ts.drop (n - 1))
    && (ts.getLast?.map fun a => (ts.drop (n + 1)).head?.map fun k => k.dests.any fun r => r.kind == 0 && r.target == a.num && r.op == 0) == some (some true)
    && (groupsOf ts).all (modalRel rate accs ((ts.drop n).headD default))

/-- The relations of R231 for the accumulators of a periodogram flow in settings group `g`: flo ≥ 0.01,
flo + (B − 1) · df ≤ 5, df ≥ 1 / W. -/
def pgramRel (accs : List Template) (g : Nat) : Bool :=
  let acc := accs.headD default
  sameWords accs g [0, 1, 2, 3] && decide (nearest 1 100 ≤ fltIn32 acc g 1)
    && decide (nearest (fltIn32 acc g 1 + (wordIn acc g 0 - 1 : Nat) * fltIn32 acc g 2) fUnit ≤ nearest 5 1)
    && decide (nearest fUnit (fltIn32 acc g 3).toNat ≤ fltIn32 acc g 2)

def pgramForm (ts : List Template) : Bool :=
  let accs := ts.takeWhile (·.prim == 62)
  let n := accs.length
  let test := (ts.drop (n + 1)).dropLast
  inRange n 1 64 && numbered accs && ((ts.drop n).headD default).prim == 63 && (ts.getLast?.map (·.prim)) == some 68
    && chained (ts.drop (n - 1) |>.take 2) && !test.isEmpty && test.all (fun t => inRange t.prim 35 50)
    && test.any (fun t => t.dests.any fun r => r.kind == 0 && r.target == (ts.getLast?.map (·.num)).getD 0xFFFF && r.op == 0)
    && (groupsOf ts).all (pgramRel accs)

/-- Every flow with modal kernels has a form of R229. -/
def kernelFlowsOk (i : PartImage) : Bool :=
  i.flows.all fun f =>
    let ts := flowMembers i f.1
    let rate := match i.outs.lookup ((ts.headD default).domain - 4) with
      | some o => o.rate
      | none => 0
    if ts.any fun t => inRange t.prim 59 61 then modalForm rate ts
    else if ts.any fun t => t.prim == 62 || t.prim == 63 then pgramForm ts
    else true

/-- What feeds the accumulators of a flow: templates or Basin routings, each as a number. -/
def accSources (i : PartImage) (ts : List Template) : List (Nat × Nat × Nat) :=
  (ts.map fun a => (i.templates.filter fun t => t.2.dests.any fun r => r.kind == 0 && r.target == a.num).map fun t => (0, t.1, 0)).flatten
    ++ (i.outs.map fun o => (o.2.routes.filter fun r => ts.any fun a => a.num == r.target).map fun r =>
        (1 + r.member, r.block * 8 + r.kind, r.index)).flatten

/-- An analysis group's records (R229, R230, R255). -/
def groupOk (i : PartImage) (g : WadGroup) : Bool :=
  let m := flowMembers i g.mflow
  let p := flowMembers i g.pflow
  let has (ts : List Template) (n prim : Nat) : Bool := ts.any fun t => t.num == n && t.prim == prim
  let accs (ts : List Template) (c : Nat) : List Template := ts.filter (·.prim == c)
  (g.mflow == 0xFFFF || (has m g.fit 60 && has m g.track 61)) && (g.pflow == 0xFFFF || has p g.peak 63)
    && (m ++ p).all (fun t => t.domain == 4 + g.out)
    && (g.mflow == 0xFFFF || g.pflow == 0xFFFF
      || (accSources i (accs p 62)).all fun s => (accSources i (accs m 59)).contains s)

/-! ## Wide-area detection (R235, R239, R241, R247) -/

/-- A signal's member, block and phasor exist. -/
def signalOk (i : PartImage) (o : OutCfg) (s : IslSignal) : Bool :=
  match (o.members[s.member]?).bind fun n => (i.ins.lookup n).bind fun c => c.cfg.blocks[s.block]? with
  | some b => decide (s.phasor < b.phUnits.length)
  | none => false

def areaOk (i : PartImage) (a : AreaCfg) : Bool := match i.outs.lookup a.out with
  | some o => a.signals.all (signalOk i o)
  | none => false

/-- SLOTS over the distinct members that an output's areas name (R238). -/
def areaSlots (i : PartImage) (out : Nat) : Nat :=
  let ms := ((i.wad.areas.filter fun a => a.2.out == out).map fun a => a.2.signals.map (·.member)).flatten.eraseDups
  match i.outs.lookup out with
  | some o => (ms.map fun k => match (o.members[k]?).bind fun n => i.ins.lookup n with | some c => c.slots | none => 0).foldl (· + ·) 0
  | none => 0

/-- (CONFIRM − 1) / F_out + E ≤ 2 / F0, E = 3 µs + 32 ns × R, in ns. -/
def critOk (i : PartImage) (c : CritCfg) : Bool :=
  match i.wad.areas.lookup c.areaA, i.wad.areas.lookup c.areaB with
  | some a, some b =>
    let f := match i.outs.lookup a.out with | some o => o.rate | none => 1
    a.out == b.out && decide ((c.confirm - 1) * 1000000000 * i.wad.f0 + (3000 + 32 * areaSlots i a.out) * f * i.wad.f0 ≤ 2000000000 * f)
  | _, _ => false

/-- ALARM templates that name an alarm, with their severities over all settings groups. -/
def alarmTmpls (u : Uni) (a : Nat) : List (List Nat) :=
  (u.tmpls.filter fun x => x.2.prim == 68 && x.2.groups.any fun g => g.getD 0 0 == a).map fun x => x.2.groups.map (·.getD 1 0)

def alarmOk (u : Uni) (a : Nat) (c : AlarmCfg) : Bool :=
  let ts := alarmTmpls u a
  let cs := ((u.img 1).wad.crits.filter fun x => x.2.alm == a).length
  match c.src with
  | 0 => ts.length == 1 && cs == 0 && ts.all fun s => s.all (· == c.sev)
  | 1 => ts.isEmpty && cs == 1
  | _ => ts.isEmpty && cs == 0

/-- Publications that GOOSE_PUB and GOOSE_STAGE templates write: partition, template, publication, range. -/
def pubUses (u : Uni) : List (Nat × Template × Nat × Nat) :=
  (u.tmpls.map fun x => if x.2.prim = 64 ∨ x.2.prim = 65 then x.2.groups.map fun g => (x.1, x.2, g.getD 0 0, g.getD 1 0) else []).flatten

def wadOk (u : Uni) : Bool :=
  let i := u.img 1
  let w := i.wad
  i.wad.groups.all (fun g => groupOk i g.2) && w.areas.all (fun a => areaOk i a.2)
    && decide ((w.areas.map fun a => a.2.signals.length).foldl (· + ·) 0 ≤ 256) && w.crits.all (fun c => critOk i c.2)
    && w.alarms.all (fun a => alarmOk u a.1 a.2) && w.crits.all (fun c => (w.alarms.lookup c.2.alm).isSome)
    && (w.almPub == 0xFFFF || (match u.pubs.lookup w.almPub with
      | some p => p.part == 1 && p.members.length == 16 && p.members.all (·.1 == 1) && (pubUses u).all fun x => x.2.2.1 != w.almPub
      | none => false))

/-! ## Publications, claims and decision members (R151, R152, R265, R266, R294) -/

/-- A template's member operands have the types of their descriptors, within the publication. -/
def membersOk (u : Uni) (tys : Template → List Nat) (x : Nat × Template × Nat × Nat) : Bool :=
  match u.pubs.lookup x.2.2.1 with
  | none => false
  | some c => (List.range x.2.1.nOps).all fun k => match c.members[x.2.2.2 + k]? with
    | some d => (tys x.2.1).getD k 0 == memberType d.1
    | none => false

/-- Ranges of two templates of one publication overlap. -/
def overlaps (a b : Nat × Template × Nat × Nat) : Bool :=
  a.2.2.1 == b.2.2.1 && a.2.1.num != b.2.1.num && decide (a.2.2.2 < b.2.2.2 + b.2.1.nOps) && decide (b.2.2.2 < a.2.2.2 + a.2.1.nOps)

/-- A GOOSE_STAGE feeds the GOOSE_PUB of its publication. -/
def stageOk (uses : List (Nat × Template × Nat × Nat)) (x : Nat × Template × Nat × Nat) : Bool :=
  x.2.1.prim != 65 || uses.any fun y => y.2.1.prim == 64 && y.2.2.1 == x.2.2.1 && feeds x.2.1 y.2.1

/-- One CLAIM, reached by every GOOSE_PUB. -/
def claimOk (u : Uni) (ps : List (Nat × Nat)) : Bool :=
  !u.has 0 || (
    let ts := (u.img 0).templates.map (·.2)
    let cl := (ts.filter (·.prim == 66)).map (·.num)
    let back := reachBack ps ts.length cl
    cl.length == 1 && ts.all fun t => t.prim != 64 || back.contains t.num)

def redOk (u : Uni) : Bool :=
  match (u.img 0).red with
  | none => true
  | some r => r.entries.all fun e =>
    if (u.img 0).referee then ((u.img 0).templates.lookup e.1).isSome
    else match u.pubs.lookup e.1 with
      | some p => p.kind == 0 && decide (e.2 < p.members.length)
      | none => false

def outputsOk (u : Uni) (tys : Template → List Nat) (ps : List (Nat × Nat)) : Bool :=
  let uses := pubUses u
  let h := (u.img 0).outHdr
  uses.all (membersOk u tys) && uses.all (fun a => uses.all fun b => !overlaps a b) && uses.all (stageOk uses) && claimOk u ps && redOk u
    && decide ((u.pubs.filter fun p => p.2.kind == 1).length ≤ 1)
    -- HB_WAIT is at least the cycle plus 10 µs (R265)
    && (!u.has 0 || decide (1000000 + 10 * (u.img 0).rate ≤ h.hbWait * (u.img 0).rate))

/-! ## Filters (R159, R180, R182 to R184) -/

/-- The DELAY of a Palette within 1 ns of the exact value of R180, or the binary32 nearest to it. -/
def delayOk (g : GroupCfg) (r m : Nat) (p : PalCfg) : Bool :=
  let f : Nat := if p.fir.isEmpty then 0 else (p.fir.length - 1) * g.cicR
  -- exact value num / den
  let num := (g.cicN * (g.cicR - 1) + f) * m + (p.win.length - 1) * r
  let den := 2 * r * m
  let d := fInt (BitVec.ofNat 32 p.delay)
  let diff := d * (den : Int) - ((num * fUnit : Nat) : Int)
  decide (diff.natAbs * 1000000000 ≤ den * fUnit) || p.delay == word32 (numOfFrac num den)

def chanOk (i : PartImage) (n : Nat) (c : ChanCfg) : Bool :=
  match i.subs.lookup c.sub, i.groups.lookup c.group with
  | some s, some g =>
    let mates := i.chans.filter fun x => x.2.group == c.group
    let d := if i.rate = 0 then 0 else s.rate / i.rate
    let out (k : Nat) : Bool := ((c.outs[k]?).bind id).isSome
    decide (c.idx < s.nch) && mates.all (fun x => x.2.sub == c.sub) && inRange mates.length 1 16
      && (g.freqMode != 2 || decide (3 ≤ mates.length)) && g.cicR * g.firR == d && (!out 0 || d == 1)
      && ((!out 6 && !out 7) || mates.all fun x => decide (n ≤ x.1)) && g.pals.all (delayOk g s.rate i.rate)
  | _, _ => false

def filterOk (i : PartImage) : Bool :=
  i.chans.all (fun c => chanOk i c.1 c.2)
    && i.chans.all fun a => i.chans.all fun b => a.2.sub != b.2.sub
      || ((i.groups.lookup a.2.group).map (·.f0)) == ((i.groups.lookup b.2.group).map (·.f0))

/-! ## Concentration, recording, metering (R219, R221, R365, R370, R420, R429, R443) -/

/-- Own-PMU inputs and the PMU_PUB templates that name them. -/
def ownPmuOk (u : Uni) : Bool :=
  (u.img 1).ins.all fun x => x.2.transport != 3 || (
    let ts := u.tmpls.filter fun t => t.2.prim == 70 && t.2.groups.any fun g => g.headD 0 == x.1
    !ts.isEmpty && x.2.cfg.blocks.length == 1 && ts.all fun t => x.2.cfg.blocks.all fun b =>
      b.phUnits.length + 2 == t.2.nOps && b.anUnits.isEmpty && b.digitals == 0)

/-- The capture byte rate B of an image (R368). -/
def imgCapRate (u : Uni) : Nat :=
  let ds := (u.img 3).rec_.defs
  let a := u.subs.foldl (fun n s =>
    match (u.chans.filter fun c => c.2.sub == s.1 && ds.any fun d => d.2.ans.contains c.1).length with
    | 0 => n
    | k => n + s.2.rate * (16 + 4 * k)) 0
  u.tmpls.foldl (fun n t =>
    match ((List.range 8).filter fun o => ds.any fun d => d.2.digs.any fun g => g.1 == t.2.num && g.2.1 == o).length with
    | 0 => n
    | k => n + (u.img t.1).rate * (16 + 4 * k)) a

/-- Section 0x000C agrees with the channels and templates it names, and no pre-trigger part is longer than half the ring's
span (R365, R368, R370). -/
def recOk (u : Uni) (tys : Template → List Nat) : Bool :=
  let r := (u.img 3).rec_
  let rate (ch : Nat) : Option Nat := (u.chans.lookup ch).bind fun c => (u.subs.lookup c.sub).map (·.rate)
  r.defs.all (fun d =>
    d.2.ans.all (fun c => (rate c).isSome && rate c == rate (d.2.ans.headD 0))
      && decide (2 * d.2.pre * imgCapRate u ≤ 17179869184 * (rate (d.2.ans.headD 0)).getD 0)
      && d.2.digs.all fun g => match u.tmpl g.1 with
        | some (p, t) => p != 1 && t.prim == 67 && decide (g.2.1 < t.nOps) && (tys t).getD g.2.1 0 == 0
        | none => false)
    && r.lvls.all fun l => (rate l.2.ch).isSome

def mtrOk (u : Uni) (target : Nat) : Bool :=
  let i := u.img 2
  i.mtr.points.all (fun p => (u.tmpls.filter fun t => t.2.prim == 69 && t.2.groups.any fun g => g.headD 0 == p.1).length == 1
      && !(p.2.legal && target.testBit 0))
    && i.mtr.pqs.all fun q => q.2.chans.all fun c => match i.chans.lookup c with
      | some x => x.kind == 1 && some x.sub == (i.chans.lookup (q.2.chans.headD 0)).map (·.sub) && some x.group == (i.chans.lookup (q.2.chans.headD 0)).map (·.group)
          && (match i.subs.lookup x.sub with | some s => s.part == 2 | none => false)
      | none => false

/-! ## Keys (R465) -/

/-- The KEY fields name policy-1 slots that are not Empty. -/
def keysOk (m : Mod) (u : Uni) : Bool :=
  let ok (k : Nat) : Bool := (keySlot m k).state != .empty && (keySlot m k).policy == 1
  u.subs.all (fun s => !s.2.auth || ok s.2.key) && u.pubs.all (fun p => !p.2.auth || ok p.2.key)
    && u.gsubs.all (fun s => !s.2.auth || ok s.2.key) && (u.img 1).ins.all (fun x => x.2.transport != 2 || ok x.2.key)
    && ((u.img 1).wad.fedPorts == 0 || ok (u.img 1).wad.fedKey) && ((u.img 0).outHdr.refPorts == 0 || ok (u.img 0).outHdr.refKey)

/-! ## The whole check -/

/-- Numbers that stand in one partition only, and SV subscriptions told apart across partitions (R158). -/
def numbersOk (u : Uni) : Bool :=
  let ks {α : Type} (f : PartImage → Cells α) : List Nat := (u.parts.map fun x => (f x.2).map (·.1)).flatten
  once (ks (·.templates)) && once (ks (·.flows)) && once (ks (·.subs)) && once (ks (·.chans)) && once (ks (·.groups))
    && once (ks (·.pubs)) && once (ks (·.gsubs))
    && (let ids := u.subs.map fun s => (s.2.appid, s.2.dst, s.2.svId)
        ids.eraseDups.length == ids.length)

/-- Code 0x20 passes. `target` is the TARGET of the image staged, 2 for one that is loaded. -/
def structOk (m : Mod) (u : Uni) (target : Nat) : Bool :=
  let es := u.edges
  let res := settleTypes u es (u.tmpls.length + 1) []
  let ps := matchedPairs u es
  let tys (t : Template) : List Nat := finalTypes res es t
  numbersOk u && u.tmpls.all (fun x => domainOk u x.1 x.2 && matchedOk es x.2 && typesOk res es x.2) && es.all (edgeOk u)
    && (peel ps u.tmpls.length (u.tmpls.map (·.2.num))).isEmpty && u.parts.all (fun x => graphOk x.2 x.1)
    && kernelFlowsOk (u.img 1) && wadOk u && outputsOk u tys ps && u.parts.all (fun x => filterOk x.2)
    && (u.img 1).outs.all (fun o => decide (dataLen o.2.cfg ≤ 65507)
        && !(o.2.lateSupp && (u.img 1).wad.almId != 0 && o.2.suppId == (u.img 1).wad.almId)) && ownPmuOk u && recOk u tys && mtrOk u target && keysOk m u

end Sys2Proof.Machine
end

