-- ==== Sys2Proof/Machine/Admit.lean ====
section
/-!
DEFINITION. Admission (R51 to R55): the demand and limit of every check, and the drain checks of R54 and R106.
-/
namespace Sys2Proof.Machine

/-! ## Figures as fractions -/

/-- A non-negative fraction. -/
structure Frac where
  n : Nat
  d : Nat := 1

def Frac.add (a b : Frac) : Frac := if a.d = b.d then ⟨a.n + b.n, a.d⟩ else ⟨a.n * b.d + b.n * a.d, a.d * b.d⟩
def Frac.le (a b : Frac) : Bool := decide (a.n * b.d ≤ b.n * a.d)
def fracSum (l : List Frac) : Frac := l.foldl Frac.add ⟨0, 1⟩

/-- The binary64 nearest to a fraction, ties to even (R486). -/
def binary64 (x : Frac) : Nat :=
  if x.n = 0 ∨ x.d = 0 then 0
  else
    -- exponent e with 2^52 ≤ x / 2^e < 2^53
    let e : Int := ((x.n / x.d).log2 : Int) - 52
    let e := if x.n < x.d then ((x.n.log2 : Int) - x.d.log2 - 53) else e
    let scale (e : Int) : Nat × Nat := if 0 ≤ e then (x.n, x.d * 2 ^ e.toNat) else (x.n * 2 ^ (-e).toNat, x.d)
    let e := if (scale e).1 / (scale e).2 < 2 ^ 52 then e - 1 else if 2 ^ 53 ≤ (scale e).1 / (scale e).2 then e + 1 else e
    let (a, b) := scale e
    let q := a / b
    let r := 2 * (a % b)
    let q := if b < r ∨ (r = b ∧ q % 2 = 1) then q + 1 else q
    ((e + 52 + 1023).toNat) * 2 ^ 52 + q - 2 ^ 52

/-- A check with a demand and a limit: its entry when it fails. -/
def check (code who : Nat) (demand limit : Frac) : List AdmEntry :=
  if demand.le limit then [] else [⟨code, who, binary64 demand, binary64 limit⟩]

/-- The entry of a check without a numeric limit. -/
def checkBool (code who : Nat) (ok : Bool) : List AdmEntry :=
  if ok then [] else [⟨code, who, (Config.structFigures code).1, (Config.structFigures code).2⟩]

/-! ## Load of the engines (R51, R52, R30) -/

/-- What admission reads besides the images: planned clocks in 10 MHz units, clusters that serve, thieves enabled. -/
structure Plant where
  clk : Nat → Nat
  serves : Nat → Bool
  thief : Nat → Bool

/-- Tags per second of a domain. -/
def domainFreq (u : Uni) (d : Nat) : Nat := if d < 4 then (u.img d).rate else match (u.img 1).outs.lookup (d - 4) with
  | some o => o.rate
  | none => 0

/-- Firings per second of a template (R72). -/
def firings (u : Uni) (t : Template) : Nat := domainFreq u t.domain

/-- Worst-case cycles per second of a template: a modal kernel has one update firing a second (R150). -/
def loadOf (u : Uni) (t : Template) : Nat :=
  let f := figures t
  let r := firings u t
  if inRange t.prim 60 61 ∨ t.prim = 63 then (if r = 0 then 0 else f.cycles + (r - 1) * f.other) else r * f.cycles

/-- The cluster that a template's tasks are placed on (R89), none for an unbound stateless template. -/
def placeOf (i : PartImage) (t : Template) : Option Nat :=
  match tabGet i.bound t.num, t.flow with
  | 0, some f => (i.flows.lookup f).map (·.home)
  | 0, none => none
  | c + 1, _ => some c

/-- Ring neighbours. -/
def ecNext (c : Nat) : Nat := (c + 1) % 16
def ecPrev (c : Nat) : Nat := (c + 15) % 16

/-- Bound load of a cluster. A cluster that does not serve hands its bound load to its ring neighbours, half each (R54, R106). -/
def boundLoad (u : Uni) (pl : Plant) (c : Nat) : Frac :=
  let own (c : Nat) : Nat := (u.parts.map fun x => (x.2.templates.map fun t =>
    if placeOf x.2 t.2 = some c then loadOf u t.2 else 0).foldl (· + ·) 0).foldl (· + ·) 0
  if !pl.serves c then ⟨0, 1⟩
  else ⟨2 * own c + (if pl.serves (ecPrev c) then 0 else own (ecPrev c)) + (if pl.serves (ecNext c) then 0 else own (ecNext c)), 2⟩

/-- 0.90 × 16 × the planned clock, in cycles per second. -/
def cycleLimit (pl : Plant) (c : Nat) : Nat := if pl.serves c then 144000000 * pl.clk c else 0

/-- Free capacity after bound load, in half cycles per second. -/
def freeCap (u : Uni) (pl : Plant) (c : Nat) : Nat := 2 * cycleLimit pl c - (boundLoad u pl c).n * (2 / (boundLoad u pl c).d)

/-- The unbound load of a partition. -/
def unboundLoad (u : Uni) (i : PartImage) : Nat :=
  (i.templates.map fun t => if (placeOf i t.2).isNone then loadOf u t.2 else 0).foldl (· + ·) 0

/-- ENGINE_CYCLES of every cluster: bound load plus the share of each partition's unbound load, in proportion to free capacity.
DESIGN CHOICE (log 281): the unbound load of partitions whose home clusters have no free capacity is charged in full to each of
those clusters, summed over such partitions. -/
def engineChecks (u : Uni) (pl : Plant) : List AdmEntry :=
  let free := (List.range 16).map (freeCap u pl)
  let shares := u.parts.map fun x => (x.2.homeSet, unboundLoad u x.2,
    ((List.range 16).map fun c => if x.2.homeSet.testBit c then free.getD c 0 else 0).foldl (· + ·) 0)
  ((List.range 16).map fun c =>
    let share := fracSum (shares.map fun s => if s.1.testBit c && decide (0 < s.2.2) then ⟨s.2.1 * free.getD c 0, s.2.2⟩ else ⟨0, 1⟩)
    -- unbound load that no home cluster has capacity for fails on the partition's clusters
    let stuck := shares.any fun s => s.1.testBit c && s.2.2 == 0 && decide (0 < s.2.1)
    let demand := (boundLoad u pl c).add share
    if stuck then [⟨0x10, c, binary64 (demand.add ⟨(shares.map fun s => if s.2.2 = 0 then s.2.1 else 0).foldl (· + ·) 0, 1⟩), binary64 ⟨cycleLimit pl c, 1⟩⟩]
    else check 0x10 c demand ⟨cycleLimit pl c, 1⟩).flatten

/-! ## Counts (R29, R30, R53) -/

def sumOf (u : Uni) (f : PartImage → Nat) : Nat := (u.parts.map fun x => f x.2).foldl (· + ·) 0

/-- A demand in which the protection partition counts with its reservation where that is larger (R53). -/
def withReserve (u : Uni) (f r : PartImage → Nat) : Nat :=
  (u.parts.map fun x => if x.1 = 0 then max (f x.2) (r x.2) else f x.2).foldl (· + ·) 0

def slotsOf (i : PartImage) : Nat := (i.templates.map fun t => t.2.nOps).foldl (· + ·) 0
def ceilsOf (i : PartImage) : Nat := (i.templates.map fun t => t.2.ceil).foldl (· + ·) 0
def tasksOf (u : Uni) (i : PartImage) : Nat := (i.templates.map fun t => firings u t.2).foldl (· + ·) 0

def countChecks (u : Uni) : List AdmEntry :=
  let c (code demand limit : Nat) : List AdmEntry := check code 0xFF ⟨demand, 1⟩ ⟨limit, 1⟩
  c 0x11 (withReserve u (tasksOf u) (·.reserve.2.2)) 1250000000 ++ c 0x12 (sumOf u (·.templates.length)) 16384
    ++ c 0x13 (withReserve u slotsOf (·.reserve.1)) 131072 ++ c 0x14 (sumOf u (·.flows.length)) 4096
    ++ c 0x15 (withReserve u ceilsOf (·.reserve.2.1)) 8192

/-! ## Delay lists, flow state, engine memory (R82, R118, R37) -/

def delayChecks (u : Uni) : List AdmEntry :=
  let use (l : Nat) : Nat := (u.tmpls.map fun x => if x.2.dests.any (·.kind == l + 1) then x.2.delayMax else 0).foldl (· + ·) 0
  let entries (l : Nat) : Nat := (tabGet u.common.delays l).entries
  ((List.range 4).map fun l => check 0x16 0xFF ⟨use l, 1⟩ ⟨entries l, 1⟩).flatten
    ++ check 0x16 0xFF ⟨((List.range 4).map entries).foldl (· + ·) 0, 1⟩ ⟨65536, 1⟩

/-- Tick of a delay list in units of 250 ns. -/
def tickUnits (code : Nat) : Nat := match code with
  | 0 => 1
  | 1 => 4
  | 2 => 40
  | _ => 400

/-- Spans of the delay routings, in tags of their target's domain (R102). -/
def delaySpans (u : Uni) : List Nat :=
  (u.tmpls.map fun x => x.2.dests.map fun r =>
    if r.kind = 0 then 0 else match u.tmpl r.target with
      | some (_, t) => ceilDiv (r.ticks * tickUnits (tabGet u.common.delays (r.kind - 1)).tick * firings u t) 4000000
      | none => 0).flatten

/-- The window of a primitive in tags, for one parameter record: counted in tags, or in seconds of its domain (R147 to R150). -/
def windowTags (rate code : Nat) (ws : List Nat) : Nat :=
  let secs (k : Nat) : Nat := ceilDiv ((fInt (BitVec.ofNat 32 (ws.getD k 0))).toNat * rate) fUnit
  match code with
  | 25 => ws.getD 1 0
  | 38 | 39 | 44 | 45 | 46 | 49 | 50 | 52 | 53 | 54 => ws.getD 0 0
  | 59 => secs 2
  | 62 => secs 3
  | _ => 0

/-- Windows of the templates, of the recorder, and the alignment spans of the Basin outputs (R211, R365). -/
def windowSpans (u : Uni) : List Nat :=
  (u.tmpls.map fun x => x.2.groups.map (windowTags (domainFreq u x.2.domain) x.2.prim)).flatten
    ++ (u.img 3).rec_.defs.map (fun d => d.2.pre + d.2.post) ++ (u.img 1).outs.map fun o => ringLen o.2

/-- TAG_SPAN: the longest window, delay or alignment span (R37). -/
def spanCheck (u : Uni) : List AdmEntry :=
  check 0x1C 0xFF ⟨(delaySpans u ++ windowSpans u).foldl max 0, 1⟩ ⟨2 ^ 31 - 1, 1⟩

def stateChecks (u : Uni) : List AdmEntry :=
  ((List.range 16).map fun c => check 0x17 c
    ⟨sumOf u fun i => (i.flows.map fun f => if f.2.home = c then f.2.stateLen else 0).foldl (· + ·) 0, 1⟩ ⟨4194304, 1⟩).flatten

/-- Bytes of the resident-parameter set of a cluster (R118). -/
def residentBytes (u : Uni) (c : Nat) : Nat :=
  let near := [c, ecPrev c, ecNext c]
  let holds (i : PartImage) (t : Template) : Bool := match tabGet i.bound t.num with
    | 0 => (match t.flow with
        | some f => near.any fun k => ((i.flows.lookup f).map (·.home)) == some k
        | none => false) || near.any fun k => i.homeSet.testBit k
    | b + 1 => near.contains b || (match t.flow with
        | some f => near.any fun k => ((i.flows.lookup f).map (·.home)) == some k
        | none => false)
  let recs := (u.parts.map fun x => (x.2.templates.filter fun t => holds x.2 t.2).map fun t => (t.2.prim, t.2.groups)).flatten.eraseDups
  (recs.map fun r => (r.2.map fun g => 4 * g.length).foldl (· + ·) 0).foldl (· + ·) 0

def memoryChecks (u : Uni) : List AdmEntry :=
  ((List.range 16).map fun c => check 0x18 c ⟨residentBytes u c, 1⟩ ⟨53248, 1⟩).flatten

/-! ## Trip path and Towpath copy (R25, R32, R106, R140) -/

/-- A common multiple of every clock setting. -/
def clkLcm : Nat := (List.range 31).foldl (fun a k => Nat.lcm a (80 + k)) 1

/-- The clock at which a protection template is costed. -/
def costClock (i : PartImage) (pl : Plant) (t : Template) : Nat :=
  match placeOf i t with
  | some c => pl.clk c
  | none =>
    let home := (List.range 16).filter fun c => i.homeSet.testBit c
    let steal := (List.range 16).filter fun c => pl.thief c && (i.homeSet.testBit (ecPrev c) || i.homeSet.testBit (ecNext c))
    ((home ++ steal).map pl.clk).foldl min 110

/-- Cost of a task in units of ns / `clkLcm`: 1.10 × cycles at its clock plus 32 ns; 40 ns more on a drained cluster. -/
def taskCost (i : PartImage) (pl : Plant) (drain : Option Nat) (t : Template) : Nat :=
  let extra : Nat := match drain, placeOf i t with
    | some c, some k => if c = k then 40 else 0
    | some c, none => if i.homeSet.testBit c then 40 else 0
    | none, _ => 0
  110 * (figures t).cycles * (clkLcm / max 1 (costClock i pl t)) + (32 + extra) * clkLcm

/-- The longest cost of a path that starts at template `n`, passes no template twice (delay routings may close a loop; log 364)
and ends where `stop` says; none where no such path is left. -/
def longestFrom (succ : Nat → List Nat) (stop : Nat → Bool) (cost : Nat → Nat) : Nat → List Nat → Nat → Option Nat
  | 0, _, _ => none
  | f + 1, seen, n =>
    if seen.contains n then none
    else
      let onward := (succ n).filterMap (longestFrom succ stop cost f (n :: seen))
      let best := if stop n then some (onward.foldl max 0) else if onward.isEmpty then none else some (onward.foldl max 0)
      best.map (· + cost n)

/-- Edges between templates of one partition that a trip path follows: into a matched operand, or through a delay list, whose
interval alone does not count (R24). -/
def pathEdges (u : Uni) : List (Nat × Nat) :=
  u.edges.filterMap fun e => match e.src, u.tmpl e.target with
    | .task s, some (p, t) => if p = 0 ∧ e.part = 0 ∧ (e.delayed ∨ !isSticky t e.op) then some (s.num, t.num) else none
    | _, _ => none

/-- The longest path of the protection image from an SV token to a GOOSE publish primitive, in ns / `clkLcm` (R25). -/
def tripPath (u : Uni) (pl : Plant) (drain : Option Nat) : Nat :=
  let i := u.img 0
  let ps := pathEdges u
  let succ (n : Nat) : List Nat := ((ps.filter fun x => x.1 == n).map (·.2)).eraseDups
  let stop (n : Nat) : Bool := match i.templates.lookup n with | some t => t.prim == 64 | none => false
  let cost (n : Nat) : Nat := match i.templates.lookup n with | some t => taskCost i pl drain t | none => 0
  let first := (u.edges.filterMap fun e => match e.src with
    | .stream 0 => if e.part = 0 then some e.target else none
    | _ => none).eraseDups
  (first.filterMap (longestFrom succ stop cost (i.templates.length + 1) [])).foldl max 0

def tripCheck (u : Uni) (pl : Plant) : List AdmEntry := check 0x19 0 ⟨tripPath u pl none, clkLcm⟩ ⟨6000, 1⟩

/-- Changed protection flow state of a cycle against min(1 MiB, (cycle − 20 µs) × 6.0 GB/s). -/
def copyCheck (u : Uni) : List AdmEntry :=
  let i := u.img 0
  let r := max 1 i.rate
  let writes := (i.templates.map fun t => (figures t.2).writes).foldl (· + ·) 0
  let lim : Frac := if 1048576 * r + 120000 * r ≤ 6000000000 then ⟨1048576, 1⟩ else ⟨6000000000 - 120000 * r, r⟩
  if u.has 0 then check 0x1A 0 ⟨writes, 1⟩ lim else []

/-! ## Basin, filters, streams (R31, R159, R186) -/

/-- BASIN_SLOTS: Σ N × SLOTS of the outputs (R31, R211). -/
def basinCheck (u : Uni) : List AdmEntry := check 0x1B 1 ⟨ringSlots (u.img 1), 1⟩ ⟨3932160, 1⟩

/-- A channel needs RMS: a routing of kind 5, a level trigger on it, a power-quality group (R186, R370, R429). -/
def needsRms (u : Uni) (n : Nat) (c : ChanCfg) : Bool :=
  ((c.outs[5]?).bind id).isSome || (u.img 3).rec_.lvls.any (fun l => l.2.rms && l.2.ch == n)
    || (u.img 2).mtr.pqs.any fun q => q.2.chans.contains n

def finePathCost (p : PalCfg) : Nat := (if p.fir.isEmpty then 0 else (p.fir.length + 1) / 2 + 4) + (p.win.length + 1) / 2 + 16

/-- Lane-cycles per second of the filter array. -/
def laneCycles (u : Uni) : Nat :=
  let chan (i : PartImage) (n : Nat) (c : ChanCfg) : Nat :=
    let r := match i.subs.lookup c.sub with | some s => s.rate | none => 0
    match i.groups.lookup c.group with
    | some g => r * (18 + 2 * g.cicN) + r / max 1 g.cicR * (2 * g.cicN) + i.rate * (g.pals.map finePathCost).foldl max 0
        + if needsRms u n c then r * 6 else 0
    | none => 0
  let fade (i : PartImage) (g : Nat) (c : GroupCfg) : Nat :=
    if c.pals.length = 2 ∧ 0 < c.xf then
      (i.chans.filter fun x => x.2.group == g).length * i.rate * ((c.pals.map finePathCost).foldl min (finePathCost (c.pals.headD default)) + 8)
    else 0
  sumOf u (fun i => (i.chans.map fun c => chan i c.1 c.2).foldl (· + ·) 0 + (i.groups.map fun g => if g.2.freqMode ≠ 0 then i.rate * 40 else 0).foldl (· + ·) 0)
    + (u.parts.map fun x => (x.2.groups.map fun g => fade x.2 g.1 g.2).foldl max 0).foldl max 0

def coefBytes (u : Uni) : Nat :=
  sumOf u fun i => (i.groups.map fun g => (g.2.pals.map fun p => 4 * p.fir.length + 8 * p.win.length).foldl (· + ·) 0).foldl (· + ·) 0

def filterChecks (u : Uni) : List AdmEntry :=
  check 0x1D 0xFF ⟨laneCycles u, 1⟩ ⟨25600000000, 1⟩ ++ check 0x1D 0xFF ⟨coefBytes u, 1⟩ ⟨4194304, 1⟩

/-- Streams, channels in total and per stream, and the ratio D of R159. -/
def streamChecks (u : Uni) : List AdmEntry :=
  let subs := u.subs
  let ok (s : SubCfg) : Bool :=
    let m := (u.img s.part).rate
    m != 0 && s.rate % m == 0 && (s.rate == m || s.rate == 3 * m)
  check 0x1E 0xFF ⟨subs.length, 1⟩ ⟨512, 1⟩ ++ check 0x1E 0xFF ⟨(subs.map fun s => s.2.nch).foldl (· + ·) 0, 1⟩ ⟨4096, 1⟩
    ++ check 0x1E 0xFF ⟨(subs.map fun s => s.2.nch).foldl max 0, 1⟩ ⟨16, 1⟩ ++ checkBool 0x1E 0xFF (subs.all fun s => ok s.2)

/-! ## Port map (R339, R344, R349, R360) -/

/-- Bytes of a BER element with `n` octets of content. -/
def berLen (n : Nat) : Nat := n + if n < 128 then 2 else if n < 256 then 3 else 4

/-- The largest frame of a publication with one side's identity strings, from destination address through FCS (R349): the GOOSE
PDU of IEC 61850-8-1 (log 387) with each integer at its longest encoding, 5 octets unsigned and 4 signed. -/
def gooseMax (id : PubId) (c : PubCfg) : Nat :=
  let u := berLen 5
  let val (x : Nat × Bool) : Nat := (match x.1 with
    | 0 => berLen 1
    | 1 => berLen 4
    | 2 => berLen 5
    | _ => 2 * berLen 5) + if x.2 then berLen 3 else 0
  let palza := if c.kind = 0 then 2 else if c.kind = 1 then 3 else 0
  let entries := (c.members.map fun x => (if x.1 = 3 then 2 else 1) + if x.2 then 1 else 0).foldl (· + ·) palza
  let data := (c.members.map val).foldl (· + ·) (palza * u)
  let pdu := berLen id.gocbRef.length + u + berLen id.datSet.length + berLen id.goId.length + berLen 8 + 2 * u + berLen 1 + u + berLen 1
    + berLen (if entries < 128 then 1 else 2) + berLen data
  max 64 (14 + (if c.tagged then 4 else 0) + 8 + berLen pdu + (if c.auth then Config.secExtLen else 0) + 4)

/-- Largest queue-7 frames sent on a port: kind-0 and kind-1 publications and, where Referee messages leave the port, a REPORT:
100 bytes of UDP payload, 8 + 20 + 14 + 4 of headers and tag, FCS. -/
def queue7Bytes (u : Uni) (p : Nat) : Nat :=
  let size (c : PubCfg) : Nat := if c.queue = 7 ∧ c.ports.testBit p then
      max (gooseMax c.idA c) (gooseMax c.idB c) else 0
  (u.pubs.map fun c => size c.2).foldl (· + ·) 0 + if (u.img 0).outHdr.refPorts.testBit p then 150 else 0

def portMapOk (u : Uni) : Bool :=
  let pm := u.common.ports
  let port (p : Nat) : PortCfg := tabGet pm.ports p
  let pairsOk := pm.pairs.all fun x => x.2.mode == 0 || (
    (port (2 * x.1)).mode == (port (2 * x.1 + 1)).mode && (port (2 * x.1)).mac == (port (2 * x.1 + 1)).mac
      && (port (2 * x.1)).ip == (port (2 * x.1 + 1)).ip)
  let sharedOk := (List.range 8).all fun p =>
    let prot := u.subs.any fun s => s.2.part == 0 && s.2.ports.testBit p
    let other := u.subs.any (fun s => s.2.part != 0 && s.2.ports.testBit p)
      || (u.img 1).ins.any fun x => (x.2.transport == 0 || x.2.transport == 2) && x.2.ports.testBit p
    !(prot && other) || (port p).shared
  let queuesOk := u.pubs.all (fun c => if c.2.kind ≤ 1 then c.2.queue == 7 else decide (c.2.queue ≤ 6))
    && (u.img 1).outs.all (fun o => decide (o.2.queue ≤ 6)) && decide ((u.img 1).wad.almQueue ≤ 6) && decide ((u.img 1).wad.fedQueue ≤ 6)
  once (pm.pairs.map (·.1)) && once (pm.ports.map (·.1)) && pairsOk && sharedOk && queuesOk

def portChecks (u : Uni) : List AdmEntry :=
  checkBool 0x1F 0xFF (portMapOk u) ++ ((List.range 8).map fun p => check 0x1F 0xFF ⟨queue7Bytes u p, 1⟩ ⟨131072, 1⟩).flatten

/-! ## Modes and the pair (R68, R69) -/

/-- The role that the commands so far leave (R71): a commanded one that waits for its boundary, else the one in force. -/
def roleLeft (m : Mod) : Role := m.mode.pendRole.getD m.mode.role

/-- The peer's protection IMAGE_ID equals ours, as far as its HELLO has shown it. -/
def pairImageOk (m : Mod) (u : Uni) : Bool :=
  match m.out.peer with
  | some h => !u.has 0 || (roleLeft m != .active && roleLeft m != .standby) || h.imageId == (u.img 0).imageId
  | none => true

/-! ## Admission -/

/-- The planned clock of a cluster: a change that awaits its drain counts (R18, R19). -/
def plannedClk (m : Mod) (c : Nat) : Nat := (tabGet m.hlth.pendClk c).getD ((reg m (Reg.PE_CL_CLK c)).toNat % 256)

/-- The planned clocks and serving clusters of the module; a cluster that is out of service serves no load (R502). -/
def plantOf (m : Mod) : Plant :=
  { clk := plannedClk m
    serves := fun c => clMode m c != .out
    thief := fun c => (reg m Reg.TD_CTRL).toNat.testBit c }

/-- The checks of R51 that read only the images and the plant, but for the structural one. -/
def figureChecks (u : Uni) (pl : Plant) : List AdmEntry :=
  engineChecks u pl ++ countChecks u ++ delayChecks u ++ stateChecks u ++ memoryChecks u ++ tripCheck u pl ++ copyCheck u ++ basinCheck u
    ++ spanCheck u ++ filterChecks u ++ streamChecks u ++ portChecks u

/-- Admission of a union: every failing check. -/
def admission (m : Mod) (u : Uni) (target : Nat) : List AdmEntry :=
  figureChecks u (plantOf m) ++ checkBool 0x20 0xFF (structOk m u target)
    ++ checkBool 0x21 0xFF (modeOk (roleLeft m) (u.parts.lookup 0) (sealState m) (u.has 2)) ++ checkBool 0x22 0 (pairImageOk m u)

/-- The RESULT of admission: the lowest failing code, 0 for none. DESIGN CHOICE (log 355): the spec reports every failing check
and does not say which one RESULT names. -/
def admResult (l : List AdmEntry) : Nat := l.foldl (fun r e => if r = 0 ∨ e.code < r then e.code else r) 0

/-- The loaded partitions, Halted or Live, with the common sections (R51, R55). -/
def loadedUni (m : Mod) : Uni :=
  { parts := [0, 1, 2, 3].filterMap fun p => match (partOf m p).state, (partOf m p).image with
      | .halted, some i | .live, some i => some (p, i)
      | _, _ => none
    common := { ports := m.portMap, delays := m.delayPlan } }

/-- Keeper's re-run of admission over loaded images under another plan of clocks or clusters (R55): its figures. -/
def admitsPlan (u : Uni) (pl : Plant) : Bool := (figureChecks u pl).isEmpty

/-- R54 and R106 for a cluster: ENGINE_CYCLES passes without it, and in the protection home set TRIP_PATH with 40 ns more on it. -/
def drainOk (m : Mod) (c : Nat) : Bool :=
  let u := loadedUni m
  let pl := plantOf m
  (engineChecks u { pl with serves := fun k => pl.serves k && k != c }).isEmpty
    && (!(u.img 0).homeSet.testBit c || decide (tripPath u pl (some c) ≤ 6000 * clkLcm))

end Sys2Proof.Machine
end

