-- ==== Sys2Proof/Machine/EventRec.lean ====
section
/-!
DEFINITION. The event recorder (R451 to R463): commits, merges, gap records, reading.
-/
namespace Sys2Proof.Machine

/-- Number of records of the ring (R455). -/
def ringSize : Nat := 524288

/-- The bytes of a record before its CRC (R451). -/
def recordBody (e : Event) (seq rep : Nat) : Bytes :=
  leBytes 8 seq ++ leBytes 8 e.sec
    ++ leBytes 4 (e.ns % 2 ^ 30 + (if e.locked then 2 ^ 30 else 0) + (if e.tod then 2 ^ 31 else 0))
    ++ leBytes 4 e.pcyc ++ leBytes 5 e.opsec ++ leBytes 1 e.opfrac ++ leBytes 2 rep
    ++ leBytes 2 (e.cls * 4096 + e.detail % 4096) ++ leBytes 1 e.src
    ++ leBytes 1 ((if e.test then 1 else 0) + (if e.tko then 2 else 0) + (if e.broken then 4 else 0))
    ++ leBytes 4 e.tag ++ (e.arg ++ List.replicate 20 0).take 20

/-- The 64 bytes of a record (R451). -/
def recordBytes (e : Event) (seq rep : Nat) : Bytes :=
  let b := recordBody e seq rep
  b ++ leBytes 4 (crc32c b)

/-- A stored record's CRC passes. -/
def recordOk (b : Bytes) : Bool := b.length == 64 && leNat (b.drop 60) == crc32c (b.take 60)

/-- Sequence number of the newest record; zero for an empty ring (log 21). -/
def newestSeq (r : Evr) : Nat := if r.count = 0 then 0 else (r.next + 2 ^ 64 - 1) % 2 ^ 64

/-- Sequence number of the oldest valid record (R455). -/
def oldestSeq (r : Evr) : Nat :=
  if r.count = 0 then 0 else (r.next + 2 ^ 64 - min r.count ringSize) % 2 ^ 64

/-- A new record committed with the next SEQ; a commit of a masked class sets EVR_FAULT.NEW (R455, R481). -/
def commitRecord (m : Mod) (e : Event) : Mod :=
  let r := m.evr
  let m := { m with evr := { r with
    ring := tabSet r.ring (r.next % ringSize) (recordBytes e r.next 0)
    next := (r.next + 1) % 2 ^ 64, count := min (r.count + 1) ringSize, newest := some (e, 0) } }
  if (regBits m Reg.EVR_CTRL 7 0).testBit e.cls then setFaultQuiet m Reg.EVR_FAULT 4 else m

/-- Operating time of an event in 1/256 s. -/
def eventOp (e : Event) : Nat := e.opsec * 256 + e.opfrac

/-- Whether an event merges into the newest record (R458). -/
def merges (newest : Event × Nat) (e : Event) : Bool :=
  let n := newest.1
  n.cls == e.cls && n.detail == e.detail && n.src == e.src && n.tag == e.tag && n.arg == e.arg
    && decide (eventOp e < eventOp n + 60 * 256) && decide (newest.2 < 65535)

/-- An event committed as a merge into the newest record or as a new record (R458). -/
def commitEvent (m : Mod) (e : Event) : Mod :=
  match m.evr.newest with
  | some (n, k) =>
    if merges (n, k) e then
      let seq := newestSeq m.evr
      { m with evr := { m.evr with
        newest := some (n, k + 1), ring := tabSet m.evr.ring (seq % ringSize) (recordBytes n seq (k + 1)) } }
    else commitRecord m e
  | none => commitRecord m e

/-- EVENT_COMMIT: the recorder, while it runs, commits the oldest queued event; when the queue has room again after
events were lost, the gap record of class 2, detail 4 comes first (R457). -/
def eventCommit (m : Mod) : Mod :=
  if !m.evr.running then m
  else if m.evr.lostGap ≠ 0 ∧ m.evr.queue.length < 4096 then
    let e := mkEvent m 0xF 2 4 (leBytes 2 0 ++ leBytes 2 0 ++ leBytes 8 m.evr.lostFirst ++ leBytes 8 m.evr.lostGap)
    commitEvent { m with evr := { m.evr with lostGap := 0 } } e
  else match m.evr.queue with
    | e :: q => commitEvent { m with evr := { m.evr with queue := q } } e
    | [] => m

/-- The result and bytes of a read of one record (R462). -/
def readRecord (r : Evr) (seq : Nat) : Nat × Bytes :=
  if r.count = 0 then (3, [])
  else
    let back := (newestSeq r + 2 ^ 64 - seq) % 2 ^ 64
    if back < min r.count ringSize then
      let b := tabGet r.ring (seq % ringSize)
      if recordOk b then (1, b) else (4, b)
    else if back < 2 ^ 63 then (2, []) else (3, [])

/-- EVR_RD_CMD.GO: the buffer takes the record named by EVR_RD_SEQ, in one operation, with its result (R462). -/
def evrReadCmd (m : Mod) (value : Word) : Mod :=
  if value.toNat % 2 = 1 then
    let seq := (reg m Reg.EVR_RD_SEQL).toNat + 2 ^ 32 * (reg m Reg.EVR_RD_SEQH).toNat
    let (res, b) := readRecord m.evr seq
    let m := { m with evr := { m.evr with readValid := true, readResult := res, readBuf := b } }
    if res = 4 then setFault m Reg.EVR_FAULT 2 else m
  else m

/-- The bytes of a torn record: their CRC fails. -/
def tornRecord (k : Nat) : Bytes :=
  let b := (Config.tornBytes k).toList
  if recordOk b then b.dropLast ++ [b.getLastD 0 ^^^ 1] else b

/-- How many records lie between the newest SEQ given out and the newest committed record of the ring. -/
def tornBack (r : Evr) : Nat :=
  (r.ring.filter fun kb => recordOk kb.2).foldl (fun n kb => min n ((r.next + 2 ^ 64 - 1 - leNat (kb.2.take 8)) % 2 ^ 64)) r.count

/-- Start of the recorder: the series goes on from the newest committed record; a position whose CRC fails counts as empty, with
EVR_FAULT.TORN (R461). -/
def evrStart (m : Mod) : Mod :=
  let r := m.evr
  let torn := r.ring.any fun kb => !recordOk kb.2
  let back := tornBack r
  let m := { m with evr := { r with
    next := (r.next + 2 ^ 64 - back) % 2 ^ 64, count := r.count - back, newest := none, running := true, lostAll := 0 } }
  if torn then setFault m Reg.EVR_FAULT 1 else m

/-- EVR_STAT as read. -/
def evrStat (m : Mod) : Nat :=
  m.evr.queue.length + (if m.evr.count = ringSize then 2 ^ 31 else 0)

/-- EVR_RD_STAT as read. -/
def evrRdStat (m : Mod) : Nat := m.evr.readResult + (if m.evr.readValid then 2 ^ 31 else 0)

/-- EVR_RD_DATAn as read. -/
def evrRdData (m : Mod) (n : Nat) : Nat := leNat ((m.evr.readBuf.drop (4 * n)).take 4)

/-- EVR mailbox words by code (R481). -/
def evrMbox (m : Mod) (code : Nat) : Option (List Nat) :=
  match code with
  | 0 =>
    let n := newestSeq m.evr
    let o := oldestSeq m.evr
    some [n % 2 ^ 32, n / 2 ^ 32, o % 2 ^ 32, o / 2 ^ 32]
  | 1 => some [opTime m / 256 % 2 ^ 32, opTime m / 256 / 2 ^ 32 % 256 + opTime m % 256 * 256, m.kpr.pcyc, 0]
  | 2 => some [m.evr.lostAll % 2 ^ 32, m.evr.lostAll / 2 ^ 32, 0, 0]
  | _ => none

end Sys2Proof.Machine
end

