-- ==== Sys2Proof/Machine/Rec.lean ====
section
/-!
DEFINITION. Triggers and disturbance recording (R364 to R390).
-/
namespace Sys2Proof.Machine

def recCfg (m : Mod) : RecCfg := (imageOf m 3).rec_
def modRec (m : Mod) (f : Rec → Rec) : Mod := { m with rec_ := f m.rec_ }
def defSt (m : Mod) (d : Nat) : DefSt := tabGet m.rec_.defs d
def modDef (m : Mod) (d : Nat) (f : DefSt → DefSt) : Mod := modRec m fun r => { r with defs := tabMod r.defs d f }
def recFile (m : Mod) (n : Nat) : Option RecFile := m.rec_.recs.find? (·.num == n)
def modFile (m : Mod) (n : Nat) (f : RecFile → RecFile) : Mod :=
  modRec m fun r => { r with recs := r.recs.map fun x => if x.num = n then f x else x }

/-- Source of events of the REC block. -/
def recSrc : Nat := 0xB

/-- A filter channel of the loaded images. -/
def anyChan (m : Mod) (ch : Nat) : Option ChanCfg := ([0, 2, 3].filterMap fun p => (imageOf m p).chans.lookup ch).head?

/-! ## The capture set (R364, R365, R368) -/

/-- The captured channels of a subscription, ascending, with their records. -/
def capChans (m : Mod) (s : Nat) : List (Nat × ChanCfg) :=
  (subChans m s).filter fun c => (recCfg m).defs.any fun d => d.2.ans.contains c.1

/-- The captured operands of a REC_TRIGGER template, ascending. -/
def capOps (m : Mod) (t : Nat) : List Nat :=
  (List.range 8).filter fun o => (recCfg m).defs.any fun d => d.2.digs.any fun g => g.1 == t && g.2.1 == o

/-- Subscriptions of the loaded images. -/
def allSubs (m : Mod) : Cells SubCfg := ([0, 2, 3].map fun p => (imageOf m p).subs).flatten

/-- REC_TRIGGER templates with captured operands. -/
def capTemplates (m : Mod) : List Nat := (((recCfg m).defs.map fun d => d.2.digs.map (·.1)).flatten).eraseDups

/-- The capture byte rate B (R368). -/
def capRate (m : Mod) : Nat :=
  let a := (allSubs m).foldl (fun n s => match (capChans m s.1).length with
    | 0 => n
    | k => n + s.2.rate * (16 + 4 * k)) 0
  (capTemplates m).foldl (fun n t => match template m t with
    | some x => n + masterRate m (tmplPart x) * (16 + 4 * (capOps m t).length)
    | none => n) a

/-- Bytes of the capture ring (R33). -/
def ringBytes : Nat := 17179869184

/-! ## Rows (R366, R367) -/

def rowSize (r : CapRow) : Nat := 16 + 4 * r.words.length

/-- The bytes of a row or gap entry in the ring (R366, R367). -/
def rowBytes (r : CapRow) : Bytes :=
  leBytes 4 (r.time % secs 1 / nsUnit) ++ leBytes 4 (r.time / secs 1)
    ++ (if r.gap then leBytes 4 r.count ++ leBytes 1 128 ++ leBytes 1 r.reason ++ leBytes 2 0
        else leBytes 2 r.qual.toNat ++ leBytes 2 r.inv ++ leBytes 1 r.mark ++ leBytes 3 0)
    ++ (r.words.map (leBytes 4)).flatten

/-- Sources that a record's definition names. -/
def recNames (r : RecFile) (src : Nat) : Bool :=
  if src < 512 then r.chans.any (·.sub == src) else r.cfg.digs.any fun g => g.1 == src - 512

/-- The first sample of the reference stream at or after an instant (R377). -/
def refSample (rate t : Nat) : Int := (ceilDiv (t * rate) (secs 1) : Nat)

def n0Of (r : RecFile) : Int := refSample r.rate r.primary.time

/-- The first sample of a record. -/
def recStart (r : RecFile) : Int := n0Of r - r.cfg.pre

/-- A record's end sample with whether MAXLEN cut it (R377, R378); a stop trigger ends it at the row before its instant
(R373). -/
def recEnd (r : RecFile) : Int × Bool :=
  let cap := recStart r + r.cfg.maxLen - 1
  let e := r.ext.getD (n0Of r + r.cfg.post - 1)
  let (e, cut) := if e > cap then (cap, true) else (e, false)
  match r.stopAt with
  | some t => (min e (refSample r.rate t - 1), cut)
  | none => (e, cut)

/-- A row lies in a record's span (R377). -/
def inSpan (r : RecFile) (x : CapRow) : Bool :=
  let a := instantOf (r.rate, 1) (recStart r).toNat
  let b := instantOf (r.rate, 1) ((recEnd r).1 + 1).toNat
  recNames r x.src && decide (a ≤ x.time) && decide (x.time < b) && (match r.stopAt with
    | some t => decide (x.time < t)
    | none => true)

/-- What a record takes of a ring entry: a row in its span; of a gap entry of a stream, the part in its span. -/
def recPart (r : RecFile) (x : CapRow) : Option CapRow :=
  if x.gap ∧ x.src < 512 then
    let i := max (recStart r) x.ix
    let j := min ((recEnd r).1 + 1) (x.ix + x.count)
    if recNames r x.src ∧ i < j then
      some { x with ix := i, time := if i = x.ix then x.time else instantOf (r.rate, 1) i.toNat, count := (j - i).toNat }
    else none
  else if inSpan r x then some x else none

/-- The oldest rows leave a full ring; a row of a record not yet copied is lost to it (R382). `n` bounds their number. -/
def ringTrim : Nat → Mod → Mod
  | 0, m => m
  | n + 1, m =>
    match m.rec_.ring with
    | [] => m
    | x :: rest =>
      if m.rec_.ring.foldl (fun k y => k + rowSize y) 0 ≤ ringBytes then m
      else
        let pos := m.rec_.base
        let lose (r : RecFile) : RecFile :=
          if (recPart r x).isSome then
            let lost : Option (Nat × Nat) := if r.next ≤ pos then
                (match r.lost with
                  | some (t, k) => some (t, k + 1)
                  | none => some (x.time, 1))
              else r.lost
            { r with lost := lost, streaming := r.streaming || r.closed.isNone }
          else r
        ringTrim n (modRec m fun c => { c with ring := rest, base := pos + 1, recs := c.recs.map lose })

/-- A row put at the end of the ring. -/
def ringPut (m : Mod) (x : CapRow) : Mod := ringTrim 8 (modRec m fun r => { r with ring := r.ring ++ [x] })

/-- One more row in the latest gap entry of a source. -/
def growLast (src : Nat) (rows : List CapRow) : List CapRow :=
  let i := rows.length - 1 - (rows.reverse.findIdx fun x => x.src == src && x.gap)
  rows.modify i fun x => if x.src = src ∧ x.gap then { x with count := x.count + 1 } else x

/-- One more row, at sample `ix`, replaced by the latest gap entry of a source: in the ring, and in the open records that hold
the entry already. -/
def gapGrow (m : Mod) (src : Nat) (ix : Int) : Mod :=
  modRec m fun r => { r with
    ring := growLast src r.ring
    recs := r.recs.map fun x =>
      let held := (x.rows.filter (·.src == src)).getLast?.any fun y => y.gap && y.reason == 1 && y.ix + y.count == ix
      if held ∧ x.closed.isNone ∧ ix ≤ (recEnd x).1 then { x with rows := growLast src x.rows } else x }

/-- A row of a source is written, after the gap entry of reason 2 for rows that were not (R367), or goes into a gap entry of
reason 1 when it is the ninth or a later one with every value invalid. -/
def capture (m : Mod) (x : CapRow) (allBad isStream : Bool) (instant : Int → Nat) : Mod :=
  let s := tabGet m.rec_.srcs x.src
  let m := match s.last with
    | some l =>
      if s.down ∧ l + 1 < x.ix then
        ringPut m { src := x.src, ix := l + 1, time := instant (l + 1), gap := true, reason := 2, count := (x.ix - l - 1).toNat }
      else m
    | none => m
  let run := if allBad ∧ isStream then s.badRun + 1 else 0
  let m := modRec m fun r => { r with srcs := tabSet r.srcs x.src { last := some x.ix, badRun := run, down := false } }
  if run ≤ 8 then ringPut m x
  else if run = 9 then ringPut m { src := x.src, ix := x.ix, time := x.time, gap := true, reason := 1, count := 1 }
  else gapGrow m x.src x.ix

/-- Bits of the values of validity 01. -/
def invBits (qs : List Qual) : Nat :=
  (qs.zip (List.range qs.length)).foldl (fun n x => if validity x.1 = 1 then n + 2 ^ x.2 else n) 0

/-! ## Records: opening and closing (R375 to R380) -/

/-- A trigger counted under R375. -/
def countHold (m : Mod) (d : Nat) : Mod :=
  let m := bumpO m Reg.REC_CNT_HOLD d
  if regBits m Reg.REC_CTRL 0 0 = 1 then raiseEvent m recSrc 0 (Config.axisCode 70 % 4096) (faultArg d []) else m

/-- Hold-off ends: Armed again (R380). -/
def rearm (m : Mod) (d : Nat) : Mod := stopTimer (modDef m d fun s => { s with hold := false, cnt := 0 }) .holdOff d

/-- A record is closed with a reason at this instant (R379, R385). -/
def closeFile (m : Mod) (r : RecFile) (reason : Nat) : Mod :=
  let d := r.def_
  let utc := (utcOffset m, m.clk.leapAt.map fun s => (s, m.clk.leapDir))
  let m := modFile m r.num fun x => { x with closed := some (reason, localTime m.clk), utc := some utc }
  let m := setFault m Reg.REC_FAULT 1 d [r.num % 2 ^ 32, r.num / 2 ^ 32, reason]
  let m := stateEvent m recSrc 9 1 0 d
  if r.cfg.autoExport then
    modRec m fun c => { c with exports := c.exports ++ [⟨r.num, r.cfg.format, 0, 0, 0, []⟩] }
  else m

/-- An open record closes with a reason; hold-off begins, or Armed again, or Disarmed (R375, R379, R380). A hold-off that
needs no trigger counted has ended at once. -/
def recClose (m : Mod) (r : RecFile) (reason : Nat) : Mod :=
  let d := r.def_
  let c := r.cfg
  let hold := decide (c.holdMode ≠ 0) && !(decide (2 ≤ c.holdMode) && c.holdN == 0) && !(defSt m d).disarmed
  let m := modDef m d fun s => { s with rec_ := none, hold := hold, cnt := 0 }
  let m := if hold ∧ (c.holdMode = 1 ∨ c.holdMode = 3) then startTimer m .holdOff d (msec c.holdT) else m
  closeFile m r reason

/-- The open record of a definition. -/
def openRec (m : Mod) (d : Nat) : Option RecFile := (defSt m d).rec_.bind (recFile m)

/-- The record of a definition closes when the row of its end sample has been written (R379). -/
def closeIfDue (m : Mod) (d : Nat) : Mod :=
  match openRec m d with
  | none => m
  | some r =>
    let (e, cut) := recEnd r
    let done : Bool := match r.ref with
      | some s => (match (tabGet m.rec_.srcs s).last with
        | some l => decide (e ≤ l)
        | none => false)
      | none => false
    if done then recClose m r (if cut then 1 else 0) else m

/-- The gap that stands for the pre-trigger rows before the ring's first entry of the reference stream (R377, reason 6). -/
def shortGap (m : Mod) (r : RecFile) : List CapRow :=
  let first := (m.rec_.ring.find? fun x => some x.src == r.ref).map (·.ix)
  let start := recStart r
  match first, r.ref with
  | some f, some s =>
    let j := min f ((recEnd r).1 + 1)
    if start < j then
      [{ src := s, ix := start, time := instantOf (r.rate, 1) start.toNat, gap := true, reason := 6, count := (j - start).toNat }]
    else []
  | _, _ => []

/-- The name that section 0x0011 gives an object (R498). -/
def objName (m : Mod) (kind n : Nat) : Option Bytes :=
  ((([0, 1, 2, 3].map fun p => (imageOf m p).names).flatten).find? fun x => x.1 == kind && x.2.1 == n).map (·.2.2)

/-- A channel as a record keeps it. -/
def recChan (m : Mod) (ch : Nat) : RecChan :=
  match anyChan m ch with
  | none => { chan := ch }
  | some c =>
    { chan := ch, sub := c.sub, pos := (capChans m c.sub).findIdx (·.1 == ch), kind := c.kind, skew := c.extDelay
      f0 := ((groupCfg m c.group).map (·.f0)).getD 50, name := (objName m 3 ch).getD [] }

/-- A record as it opens. -/
def newRec (m : Mod) (d : Nat) (c : RecDef) (t : Trigger) : RecFile :=
  let ref := (c.ans.head?.bind (anyChan m)).map (·.sub)
  let rate := ((ref.bind (subCfg m)).map (·.rate)).getD 0
  { num := m.rec_.next, def_ := d, cfg := c, ref := ref, rate := rate, openAt := m.clk.elapsed, openSec := m.clk.sec, primary := t
    chans := c.ans.map (recChan m), digPos := c.digs.map fun g => (capOps m g.1).findIdx (· == g.2.1)
    imageId := (imageOf m 3).imageId, station := (imageOf m 3).station, tmq := tqCode m, trigs := [t], next := m.rec_.base }

/-- A record opens (R376, R377). -/
def recOpen (m : Mod) (d : Nat) (c : RecDef) (t : Trigger) : Mod :=
  let num := m.rec_.next
  let r := newRec m d c t
  let r := { r with rows := shortGap m r }
  let m := modRec m fun x => { x with recs := x.recs ++ [r], next := (num + 1) % 2 ^ 64 }
  let m := modDef m d fun s => { s with rec_ := some num, last := num }
  let m := bumpO m Reg.REC_CNT_TRIG d
  stateEvent (setFault m Reg.REC_FAULT 0 d [num % 2 ^ 32, num / 2 ^ 32]) recSrc 9 0 1 d

/-- A coincident trigger that ranks before the primary one takes its place: the span is measured from it, and the copy starts
anew (R376, R377). -/
def takePrimary (m : Mod) (n : Nat) (t : Trigger) : Mod :=
  modFile m n fun x =>
    let x := { x with primary := t, next := m.rec_.base, lost := none }
    { x with rows := shortGap m x }

/-- Rank of a trigger among coincident ones (R376). -/
def trigRank (a b : Trigger) : Bool :=
  decide (a.time < b.time ∨ a.time = b.time ∧ (a.cls < b.cls ∨ a.cls = b.cls ∧ a.num < b.num))

/-- A move of the end of a record (R378). -/
def moveEnd (m : Mod) (n time : Nat) : Mod :=
  modFile m n fun r => { r with ext := some (refSample r.rate time + r.cfg.post - 1) }

/-- A trigger enters the trigger list of an open record, or is counted beyond 16 entries (R378). -/
def listTrigger (m : Mod) (d : Nat) (r : RecFile) (t : Trigger) : Mod :=
  if r.trigs.length < 16 then
    let m := bumpO (modFile m r.num fun x => { x with trigs := x.trigs ++ [t] }) Reg.REC_CNT_TRIG d
    if regBits m Reg.REC_CTRL 1 1 = 1 then raiseEvent m recSrc 0 (Config.axisCode 71 % 4096) (faultArg d []) else m
  else setFault (bumpO m Reg.REC_CNT_LIST d) Reg.REC_FAULT 3 d

/-- A trigger of definition `d` reaches the REC block (R375 to R378). -/
def trigger (m : Mod) (d : Nat) (t : Trigger) : Mod :=
  let m := closeIfDue m d
  match (recCfg m).defs.lookup d with
  | none => countHold m d
  | some c =>
    let s := defSt m d
    match openRec m d with
    | some r =>
      let m := listTrigger m d r t
      let m := if m.clk.elapsed ≤ r.openAt + usec 20 ∧ t.kind ≤ 1 ∧ trigRank t r.primary
        then takePrimary m r.num t else m
      if c.retrig ∧ t.kind ≤ 1 ∧ t.cls ≤ 1 then moveEnd m r.num t.time else m
    | none =>
      if !isLive m 3 || s.disarmed then countHold m d
      else if s.hold then
        let m := countHold (modDef m d fun s => { s with cnt := s.cnt + 1 }) d
        if 2 ≤ c.holdMode ∧ c.holdN ≤ s.cnt + 1 then rearm m d else m
      else recOpen m d c t

/-- The primary trigger's end, noted in the records it is primary of (R384). -/
def primaryEnds (m : Mod) (cls num time : Nat) : Mod :=
  modRec m fun r => { r with recs := r.recs.map fun x =>
    if x.primary.cls = cls ∧ x.primary.num = num ∧ x.primEnd.isNone ∧ x.primary.time ≤ time
    then { x with primEnd := some time } else x }

/-! ## REC_TRIGGER at retire (R366, R371, R373) -/

/-- The edge of an output primitive's condition: 1 rise, 2 fall. The first result that stands for a quarantined tag is a fall
of a condition that held (R97, R141, R373). -/
def outEdge (m : Mod) (t : Template) (k : Task) : Nat :=
  if k.quar then
    let first : Bool := match t.flow with
      | some f => (tabGet m.td.flows f).quar == some k.tag
      | none => false
    if first ∧ (segOf m t).a.getD 0 0 ≠ 0 then 2 else 0
  else match k.log with
    | some s => s.a.getD 1 0
    | none => 0

/-- The operand row of a REC_TRIGGER retire (R366). -/
def captureOps (m : Mod) (t : Template) (k : Task) : Mod :=
  let ops := capOps m t.num
  if !isLive m 3 || ops.isEmpty then m
  else
    let vs := ops.map fun o =>
      let x := k.ops.getD o default
      if k.quar then (0, (1 : Qual)) else ((valWords x.val).1, x.q)
    let ix := tagIndex m t.domain k.tag
    let inst (i : Int) : Nat := instantOf (domainRate m t.domain) i.toNat
    capture m { src := 512 + t.num, ix := ix, time := inst ix, qual := combine (vs.map (·.2)), inv := invBits (vs.map (·.2))
                words := vs.map (·.1) } false false inst

/-- REC_TRIGGER at retire. -/
def actRec (m : Mod) (t : Template) (k : Task) : Mod :=
  let m := captureOps m t k
  let ps := paramsFor m t k.tag
  let d := ps.getD 0 0
  let kind := ps.getD 1 0
  let time := tagInstant m t.domain k.tag
  let val := match k.ops[1]? with
    | some v => if k.quar then 0 else (valWords v.val).1
    | none => 0
  let tr : Trigger := ⟨1, t.num, time, kind, val⟩
  let edge := outEdge m t k
  let m := if edge = 2 then primaryEnds m 1 t.num time else m
  match kind, edge with
  | 0, 1 => trigger m d tr
  | 1, 1 => trigger m d tr
  | 1, 2 => match openRec (closeIfDue m d) d with
    | some r => moveEnd (closeIfDue m d) r.num time
    | none => closeIfDue m d
  | 2, 1 =>
    let m := closeIfDue m d
    match openRec m d with
    | some r => recClose (modFile m r.num fun x => { x with stopAt := some time }) r 2
    | none => m
  | 3, 1 =>
    let m := closeIfDue m d
    let m := match openRec m d with
      | some r => listTrigger m d r tr
      | none => countHold m d
    if regBits m Reg.REC_CTRL 2 2 = 1 then raiseEvent m recSrc 0 (Config.axisCode 72 % 4096) (faultArg d []) else m
  | _, _ => m

/-! ## Samples: rows and level triggers (R366, R372) -/

/-- The instant at which a level trigger operates, between values at sample indices `i1` and `i2` (R372). -/
def levelInstant (rate l v1 v2 : Nat) (i1 i2 : Int) : Nat :=
  let w (x : Nat) : Num := num (BitVec.ofNat 32 x)
  let f := nDiv (nSub (w l) (w v1)) (nSub (w v2) (w v1))
  let n := numOfInt (i2 - i1) 0
  let x := nMul (nMul (numOfInt 256 0) f) n
  let q := max 1 (divEvenInt (fInt x.v) fUnit)
  instantOf (rate, 1) i1.toNat + (q * (secs 1 : Nat) / (256 * max 1 rate : Nat)).toNat

/-- One evaluation of a level trigger (R372). -/
def levelEval (m : Mod) (n : Nat) (c : LvlCfg) (rate : Nat) (ix : Int) (v : Nat) : Mod :=
  let s := tabGet m.rec_.lvls n
  let w (x : Nat) : Num := num (BitVec.ofNat 32 x)
  let beyond := if c.under then nLt (w v) (w c.l) else nLt (w c.l) (w v)
  let back := if c.under then nLt (w c.q) (w v) else nLt (w v) (w c.q)
  let put (m : Mod) (on : Bool) (prev : Option (Nat × Int)) : Mod := modRec m fun r => { r with lvls := tabSet r.lvls n { on := on, prev := prev } }
  if !s.on && beyond then
    let t := match s.prev with
      | some (v1, i1) => levelInstant rate c.l v1 v i1 ix
      | none => instantOf (rate, 1) ix.toNat
    (List.range 64).foldl (fun m d => if c.mask.testBit d then trigger m d ⟨0, n, t, 0, 0⟩ else m) (put m true (some (v, ix)))
  else if s.on && back then primaryEnds (put m false none) 0 n (instantOf (rate, 1) ix.toNat)
  else put m s.on (some (v, ix))

/-- The REC block and the capture ring take a sample that a filter lane has processed; `fresh` are the channels whose RMS it
refreshed. -/
def recSample (m : Mod) (x : LaneSample) (fresh : List Nat) : Mod :=
  match subCfg m x.sub with
  | none => m
  | some c =>
    if !isLive m 3 then m
    else
      let chans := capChans m x.sub
      let val (ch : Nat × ChanCfg) : Nat × Qual :=
        let v := x.vals.getD ch.2.idx (0, 1)
        ((scaled v.1 ch.2.scale).v.toNat, v.2)
      let vs := chans.map val
      let inst (i : Int) : Nat := instantOf (c.rate, 1) i.toNat
      let m := if chans.isEmpty then m
        else capture m { src := x.sub, ix := x.ix, time := inst x.ix, qual := combine (vs.map (·.2)), inv := invBits (vs.map (·.2))
                         mark := (if x.sim then 1 else 0) + (if x.fill then 2 else 0) + (if x.unsync then 4 else 0)
                         words := vs.map (·.1) } (vs.all fun v => validity v.2 == 1) true inst
      (recCfg m).lvls.foldl (fun m l =>
        match (subChans m x.sub).find? fun ch => ch.1 == l.2.ch with
        | none => m
        | some ch =>
          if l.2.rms then
            if fresh.contains ch.1 then
              let st := tabGet m.sv.chans ch.1
              if validity st.rmsQ = 1 then m else levelEval m l.1 l.2 c.rate x.ix st.rms
            else m
          else
            let v := val ch
            if validity v.2 = 1 then m else levelEval m l.1 l.2 c.rate x.ix (v.1 % 2 ^ 31)) m

/-! ## Host commands (R371, R375, R380) -/

/-- REC_MANUAL: a write of REC_MANUAL0 or REC_MANUAL1 triggers each definition named (R371). -/
def recManual (m : Mod) (half : Nat) (v : Word) (be : BitVec 4) : Mod :=
  hostWrite m (if half = 0 then Reg.REC_MANUAL 0 else Reg.REC_MANUAL 1) be fun m =>
    (List.range 32).foldl (fun m i =>
      if !v.toNat.testBit i then m
      else
        let d := 32 * half + i
        if !isLive m 3 || ((recCfg m).defs.lookup d).isNone then setFault m Reg.REC_FAULT 6 d
        else trigger m d ⟨2, 0, localTime m.clk, 0, 0⟩) m

/-- REC_ARM: arms, disarms or ends the hold-off of a definition (R375, R380). -/
def recArm (m : Mod) (v : Word) (be : BitVec 4) : Mod :=
  guardedWrite m Reg.REC_ARM be fun m =>
    let d := v.toNat % 64
    if !isLive m 3 || ((recCfg m).defs.lookup d).isNone then setFault m Reg.REC_FAULT 6 d
    else
      let m := closeIfDue (setReg m Reg.REC_ARM (v &&& 0xC000003F)) d
      if v.toNat.testBit 30 then (if (defSt m d).hold then rearm m d else m)
      else if v.toNat.testBit 31 then modDef m d fun s => { s with disarmed := false }
      else
        let m := if (defSt m d).hold then rearm m d else m
        modDef m d fun s => { s with disarmed := true }

/-- RECORD_CLOSE: the record of a definition closes at its end sample (R379). -/
def recordClose (m : Mod) (d : Nat) : Mod := closeIfDue m d

/-- HOLD_OFF_EXPIRY: HOLD_T runs out and the definition re-arms (R380). -/
def holdOffExpiry (m : Mod) (d : Nat) : Mod := expire m .holdOff d fun m => rearm m d

/-- A record ends at the last row of its reference stream that has been written. -/
def endAtLast (m : Mod) (r : RecFile) : Mod :=
  modFile m r.num fun x => { x with ext := (r.ref.bind fun s => (tabGet m.rec_.srcs s).last).orElse fun _ => x.ext }

/-- The definitions under a halt at the capture-block boundary: every open record closes at the last row written, reason 3
(R379); the sources of the partition have rows missing from now (R367). -/
def recHalt (m : Mod) (p : Nat) : Mod :=
  let m := if p ≠ 3 then m else
    (m.rec_.recs.filter fun r => r.closed.isNone).foldl (fun m r => recClose (endAtLast m r) r 3) m
  let hit (src : Nat) : Bool := p == 3 || (if src < 512 then (subCfg m src).any (·.part == p)
    else (template m (src - 512)).any fun t => tmplPart t == p)
  modRec m fun r => { r with srcs := r.srcs.map fun s => (s.1, if hit s.1 then { s.2 with down := true } else s.2) }

/-- A load of the recording partition discards the ring (R379) and its sources' state. -/
def recLoad (m : Mod) : Mod :=
  modRec m fun r => { r with base := r.base + r.ring.length, ring := [], srcs := [], lvls := [] }

/-- The definitions when the recording partition goes Live (R375): Armed; one that was disarmed stays so without a load. -/
def recLive (m : Mod) (load : Bool) : Mod :=
  (recCfg m).defs.foldl (fun m d =>
    let m := rearm m d.1
    if load then modDef m d.1 fun s => { s with disarmed := false } else m) m

/-- The gap from the last row copied to the planned end of a record that a supply failure cut (R379, reason 5). -/
def supplyCut (r : RecFile) : List CapRow :=
  let s := r.ref.getD 0
  let i := ((r.rows.filter (·.src == s)).getLast?.map fun x => x.ix + (if x.gap then (x.count : Int) else 1)).getD (recStart r)
  let k := ((recEnd r).1 + 1 - i).toNat
  if k = 0 then [] else [{ src := s, ix := i, time := instantOf (r.rate, 1) i.toNat, gap := true, reason := 5, count := k }]

/-- A device reset or a thermal stop closes the open records (R379, R510). -/
def recCut (m : Mod) : Mod :=
  (m.rec_.recs.filter fun r => r.closed.isNone).foldl (fun m r => recClose (endAtLast m r) r 3) m

/-- The start after a supply failure closes the records that were open, reason 4, and writes their gap of reason 5 (R379). -/
def recResume (m : Mod) : Mod :=
  (m.rec_.recs.filter fun r => r.closed.isNone).foldl (fun m r =>
    closeFile (modFile m r.num fun x => { x with rows := x.rows ++ supplyCut x, lost := none }) r 4) m

/-! ## Copying and the store (R381 to R383) -/

def fileSize (r : RecFile) : Nat := r.rows.foldl (fun n x => n + rowSize x) 0

/-- Bytes of the record store (R383). -/
def storeBytes : Nat := 103079215104

/-- Room is made in the store: the oldest closed record goes, or the largest open one closes (R383). `n` bounds the number
of records. -/
def storeTrim : Nat → Mod → Mod
  | 0, m => m
  | n + 1, m =>
    if m.rec_.recs.foldl (fun k r => k + fileSize r) 0 ≤ storeBytes then m
    else match m.rec_.recs.find? fun r => r.closed.isSome with
      | some r =>
        let m := modRec m fun c => { c with recs := c.recs.filter fun x => x.num ≠ r.num }
        storeTrim n (setFault m Reg.REC_FAULT 4 r.def_ [r.num % 2 ^ 32, r.num / 2 ^ 32])
      | none =>
        let big := m.rec_.recs.foldl (fun (b : Option RecFile) r => match b with
          | none => some r
          | some x => if fileSize x < fileSize r then some r else some x) none
        match big with
        | some r => setFault (recClose (endAtLast m r) r 5) Reg.REC_FAULT 4 r.def_ [r.num % 2 ^ 32, r.num / 2 ^ 32]
        | none => m

/-- RECORD_COPY: Keeper copies the rows of a record that the ring holds and the store has not, oldest first, with the gap
entry for rows overwritten before (R381, R382). -/
def recordCopy (m : Mod) (n : Nat) : Mod :=
  if m.kpr.kstate ≠ 1 then m
  else match recFile m n with
    | none => m
    | some r =>
      let end_ := m.rec_.base + m.rec_.ring.length
      let new := (m.rec_.ring.drop (r.next - m.rec_.base)).filterMap (recPart r)
      let gap : List CapRow := match r.lost with
        | some (t, k) => [{ src := r.ref.getD 0, ix := refSample r.rate t, time := t, gap := true, reason := 3, count := k }]
        | none => if r.rows.isEmpty ∧ new.any (fun x => some x.src == r.ref) then shortGap m r else []
      let m := match r.lost with
        | some (_, k) => setFault (addCnt m Reg.REC_CNT_OVR k) Reg.REC_FAULT 2 r.def_
        | none => m
      let m := modFile m n fun x => { x with rows := x.rows ++ gap ++ new, next := end_, lost := none }
      storeTrim (m.rec_.recs.length + 1) m

/-! ## Measurements (R384) -/

/-- The samples of a channel in a record: index, instant and value, those that R384 excludes left out. -/
def chanSamples (r : RecFile) (c : RecChan) : List (Int × Nat × Nat) :=
  (r.rows.filter fun x => x.src == c.sub && !x.gap && !x.inv.testBit c.pos && !x.mark.testBit 1).map fun x =>
    (x.ix, x.time, x.words.getD c.pos 0)

/-- Positive-going zero crossings, interpolated linearly, that follow a sample below −0.01 × |PEAK|: instants as fractions. -/
def crossings (peak : Int) (xs : List (Nat × Int)) : List (Int × Nat) :=
  let step (a : Option (Nat × Int) × Bool × List (Int × Nat)) (x : Nat × Int) : Option (Nat × Int) × Bool × List (Int × Nat) :=
    let armed := a.2.1 || decide (x.2 * 100 < -(peak.natAbs : Int))
    match a.1 with
    | some p =>
      if a.2.1 && decide (p.2 < 0) && decide (0 ≤ x.2) then
        let d := (x.2 - p.2).toNat
        (some x, false, a.2.2 ++ [((p.1 : Int) * d + (-p.2) * ((x.1 : Int) - p.1), d)])
      else (some x, armed, a.2.2)
    | none => (some x, armed, a.2.2)
  (xs.foldl step (none, false, [])).2.2

/-- The five measurements of a channel (R384): PEAK, RMS, FREQ, PERIOD, DURATION. -/
def measureChan (r : RecFile) (c : RecChan) : List Measure :=
  let xs := chanSamples r c
  let fi (w : Nat) : Int := fInt (BitVec.ofNat 32 w)
  let peak := xs.foldl (fun (b : Option (Nat × Nat)) x => match b with
    | none => some (x.2.2, x.2.1)
    | some p => if (fi p.1).natAbs < (fi x.2.2).natAbs then some (x.2.2, x.2.1) else some p) none
  let f0 := max 1 c.f0
  let win := r.cfg.measCyc * r.rate / f0
  let ws := xs.filter fun x => decide (n0Of r ≤ x.1) && decide (x.1 < n0Of r + win)
  let sq := ws.foldl (fun n x => n + fi x.2.2 * fi x.2.2) 0
  let pk : Int := match peak with
    | some p => fi p.1
    | none => 0
  let point := r.primary.time
  let cyc := secs 10 / f0
  let pts := xs.map fun x => (x.2.1, fi x.2.2)
  let cs := crossings pk pts
  let before := cs.filter fun c => decide (c.1 < ((point * c.2 : Nat) : Int)) && decide (((point : Int) - (cyc : Nat)) * (c.2 : Nat) ≤ c.1)
  let after := cs.filter fun c => decide (((point * c.2 : Nat) : Int) ≤ c.1)
  let secU : Int := (secs 1 : Nat)
  -- a fraction as a stored word
  let near (code : Nat) (n : Int) (d : Nat) : Nat := word32 (nearHeld code (n * (fUnit : Nat)) d)
  -- the time from a to b in seconds as a fraction
  let span (a b : Int × Nat) : Int × Nat := (b.1 * a.2 - a.1 * b.2, a.2 * b.2 * secU.toNat)
  let freq : Measure := match before.head?, before.getLast? with
    | some a, some b =>
      let s := span a b
      if before.length < 3 then ⟨0, 1, 0⟩
      else ⟨near 102 (((before.length - 1 : Nat) : Int) * s.2) s.1.toNat, 0, 0⟩
    | _, _ => ⟨0, 1, 0⟩
  let period : Measure := match after with
    | a :: b :: _ =>
      let s := span a b
      ⟨near 103 s.1 s.2, 0, 0⟩
    | _ => ⟨0, 1, 0⟩
  let endT := instantOf (r.rate, 1) ((recEnd r).1 + 1).toNat
  let dur : Measure :=
    if r.primary.cls = 2 then ⟨0, 0, 0⟩
    else match r.primEnd with
      | some t => if t ≤ endT then ⟨near 104 ((t : Int) - point) (secs 1), 0, 0⟩
        else ⟨near 104 ((endT : Int) - point) (secs 1), 3, 0⟩
      | none => ⟨near 104 ((endT : Int) - point) (secs 1), 3, 0⟩
  [ (match peak with
      | some p => ⟨p.1, 0, p.2⟩
      | none => ⟨0, 1, 0⟩),
    (if 2 * ws.length < win ∨ ws.isEmpty then ⟨0, 1, 0⟩
     else ⟨word32 (nearHeld 101 (isqrt (sq.toNat * 2 ^ 80 / ws.length) : Nat) (2 ^ 40)), 0, 0⟩),
    freq, period, dur ]

/-- RECORD_MEASURE: Keeper computes and stores a closed record's measurements (R384). -/
def recordMeasure (m : Mod) (n : Nat) : Mod :=
  match recFile m n with
  | none => m
  | some r =>
    if r.closed.isNone ∨ m.kpr.kstate ≠ 1 then m
    else
      let ms := r.chans.map (measureChan r)
      modFile m n fun x => { x with meas := some ms }

/-- The flags of a record (R374): bit 0 TEST, 1 SIM, 2 TKO. -/
def recFlags (r : RecFile) : Nat :=
  (if r.rows.any fun x => qBit x.qual qTest then 1 else 0) + (if r.rows.any fun x => x.mark.testBit 0 then 2 else 0)
    + (if r.rows.any fun x => qBit x.qual qTakeover then 4 else 0)

/-- Length of a record in reference-stream samples. -/
def recLength (r : RecFile) : Nat := ((recEnd r).1 - recStart r + 1).toNat

/-- A record's gaps: reason, first instant, rows. -/
def recGaps (r : RecFile) : List (List Nat) := (r.rows.filter (·.gap)).map fun x => [x.reason, x.time, x.count]

/-! ## Mailbox commands (R488) -/

/-- REC_LIST. -/
def recList (m : Mod) (rq : KReq) (first count : Nat) : Mod :=
  keeperAsk m rq 0x0050 1 0xFFFFFFFF (leBytes 8 first ++ leBytes 4 count) fun m =>
    if 200 < count then answer 0x0E
    else
      let rs := (m.rec_.recs.filter fun r => decide (first ≤ r.num)).take count
      { result := 0, data := (rs.map fun r => (Config.recListBytes r.num r.def_ r.closed.isNone r.openSec).toList).flatten }

/-- REC_INFO. -/
def recInfo (m : Mod) (rq : KReq) (n : Nat) : Mod :=
  keeperAsk m rq 0x0051 1 (n % 2 ^ 32) (leBytes 8 n) fun m =>
    match recFile m n with
    | none => answer 0x0F
    | some r =>
      let reason := match r.closed with
        | some c => c.1
        | none => 0
      let trigs := r.trigs.map fun t => [t.cls, t.num, t.time, t.kind, t.val]
      let ms := (r.meas.getD []).flatten.map fun x => [x.val, x.valid, x.time]
      { result := 0, data := (Config.recInfoBytes ([[n, recFlags r, reason, recLength r]] ++ trigs ++ ms)).take 4080 }

/-- REC_DELETE. -/
def recDelete (m : Mod) (rq : KReq) (n : Nat) : Mod :=
  keeperCmd m rq 0x0053 1 (n % 2 ^ 32) (leBytes 8 n) fun m =>
    match recFile m n with
    | none => (m, answer 0x0F)
    | some r => if r.closed.isNone then (m, answer 0x0B)
      else (modRec m fun c => { c with recs := c.recs.filter fun x => x.num ≠ n }, answer 0)

/-! ## COMTRADE export (R385, R386) -/

/-- The UTC offset with the latest leap second and its direction, as of a record's close. -/
def recUtc (m : Mod) (r : RecFile) : Int × Option (Nat × Nat) :=
  r.utc.getD (utcOffset m, m.clk.leapAt.map fun s => (s, m.clk.leapDir))

/-- UTC of a TAI instant with the offset in force then: before the leap second, the offset is one less if it was inserted and
one more if it was deleted. -/
def utcAt (u : Int × Option (Nat × Nat)) (t : Nat) : Int × Nat :=
  let back : Int := match u.2 with
    | some (s, dir) => if t / secs 1 < s then (if dir = 0 then -1 else 1) else 0
    | none => 0
  (((t / secs 1 : Nat) : Int) - (u.1 + back), t % secs 1 / nsUnit)

/-- A value as a file type codes it (R385). -/
def codeVal (ty peak w : Nat) : Nat :=
  let p := (fInt (BitVec.ofNat 32 peak)).natAbs
  let v := fInt (BitVec.ofNat 32 w)
  match ty with
  | 1 => codedOf 16 (if p = 0 then 0 else divEvenInt (v * 32767) p)
  | 2 => codedOf 32 (if p = 0 then 0 else divEvenInt (v * 2147483647) p)
  | _ => w

/-- The latest row of a source at or before an instant. -/
def rowAt (rows : List CapRow) (src t : Nat) : Option CapRow :=
  (rows.filter fun x => x.src == src && decide (x.time ≤ t)).getLast?

/-- Reference rows of a record, with gaps longer than 1 s cutting it into parts; shorter gaps stand as single rows. -/
def splitRows (rate : Nat) : List CapRow → List (List CapRow)
  | [] => [[]]
  | x :: xs =>
    let rest := splitRows rate xs
    if x.gap && decide (rate < x.count) then [] :: rest
    else match rest with
      | p :: ps => (x :: p) :: ps
      | [] => [[x]]

/-- One part of an export (R385, R386). -/
def exportPart (utc : Int × Option (Nat × Nat)) (r : RecFile) (ty : Nat) (cff : Bool) (tc : Int) (part : Nat) (rows : List CapRow) : ExportSet :=
  let t0 := match rows.head? with
    | some x => x.time
    | none => r.primary.time
  let pk (i : Nat) : Nat := (((((r.meas.getD []).getD i []).head?).map (·.val)).getD 0) % 2 ^ 31
  let chans := (r.chans.zip (List.range r.chans.length)).map fun x =>
    ({ name := x.1.name, chan := x.1.chan, kind := x.1.kind, peak := pk x.2
       div := if ty = 1 then 32767 else if ty = 2 then 2147483647 else 0, skew := x.1.skew } : ExportChan)
  let lines := (rows.map fun x => (List.range (if x.gap then x.count else 1)).map fun j =>
    (x, instantOf (r.rate, 1) (x.ix + j).toNat)).flatten
  let row (n : Nat) (x : CapRow) (t : Nat) : ExportRow :=
    let vals := (r.chans.zip chans).map fun c =>
      match rowAt r.rows c.1.sub t with
      | some y => if x.gap || y.gap || y.inv.testBit c.1.pos || y.mark.testBit 1 then none
        else some (codeVal ty c.2.peak (y.words.getD c.1.pos 0))
      | none => none
    let digs := (r.cfg.digs.zip r.digPos).map fun g =>
      match rowAt r.rows (512 + g.1.1) t with
      | some y => !x.gap && !y.gap && (y.words.getD g.2 0).testBit g.1.2.2
      | none => false
    { n := n, time := t - t0, vals := vals
      digs := digs ++ [!x.gap && qBit x.qual qTest, !x.gap && x.mark.testBit 0, x.gap, !x.gap && qBit x.qual qTakeover] }
  let out := (lines.zip (List.range lines.length)).map fun l => row (l.2 + 1) l.1.1 l.1.2
  let last := match lines.getLast? with
    | some l => (l.2 - t0) * 1000000 / secs 1
    | none => 0
  let mult := ((List.range 16).find? fun k => decide (last / 10 ^ k < 2 ^ 32)).getD 0
  let whole := r.rows.map (·.time)
  let leap : Nat := match utc.2 with
    | some (s, dir) => if whole.any (fun t => decide (t / secs 1 < s)) && whole.any (fun t => decide (s ≤ t / secs 1)) then dir + 1 else 0
    | none => 0
  { part := part, fileType := ty, cff := cff, station := r.station, device := r.cfg.name, chans := chans, digs := r.cfg.digs
    lf := (r.chans.head?.map (·.f0)).getD 50, rate := r.rate, start := utcAt utc t0, trigger := utcAt utc r.primary.time
    timemult := 10 ^ mult, timeCode := tc, tmq := r.tmq, leapsec := leap, rows := out
    hdr := [[r.num], [r.imageId], [r.def_]] ++ (r.trigs.map fun t => [t.cls, t.num, t.time, t.kind, t.val])
      ++ recGaps r ++ ((r.meas.getD []).flatten.map fun x => [x.val, x.valid, x.time])
      ++ [[match r.closed with | some c => c.1 | none => 0], [recFlags r]] }

/-- The files of an export, part after part. -/
def exportOf (m : Mod) (r : RecFile) (format : Nat) (tc : Int) : List Bytes :=
  let ref := r.ref.getD 0
  let parts := (splitRows r.rate (r.rows.filter fun x => x.src == ref)).filter fun p => !p.isEmpty
  ((parts.zip (List.range parts.length)).map fun p =>
    Config.exportFiles (exportPart (recUtc m r) r (format % 8) (format.testBit 3) tc (if parts.length = 1 then 0 else p.2 + 1) p.1)).flatten

/-- Handles reserved for `n` files; the export's earlier files go (R488). -/
def reserveFiles (m : Mod) (n : Nat) : List Nat × Mod :=
  let h := m.kpr.nextHandle
  ((List.range n).map (h + ·), { m with kpr := { m.kpr with
    nextHandle := h + n, files := m.kpr.files.filter fun f => decide (f.2.kind < 16) } })

/-- REC_EXPORT: the export is queued and answered with the handles and sizes of its files (R385, R488). -/
def recExport (m : Mod) (rq : KReq) (n format : Nat) (tc : Int) (off len : Nat) : Mod :=
  keeperCmd m rq 0x0052 2 (n % 2 ^ 32) (leBytes 8 n ++ leBytes 4 format) fun m =>
    if 16 ≤ format ∨ 3 < format % 8 then (m, answer 0x0E)
    else match recFile m n with
      | none => (m, answer 0x0F)
      | some r =>
        let fs := exportOf m r format tc
        let (hs, m) := reserveFiles m fs.length
        (modRec m fun c => { c with exports := c.exports ++ [⟨n, format, tc, off, len, hs⟩] },
          { result := 0, data := ((hs.zip fs).map fun x => leBytes 4 x.1 ++ leBytes 8 x.2.length).flatten.take 4080 })

/-- COMTRADE_EXPORT: Keeper makes the files of the oldest export that waits and copies them to the BAR2 range it names;
nothing while the shed level is 2 or more (R385, R491). -/
def comtradeExport (m : Mod) : Mod × List MemWrite :=
  match m.rec_.exports with
  | [] => (m, [])
  | j :: rest =>
    if 2 ≤ m.kpr.shed ∨ m.kpr.kstate ≠ 1 then (m, [])
    else
      let m := modRec m fun c => { c with exports := rest }
      match recFile m j.num with
      | none => (m, [])
      | some r =>
        let fs := exportOf m r j.format j.timeCode
        let (hs, m) := if j.handles.isEmpty then reserveFiles m fs.length else (j.handles, m)
        let m := ((hs.zip fs).zip (List.range fs.length)).foldl (fun m x =>
          { m with kpr := { m.kpr with files := tabSet m.kpr.files x.1.1 ⟨16 + x.2, x.1.2⟩ } }) m
        (m, if j.len = 0 then [] else [toDram j.off (fs.flatten.take j.len)])

/-! ## Registers (R389, R390) -/

def recSpan (m : Mod) : Nat := match capRate m with
  | 0 => 0xFFFFFFFF
  | b => min (ringBytes * 1000 / b) 0xFFFFFFFF
def recCfgWord (m : Mod) : Nat := (recCfg m).lvls.length * 2 ^ 16 + (recCfg m).defs.length
def recOpenWord (m : Mod) (half : Nat) : Nat :=
  (List.range 32).foldl (fun n i => if (openRec m (32 * half + i)).isSome then n + 2 ^ i else n) 0

/-- REC_DEF_STAT of a definition. -/
def recDefStat (m : Mod) (d : Nat) : Nat :=
  match (recCfg m).defs.lookup d with
  | none => 0
  | some c =>
    let s := defSt m d
    let left := if s.hold ∧ 2 ≤ c.holdMode then c.holdN - s.cnt else 0
    match openRec m d with
    | some r => r.trigs.length * 256 + (if r.streaming then 8 else 0) + 3
    | none => left * 2 ^ 16 + (if s.disarmed then 1 else if s.hold then 4 else 2)

end Sys2Proof.Machine
end

