-- ==== Sys2Proof/Machine/Mtr.lean ====
section
/-!
DEFINITION. The MTR block (chapter 13): metering points, pulse outputs, power quality, copies and saves, the metrological log,
seal and unseal, the MTR mailbox.
-/
namespace Sys2Proof.Machine

def modMtr (m : Mod) (f : Mtr → Mtr) : Mod := { m with mtr := f m.mtr }
def mtrCfg (m : Mod) : MtrCfg := (imageOf m 2).mtr
def mtrPt (m : Mod) (p : Nat) : MtrPt := tabGet m.mtr.pts p
def modPt (m : Mod) (p : Nat) (f : MtrPt → MtrPt) : Mod := modMtr m fun r => { r with pts := tabMod r.pts p f }
def ptCfg (m : Mod) (p : Nat) : Option PtCfg := (mtrCfg m).points.lookup p
def ptLegal (m : Mod) (p : Nat) : Bool := match ptCfg m p with
  | some c => c.legal
  | none => false

/-! ## The metrological log (R445, R446) -/

/-- MTR_LOG_FILL as read. -/
def logFill (m : Mod) : Nat := m.mtr.logNext - m.mtr.logFree

/-- The metering-seal slot when it is usable. -/
def sealKey (m : Mod) : Option Bytes := match m.mtr.sealSlot with
  | some i => if slotLive (keySlot m i) && (keySlot m i).policy == 5 then some (keySlot m i).cur else none
  | none => none

/-- One entry written with the next SEQ. -/
def logPut (m : Mod) (code pt : Nat) (args : List Nat) : Mod :=
  let key := sealKey m
  let c := m.clk
  let tq := (if clkLocked c then 1 else 0) + (if clkTod c then 2 else 0) + 16 * tqCode m
  let flags := (if sealState m = .broken then 1 else 0) + (if key.isNone then 2 else 0)
    + (if tabGet m.mode.partTest 2 = TestVal.off then 0 else 4)
  let arg := ((args ++ [0, 0, 0]).take 3).map (leBytes 8)
  let body := leBytes 8 m.mtr.logNext ++ leBytes 8 c.sec ++ leBytes 4 c.ns ++ leBytes 1 tq ++ leBytes 1 code ++ leBytes 1 pt
    ++ leBytes 1 flags ++ arg.flatten
  let mac := match key with
    | some k => (hmac256 k (body ++ m.mtr.logMac)).take 16
    | none => List.replicate 16 0
  modMtr m fun r => { r with log := tabSet r.log (r.logNext % 65536) (body ++ mac), logNext := r.logNext + 1, logMac := mac }

/-- An entry of a VZ40-L: after space frees the log gap entry comes first; with 65,536 unacknowledged it is not written but
counted, with LOG_FULL. The use of the metering-seal slot checks its tag (R466). -/
def mtrLog (m : Mod) (code pt : Nat) (args : List Nat) : Mod :=
  if sealState m = .notFitted then m
  else
    let m := match m.mtr.sealSlot with
      | some i => checkTag m i
      | none => m
    let m := if m.mtr.logLost ≠ 0 ∧ logFill m < 65536 then
        modMtr (logPut m 0x10 0xFF [m.mtr.logLost]) fun r => { r with logLost := 0 }
      else m
    if logFill m < 65536 then logPut m code pt args
    else
      let m := bump (modMtr m fun r => { r with logLost := r.logLost + 1 }) Reg.MTR_LOG_DROP
      setFault m Reg.MTR_FAULT 9

/-- An entry whose arguments R445 does not name. -/
def mtrLogFree (m : Mod) (code pt : Nat) (args : List Nat) : Mod := mtrLog m code pt (Config.logArg code args)

/-- Operations are logged while Sealed or Broken (R444). -/
def sealLogs (m : Mod) : Bool := sealState m == .sealed || sealState m == .broken

/-- A configuration change logged with its kind and value. Kinds: 0 settings group, 1 Palette switch, 2 SV_BLOCK, 3 WRAP
clear, 4 OVER and LOST clear, 5 PULSE_EN clear, 6 commit or halt of the metering partition. -/
def logConfig (m : Mod) (kind pt value : Nat) : Mod :=
  if sealLogs m then mtrLog m 0x0D pt [Config.cfgKind kind, value] else m

/-- MTR_LOG_ACK: frees every entry up to and including the SEQ named by its low 32 bits; a SEQ not yet written is refused. -/
def mtrLogAck (m : Mod) (v : Word) (be : BitVec 4) : Mod :=
  guardedWrite m Reg.MTR_LOG_ACK be fun m =>
    let m := setReg m Reg.MTR_LOG_ACK v
    let r := m.mtr
    let d := (v.toNat + 2 ^ 32 - r.logFree % 2 ^ 32) % 2 ^ 32
    if r.logFree + d < r.logNext then modMtr m fun r => { r with logFree := r.logFree + d + 1 }
    else if v.toNat < r.logFree then m
    else setFault m Reg.MTR_FAULT 10

/-- MTR_LOG_READ: entries from a SEQ on, as many of the count as lie in the log; none at the first SEQ is no such object. -/
def mtrLogRead (m : Mod) (rq : KReq) (first count off : Nat) : Mod × List MemWrite :=
  keeperCmdMem m rq 0x0060 0 0 (leBytes 8 first ++ leBytes 4 count) fun m =>
    let r := m.mtr
    if 4096 < count ∨ 2 ^ 32 < off + 64 * count then (m, answer 0x0E, [])
    else if first < r.logFree ∨ r.logNext ≤ first then (m, answer 0x0F, [])
    else
      let n := min count (r.logNext - first)
      let bs := ((List.range n).map fun k => tabGet r.log ((first + k) % 65536)).flatten
      (m, { result := 0, data := leBytes 4 n }, [⟨false, off, bs⟩])

/-! ## Increments (R420 to R423) -/

/-- A pulse credit grows by an addition to its register (R425); above 2^31 pulses the point's OVER sets (R426). -/
def creditAdd (m : Mod) (o : Nat) (c : PulseCfg) (units : Nat) : Mod :=
  let n := units * fMag (BitVec.ofNat 32 c.k)
  let d := fUnit * 1000000
  let (k, m) := drawFree m
  let up := if n % d = 0 then 0 else Config.creditUp k % 2
  let credit := tabGet m.mtr.credits o + n / d + up
  let m := modMtr m fun r => { r with credits := tabSet r.credits o credit }
  if 2 ^ 63 < credit then setFault (modPt m c.pt fun p => { p with ovf := true }) Reg.MTR_FAULT 4 c.pt else m

/-- An exact addition to a register, with its wrap (R420, R423) and the pulse credits that follow it. -/
def regAdd (m : Mod) (pt code units : Nat) : Mod :=
  let old := tabGet (mtrPt m pt).regs code
  let sum := old + units
  let m := modPt m pt fun p => { p with regs := tabSet p.regs code (sum % 2 ^ 96) }
  let m := if 2 ^ 96 ≤ sum then
      let m := modPt m pt fun p => { p with wrap := p.wrap ||| 2 ^ code }
      mtrLog (setFault m Reg.MTR_FAULT 3 pt) 0x09 pt [code]
    else m
  (mtrCfg m).pulses.foldl (fun m o => if o.2.pt = pt ∧ o.2.reg = code then creditAdd m o.1 o.2 units else m) m

/-- A retained time grows by Δt: µs and remainder. -/
def timeAdd (rate : Nat × Nat) (us rem : Nat) : Nat × Nat :=
  let t := rem + 1000000 * rate.2
  if rate.1 = 0 then (us, rem) else ((us + t / rate.1) % 2 ^ 64, t % rate.1)

/-- METER_INCREMENT: an increment of a point in mWh and mvarh, binary32, with its quality and tag (R420 to R422). -/
def meterAdd (m : Mod) (pt : Nat) (rate : Nat × Nat) (ep eq : F32) (q : Qual) (tag : Nat) : Mod :=
  let m := modPt m pt fun p => { p with tag := tag }
  if validity q = 1 then
    modPt m pt fun p =>
      let t := timeAdd rate p.invalid p.invRem
      { p with invalid := t.1, invRem := t.2 }
  else
    let test := qBit q qTest
    let m := if !test && validity q == 3 then
        modPt m pt fun p =>
          let t := timeAdd rate p.quest p.questRem
          { p with quest := t.1, questRem := t.2 }
      else m
    let base := if test then 8 else 0
    let units (x : F32) : Nat := divEven (fMag x) (2 ^ 117)
    let p0 : Bool := decide (0 ≤ fInt ep)
    let q0 : Bool := decide (0 ≤ fInt eq)
    let quad := match p0, q0 with
      | true, true => 2 | false, true => 3 | false, false => 4 | true, false => 5
    let m := regAdd m pt (base + (if p0 then 0 else 1)) (units ep)
    let m := regAdd m pt (base + quad) (units eq)
    match ptCfg m pt with
    | none => m
    | some c =>
      let lim := 20 * fMag (BitVec.ofNat 32 c.pMax) * rate.2
      if lim < 36 * fMag ep * rate.1 ∨ lim < 36 * fMag eq * rate.1 then
        setFault (modPt m pt fun p => { p with ovf := true }) Reg.MTR_FAULT 4 pt
      else m

/-- METER_ACC at retire: scale·S·Δt, or scale·P·Δt and scale·Q·Δt, delivered to its point (R420). -/
def actMeter (m : Mod) (t : Template) (k : Task) : Mod :=
  let x := taskInput m t k
  let s := match x.n with
    | 1 => x.oCpx 0
    | _ => ⟨x.oNum 0, x.oNum 1⟩
  let mul (v : Num) : Num := nMul (nMul (x.pNum 1) v) x.dt
  let q := match k.result with
    | some r => r.q
    | none => 1
  let ep := mul s.re
  let eq := mul s.im
  let q := if k.quar then 1 else q
  let q := qOr q (if ep.sat || eq.sat then qRange else 0)
  let q := withValidity q (if ep.inv || eq.inv then 1 else 0)
  meterAdd m (x.pNat 0) x.rate ep.v eq.v q k.tag

/-! ## Pulse outputs (R425 to R427) -/

/-- The line level of an output. -/
def pulseDrive (m : Mod) (o : Nat) (active : Bool) : Mod :=
  let low := match (mtrCfg m).pulses.lookup o with
    | some c => c.activeLow
    | none => false
  emit (modMtr m fun r => { r with pulsing := tabSet r.pulsing o active }) (.pulse o (active != low))

/-- PULSE_START: with credit for a pulse and the output enabled, the pulse starts once 2 × PW has passed since the previous
one started. -/
def pulseStart (m : Mod) (o : Nat) : Mod :=
  match (mtrCfg m).pulses.lookup o with
  | none => m
  | some c =>
    if !(reg m Reg.MTR_CTRL).toNat.testBit o || tabGet m.mtr.credits o < 2 ^ 32 || tabGet m.mtr.pulsing o || m.mtr.saving.any (·.kind == .lastGasp)
    then m
    else
      let m := match tabGet m.mtr.pulseAt o with
        | some t => advanceTo m (max m.clk.elapsed (t + usec (20 * c.pw)))
        | none => m
      let m := modMtr m fun r => { r with
        credits := tabSet r.credits o (tabGet r.credits o - 2 ^ 32), pulseAt := tabSet r.pulseAt o (some m.clk.elapsed) }
      startTimer (pulseDrive m o true) .pulseEnd o (usec (10 * c.pw))

/-- PULSE_END: the pulse lasts PW. -/
def pulseEnd (m : Mod) (o : Nat) : Mod := expire m .pulseEnd o fun m => pulseDrive m o false

/-- Every pulse output inactive (R427). -/
def pulsesOff (m : Mod) : Mod :=
  (List.range 8).foldl (fun m o => if tabGet m.mtr.pulsing o then pulseDrive (stopTimer m .pulseEnd o) o false else m) m

/-! ## Power quality (R429 to R432) -/

def pqSt (m : Mod) (n : Nat) : PqSt := tabGet m.mtr.pqs n
def modPq (m : Mod) (n : Nat) (f : PqSt → PqSt) : Mod := modMtr m fun r => { r with pqs := tabMod r.pqs n f }

/-- The counter of starts of an event type. -/
def pqCounter (type : Nat) : Nat := match type with
  | 1 => Reg.MTR_PQ_CNT_SAG
  | 2 => Reg.MTR_PQ_CNT_SWELL
  | _ => Reg.MTR_PQ_CNT_INT

/-- U against `x` tenths of a percent of Udin: below, and above. -/
def pqBelow (c : PqCfg) (u x : Nat) : Bool := decide (1000 * fInt (BitVec.ofNat 32 u) < x * fInt (BitVec.ofNat 32 c.udin))
def pqAbove (c : PqCfg) (u x : Nat) : Bool := decide (x * fInt (BitVec.ofNat 32 c.udin) < 1000 * fInt (BitVec.ofNat 32 u))

/-- The start condition of a detector over the valid values. -/
def pqStarts (c : PqCfg) (type : Nat) (us : List Nat) : Bool := match type with
  | 1 => us.any fun u => pqBelow c u c.sag
  | 2 => us.any fun u => pqAbove c u c.swell
  | _ => us.all fun u => pqBelow c u c.int

/-- The end condition of a detector over the valid values. -/
def pqEnds (c : PqCfg) (type : Nat) (us : List Nat) : Bool := match type with
  | 1 => us.all fun u => !pqBelow c u (c.sag + c.hyst)
  | 2 => us.all fun u => !pqAbove c u (c.swell - c.hyst)
  | _ => us.any fun u => !pqBelow c u (c.int + c.hyst)

/-- The extreme of values and an earlier extreme: highest for a swell, lowest otherwise. -/
def pqExtreme (type : Nat) (old : Option Nat) (us : List Nat) : Nat :=
  let lt (a b : Nat) : Bool := decide (fInt (BitVec.ofNat 32 a) < fInt (BitVec.ofNat 32 b))
  let l := match old with
    | some x => x :: us
    | none => us
  match l with
  | [] => 0
  | a :: r => r.foldl (fun e u => if (if type = 2 then lt e u else lt u e) then u else e) a

/-- The rate of a power-quality group's stream. -/
def pqRate (m : Mod) (c : PqCfg) : Nat :=
  match (imageOf m 2).chans.lookup (c.chans.headD 0) with
  | some ch => match subCfg m ch.sub with
    | some s => s.rate
    | none => 1
  | none => 1

/-- An event of a group ends at instant `at_` with the samples counted `n`: its end record (R432). -/
def pqFinish (m : Mod) (pq : Nat) (c : PqCfg) (type at_n : Nat) (o : PqOpen) (incomplete : Bool) : Mod :=
  let dur := (at_n - o.startN) * 1000000 / max 1 (pqRate m c)
  let m := modPq m pq fun s => { s with open_ := tabSet s.open_ type none, latest := some ⟨type, o.start, dur, o.extreme⟩ }
  let e := Config.pqEndEvent
  raiseEvent m 0xE e.1 e.2 (Config.pqEndArg [pq, type, o.start / secs 1, o.start % secs 1 / nsUnit, dur, o.extreme,
    (if o.flagged then 1 else 0), if incomplete then 1 else 0])

/-- Every open event of a group ends as incomplete at its last refresh with a valid channel (R431). -/
def pqIncomplete (m : Mod) (pq : Nat) (c : PqCfg) : Mod :=
  let m := [1, 2, 3].foldl (fun m type => match tabGet (pqSt m pq).open_ type with
    | some o => pqFinish m pq c type (max o.startN (pqSt m pq).lastN) o true
    | none => m) m
  stopTimer m .pqEvent pq

/-- PQ_EVENT_TIMEOUT: 1 s of refreshes with every channel invalid (R431). -/
def pqTimeout (m : Mod) (pq : Nat) : Mod :=
  expire m .pqEvent pq fun m => match (mtrCfg m).pqs.lookup pq with
    | some c => pqIncomplete m pq c
    | none => m

/-- PQ_REFRESH: the refreshed values of a group evaluated at instant `t` (R430, R431). -/
def pqRefresh (m : Mod) (pq : Nat) (c : PqCfg) (t : Nat) : Mod :=
  let all := c.chans.map fun n => tabGet m.sv.chans n
  let ok := all.filter fun s => validity s.rmsQ ≠ 1
  let us := ok.map (·.rms)
  let n := (pqSt m pq).n
  let mark := decide (ok.length < all.length) || ok.any fun s => validity s.rmsQ == 3 || qBit s.rmsQ qGap
  let flag (m : Mod) : Mod := [1, 2, 3].foldl (fun m ty => match tabGet (pqSt m pq).open_ ty with
    | some o => modPq m pq fun s => { s with open_ := tabSet s.open_ ty (some { o with
        flagged := o.flagged || mark, extreme := pqExtreme ty (some o.extreme) us }) }
    | none => m) m
  let open0 := (pqSt m pq).open_
  if ok.isEmpty then
    let m := flag m
    if open0.any (·.2.isSome) ∧ !timerOn m .pqEvent pq then startTimer m .pqEvent pq (secs 1) else m
  else
    let m := stopTimer (flag m) .pqEvent pq
    let m := [1, 2, 3].foldl (fun m ty =>
      if (tabGet open0 ty).isNone && pqStarts c ty us then
        let m := modPq m pq fun s => { s with open_ := tabSet s.open_ ty (some ⟨t, n, pqExtreme ty none us, mark⟩) }
        setFault (bumpO m (pqCounter ty) pq) Reg.MTR_FAULT 8 pq
      else m) m
    let m := [1, 2, 3].foldl (fun m ty => match tabGet open0 ty, tabGet (pqSt m pq).open_ ty with
      | some _, some o => if pqEnds c ty us then pqFinish m pq c ty n o false else m
      | _, _ => m) m
    modPq m pq fun s => { s with lastAt := t, lastN := n }

/-- A sample that a filter lane has processed, with the channels whose RMS it refreshed (R429, R430). -/
def pqSample (m : Mod) (x : LaneSample) (fresh : List Nat) : Mod :=
  match subCfg m x.sub with
  | none => m
  | some c =>
    if c.part ≠ 2 ∨ !isLive m 2 then m
    else
      let t := instantOf (c.rate, 1) x.ix.toNat
      (mtrCfg m).pqs.foldl (fun m g =>
        let mine := g.2.chans.any fun n => match (imageOf m 2).chans.lookup n with
          | some ch => ch.sub == x.sub
          | none => false
        if !mine then m
        else
          let m := modPq m g.1 fun s => { s with n := s.n + 1 }
          if g.2.chans.any fresh.contains then pqRefresh m g.1 g.2 t else m) m

/-- A halt of the metering partition: open events end as incomplete, and detection starts afresh (R431). -/
def mtrHalt (m : Mod) : Mod :=
  let m := (mtrCfg m).pqs.foldl (fun m g => pqIncomplete m g.1 g.2) m
  modMtr m fun r => { r with pqs := r.pqs.map fun s => (s.1, { s.2 with n := 0, lastN := 0 }) }

/-- MTR_PQ_STAT of a group as read. -/
def pqStat (m : Mod) (n : Nat) : Nat :=
  let s := pqSt m n
  let b (ty : Nat) : Nat := match tabGet s.open_ ty with
    | some _ => 2 ^ (ty - 1)
    | none => 0
  let fl := [1, 2, 3].any fun ty => match tabGet s.open_ ty with
    | some o => o.flagged
    | none => false
  (if ((mtrCfg m).pqs.lookup n).isSome then 2 ^ 31 else 0) + (if fl then 2 ^ 30 else 0) + b 1 + b 2 + b 3

/-! ## Copies (R434 to R436) -/

/-- The newest valid copy. -/
def newestCopy (m : Mod) : Option MtrCopy := if m.mtr.newestB then m.mtr.copyB else m.mtr.copyA

/-- MTR_SAVE.PERIOD in force, in units of 100 ms: 0 is applied as 1, above 600 as 600. -/
def savePeriod (m : Mod) : Nat := min 600 (max 1 (regBits m Reg.MTR_SAVE 9 0))

/-- A snapshot taken and its write into the copy that does not hold the newest valid content begun (R434, R435). -/
def beginSave (m : Mod) (kind : SaveKind) : Mod :=
  let c : MtrCopy := {
    seq := m.mtr.nextSeq, kind := kind, tai := m.clk.sec, op := opTime m, pcyc := m.kpr.pcyc, period := savePeriod m
    evSeq := newestSeq m.evr, sealSt := sealState m, digest := m.mtr.digest, credits := m.mtr.credits, pts := m.mtr.pts }
  let toB := (newestCopy m).isSome && !m.mtr.newestB
  modMtr m fun r => { r with
    saving := some c, nextSeq := r.nextSeq + 1
    copyA := if toB then r.copyA else none, copyB := if toB then none else r.copyB }

/-- A save requested: at once, or after the write in progress; never during a last-gasp save (R448). -/
def requestSave (m : Mod) (kind : SaveKind) : Mod :=
  match m.mtr.saving with
  | none => beginSave m kind
  | some c => if c.kind = .lastGasp then m else modMtr m fun r => { r with waiting := some kind }

/-- PERIODIC_SAVE (R436). -/
def periodicSave (m : Mod) : Mod :=
  expire m .periodicSave 0 fun m => requestSave (startTimer m .periodicSave 0 (msec (100 * savePeriod m))) .periodic

/-- MTR_SAVE_CMD: writing 1 requests a command save (R436). -/
def mtrSaveCmd (m : Mod) (v : Word) (be : BitVec 4) : Mod :=
  hostWrite m Reg.MTR_SAVE_CMD be fun m => if v.toNat % 2 = 1 then requestSave m .command else m

/-- SAVE_VERIFY: the read-back compares, and the copy becomes the newest valid one; or it differs and SAVE_FAIL sets (R435,
R436). Step 6 of R438 follows a last-gasp save. -/
def saveVerify (m : Mod) (ok : Bool) : Mod :=
  match m.mtr.saving with
  | none => m
  | some c =>
    let toB := (newestCopy m).isSome && !m.mtr.newestB
    let m := modMtr m fun r => { r with saving := none }
    let m := if ok then
        let m := modMtr m fun r => { r with
          copyA := if toB then r.copyA else some c, copyB := if toB then some c else r.copyB, newestB := toB }
        let m := bump m Reg.MTR_SAVE_CNT
        if c.kind = .periodic ∧ regBits m Reg.MTR_CTRL 8 8 = 1 then
          raiseEvent m 0xE Config.saveEvent.1 Config.saveEvent.2 []
        else m
      else setFault m Reg.MTR_FAULT 0
    if c.kind = .lastGasp then mtrLogFree m 0x05 0xFF []
    else match m.mtr.waiting with
      | some k => beginSave (modMtr m fun r => { r with waiting := none }) k
      | none => m

/-- Steps 2 and 4 of R438 on the MTR side: the accumulators' snapshot, the write of it, the pulse outputs inactive. -/
def lastGaspSave (m : Mod) (trig : Bool) : Mod :=
  let m := modMtr m fun r => { r with saving := none, waiting := none, lgTrig := trig }
  pulsesOff (beginSave m .lastGasp)

/-! ## Start (R440, R441) -/

/-- SAVE_FAIL events after the event sequence number of a copy, repeats of R458 counted. -/
def failsAfter (m : Mod) (seq : Nat) : Nat :=
  (m.evr.ring.map fun kb =>
    let b := kb.2
    if recordOk b ∧ seq < leNat (b.take 8) ∧ leNat ((b.drop 32).take 2) = 0 ∧ leNat ((b.drop 34).take 1) = 0xE
    then 1 + leNat ((b.drop 30).take 2) else 0).foldl (· + ·) 0

/-- The bound of a point for a window of `w` units of 100 ms, mWh rounded up (R441). -/
def gapBound (c : PtCfg) (w : Nat) : Nat := ceilDiv (fMag (BitVec.ofNat 32 c.pMax) * w) (36 * fUnit)

/-- The higher of two sequence numbers, valid copies only: true for B. -/
def newerB (a b : Option MtrCopy) : Bool :=
  match a, b with
  | some x, some y => decide (x.seq < y.seq)
  | none, some _ => true
  | _, none => false

/-- The retained state read at start and acted on (R440, R441): the newest copy taken, the power-cycle count raised, the
outcome of the preceding supply failure, the start save. `cfg` is the committed image's section 0x000D. -/
def mtrStart (m : Mod) (cfg : MtrCfg) : Mod :=
  let m := modMtr m fun r => { r with
    saving := none, waiting := none, pulsing := [], pulseAt := [], pqs := [], snap := none, gaps := []
    newestB := newerB r.copyA r.copyB }
  let kind : SaveKind → Nat
    | .periodic => 0 | .start => 1 | .command => 2 | .lastGasp => 3
  let m := match newestCopy m with
    | some c =>
      let (f, m) := drawFree m
      let done := c.kind == .lastGasp
      let m := { m with kpr := { m.kpr with opBase := c.op, pcyc := c.pcyc + 1 } }
      let m := modMtr m fun r => { r with
        pts := c.pts, credits := c.credits, digest := c.digest, nextSeq := c.seq + 1, lgValid := true, lgDone := done
        lgDur := if done then Config.saveMicros f % 6001 else 0 }
      let m := mtrLog m 0x06 0xFF [c.pcyc + 1, Config.saveKindCode (kind c.kind)]
      if done then m
      else
        let w := c.period * (1 + failsAfter m c.evSeq)
        let m := setFault m Reg.MTR_FAULT 2
        cfg.points.foldl (fun m p =>
          let bound := gapBound p.2 w
          let m := modMtr m fun r => { r with gaps := tabSet r.gaps p.1 bound }
          let m := raiseEvent m 0xE 2 5 (leBytes 2 p.1 ++ leBytes 2 0 ++ (Config.gapArg bound (100 * w)).take 16)
          mtrLog m 0x07 p.1 [bound, 100 * w]) m
    | none =>
      let m := { m with kpr := { m.kpr with opBase := 0, pcyc := 1 } }
      let m := modMtr m fun r => { r with
        pts := (List.range 256).map fun p => (p, { lost := true }), credits := [], lgValid := true, lgDone := false
        gaps := (List.range 256).map fun p => (p, 2 ^ 64 - 1) }
      let m := mtrLog m 0x06 0xFF [1, Config.saveKindCode 4]
      let m := setFault m Reg.MTR_FAULT 1
      let m := raiseEvent m 0xE 2 5 (leBytes 2 noObj ++ leBytes 2 0 ++ (Config.gapArg (2 ^ 64 - 1) (2 ^ 64 - 1)).take 16)
      mtrLogFree m 0x08 0xFF []
  beginSave m .start

/-- The metering section loaded: the save period, the pulse enables, the remainders of times at another rate. -/
def mtrLoad (m : Mod) : Mod :=
  let c := mtrCfg m
  let en := (c.pulses.map fun o => 2 ^ o.1).foldl (· + ·) 0
  let m := loadReg m Reg.MTR_SAVE (BitVec.ofNat 32 (if c.tSave = 0 then 10 else c.tSave))
  let m := loadReg m Reg.MTR_CTRL (putBits (reg m Reg.MTR_CTRL) 7 0 en)
  modMtr m fun r => { r with pqs := [], pts := r.pts.map fun p => (p.1, { p.2 with invRem := 0, questRem := 0 }) }

/-! ## MTR_PT_CMD (R444, R450) -/

/-- A refused clear. -/
def ptRefuse (m : Mod) (pt : Nat) (sealed : Bool) : Mod :=
  let m := setFault m Reg.MTR_FAULT 10 pt
  if sealed then setFault m Reg.MTR_FAULT 7 pt else m

/-- MTR_PT_CMD with the operation and point of the write. -/
def mtrPtCmd (m : Mod) (op pt : Nat) (be : BitVec 4) (run : Mod → Mod) : Mod :=
  guardedWrite m Reg.MTR_PT_CMD be fun m =>
    let m := setReg m Reg.MTR_PT_CMD (BitVec.ofNat 32 (op * 2 ^ 28 + pt % 256))
    let covered : Bool := op == 2 || op == 3 || op == 4
    if sealState m == .sealed && ptLegal m pt && covered then ptRefuse m pt true else run m

/-- Registers of a set cleared. -/
def clearSet (m : Mod) (pt base : Nat) : Mod :=
  modPt m pt fun p => { p with regs := p.regs.filter fun r => r.1 / 8 * 8 ≠ base }

/-- MTR_CLEAR_TEST_SET. -/
def mtrClearTest (m : Mod) (pt : Nat) (be : BitVec 4) : Mod :=
  mtrPtCmd m 1 pt be fun m =>
    let m := clearSet m pt 8
    if sealLogs m then mtrLogFree m 0x0A pt [] else m

/-- MTR_CLEAR_SERVICE_SET. -/
def mtrClearService (m : Mod) (pt : Nat) (be : BitVec 4) : Mod :=
  mtrPtCmd m 2 pt be fun m =>
    let m := clearSet m pt 0
    if sealLogs m then mtrLogFree m 0x0B pt [] else m

/-- MTR_CLEAR_WRAP. -/
def mtrClearWrap (m : Mod) (pt : Nat) (be : BitVec 4) : Mod :=
  mtrPtCmd m 3 pt be fun m =>
    let m := modPt m pt fun p => { p with wrap := 0 }
    if sealState m = .broken then logConfig m 3 pt 0 else m

/-- MTR_CLEAR_OVER_LOST. -/
def mtrClearOver (m : Mod) (pt : Nat) (be : BitVec 4) : Mod :=
  mtrPtCmd m 4 pt be fun m =>
    let m := modPt m pt fun p => { p with ovf := false, lost := false }
    if sealState m = .broken then logConfig m 4 pt 0 else m

/-! ## Seal (R67, R443, R478) -/

/-- The seal digest: SHA-256 over the sections of partition 2 and the slot's number. -/
def sealDigest (m : Mod) (slot : Nat) : Bytes := sha256 ((imageOf m 2).raw.flatten ++ Config.sealSlotBytes slot)

/-- The seal axis takes a value, with SEAL_CHANGE and its state-change event. -/
def setSeal (m : Mod) (old new : Nat) (st : SealState) : Mod :=
  let m := { m with mode := { m.mode with sealSt := st } }
  stateEvent (setFault m Reg.MTR_FAULT 6) 0xE 6 old new 0

/-- A Valid policy-5 slot. -/
def sealSlotOk (m : Mod) (i : Nat) : Bool := (keySlot m i).state == .valid && (keySlot m i).policy == 5

/-- KEY_SEAL_CMD with SEAL set, through the key gate (R478). -/
def keySealCmd (m : Mod) (v : Word) (be : BitVec 4) : Mod :=
  guardedWrite m Reg.KEY_SEAL_CMD be fun m =>
    let m := setReg m Reg.KEY_SEAL_CMD (v &&& 0xFF)
    if !v.toNat.testBit 31 then m
    else
      let i := v.toNat % 256
      let m := checkTag m i
      let code := if sealState m ≠ .unsealed ∨ !sealSlotOk m i then 0x0B else if isLive m 2 then 0 else 0x21
      let m := raiseEvent m 0x10 5 (Config.sealOpCode % 4096) (leBytes 4 code ++ leBytes 4 i)
      if code ≠ 0 then setFault m Reg.KEY_FAULT 3
      else
        let d := sealDigest m i
        let m := modMtr m fun r => { r with digest := d, sealSlot := some i }
        let m := setSeal m 1 2 .sealed
        let w (k : Nat) : Nat := leNat ((d.drop (8 * k)).take 8)
        mtrLog (mtrLog m 0x01 0xFF [w 0, w 1, w 2]) 0x02 0xFF [w 3, i]

/-- KEY_UNSEAL: the KID of the authenticating slot and the HMAC (R478). -/
def keyUnseal (m : Mod) (rq : KReq) (kid : Nat) (mac : Bytes) : Mod :=
  keeperCmd m rq 0x0076 0 0 (leBytes 4 kid) fun m =>
    let slot := (List.range 256).find? fun i => sealSlotOk m i && (keySlot m i).kid == kid
    let m := match slot with
      | some i => checkTag m i
      | none => m
    let old : Nat := if sealState m = .sealed then 2 else 3
    match slot with
    | some i =>
      let own := match m.mtr.sealSlot with
        | some s => if sealSlotOk m s then i == s else true
        | none => true
      let covered := Config.keyAuthBytes [m.mtr.logNext % 2 ^ 64] (ascii "UNSEAL" ++ serialBytes m)
      if sealLogs m && own && sealSlotOk m i && (hmac256 (keySlot m i).cur covered).take 16 == mac then
        (mtrLog (setSeal m old 1 .unsealed) 0x03 0xFF [kid], answer 0)
      else keyRefuse m
    | none => keyRefuse m

/-! ## Registers and the mailbox (R449, R450) -/

def mtrStat (m : Mod) : Nat :=
  let st : Nat := match sealState m with
    | .notFitted => 0 | .unsealed => 1 | .sealed => 2 | .broken => 3
  st + (if m.mtr.holdOk then 36 else 0) + (if m.mtr.newestB then 8 else 0) + (if m.mtr.saving.isSome then 16 else 0)

def mtrLgLast (m : Mod) : Nat :=
  let r := m.mtr
  (if r.lgValid then 2 ^ 31 else 0) + (if r.lgDone then 2 ^ 30 else 0) + (if r.lgTrig then 2 ^ 29 else 0) + r.lgDur

def mtrPtStat (m : Mod) (p : Nat) : Nat :=
  let s := mtrPt m p
  (if (ptCfg m p).isSome then 2 ^ 31 else 0) + (if ptLegal m p then 2 ^ 30 else 0) + (if s.lost then 2 ^ 29 else 0)
    + (if s.ovf then 2 ^ 28 else 0) + s.wrap

/-- MTR_MBOX_SEL: the snapshot that a selection takes; none for a selection outside the table. -/
def mtrMbox (m : Mod) (idx kind item : Nat) : Mod × Option (List Nat) :=
  let two (v : Nat) : List Nat := [v % 2 ^ 32, v / 2 ^ 32 % 2 ^ 32]
  match kind with
  | 0 =>
    if 6 ≤ item % 8 ∨ 14 ≤ item then (m, none)
    else
      let p := match m.mtr.snap with
        | some (i, p) => if item ≠ 0 ∧ i = idx then p else mtrPt m idx
        | none => mtrPt m idx
      let m := modMtr m fun r => { r with snap := some (idx, p) }
      (m, some (two (tabGet p.regs item / 2 ^ 32) ++ [p.tag, if p.wrap.testBit item then 1 else 0]))
  | 1 =>
    match item with
    | 0 => (m, some (two (mtrPt m idx).invalid ++ [0, 0]))
    | 1 => (m, some (two (mtrPt m idx).quest ++ [0, 0]))
    | 2 => (m, some (two (tabGet m.mtr.gaps idx) ++ [0, 0]))
    | _ => (m, none)
  | 2 =>
    if item ≠ 0 ∨ 64 ≤ idx then (m, none)
    else
      let e := (pqSt m idx).latest.getD ⟨0, 0, 0, 0⟩
      (m, some [e.start % secs 1 / nsUnit + e.type * 2 ^ 30, e.start / secs 1 % 2 ^ 32, min e.dur (2 ^ 32 - 1), e.extreme])
  | 3 =>
    if 2 ≤ item then (m, none)
    else
      let w (k : Nat) : Nat := leNat ((m.mtr.digest.drop (16 * item + 4 * k)).take 4)
      (m, some [w 0, w 1, w 2, w 3])
  | _ => (m, none)

/-- The save period of the shadow taken at the MTR apply point, and PULSE_EN of outputs of LEGAL points kept under the seal
(R427, R444, R450). `oldP` and `oldEn` are the values in force before. -/
def mtrApply (m : Mod) (oldP oldEn : Nat) : Mod :=
  let m := if savePeriod m = oldP then m
    else
      let m := if sealLogs m then mtrLog m 0x0C 0xFF [oldP, savePeriod m] else m
      startTimer m .periodicSave 0 (msec (100 * savePeriod m))
  let m := (mtrCfg m).pulses.foldl (fun m o =>
    let was := oldEn.testBit o.1
    let now := (reg m Reg.MTR_CTRL).toNat.testBit o.1
    if was && !now && ptLegal m o.2.pt then
      if sealState m = .sealed then setFault (setBits m Reg.MTR_CTRL o.1 o.1 1) Reg.MTR_FAULT 7 o.1
      else if sealState m = .broken then logConfig m 5 o.2.pt o.1 else m
    else m) m
  (List.range 8).foldl (fun m o =>
    if tabGet m.mtr.pulsing o && !(reg m Reg.MTR_CTRL).toNat.testBit o then pulseDrive (stopTimer m .pulseEnd o) o false
    else m) m

/-- HOLD_OK_CHANGE: HOLD crosses 48 V (R438, R450). -/
def holdOkChange (m : Mod) (ok : Bool) (cv : Nat) : Mod :=
  let was := m.mtr.holdOk
  let m := modMtr m fun r => { r with holdOk := ok, holdCv := min cv 5500 }
  if was && !ok && m.hlth.power != .off then setFault m Reg.MTR_FAULT 5 else m

end Sys2Proof.Machine
end

