-- ==== Sys2Proof/Machine/Image.lean ====
section
/-!
DEFINITION. Structure images and partitions (R56 to R63, R112): staging, commits, halts, loads and starts of partitions.
-/
namespace Sys2Proof.Machine

/-! ## Partition states (R56) -/

def partCode : PartState → Nat
  | .absent => 0 | .loading => 1 | .halted => 2 | .live => 3

/-- A partition takes a state, with its state-change event. -/
def setPart (m : Mod) (p : Nat) (st : PartState) : Mod :=
  let old := (partOf m p).state
  if old = st then m else stateEvent (modPart m p fun s => { s with state := st }) keeperSrc 1 (partCode old) (partCode st) p

def modImg (m : Mod) (f : Imgs → Imgs) : Mod := { m with img := f m.img }

/-- The partitions that a commit still has to bring to their new state (R59, R62), but for those that recovery took out. -/
def Commit.scope (c : Commit) : List Nat :=
  (if c.full then [0, 1, 2, 3] else c.imgs.map (·.1)).filter fun p => !c.out.contains p

/-- A commit under way touches the partition. -/
def inCommit (m : Mod) (p : Nat) : Bool := match m.img.commit with
  | some c => !c.waiting && c.scope.contains p
  | none => false

/-- Recovery takes a partition out of a commit that has not brought it Live (R63; what then becomes of the commit: log 365). -/
def leaveCommit (m : Mod) (p : Nat) : Mod :=
  let s := partOf m p
  if inCommit m p && !(s.state == .live && s.next.isNone) then
    modImg m fun g => { g with commit := g.commit.map fun c => { c with out := p :: c.out } }
  else m

/-- A partition is being committed, halted, loaded or started. -/
def partBusy (m : Mod) (p : Nat) : Bool :=
  let s := partOf m p
  inCommit m p || s.next.isSome || s.starting || s.state == .loading

/-- A takeover or a revert is in progress (R63). -/
def pairBusy (m : Mod) : Bool := m.out.tko.isSome || m.out.revReq.isSome || m.out.revOut.isSome || m.out.peerTko

/-! ## Staging (R48, R51, R58) -/

/-- What a container holds, once it is verified, decoded and admitted. -/
structure Plan where
  parts : List (Nat × PartImage) := []
  common : Option Common := none
  deriving Inhabited

/-- The partitions a container names, decoded; none where a section does not decode. -/
def rdPlan (b : Bytes) : Option Plan :=
  let ps := (List.range 4).filter fun p => (hMask b).testBit p
  match allSome (fun p => (rdPart b p).map fun i => (p, i)) ps with
  | none => none
  | some l => if hKind b = 1 then (rdCommon b).map fun c => { parts := l, common := some c } else some { parts := l }

/-- The union of the staged partitions and those that stay loaded (R51). -/
def planUni (m : Mod) (pl : Plan) : Uni :=
  match pl.common with
  | some c => { parts := pl.parts, common := c }
  | none =>
    let u := loadedUni m
    { u with parts := [0, 1, 2, 3].filterMap fun p => match pl.parts.lookup p with
        | some i => some (p, i)
        | none => (u.parts.lookup p).map fun i => (p, i) }

/-- The common fields of section 0x000E of an update equal the loaded ones (R265). -/
def hdrAgrees (m : Mod) (pl : Plan) : Bool :=
  pl.common.isSome || pl.parts.all fun x => !x.2.hasOut || (loadedUni m).parts.all fun y => !y.2.hasOut || y.2.outHdr == x.2.outHdr

/-- Verification and admission of a container: the answer, and its plan when it passes (R48, R51). -/
def judge (m : Mod) (b : Bytes) : Mod × KResp × Option Plan :=
  let (m, code) := verifyImage m b
  if code ≠ 0 then (m, answer code, none)
  else match rdPlan b with
    | none => (m, { result := 0x20, entries := checkBool 0x20 0xFF false }, none)
    | some pl =>
      if !hdrAgrees m pl then (m, answer 1, none)
      else
        let u := planUni m pl
        let l := admission m u (hTarget b)
        let typed : Plan := { pl with parts := pl.parts.map fun x => (x.1, typedImage u x.1) }
        (m, { result := admResult l, entries := l.take 170 }, if l.isEmpty then some typed else none)

/-- IMAGE_STAGE: the container becomes the staged image, and the answer is what verification and admission find (R58). -/
def imageStage (m : Mod) (mem : Mem) (rq : KReq) (off len : Nat) : Mod :=
  keeperCmd m rq 0x0010 0 0 (leBytes 4 off ++ leBytes 4 len) fun m =>
    if 2 ^ 32 < off + len then (m, answer 0x0E)
    else if m.img.commit.isSome then (m, answer 0x0B)
    else
      let b := dramRead mem off len
      let (m, r, _) := judge (modImg m fun g => { g with staged := some b }) b
      (m, r)

/-- IMAGE_DISCARD: the staged image goes, and with it a commit of it that still waits (R63). -/
def imageDiscard (m : Mod) (rq : KReq) : Mod :=
  keeperCmd m rq 0x0012 0 0 [] fun m =>
    (modImg m fun g => { g with staged := none, commit := g.commit.filter fun c => !c.waiting }, answer 0)

/-! ## Loading (R59 step 5, R39, R118) -/

/-- What the blocks hold of a partition's image and its running state goes with it. -/
def dropBlocks (m : Mod) (p : Nat) : Mod :=
  let i := imageOf m p
  let sub (n : Nat) : Bool := (i.subs.lookup n).isSome
  let grp (n : Nat) : Bool := (i.groups.lookup n).isSome
  let sv := { m.sv with streams := m.sv.streams.filter fun x => !sub x.1 }
  let sv := { sv with laneSt := sv.laneSt.filter fun x => !sub x.1 }
  let sv := { sv with lanes := sv.lanes.filter fun x => !sub x.sub }
  let sv := { sv with chans := sv.chans.filter fun x => (i.chans.lookup x.1).isNone }
  let sv := { sv with groups := sv.groups.filter fun x => !grp x.1, queue := sv.queue.filter fun g => !grp g }
  let sv := { sv with reported := tabSet sv.reported p false }
  let pub (x : Nat × PubSt) : Nat × PubSt :=
    if (i.pubs.lookup x.1).isSome then (x.1, { x.2 with vals := [], staged := [], handed := [] }) else x
  let out := { m.out with subs := m.out.subs.filter fun x => (i.gsubs.lookup x.1).isNone, pubs := m.out.pubs.map pub }
  let gone (t : Timer) : Bool :=
    (t.kind == .gooseTal && (i.gsubs.lookup t.idx).isSome) || (t.kind == .gooseRetransmit && (i.pubs.lookup t.idx).isSome)
      || (p == 1 && (t.kind == .inputLost || t.kind == .tcpReconnect || t.kind == .cfgChange))
  let m := { m with sv := sv, out := out, timers := m.timers.filter fun t => !gone t }
  let m := if p = 1 then { m with bsn := { m.bsn with ins := [], outs := [] } } else m
  if p = 3 then recLoad m else m

/-- A partition without an image. -/
def removePart (m : Mod) (p : Nat) : Mod :=
  let m := dropBlocks (clearForLoad m p) p
  setPart (modPart m p fun s => { state := s.state }) p .absent

/-- A partition that a full image leaves out stays Absent, at later starts too: its committed copies go (R62). -/
def dropPart (m : Mod) (p : Nat) : Mod := modImg (removePart m p) fun g => { g with copies := tabSet g.copies p [] }

/-- The sections of an image begin to be written; `fresh` for a commit's new image, `older` the copies to fall back to. -/
def beginLoad (m : Mod) (p : Nat) (c : Committed) (fresh : Bool) (older : List Committed) : Mod :=
  let m := dropBlocks (clearForLoad m p) p
  let new : Part := { state := (partOf m p).state, image := some c.img, step := 5, stopped := true, older := older
                      fresh := if fresh then some c else none }
  setPart (modPart m p fun _ => new) p .loading

/-- A commit's new image, with the committed copies behind it (R60). -/
def loadNew (m : Mod) (p : Nat) (c : Committed) : Mod := beginLoad m p c true (tabGet m.img.copies p)

/-- The newer committed copy, or the older one in turn; none leaves the partition Absent. -/
def loadCommitted (m : Mod) (p : Nat) (copies : List Committed) : Mod :=
  match copies with
  | c :: rest => beginLoad m p c false rest
  | [] => removePart m p

/-- MAC_PnCFG of a port as the port map sets it (R363); ADMIN_DOWN stays. -/
def portWord (m : Mod) (c : Common) (p : Nat) : Word :=
  let r := tabGet c.ports.ports p
  let pr := tabGet c.ports.pairs (p / 2)
  let b (x : Bool) (k : Nat) : Nat := if x then 2 ^ k else 0
  BitVec.ofNat 32 (regBits m (Reg.MAC_PCFG p) 0 0 + b r.anEn 1 + b r.pauseObey 2 + b r.errDeliver 3 + b r.vlanFilter 4
    + b r.shared 5 + r.mode % 8 * 64 + pr.mode % 8 * 512)

/-- The common sections in force (R62, R64): port map and delay-list plan, with their registers. -/
def loadCommon (m : Mod) (c : Common) : Mod :=
  let m := (List.range 8).foldl (fun m p =>
    if (tabGet c.ports.ports p).mode = (portCfg m p).mode then m else linkDown m p false) m
  let m := (List.range 4).foldl (fun m pr =>
    if tabGet c.ports.pairs pr = tabGet m.portMap.pairs pr then m
    else
      let m := stopTimer { m with net := { m.net with pairs := tabSet m.net.pairs pr {} } } .supervision pr
      if (tabGet c.ports.pairs pr).mode = 0 then m
      else startTimer m .supervision pr (msec (tabGet c.ports.pairs pr).supIntv)) m
  let m := { m with portMap := c.ports, delayPlan := c.delays }
  let m := (List.range 8).foldl (fun m p =>
    let m := loadReg m (Reg.MAC_PCFG p) (portWord m c p)
    if timerOn m .arp p then m else startTimer m .arp p (secs 60)) m
  let plan := (List.range 4).foldl (fun a l => a + (tabGet c.delays l).tick % 4 * 4 ^ l) 0
  let m := setReg m Reg.TD_DL_PLAN (BitVec.ofNat 32 plan)
  (List.range 4).foldl (fun m l => setReg m (Reg.TD_DL_SIZE l) (BitVec.ofNat 32 (tabGet c.delays l).entries)) m

/-- The images that partitions hold or are being loaded with. -/
def heldUni (m : Mod) : Uni :=
  { parts := [0, 1, 2, 3].filterMap fun p => (partOf m p).image.map fun i => (p, i)
    common := { ports := m.portMap, delays := m.delayPlan } }

/-- The registers that take a value from a partition's image at its load (R115, R118, R255, R447), and engines with new
resident parameters. -/
def loadRegs (m : Mod) (p : Nat) : Mod :=
  let r := (imageOf m 0).reserve
  let put (m : Mod) (x : Nat × Nat) : Mod := setReg m x.1 (BitVec.ofNat 32 x.2)
  let m := [(Reg.TD_RSV_SLOTS, r.1), (Reg.TD_RSV_INFLIGHT, r.2.1), (Reg.TD_RSV_RATE, r.2.2)].foldl put m
  let u := heldUni m
  let m := (List.range 16).foldl (fun m c => setReg m (Reg.PE_PARAM_USE c) (BitVec.ofNat 32 (residentBytes u c))) m
  let m := modTd m fun d => { d with withdrawn := [] }
  if p = 1 then loadReg m Reg.WAD_CTRL (BitVec.ofNat 32 (imageOf m 1).wad.flags)
  else if p = 2 then mtrLoad m else m

/-- The sections are written: the partition waits for its boundary (R59 step 6). -/
def loaded (m : Mod) (p : Nat) : Mod := loadRegs (modPart m p fun s => { s with loaded := true, step := 6 }) p

/-- A fault in step 5: the previous committed image is loaded again, code 0x0C for a commit (R60). -/
def loadFault (m : Mod) (p : Nat) : Mod :=
  let s := partOf m p
  let m := if s.fresh.isSome then modImg m fun g => { g with result := 0x0C } else m
  loadCommitted m p s.older

/-- PARTITION_LOAD_COMPLETE. -/
def loadComplete (m : Mod) (p : Nat) (ok : Bool) : Mod :=
  let s := partOf m p
  if s.state ≠ .loading ∨ s.loaded then m else if ok then loaded m p else loadFault m p

/-! ## Commits (R59 step 1, R61 to R63) -/

/-- The partitions that a container's commit touches (R59, R62). -/
def touched (b : Bytes) : List Nat := (List.range 4).filter fun p => hKind b == 1 || (hMask b).testBit p

/-- A commit evaluated: the seal, the role, partitions in another operation, then verification and admission. -/
def judgeCommit (m : Mod) (b : Bytes) : Mod × KResp × Option Plan :=
  let ps := touched b
  if ps.contains 2 && sealState m == .sealed then (m, answer 0x0A, none)
  else if ps.contains 0 && (m.mode.role == .active || roleLeft m == .active) then (m, answer 0x0B, none)
  else if ps.any (partBusy m) then (m, answer 0x0B, none)
  else judge m b

/-- The steps of R59 begin: Live partitions are halted at their boundary; an update loads the others at once. The staged image
stays until the commit ends. -/
def beginCommit (m : Mod) (b : Bytes) (pl : Plan) : Mod :=
  let full := hKind b == 1
  let imgs : Cells (Option Committed) := pl.parts.foldl (fun l x => tabSet l x.1 (some ⟨x.2, hVersion b⟩)) []
  let m := modImg m fun g => { g with
    result := 0, commit := some { full := full, imgs := imgs, common := pl.common, waiting := false, begun := false } }
  (touched b).foldl (fun m p =>
    let after : AfterHalt := match tabGet imgs p with
      | some c => .load c
      | none => .absent
    if isLive m p then modPart m p fun s => { s with next := some after, step := 1 }
    else match full, tabGet imgs p with
      | false, some c => loadNew m p c
      | _, _ => m) m

/-- IMAGE_COMMIT: evaluated, then begun, or kept waiting for the end of a takeover or a revert (R63). -/
def imageCommit (m : Mod) (rq : KReq) (id : Nat) : Mod :=
  keeperCmd m rq 0x0011 0 0 (leBytes 12 id) fun m =>
    match m.img.staged with
    | none => (m, answer 0x0F)
    | some b =>
      if b.length < 256 ∨ hImageId b ≠ id then (m, answer 0x0F)
      else if m.img.commit.isSome then (m, answer 0x0B)
      else
        let (m, r, plan) := judgeCommit m b
        let m := modImg m fun g => { g with result := r.result }
        match plan with
        | none => (m, r)
        | some pl =>
          if pairBusy m then
            (modImg m fun g => { g with commit := some { full := hKind b == 1, imgs := [], common := none, waiting := true, begun := false } }, r)
          else (beginCommit m b pl, r)

/-- A commit that waited for a takeover or a revert is evaluated again once that has ended (R63). -/
def commitResume (m : Mod) : Mod :=
  match m.img.commit, m.img.staged with
  | some c, some b =>
    if c.waiting && !pairBusy m then
      let (m, r, plan) := judgeCommit (modImg m fun g => { g with commit := none }) b
      let m := modImg m fun g => { g with result := r.result }
      match plan with
      | none => m
      | some pl => beginCommit m b pl
    else m
  | _, _ => m

/-- The common sections of a committed full image, the newer copy first (R40, R60). -/
def commitCommon (m : Mod) (x : Common) : Mod :=
  if m.img.commons.head? = some x then m else modImg m fun g => { g with commons := (x :: g.commons).take 2 }

/-- REVERT_HOLD of a full image: that of its sections 0x000E, which agree (R265, R307). -/
def imageHold (c : Commit) : Option Nat :=
  (c.imgs.filterMap fun x => x.2.bind fun y => if y.img.hasOut then some y.img.outHdr.revertHold else none).head?

/-- A full image once no partition is Live: the common sections are replaced, OUT_REVERT takes REVERT_HOLD (R307) and the loads
begin (R62). -/
def commitFull (m : Mod) (c : Commit) : Mod :=
  let m := match c.common with
    | some x => (if c.imgs.isEmpty then commitCommon (loadCommon m x) x else loadCommon m x)
    | none => m
  let m := match imageHold c with
    | some h => loadReg m Reg.OUT_REVERT (BitVec.ofNat 32 h)
    | none => m
  let m := modImg m fun g => { g with commit := some { c with begun := true } }
  c.scope.foldl (fun m p => match tabGet c.imgs p with
    | some x => loadNew m p x
    | none => dropPart m p) m

/-- What a commit in progress does next by itself: resumes, begins the loads of a full image, or ends; the staged image goes with
it unless recovery took a partition out (R63). -/
def settleCommit (m : Mod) : Mod :=
  let m := commitResume m
  match m.img.commit with
  | none => m
  | some c =>
    if c.waiting then m
    else if c.full && !c.begun then (if c.scope.any (isLive m) then m else commitFull m c)
    else if c.scope.any fun p => (partOf m p).step != 0 then m
    else modImg m fun g => { g with commit := none, staged := if c.out.isEmpty then none else g.staged }

/-- The step of R59 that a commit has reached: that of its partition furthest behind, 0 for none. -/
def commitStep (m : Mod) : Nat :=
  match m.img.commit with
  | none => 0
  | some c =>
    if c.waiting then 1
    else
      (c.scope.map fun p => (partOf m p).step).foldl (fun a s => if s = 0 then a else if a = 0 then s else min a s) 0

/-! ## Halts (R59 steps 2 to 4, R112) -/

/-- The rotating self-test holds a home cluster of the partition (R63). -/
def testHolds (m : Mod) (p : Nat) : Bool := match m.hlth.testing with
  | some c => (imageOf m p).homeSet.testBit c && (clMode m c == .testing || clMode m c == .drained)
  | none => false

/-- PARTITION_HALT_POINT: at its boundary a partition that is to halt stops admitting tokens and issuing tasks (R112); the
Palette switches, power-quality events and rows under way end (R191, R379, R431); an Active stops claiming (R296). -/
def haltPoint (m : Mod) (p : Nat) : Mod :=
  let s := partOf m p
  if s.state ≠ .live ∨ s.next.isNone ∨ s.stopped ∨ testHolds m p then m
  else
    let m := modPart m p fun x => { x with stopped := true, haltAt := m.clk.elapsed, step := min 2 (2 * x.step) }
    let m := recHalt (fltHalt m p) p
    let m := if p = 2 then mtrHalt m else m
    if p = 0 then leaveActive m 0 else m

/-- The in-flight tasks of a stopped partition have retired as far as they can (R112), retries of a fault among them (R111). -/
def drainedPart (m : Mod) (p : Nat) : Bool :=
  let own (k : Nat) : Bool := match template m k with
    | some t => tmplPart t == p
    | none => false
  let moving (k : Task) : Bool := match template m k.tmpl with
    | some t => tmplPart t == p && (k.state == .executing || (k.state == .ready && decide (0 < k.retries)) || (!k.committed && mayRetire m t k))
    | none => false
  !m.td.tasks.any moving && !(tabGet m.td.cross 0).any fun x => own x.tok.tmpl

/-- The gap record of a halt interval (R59 step 4, R454): first tag after the latest boundary, tags assigned since. -/
def haltGap (m : Mod) (p : Nat) : Mod :=
  let newest := latestTag m p
  let (first, n) := match (partOf m p).lastTag with
    | some t => (tagAdd t 1, if p = 1 then 0 else (tagDiff t newest).toNat)
    | none => (newest, 0)
  raiseEvent m keeperSrc 2 3 (leBytes 2 p ++ leBytes 2 0 ++ leBytes 8 first ++ leBytes 8 n)

/-- What follows a halt. -/
def afterHalt (m : Mod) (p : Nat) : Mod :=
  let full := match m.img.commit with
    | some c => c.full && !c.begun && c.scope.contains p
    | none => false
  match (partOf m p).next with
  | some (.load c) => if full then modPart m p fun s => { s with next := none, step := 4 } else loadNew m p c
  | some .reload => loadCommitted m p (tabGet m.img.copies p)
  | some .absent => dropPart m p
  | _ => modPart m p fun s => { s with next := none, step := 0 }

/-- PARTITION_HALTED: a stopped partition whose tasks have retired is Halted; gap records are written, its alarms take
validity 01, its publications end, and what follows begins (R59 steps 3 and 4, R61, R216, R244). -/
def partHalted (m : Mod) (p : Nat) : Mod :=
  let s := partOf m p
  if s.state ≠ .live ∨ !s.stopped ∨ !drainedPart m p then m
  else
    let m := haltGap (setPart m p .halted) p
    let m := if p = 1 then bsnHalt m else m
    let m := wadHalt m p
    let m := (imageOf m p).pubs.foldl (fun m x => stopTimer m .gooseRetransmit x.1) m
    let m := if p = 0 then settleClaim m else m
    settleCommit (afterHalt m p)

/-- PARTITION_HALT (R59, R69 I7). -/
def partHaltCmd (m : Mod) (rq : KReq) (p : Nat) : Mod :=
  keeperCmd m rq 0x0021 0 p [] fun m =>
    if 4 ≤ p then (m, answer 0x0E)
    else if !isLive m p || partBusy m p then (m, answer 0x0B)
    else if p = 2 ∧ sealState m = .sealed then (m, answer 0x0A)
    else (modPart m p fun s => { s with next := some .stay }, answer 0)

/-- PARTITION_START: a Halted partition's frozen items are cleared and it goes Live at its boundary (R112). -/
def partStart (m : Mod) (rq : KReq) (p : Nat) : Mod :=
  keeperCmd m rq 0x0020 0 p [] fun m =>
    if 4 ≤ p then (m, answer 0x0E)
    else if (partOf m p).state ≠ .halted ∨ partBusy m p ∨ (partOf m p).step ≠ 0 then (m, answer 0x0B)
    else (modPart (clearPart m p) p fun s => { s with starting := true }, answer 0)

/-! ## Going Live (R59 step 6, R50, R57, R60) -/

/-- Unicast destinations of a partition's frames: port mask and address (R347). -/
def destinations (i : PartImage) : List (Nat × Nat) :=
  let w := i.wad
  ((i.outs.filter (·.2.publish)).map fun o => (o.2.ports, o.2.dstIp))
    ++ [(if w.flags.testBit 2 then w.almPorts else 0, w.almIp), (w.fedPorts, w.fedIp), (i.outHdr.refPorts, i.outHdr.refIp)]

/-- Unresolved destinations are asked for (R347). -/
def askDests (m : Mod) (p : Nat) : Mod :=
  (destinations (imageOf m p)).foldl (fun m d =>
    (maskPorts d.1).foldl (fun m q => if (resolve m q d.2).isNone then arpAsk m q d.2 else m) m) m

/-- The streams of a partition start with new tags (R112): the first is that of the first instant I(k) from now on (log 48). -/
def restartStreams (m : Mod) (p : Nat) : Mod :=
  let rate := domainRate m p
  let t := localTime m.clk
  let i := indexAt rate t
  let k0 : Int := if instantOf rate i = t then i else (i + 1 : Nat)
  let fresh (st : SvStream) : SvStream :=
    { st with next := some k0, store := [], done := [], missRun := 0, missSub := 0, high := none, deltas := [], slip := none, drop := none, disc := true }
  let m := (imageOf m p).subs.foldl (fun m s => modStream m s.1 fresh) m
  { m with sv := { m.sv with reported := tabSet m.sv.reported p false } }

/-- The new image becomes the newer committed copy, its floor rises (R50, R60). -/
def commitCopy (m : Mod) (p : Nat) : Mod :=
  match (partOf m p).fresh with
  | none => m
  | some c =>
    let copies := (c :: tabGet m.img.copies p).take 2
    let floor := max (tabGet m.img.floors p) c.ver
    let m := modImg m fun g => { g with copies := tabSet g.copies p copies, floors := tabSet g.floors p floor }
    match m.img.commit.bind (·.common) with
    | some x => commitCommon m x
    | none => m

/-- The outputs whose CFG-2 differs from that of the previous committed image (R218). -/
def cfgChanged (m : Mod) : List Nat :=
  match (partOf m 1).fresh, tabGet m.img.copies 1 with
  | some _, old :: _ => ((imageOf m 1).outs.filter fun o => match old.img.outs.lookup o.1 with
      | some x => x.cfg.raw != o.2.cfg.raw
      | none => false).map (·.1)
  | _, _ => []

/-- What the concentration partition does as it goes Live. -/
def concLive (m : Mod) (chg : List Nat) : Mod :=
  chg.foldl (fun m o => startTimer (modOut m o fun s => { s with cfgChg := true }) .cfgChange o (secs 60)) (bsnGoLive m)

/-- What the protection partition does as it goes Live: the role, the Test value, the claim (R57, R272, R279). -/
def protLive (m : Mod) : Mod :=
  let m := modO m fun o => { o with hbHeard := false }
  let m := modTd m fun d => { d with copyRecs := [] }
  let m := takeRole m
  let m := testBoundary (followTest m) 0 none
  -- the watch of the Referee begins (R295)
  let m := if (outHdr m).refPorts = 0 || m.out.refPresent || timerOn m .refereeAbsent 0 then m
    else startTimer m .refereeAbsent 0 (msec 3)
  isolatedStep (decideRole (settleClaim m))

/-- Retransmission of a partition's streams resumes (R262). -/
def resumePubs (m : Mod) (p : Nat) : Mod :=
  (imageOf m p).pubs.foldl (fun m x =>
    let st := pubSt m x.1
    if st.sent.isSome ∧ x.2.kind ≠ 1 ∧ !timerOn m .gooseRetransmit x.1 then startTimer m .gooseRetransmit x.1 (usec (max 1 st.interval)) else m) m

/-- The subscriptions of a partition that goes Live: the first frame each accepts is a state change (R264). -/
def freshSubs (m : Mod) (p : Nat) : Mod :=
  (imageOf m p).gsubs.foldl (fun m x => modGSub m x.1 fun st => { st with first := true }) m

/-- A partition may go Live: loaded or started, and the partitions before it in the order of R62 are not still loading. -/
def readyLive (m : Mod) (p : Nat) : Bool :=
  let s := partOf m p
  let order := match m.img.commit with
    | some c => c.full
    | none => false
  ((s.state == .loading && s.loaded) || (s.state == .halted && s.starting))
    && (!order || ([0, 2, 3, 1].takeWhile (· ≠ p)).all fun q => (partOf m q).state != .loading)

/-- PARTITION_GO_LIVE. -/
def goLive (m : Mod) (p : Nat) : Mod :=
  if !readyLive m p then m
  else
    let load := !(partOf m p).starting
    let chg := cfgChanged m
    let m := commitCopy m p
    let m := setPart (modPart m p fun s => { state := s.state, image := s.image }) p .live
    let m := if load then wadReload (resumeGroup m p) p else wadStart m p
    let m := askDests (restartStreams m p) p
    let m := if p = 0 then protLive m else testBoundary m p none
    let m := if p = 1 then concLive m chg else m
    let m := if p = 3 then recLive m load else m
    settleCommit (resumePubs (freshSubs m p) p)

/-! ## Cycle boundaries (R57) -/

/-- What a cycle boundary of a partition does besides the close of the protection cycle: the tag is noted, changes that wait
take effect, and a halt that waits for the boundary begins. -/
def boundary (m : Mod) (p tag : Nat) : Mod :=
  let m := modPart m p fun s => { s with lastTag := some tag }
  haltPoint (if p = 0 then m else testBoundary m p (some tag)) p

/-- The index of the next tag instant of partition `p`, by the local clock (R59, R102). -/
def nextIndex (m : Mod) (p : Nat) : Nat := indexAt (domainRate m p) (localTime m.clk) + 1

/-- The cycle boundary of partition `p` at the instant of tag `n`: of a Live partition after the tag before it, of a ready one
its going Live. -/
def boundaryTag (m : Mod) (p n : Nat) : Mod :=
  if isLive m p then boundary (noteTag m p (n % 2 ^ 32)) p ((n - 1) % 2 ^ 32) else goLive m p

/-- CYCLE_BOUNDARY_AT_INSTANT: the boundary of a metering or recording partition with no source in its master domain, at the
next instant I(t + 1) of the local clock; a loaded one goes Live there. -/
def boundaryAtInstant (m : Mod) (p : Nat) : Mod :=
  if (p ≠ 2 ∧ p ≠ 3) ∨ (domainRate m p).1 = 0 ∨ !(imageOf m p).subs.isEmpty then m
  else if isLive m p || readyLive m p then
    boundaryTag (advanceLocal m (instantOf (domainRate m p) (nextIndex m p))) p (nextIndex m p)
  else m

end Sys2Proof.Machine
end

