-- ==== Sys2Proof/Machine/Health.lean ====
section
/-!
DEFINITION. Health and recovery (R491 to R514, R559, R560): shedding, watchdog, scrubbing, self-test, ageing, the rungs of the
recovery ladder, the start sequence, thermal states.
-/
namespace Sys2Proof.Machine

def modHlth (m : Mod) (f : Hlth → Hlth) : Mod := { m with hlth := f m.hlth }
def modKpr (m : Mod) (f : Kpr → Kpr) : Mod := { m with kpr := f m.kpr }

/-- A class-6 event (R497). -/
def class6 (m : Mod) (detail : Nat) (arg : Bytes) : Mod := raiseEvent m keeperSrc 6 detail arg

/-- The module runs: supplied and not held in reset. -/
def powered (m : Mod) : Bool := m.hlth.power == .on

/-- Milliseconds since an instant of the elapsed-time count. -/
def msSince (m : Mod) (t : Nat) : Nat := (m.clk.elapsed - t) / msec 1

/-! ## Alarms (R518) -/

/-- A quarantine stands. -/
def anyQuar (m : Mod) : Bool := m.td.flows.any (·.2.quar.isSome) || m.td.quar.any (·.2.isSome)

/-- HLTH_ALARM as read: bits 4, 3 and 1 are kept in the register, QUAR and CLUSTER_FAIL follow the module's state. -/
def hlthAlarm (m : Mod) : Nat :=
  (reg m Reg.HLTH_ALARM).toNat + (if anyQuar m then 1 else 0) + (if (List.range 16).any fun c => clMode m c == .out then 4 else 0)

/-- The capacity-margin alarm rises (R507). -/
def raiseMargin (m : Mod) : Mod :=
  if regBits m Reg.HLTH_ALARM 3 3 = 1 then m else setFault (setBits m Reg.HLTH_ALARM 3 3 1) Reg.HLTH_FAULT 2

/-! ## Load shedding (R491) -/

/-- SHED_LEVEL_UPDATE: the end of a second, with the utilisation of the four cores in percent. -/
def shedUpdate (m : Mod) (c0 c1 c2 c3 : Nat) : Mod :=
  expire m .shedSecond 0 fun m =>
    let m := startTimer m .shedSecond 0 (secs 1)
    if m.kpr.kstate ≠ 1 then m
    else
      let u (c : Nat) : Nat := min c 100
      let m := setReg m Reg.KPR_LOAD (BitVec.ofNat 32 (u c0 + 256 * u c1 + 65536 * u c2 + 16777216 * u c3))
      let sum := u c0 + u c1 + u c2 + u c3
      let s := m.kpr.shed
      if 360 < sum then
        let m := modKpr m fun k => { k with lowSecs := 0 }
        if 4 ≤ s then m
        else
          let m := bump (setFault (modKpr m fun k => { k with shed := s + 1 }) Reg.KPR_FAULT 4) Reg.KPR_CNT_SHED
          stateEvent m keeperSrc 10 s (s + 1) 0
      else if sum < 280 then
        if m.kpr.lowSecs + 1 < 10 then modKpr m fun k => { k with lowSecs := k.lowSecs + 1 }
        else modKpr m fun k => { k with lowSecs := 0, shed := s - 1 }
      else modKpr m fun k => { k with lowSecs := 0 }

/-! ## What a reset of islands leaves (R510, R312) -/

/-- The role with which a unit starts (R279). -/
def startRole (r : Role) : Role := match r with
  | .active | .standby => .standby
  | r => r

/-- What MRAM retains of the federation series (R253). -/
def wadKept (m : Mod) : Wad :=
  { alarms := m.wad.alarms.map fun x => (x.1, { seqTx := x.2.seqTx }), seqRx := m.wad.seqRx, startSecs := m.wad.startSecs }

/-- Every island but the always-on island and the battery domain in reset: images leave the blocks, DRAM and the networks are
empty, what MRAM, NAND and the battery domain hold stays. -/
def resetIslands (m : Mod) : Mod :=
  let kept := m.out.pubs.map fun x => (x.1, ({ stNum := x.2.stNum } : PubSt))
  let standby := startRole m.mode.role == .standby
  { m with
    mode := { role := startRole m.mode.role, sealSt := m.mode.sealSt, vz20 := m.mode.vz20, vz20Next := m.mode.vz20Next }
    img := { copies := m.img.copies, commons := m.img.commons, floors := m.img.floors }
    net := {}, td := {}, pe := { kept := m.pe.kept }, sv := {}, bsn := {}, wad := wadKept m, dma := dmaReset m.dma, parts := [], delayPlan := [], rung2 := []
    portMap := {}
    out := { pubs := kept, unit := m.out.unit, deciding := standby, seq := m.out.seq, seqs := m.out.seqs }
    rec_ := { next := m.rec_.next, recs := m.rec_.recs }
    evr := { queue := m.evr.queue, ring := m.evr.ring, next := m.evr.next, count := m.evr.count, lostGap := m.evr.lostGap,
             lostFirst := m.evr.lostFirst }
    kpr := { opBase := m.kpr.opBase, pcyc := m.kpr.pcyc }
    mtr := { m.mtr with pqs := [], snap := none, waiting := none } }

/-- Register windows that a device reset leaves alone (R510): HOST, PTP, MTR, KEY, HLTH, and the endpoint's MSI-X table; with
them the registers that Keeper retains: planned clocks, OUT_UNIT and OUT_EPOCH. -/
def keptRow (off : Nat) : Bool :=
  [0, 9, 0xE, 0x10, 0x11].contains (off % 0x400000 / 0x10000) || decide (0x3F0000 ≤ off % 0x400000)
    || off == Reg.OUT_UNIT || off == Reg.OUT_EPOCH || off == Reg.OUT_REVERT || (List.range 16).any fun c => off == Reg.PE_CL_CLK c

/-- Timers of the always-on island, the battery domain and the endpoint. -/
def keptTimer (k : TimerKind) : Bool :=
  [.pulseEnd, .periodicSave, .commissioning, .grace, .keygate, .clockRetain, .ptpMessage, .holdLow, .powerCycle].contains k

/-- The state a device reset or a thermal Stop leaves: command save, FAULT from an Active, open records closed with reason 3,
the islands reset, DRAM lost (R510, R560). -/
def islandReset (m : Mod) : Mod :=
  let m := recCut (leaveActive (requestSave m .command) 1)
  let m := resetIslands m
  let keptBlk (b : Nat) : Bool := [0, 9, 0xE, 0x10, 0x11].contains b
  let m := { m with regs := m.regs.filter fun r => keptRow r.1 }
  let m := { m with shadow := m.shadow.filter fun r => keptRow r.1 }
  let m := { m with timers := m.timers.filter fun t => keptTimer t.kind }
  let host := { m.host with gates := m.host.gates.filter fun g => keptBlk g.1, strobes := [], mboxEvr := {}, ringHold := [], ringPend := [] }
  let cond := (List.range 45).foldl (fun l v => tabSet l v (intCond m v)) []
  let m := { m with host := { host with cond := cond } }
  modHlth m fun h => { h with
    trigs := [], wdogs := [], rewrites := [], testing := none, retest := false, pendClk := [], shedFor := none, shedMask := 0
    flowBad := 0, wipe := true }

/-! ## Rungs 3 and 4 (R510, R512, R513) -/

/-- DEVICE_RESET, rung 3, with the cause of HLTH_RESET. -/
def deviceReset (m : Mod) (cause : Nat) : Mod :=
  let m := islandReset m
  let n := min 0xFFFF (regBits m Reg.HLTH_RESET 31 16 + 1)
  let m := setReg m Reg.HLTH_RESET (BitVec.ofNat 32 (n * 65536 + cause))
  let m := setFault m Reg.HLTH_FAULT 1
  let m := class6 m 4 (leBytes 1 cause)
  let m := modHlth m fun h => { h with stage := 3, startAt := m.clk.elapsed, afterReset := true }
  startTimer m .startStep9 0 (secs 12)

/-- POWER_CYCLE_REQUEST, rung 4: command save, PWR_CYCLE_REQ_N asserted for at most 2 s. -/
def powerCycle (m : Mod) (cause : Nat) : Mod :=
  if m.hlth.pwrReq then m
  else
    let m := class6 (requestSave m .command) 7 (leBytes 1 cause)
    startTimer (emit (modHlth m fun h => { h with pwrReq := true }) (.powerCycleReq true)) .powerCycle 0 (secs 2)

/-- An automatic rung 4: at most one in 3,600 s; beyond that the module stays where it is (R512). -/
def autoPowerCycle (m : Mod) : Mod :=
  let now := opTime m
  let soon := match m.hlth.rung4At with
    | some t => decide (now < t + 3600 * 256)
    | none => false
  if soon || m.hlth.pwrReq then m
  else powerCycle (modHlth m fun h => { h with rung4At := some now }) (regBits m Reg.HLTH_RESET 3 0)

/-- POWER_CYCLE_TIMEOUT: the input has not fallen 2 s after the request (R513). -/
def powerCycleTimeout (m : Mod) : Mod :=
  expire m .powerCycle 0 fun m =>
    let m := emit (modHlth m fun h => { h with pwrReq := false }) (.powerCycleReq false)
    deviceReset (setFault m Reg.HLTH_FAULT 8) 5

/-- RUNG3_START_STEP9_TIMEOUT: 12 s after a device reset step 9 is not reached; the second successive such start triggers
rung 4 (R512). -/
def startStep9Timeout (m : Mod) : Mod :=
  expire m .startStep9 0 fun m =>
    let n := m.hlth.failedStarts + 1
    let m := modHlth m fun h => { h with failedStarts := n }
    if 2 ≤ n then autoPowerCycle m else m

/-! ## Rung 2 (R510, R512) -/

/-- A partition is already being re-imaged from its committed copy, or is being started. -/
def inRung2 (m : Mod) (p : Nat) : Bool :=
  let s := partOf m p
  s.next == some .reload || (s.state == .loading && s.fresh.isNone) || s.starting

/-- RUNG2_REIMAGE: the partition is re-imaged from its committed copy through steps 2 to 6 of R59; the third trigger of a
partition within 600 s of operating time is rung 3. A trigger during a rung 2 of the partition is merged (R514). -/
def performRung2 (m : Mod) (p trigger : Nat) : Mod :=
  let s := partOf m p
  if s.state = .absent || inRung2 m p then m
  else
    let now := opTime m
    let trigs := (p, now) :: m.hlth.trigs.filter fun t => decide (now < t.2 + 600 * 256)
    let m := modHlth m fun h => { h with trigs := trigs }
    if 3 ≤ (trigs.filter (·.1 == p)).length then deviceReset m 2
    else
      let m := class6 (setFault m Reg.HLTH_FAULT 0) 11 (leBytes 1 p ++ leBytes 1 trigger)
      let m := leaveCommit m p
      if s.state = .live then modPart m p fun x => { x with next := some .reload, step := if x.stopped then 2 else 1 }
      else loadCommitted m p (tabGet m.img.copies p)

/-- The rung-2 requests that the hardware made in a command. -/
def settleRung2 (m : Mod) : Mod :=
  let l := m.rung2
  l.foldl (fun m x => if powered m then performRung2 m x.1 x.2 else m) { m with rung2 := [] }

/-- The HLTH_RECOVER request of a rung (R514, R518). -/
def recoverRun (m : Mod) (rung p : Nat) : Mod :=
  match rung with
  | 2 => if m.kpr.ready then performRung2 m p 6 else setFault m Reg.HLTH_FAULT 9
  | 3 => deviceReset m 1
  | 4 => powerCycle m 1
  | _ => setFault m Reg.HLTH_FAULT 9

/-- HLTH_RECOVER_RUNG2, _RUNG3, _RUNG4 and a write naming no rung: the write is the request. -/
def hlthRecover (m : Mod) (v : Word) (be : BitVec 4) : Mod :=
  guardedWrite m Reg.HLTH_RECOVER be fun m =>
    recoverRun (setReg m Reg.HLTH_RECOVER (v &&& 0x703)) (bitsOf v.toNat 10 8) (v.toNat % 4)

/-- RECOVER (R488): accepted, answered, then the rung runs. -/
def recoverCmd (m : Mod) (rq : KReq) (rung p : Nat) : Mod :=
  let code := if rung < 2 ∨ 4 < rung ∨ (rung = 2 ∧ 4 ≤ p) then 0x0E else if rung = 2 ∧ (partOf m p).state = .absent then 0x0B else 0
  let go := m.kpr.ready && code == 0
  let m := keeperCmd m rq 0x0082 0 0 (leBytes 4 rung ++ leBytes 4 p) fun m => (m, answer code)
  if go then recoverRun m rung p else m

/-! ## Watchdog and Keeper restart (R493, R494) -/

/-- Keeper's cores and firmware start again: what was under way is lost or closed. -/
def keeperRestart (m : Mod) : Mod :=
  let m := (imageOf m 1).ins.foldl (fun m n => if (tabGet m.bsn.ins n.1).tcp then pmuTcpDown m n.1 else m) m
  let m := modKpr m fun k => { k with ready := false, kstate := 2, busy := false, copied := [], lowSecs := 0 }
  let m := modRec { m with net := { m.net with m0Queue := [] } } fun r => { r with exports := [] }
  let m := match m.hlth.testing with
    | some _ => setTimerAt m .testDrain 0 (m.hlth.drainAt + msec 50)
    | none => m
  startTimer (modHlth m fun h => { h with pendClk := [], shedFor := none, wdogAt := m.clk.elapsed }) .keeperReady 0 (secs 15)

/-- WATCHDOG_EXPIRY; the third within 3,600 s of operating time is rung 3 (R512). -/
def watchdogExpiry (m : Mod) : Mod :=
  if !powered m || m.kpr.kstate == 0 then m
  else
    let now := opTime m
    let l := now :: m.hlth.wdogs.filter fun t => decide (now < t + 3600 * 256)
    let m := keeperRestart (modHlth m fun h => { h with wdogs := l })
    let m := bump (setFault m Reg.KPR_FAULT 2) Reg.HLTH_CNT_WDOG
    let m := class6 m 5 (leBytes 1 l.length)
    if 3 ≤ l.length then deviceReset m 4 else m

/-- KEEPER_RESTART_COMPLETE. -/
def keeperRestarted (m : Mod) : Mod :=
  if m.kpr.kstate ≠ 2 then m
  else
    let m := stopTimer (modKpr m fun k => { k with ready := true, kstate := 1 }) .keeperReady 0
    class6 (setFault m Reg.KPR_FAULT 3) 6 (leBytes 4 (msSince m m.hlth.wdogAt))

/-- KEEPER_READY_TIMEOUT: 15 s without READY (R512). -/
def keeperReadyTimeout (m : Mod) : Mod :=
  expire m .keeperReady 0 fun m => if m.kpr.kstate = 2 then deviceReset m 3 else m

/-! ## Scrubbing and rewrites (R499, R500) -/

/-- SCRUB_PASS: a scrubber has read a word: a corrected one is counted in its block, an uncorrectable one handled as R499
states. A single-bit error that a task's own access meets is corrected and counted in the same way (R124; log 367). -/
def scrubPass (m : Mod) (w : ScrubWord) (f : ScrubFind) : Mod :=
  match f with
  | .clean => m
  | .corrected =>
    match w with
    | .flowState c _ => setFault (bumpEcc m (Reg.PE_CL_ECC (c % 16)) false) Reg.PE_FAULT 0 (16 * (c % 16))
    | .resident c e => setFault (bumpEcc m (Reg.PE_CL_ECC (c % 16)) false) Reg.PE_FAULT 2 (16 * (c % 16) + e % 16)
    | .scratch c e => setFault (bumpEcc m (Reg.PE_CL_ECC (c % 16)) false) Reg.PE_FAULT 2 (16 * (c % 16) + e % 16)
    | .store _ => setFault m Reg.TD_FAULT 3
    | .coef g => setFault (bumpEcc m Reg.FLT_ECC false) Reg.FLT_FAULT 2 g
    | _ => m
  | .bad =>
    let m := setFault m Reg.HLTH_FAULT 7
    match w with
    | .ringRow i => modRec (setFault m Reg.REC_FAULT 5) fun r => { r with ring := r.ring.mapIdx fun k x =>
        if k = i then { src := x.src, ix := x.ix, time := x.time, gap := true, reason := 4, count := if x.gap then x.count else 1 } else x }
    | .keeperMem => if m.kpr.kstate = 1 then keeperRestart m else m
    | .dram => m
    -- the next read of the flow's state, and the next use of the engine's log or scratch, faults (R124)
    | .flowState c f => markFlow (setFault (bumpEcc m (Reg.PE_CL_ECC (c % 16)) true) Reg.PE_FAULT 1 (16 * (c % 16))) f
    | .scratch c e => markMem (setFault (bumpEcc m (Reg.PE_CL_ECC (c % 16)) true) Reg.PE_FAULT 3 (16 * (c % 16) + e % 16))
        (16 * (c % 16) + e % 16) true
    | .resident c e =>
      let m := setFault (bumpEcc m (Reg.PE_CL_ECC (c % 16)) true) Reg.PE_FAULT 7 (16 * (c % 16) + e % 16)
      if m.td.withdrawn.contains (16 * (c % 16) + e % 16) then m
      else modTd m fun d => { d with withdrawn := (16 * (c % 16) + e % 16) :: d.withdrawn }
    | .store p => askRung2 (setFault m Reg.TD_FAULT 4) (p % 4) 2
    | .coef g => modGroup (setFault (bumpEcc m Reg.FLT_ECC true) Reg.FLT_FAULT 3 g) g fun s => { s with coefUe := true }
    | .energyCopy b => modMtr m fun r =>
        let a' := if b then r.copyA else none
        let b' := if b then none else r.copyB
        { r with copyA := a', copyB := b', newestB := newerB a' b' }
    | .eventPos k =>
      if (tabGet m.evr.ring k).isEmpty then m
      else
        let m := { m with evr := { m.evr with ring := tabSet m.evr.ring k (tornRecord (m.clk.elapsed + k)) } }
        setFault (setFault m Reg.EVR_FAULT 3) Reg.EVR_FAULT 1
    | .mram => m

/-- A rewrite from the committed image; the second for the same engine or group within 600 s of operating time is a rung 2 of
the partition that owns the data (R500). -/
def noteRewrite (m : Mod) (obj p : Nat) : Mod :=
  let now := opTime m
  let old := m.hlth.rewrites.filter fun r => decide (now < r.2 + 600 * 256)
  let again := old.any (·.1 == obj)
  let m := setFault (modHlth m fun h => { h with rewrites := (obj, now) :: old }) Reg.HLTH_FAULT 6
  if again then askRung2 m p 5 else m

/-- RESIDENT_SET_REWRITE: Keeper rewrites the resident set of an engine that waits for it; `p` owns the data. -/
def residentRewrite (m : Mod) (c e p : Nat) : Mod :=
  let k := 16 * c + e
  if !m.td.withdrawn.contains k then m
  else noteRewrite (modTd m fun d => { d with withdrawn := d.withdrawn.filter (· ≠ k) }) k p

/-- PALETTE_REWRITE. -/
def paletteRewrite (m : Mod) (g : Nat) : Mod :=
  if !(groupSt m g).coefUe then m else noteRewrite (palRewrite m g) (1024 + g) (groupPart m g)

/-! ## Drains and the rotating self-test (R106, R501 to R504) -/

def setClMode (m : Mod) (c : Nat) (x : ClMode) : Mod := { m with pe := { m.pe with clMode := tabSet m.pe.clMode c x } }

/-- The dispatcher issues nothing more to a cluster: its ready tasks go to its ring neighbours (R106). -/
def beginDrain (m : Mod) (c : Nat) : Mod :=
  let m := setClMode m c .draining
  let move (k : Task) : Task :=
    if k.cluster = c ∧ (k.state = .ready ∨ k.state = .held) then { k with cluster := servedAt m c k.form } else k
  modTd m fun d => { d with tasks := d.tasks.map move }

/-- The slack at clock `f'` of a reading at clock `f`, in 0.01 % (R505). -/
def slackAt (s : Int) (f f' : Nat) : Int := 10000 - ((10000 - s) * f') / max 1 f

/-- A planned clock takes effect on a drained cluster (R19, R506). -/
def applyClock (m : Mod) (c : Nat) : Mod :=
  match tabGet m.hlth.pendClk c with
  | none => m
  | some f =>
    let m := modHlth m fun h => { h with pendClk := tabSet h.pendClk c none }
    if plannedClk m c = f then m else setFault (setReg m (Reg.PE_CL_CLK c) (BitVec.ofNat 32 f)) Reg.HLTH_FAULT 3 c

/-- Pending clocks of clusters whose partitions are all halted (R19). -/
def settleClocks (m : Mod) : Mod :=
  m.hlth.pendClk.foldl (fun m x =>
    if [0, 1, 2, 3].any fun p => isLive m p && (imageOf m p).homeSet.testBit x.1 then m else applyClock m x.1) m

/-- HLTH_ST_CFG.PERIOD in force, 10 to 3,600 s. -/
def testPeriod (m : Mod) : Nat := min 3600 (max 10 (regBits m Reg.HLTH_ST_CFG 11 0))

/-- A cluster passes the checks of R501 now; none does while a commit is in progress (R63). -/
def testable (m : Mod) (c : Nat) : Bool := clMode m c == .service && drainOk m c

/-- SELFTEST_ROTATION_SLOT. -/
def rotationSlot (m : Mod) : Mod :=
  expire m .rotation 0 fun m =>
    let m := startTimer m .rotation 0 (secs (testPeriod m))
    if m.kpr.kstate ≠ 1 ∨ regBits m Reg.HLTH_CTRL 0 0 = 0 ∨ m.hlth.testing.isSome then m
    else
      let q := (reg m Reg.HLTH_ST_QUEUE).toNat
      let queued := (List.range 16).filter q.testBit
      let order := (List.range 16).map fun k => (m.hlth.rot + k) % 16
      match (queued ++ order).find? (testable m) with
      | none => setFault (setBits m Reg.HLTH_ALARM 1 1 1) Reg.HLTH_FAULT 4
      | some c =>
        let m := setBits (setBits m Reg.HLTH_ALARM 1 1 0) Reg.HLTH_ST_QUEUE c c 0
        let rot := if q.testBit c then m.hlth.rot else (c + 1) % 16
        beginDrain (modHlth m fun h => { h with testing := some c, retest := false, drainAt := m.clk.elapsed, rot := rot }) c

/-- CLUSTER_DRAINED: a draining cluster's tasks have retired and its test begins. -/
def clusterDrained (m : Mod) (c : Nat) : Mod :=
  let busy := m.td.tasks.any fun k => match k.engine with
    | some (x, _) => x == c
    | none => false
  if clMode m c ≠ .draining ∨ busy then m else setClMode m c .testing

/-- The cluster under test returns to service, with its pending clock applied (R501). -/
def returnCluster (m : Mod) (c : Nat) : Mod :=
  let m := stopTimer (applyClock m c) .testDrain 0
  setClMode (modHlth m fun h => { h with testing := none, retest := false }) c .service

/-- A result noted in HLTH_ST_LAST and among the last 16. -/
def noteResult (m : Mod) (c result ms : Nat) : Mod :=
  let m := setReg m Reg.HLTH_ST_LAST (BitVec.ofNat 32 (c * 65536 + result * 256 + min ms 255))
  modHlth m fun h => { h with results := ((c, result, min ms 255) :: h.results).take 16 }

/-- The flows of a partition homed on a cluster are quarantined (R502, R97). -/
def quarFlows (m : Mod) (c p : Nat) : Mod :=
  (imageOf m p).flows.foldl (fun m f =>
    if f.2.home ≠ c ∨ (tabGet m.td.flows f.1).quar.isSome then m
    else match (imageOf m p).templates.find? fun t => t.2.flow == some f.1 with
      | some t =>
        let tag := (tabGet m.td.flows f.1).nextTag.getD (latestTag m t.2.domain)
        quarAsk (quarantine m t.2 tag) p
      | none => m) m

/-- The concentration partition gives up its capacity (R507): it is halted, and `want` is tried again without it. -/
def shedConc (m : Mod) (want : Nat × Nat) : Mod :=
  if regBits m Reg.HLTH_CTRL 2 2 = 1 ∧ isLive m 1 ∧ !partBusy m 1 then
    modPart (modHlth m fun h => { h with shedFor := some want }) 1 fun s => { s with next := some .stay }
  else m

/-- A cluster goes out of service after its retest failed (R502). -/
def failCluster (m : Mod) (c : Nat) (flowBad : Bool) : Mod :=
  let m := setFault (setClMode m c .out) Reg.HLTH_FAULT 5 c
  let m := if flowBad then
      [0, 1, 2, 3].foldl (fun m p => quarFlows m c p) (modHlth m fun h => { h with flowBad := h.flowBad ||| 2 ^ c })
    else m
  if admitsPlan (loadedUni m) (plantOf m) then m else shedConc (raiseMargin m) (c, plannedClk m c)

/-- CLUSTER_SELFTEST_COMPLETE: a test of the cluster under test ends after `ms`; `flowOk` says whether its flow-state memory
passed. -/
def selfTestComplete (m : Mod) (c : Nat) (pass flowOk : Bool) (ms : Nat) : Mod :=
  if m.hlth.testing ≠ some c ∨ clMode m c ≠ .testing then m
  else if pass then returnCluster (noteResult m c (if m.hlth.retest then 2 else 1) ms) c
  else if !m.hlth.retest then modHlth m fun h => { h with retest := true }
  else
    let m := stopTimer (modHlth (noteResult m c 3 ms) fun h => { h with testing := none, retest := false }) .testDrain 0
    failCluster m c (!flowOk)

/-- TEST_DRAIN_RETURN_TIMEOUT: the health hardware returns a cluster 50 ms after its drain began when Keeper has restarted
(R494). -/
def testDrainReturn (m : Mod) : Mod :=
  expire m .testDrain 0 fun m => match m.hlth.testing with
    | some c => returnCluster m c
    | none => m

/-- SELFTEST_REQ (R503). -/
def selfTestReq (m : Mod) (rq : KReq) (mask : Nat) : Mod :=
  keeperCmd m rq 0x0080 0 0 (leBytes 4 mask) fun m =>
    if 2 ^ 16 ≤ mask then (m, answer 0x0E)
    else (setReg m Reg.HLTH_ST_QUEUE (reg m Reg.HLTH_ST_QUEUE ||| BitVec.ofNat 32 mask), answer 0)

/-- SELFTEST_FULL (R504): the results of the named clusters, refused unless every partition with one in its home set is Halted
or Absent. -/
def selfTestFull (m : Mod) (rq : KReq) (mask : Nat) (res : List FullTest) : Mod :=
  keeperAsk m rq 0x0081 0 0 (leBytes 4 mask) fun m =>
    if 2 ^ 16 ≤ mask then answer 0x0E
    else if [0, 1, 2, 3].any fun p =>
        ((partOf m p).state == .live || (partOf m p).state == .loading) && (imageOf m p).homeSet &&& mask != 0 then answer 0x0B
    else
      let one (c : Nat) : List Nat := match res.find? (·.cl == c) with
        | some r => [c, if r.pass then 1 else 3, r.unit]
        | none => [c, 0, 0]
      { result := 0, data := Config.fullTestBytes (((List.range 16).filter mask.testBit).map one) }

/-! ## Ageing and re-planning (R505 to R508) -/

/-- HLTH_CL_MARGINn and HLTH_IS_MARGINi fields. -/
def marginVolt (m : Mod) (off : Nat) : Nat := regBits m off 31 24
def setMargin (m : Mod) (off volt clkMin : Nat) (slack : Int) : Mod :=
  setReg m off (BitVec.ofNat 32 (volt * 2 ^ 24 + clkMin * 2 ^ 16 + (min (max slack 0) 65535).toNat))

/-- The loaded images pass admission with a cluster at another clock. -/
def admitsClock (m : Mod) (u : Uni) (c f : Nat) : Bool :=
  let pl := plantOf m
  admitsPlan u { pl with clk := fun k => if k = c then f else pl.clk k }

/-- The lowest admissible clock of a cluster (R508); its planned clock where no step passes. -/
def clkMin (m : Mod) (c : Nat) : Nat :=
  match (List.range 31).find? fun k => admitsClock m (loadedUni m) c (80 + k) with
  | some k => 80 + k
  | none => plannedClk m c

/-- A lowering that a reading asks for: planned when admission passes, else the capacity-margin alarm and R507. -/
def planLower (m : Mod) (c f : Nat) : Mod :=
  if admitsClock m (loadedUni m) c f then modHlth m fun h => { h with pendClk := tabSet h.pendClk c (some f) }
  else shedConc (raiseMargin m) (c, f)

/-- The plan of a cluster at a reading `s` of its slack (R506). -/
def planCluster (m : Mod) (c : Nat) (s : Int) : Mod :=
  let off := Reg.HLTH_CL_MARGIN c
  let v := marginVolt m off
  let f := (reg m (Reg.PE_CL_CLK c)).toNat % 256
  let top := if regBits m Reg.HLTH_CTRL 3 3 = 1 then 110 else 100
  if s < 1000 ∧ v < 14 then setBits m off 31 24 (v + 1)
  else if s < 1000 then
    match ((List.range (f - 80)).map fun k => f - 1 - k).find? fun g => decide (1000 ≤ slackAt s f g) with
    | some g => planLower m c g
    | none => shedConc (raiseMargin m) (c, 80)
  else if f < top ∧ 1400 ≤ slackAt s f (f + 1) then modHlth m fun h => { h with pendClk := tabSet h.pendClk c (some (f + 1)) }
  else if 1800 < s ∧ 0 < v then setBits m off 31 24 (v - 1)
  else m

/-- The supply of another island at a reading (R506). -/
def planIsland (m : Mod) (i : Nat) (s : Int) : Mod :=
  let off := Reg.HLTH_IS_MARGIN i
  let v := marginVolt m off
  if s < 1000 ∧ v < 14 then setBits m off 31 24 (v + 1) else if 1800 < s ∧ 0 < v then setBits m off 31 24 (v - 1) else m

/-- The day count of R508 for one cluster: a straight line fitted to the slack at the lowest admissible clock, and the days
from the latest reading until it falls to 10 %, rounded to nearest; none without 30 readings or a falling slope. -/
def predictDays (rs : List (Nat × Nat × Int)) (f' : Nat) : Option Nat :=
  let n : Int := rs.length
  let t0 : Int := (rs.headD (0, 0, 0)).1
  -- x in seconds from the latest reading, y in units of 0.01 % times f
  let pts : List (Int × Int × Int) := rs.map fun r => ((r.1 : Int) - t0, 10000 * r.2.1 - (10000 - r.2.2) * f', (r.2.1 : Int))
  let l := pts.foldl (fun a p => a.lcm p.2.2.toNat) 1
  let xy := pts.map fun p => (p.1, p.2.1 * ((l / p.2.2.toNat : Nat) : Int))
  let sx := (xy.map (·.1)).sum
  let sy := (xy.map (·.2)).sum
  let sxx := (xy.map fun p => p.1 * p.1).sum
  let sxy := (xy.map fun p => p.1 * p.2).sum
  let d := n * sxx - sx * sx
  let k := n * sxy - sx * sy
  -- slope k / d per second, value at the latest reading (sy − slope × sx) / n, in units of 0.01 % / l
  if n < 30 ∨ d ≤ 0 ∨ 0 ≤ k then none
  else
    let num := sy * d - k * sx - 1000 * (l : Int) * n * d
    let den := -k * n * 86400
    some ((2 * num + den) / (2 * den)).toNat

/-- The plans that a reading asks for (R506). -/
def planAll (m : Mod) (cl isl : List Int) : Mod :=
  let m := (List.range 16).foldl (fun m c => planCluster m c (cl.getD c 0)) m
  (List.range 10).foldl (fun m i => planIsland m i (isl.getD i 0)) m

/-- A reading plans afresh: the capacity-margin alarm stands while a lowering fails admission, and its rise alone is an event
(R506, R507). -/
def replan (m : Mod) (cl isl : List Int) : Mod :=
  if regBits m Reg.HLTH_CTRL 1 1 = 0 then m
  else
    let fresh := planAll (setBits m Reg.HLTH_ALARM 3 3 0) cl isl
    if regBits m Reg.HLTH_ALARM 3 3 = 1 ∧ regBits fresh Reg.HLTH_ALARM 3 3 = 1 then planAll m cl isl else fresh

/-- MARGIN_EXHAUSTED follows a reading; its rise writes an event (R507). -/
def noteExhausted (m : Mod) (low : Bool) : Mod :=
  let was := regBits m Reg.HLTH_ALARM 4 4
  let m := setBits m Reg.HLTH_ALARM 4 4 (if low then 1 else 0)
  if low ∧ was = 0 then stateEvent m 0x11 80 0 1 4 else m

/-- AGEING_READING: the slack of every cluster and island at its present clock and voltage in 0.01 % (R505 to R508). -/
def ageingReading (m : Mod) (cl : List Int) (isl : List Int) : Mod :=
  if m.kpr.kstate ≠ 1 then m
  else
    let now := opTime m / 256
    let s (c : Nat) : Int := cl.getD c 0
    let volts := (List.range 16).map fun c => marginVolt m (Reg.HLTH_CL_MARGIN c)
    let isv := (List.range 10).map fun i => marginVolt m (Reg.HLTH_IS_MARGIN i)
    let note (m : Mod) (c : Nat) : Mod :=
      if volts.getD c 0 ≠ 14 then m
      else
        let f := (reg m (Reg.PE_CL_CLK c)).toNat % 256
        let keep := (tabGet m.hlth.readings c).filter fun r => decide (now < r.1 + 365 * 86400)
        modHlth m fun h => { h with readings := tabSet h.readings c ((now, f, s c) :: keep) }
    let m := (List.range 16).foldl note m
    let m := replan m cl isl
    let m := (List.range 16).foldl (fun m c =>
      let f := (reg m (Reg.PE_CL_CLK c)).toNat % 256
      setMargin m (Reg.HLTH_CL_MARGIN c) (marginVolt m (Reg.HLTH_CL_MARGIN c)) (clkMin m c) (slackAt (s c) f (plannedClk m c))) m
    let m := (List.range 10).foldl (fun m i =>
      setMargin m (Reg.HLTH_IS_MARGIN i) (marginVolt m (Reg.HLTH_IS_MARGIN i)) 0 (isl.getD i 0)) m
    let low := (List.range 16).any (fun c => volts.getD c 0 == 14 && decide (s c < 500))
      || (List.range 10).any fun i => isv.getD i 0 == 14 && decide (isl.getD i 0 < 500)
    let m := noteExhausted m low
    let days := (List.range 16).filterMap fun c =>
      predictDays (tabGet m.hlth.readings c) (regBits m (Reg.HLTH_CL_MARGIN c) 23 16)
    setReg m Reg.HLTH_PREDICT (match days with
      | [] => 0xFFFFFFFF
      | d :: r => BitVec.ofNat 32 (min 0xFFFFFFFE (r.foldl min d)))

/-- R507 after the halt of concentration: the lowering is planned when admission passes without it. -/
def settleShed (m : Mod) : Mod :=
  match m.hlth.shedFor with
  | none => m
  | some (c, f) =>
    if isLive m 1 then m
    else
      let m := modHlth m fun h => { h with shedFor := none }
      let u := loadedUni m
      let u := { u with parts := u.parts.filter (·.1 ≠ 1) }
      if f < plannedClk m c ∧ admitsClock m u c f then modHlth m fun h => { h with pendClk := tabSet h.pendClk c (some f) } else m

/-! ## The start sequence (R495 to R497) -/

/-- A start step fails (R495). -/
def stepFailed (m : Mod) (step code : Nat) : Mod :=
  class6 (setFault m Reg.KPR_FAULT 1) 10 (leBytes 1 step ++ leBytes 1 code)

def setStage (m : Mod) (k : Nat) : Mod := modHlth m fun h => { h with stage := k }

/-- The partition that a step loads. -/
def stepPart (k : Nat) : Nat := if k ≤ 9 then 0 else if k = 10 then 2 else if k = 11 then 3 else 1

/-- A committed image is loaded at start once admission has passed at the planned clocks without out-of-service clusters; else
the partition stays Halted and the capacity-margin alarm is set. -/
def startLoad (m : Mod) (p : Nat) (copies : List Committed) : Mod :=
  match copies with
  | [] => m
  | c :: rest =>
    let u := loadedUni m
    let u := { u with parts := (u.parts.filter (·.1 ≠ p)) ++ [(p, c.img)] }
    let l := figureChecks u (plantOf m)
    let m := beginLoad m p c false rest
    if l.isEmpty then m
    else
      let m := setPart (modPart (loadRegs m p) p fun s => { s with step := 0, older := [] }) p .halted
      raiseMargin (stepFailed m (if p = 0 then 7 else m.hlth.stage) (admResult l))

/-- The start goes on at a step: the steps of partitions that no committed image holds take no time; past step 12 the sequence
is complete. -/
def enterStep : Nat → Mod → Nat → Mod
  | 0, m, _ => m
  | n + 1, m, k =>
    if 13 ≤ k then setStage (class6 m 2 (leBytes 4 (msSince m m.hlth.startAt))) 0xF
    else
      let m := setStage m k
      if k < 7 ∨ k = 8 ∨ k = 9 then m
      else
        let copies := tabGet m.img.copies (stepPart k)
        if k = 7 then
          let m := match m.img.commons with
            | c :: _ => loadCommon m c
            | [] => m
          if copies.isEmpty then enterStep n m 10 else m
        else
          let m := startLoad m (stepPart k) copies
          if (partOf m (stepPart k)).state = .loading then m else enterStep n m (k + 1)

/-- Step 4 ends: Keeper runs, READY sets, the compatibility mode is applied; the timers of Keeper and of the pair begin. -/
def keeperUp (m : Mod) : Mod :=
  let m := modKpr m fun k => { k with ready := true, kstate := 1 }
  let m := { m with mode := { m.mode with vz20 := m.mode.vz20Next } }
  let m := startTimer (startTimer (startTimer m .hello 0 (msec 1)) .heartbeat 0 (usec 5)) .status 0 (usec 5)
  startTimer (startTimer (startTimer m .refStatus 0 (msec 1)) .shedSecond 0 (secs 1)) .rotation 0 (secs (testPeriod m))

/-- The supply-failure gap record (R461): the newest SEQ of the ring, and that of the newest energy copy. -/
def supplyGap (m : Mod) (copySeq : Nat) : Mod :=
  raiseEvent m keeperSrc 2 6 (leBytes 2 noObj ++ leBytes 2 0 ++ leBytes 8 (newestSeq m.evr) ++ leBytes 8 copySeq)

/-- The series of Referee and federation messages go on from what MRAM retains (R253, R289). -/
def resumeSeries (m : Mod) : Mod :=
  let m := { m with wad := { m.wad with startSecs := opTime m / 256 } }
  if m.out.seq = 0 then m else { m with out := { m.out with seq := (m.out.seq + 2 ^ 32) % 2 ^ 64 } }

/-- Step 5: retained state restored; after power good also the energy copies, the clock, and the records of the failure. -/
def restoreState (m : Mod) (o : StepOutcome) : Mod :=
  let m := { m with evr := { m.evr with ring := o.torn.foldl (fun r k => if (tabGet r k).isEmpty then r else tabSet r k (tornRecord (m.clk.elapsed + k))) m.evr.ring } }
  let m := evrStart (if m.hlth.afterReset then m else keyStart m)
  let m := resumeSeries m
  if m.hlth.afterReset then m
  else
    let a := if o.copyBad.1 then none else m.mtr.copyA
    let b := if o.copyBad.2 then none else m.mtr.copyB
    let m := modMtr m fun r => { r with copyA := a, copyB := b }
    let copySeq := match (if newerB a b then b else a) with
      | some c => c.evSeq
      | none => 0
    let m := mtrStart m (((tabGet m.img.copies 2).head?.map fun c => c.img.mtr).getD {})
    let m := supplyGap (class6 m 1 (leBytes 1 m.hlth.stopCause)) copySeq
    startTimer (recResume (clockRestore m)) .periodicSave 0 (msec (100 * savePeriod m))

/-- Step 6: failing clusters go out of service. -/
def startTest (m : Mod) (failed flowFailed : Nat) : Mod :=
  let m := modHlth m fun h => { h with flowBad := flowFailed % 65536 }
  (List.range 16).foldl (fun m c =>
    if failed.testBit c then setFault (noteResult (setClMode m c .out) c 3 0) Reg.HLTH_FAULT 5 c else m) m

/-- Protection is Live: step 9 (R495, R512). -/
def reachedNine (m : Mod) : Mod :=
  let m := stopTimer (modHlth m fun h => { h with failedStarts := 0 }) .startStep9 0
  enterStep 8 (class6 m 3 (leBytes 4 (msSince m m.hlth.startAt))) 10

/-- The load of the partition of step 8, 10, 11 or 12 ends. -/
def stepLoad (m : Mod) (ok : Bool) (code : Nat) : Mod :=
  let k := m.hlth.stage
  let p := stepPart k
  let s := partOf m p
  let m := if ok ∨ s.state ≠ .loading ∨ s.loaded then loadComplete m p true else stepFailed (loadComplete m p false) k code
  match (partOf m p).state with
  | .loading =>
    if !(partOf m p).loaded then m
    else if p = 0 then setStage m 9
    else
      let m := goLive m p
      if isLive m p then enterStep 8 m (k + 1) else m
  | _ => enterStep 8 m (if p = 0 then 10 else k + 1)

/-- START_STEP_COMPLETE: the step in progress ends (R495). -/
def startStep (m : Mod) (o : StepOutcome) : Mod :=
  if !powered m then m
  else match m.hlth.stage with
    | 2 => if o.ok then setStage (bdomStart m o.bdomLost) 3 else autoPowerCycle (stepFailed m 2 o.code)
    | 3 =>
      if o.ok then
        let m := match o.badCopy with
          | some c => class6 m 9 (leBytes 1 c)
          | none => m
        setStage m 4
      else if m.kpr.bootFail then m
      else stepFailed (modKpr m fun k => { k with bootFail := true }) 3 o.code
    | 4 => if o.ok then setStage (keeperUp m) 5 else autoPowerCycle (stepFailed m 4 o.code)
    | 5 => setStage (restoreState m o) 6
    | 6 => enterStep 8 (startTest m o.failed o.flowFailed) 7
    | 7 =>
      let copies := tabGet m.img.copies 0
      let m := if o.ok then m else stepFailed m 7 o.code
      let copies := if o.ok then copies else copies.drop 1
      let m := startLoad m 0 copies
      if (partOf m 0).state = .loading then setStage m 8 else enterStep 8 m 10
    | 8 | 10 | 11 | 12 => stepLoad m o.ok o.code
    | 9 =>
      let m := goLive m 0
      if isLive m 0 then reachedNine m else m
    | _ => m

/-! ## Thermal states (R559, R560) -/

/-- The thermal state that follows a reading: plate in 0.1 °C and the hottest junction of each island. -/
def thermalNext (t : Nat) (plate : Int) (js : List Int) : Nat :=
  if 850 < plate ∨ js.any (fun j => decide (1100 < j)) then 3
  else match t with
    | 3 => if plate ≤ 650 then 0 else 3
    | 2 => if 750 < plate then 2 else if plate < 680 then 0 else 1
    | 1 => if 780 < plate then 2 else if plate < 680 then 0 else 1
    | _ => if 780 < plate then 2 else if 700 < plate then 1 else 0

/-- Shed: the concentration and recording partitions are halted. -/
def thermalShed (m : Mod) : Mod :=
  [1, 3].foldl (fun m p =>
    if isLive m p || (partOf m p).state == .loading then modHlth m fun h => { h with shedMask := h.shedMask ||| 2 ^ p } else m) m

/-- Partitions that Shed halts are halted once no operation on them is in progress, and start again after it (R560). -/
def settleThermal (m : Mod) : Mod :=
  if m.hlth.thermal = 2 then
    [1, 3].foldl (fun m p =>
      if m.hlth.shedMask.testBit p && isLive m p && !partBusy m p then modPart m p fun s => { s with next := some .stay } else m) m
  else if 2 < m.hlth.thermal then m
  else [1, 3].foldl (fun m p =>
    if !m.hlth.shedMask.testBit p then m
    else if isLive m p ∧ partBusy m p then m
    else
      let m := modHlth m fun h => { h with shedMask := h.shedMask - 2 ^ p }
      if (partOf m p).state = .halted ∧ !partBusy m p ∧ (partOf m p).step = 0 then
        modPart (clearPart m p) p fun s => { s with starting := true }
      else m) m

/-- Stop: the islands held in reset. -/
def thermalStop (m : Mod) : Mod := modHlth (islandReset m) fun h => { h with power := .thermalStop, stage := 0 }

/-- THERMAL_READING: once a second. -/
def thermalReading (m : Mod) (mem : Mem) (plate : Int) (js : List Int) : Mod :=
  if m.hlth.power = .off then m
  else
    let old := m.hlth.thermal
    let t := thermalNext old plate js
    let m := modHlth m fun h => { h with thermal := t, plate := plate, junctions := js }
    if t = old then m
    else
      let m := if t = 0 then m else class6 m (11 + t) (leBytes 2 (codedOf 16 plate))
      if t = 3 then thermalStop m
      else if old = 3 then
        modHlth m fun h => { h with power := .on, stage := 3, startAt := m.clk.elapsed, afterReset := true }
      else if t = 2 then settleThermal (thermalShed m)
      else if old = 2 then (List.range 16).foldl (fun m n => laneStart m mem n) (settleThermal m)
      else m

/-! ## Registers and the report -/

/-- HLTH_STAT as read (R518). -/
def hlthStat (m : Mod) : Nat :=
  let st : Nat := match m.hlth.testing with
    | some c => if clMode m c == .draining then 1 else 2
    | none => if regBits m Reg.HLTH_ALARM 1 1 = 1 then 4 else 0
  let c := match m.hlth.testing with
    | some c => c
    | none => (m.hlth.results.headD (0, 0, 0)).1
  st + (if m.hlth.pendClk.isEmpty then 0 else 128) + c * 65536

/-- PE_CL_MODEn as read (R154). Apart from its self-test slot a cluster is drained for a clock change while its partitions are
halted (R19), and the change is then applied at once (`settleClocks`), so 0b011 lasts for no command. -/
def clModeWord (m : Mod) (c : Nat) : Nat := match clMode m c with
  | .service => 0
  | .draining => 1
  | .testing => 2
  | .drained => 3
  | .out => 4

/-- HEALTH_REPORT (R488, R559). -/
def healthReport (m : Mod) (rq : KReq) : Mod :=
  keeperAsk m rq 0x0083 1 0 [] fun m =>
    let w (off : Nat) : Int := (reg m off).toNat
    let margins := (List.range 16).map (fun c => w (Reg.HLTH_CL_MARGIN c)) ++ (List.range 10).map fun i => w (Reg.HLTH_IS_MARGIN i)
    let tests := m.hlth.results.map fun r => [(r.1 : Int), (r.2.1 : Int), (r.2.2 : Int)]
    { result := 0, data := Config.healthBytes ([margins] ++ tests ++ [[w Reg.HLTH_PREDICT], m.hlth.plate :: m.hlth.junctions]) }

end Sys2Proof.Machine
end

