-- ==== Sys2Proof/Machine/HostRegs.lean ====
section
/-!
DEFINITION. Host access to the registers (chapter 16): what a read returns, shadow copies and strobes, the key gate,
wide-value mailboxes, clear-on-read, the MSI-X table, and the write of every register.
-/
namespace Sys2Proof.Machine

/-! ## Windows and rows -/

/-- The register window of a block answers: always for the endpoint, HOST, PTP, MTR, KEY and HLTH; for another block once it
runs (R510, log 201). -/
def blockUp (m : Mod) (b : Nat) : Bool :=
  [0, 9, 0xE, 0x10, 0x11, 0x3F].contains b
    || powered m && (if b = 1 then decide (3 ≤ m.hlth.stage) else if b = 0xF then m.evr.running else decide (5 ≤ m.hlth.stage))

/-- KPR_REQ and KPR_RSP, and the MSI-X table with the PBA (R515, R521). -/
def isReq (a : Nat) : Bool := decide (0x11000 ≤ a) && decide (a < 0x12000)
def isRsp (a : Nat) : Bool := decide (0x12000 ≤ a) && decide (a < 0x13000)
def isMsix (a : Nat) : Bool := decide (0x3F0000 ≤ a) && decide (a < 0x3F0400)
def isPba (a : Nat) : Bool := a == 0x3F8000 || a == 0x3F8004

/-- A location that is not reserved (R521, R527). -/
def implemented (a : Nat) : Bool := (regRow? a).isSome || isReq a || isRsp a || isMsix a || isPba a

/-- Number of a register `off` among `count` at `base` spaced `stride` apart. -/
def nth (off base stride count : Nat) : Option Nat :=
  if base ≤ off ∧ (off - base) % stride = 0 ∧ (off - base) / stride < count then some ((off - base) / stride) else none

/-- The selection register that shows a selected register, none for an unselected one. -/
def selector (off : Nat) : Option Nat :=
  if Reg.SV_STAT ≤ off ∧ off ≤ Reg.SV_CNT_SIM then some Reg.SV_SEL
  else if Reg.FLT_GRP_STAT ≤ off ∧ off ≤ Reg.FLT_GRP_DFAST then some Reg.FLT_GRP_SEL
  else if Reg.BSN_IN_STAT ≤ off ∧ off ≤ Reg.BSN_IN_CNT_MISS then some Reg.BSN_IN_SEL
  else if Reg.BSN_OUT_STAT ≤ off ∧ off ≤ Reg.BSN_OUT_LASTTAG then some Reg.BSN_OUT_SEL
  else if Reg.WAD_ALM_STAT ≤ off ∧ off ≤ Reg.WAD_ALM_CNT then some Reg.WAD_ALM_SEL
  else if Reg.WAD_GRP_STAT ≤ off ∧ off ≤ Reg.WAD_GRP_UPD then some Reg.WAD_GRP_SEL
  else if Reg.WAD_ISL_STAT ≤ off ∧ off ≤ Reg.WAD_ISL_BASE then some Reg.WAD_ISL_SEL
  else if Reg.OUT_PUB_STNUM ≤ off ∧ off ≤ Reg.OUT_PUB_SQNUM then some Reg.OUT_PUB_SEL
  else if off = Reg.OUT_SUB_STAT then some Reg.OUT_SUB_SEL
  else if Reg.REC_DEF_STAT ≤ off ∧ off ≤ Reg.REC_CNT_LIST then some Reg.REC_SEL
  else if Reg.MTR_PT_STAT ≤ off ∧ off ≤ Reg.MTR_PT_TAG then some Reg.MTR_PT_SEL
  else if Reg.MTR_PQ_STAT ≤ off ∧ off ≤ Reg.MTR_PQ_CNT_INT then some Reg.MTR_PQ_SEL
  else if Reg.KEY_SLOT_STAT ≤ off ∧ off ≤ Reg.KEY_SLOT_FPR then some Reg.KEY_SEL
  else none

/-- The object whose value a register shows: that of its selection register, 0 for an unselected one. -/
def selObj (m : Mod) (off : Nat) : Nat := match selector off with
  | some s => (reg m s).toNat
  | none => 0

/-! ## What a read returns -/

/-- The block of a vector of R538 as the bits of HOST_INT_SUM number it. -/
def intSum (m : Mod) : Nat :=
  let vecs : Nat → List Nat := fun b =>
    if b ≤ 9 then [b] else if b = 0xA then (List.range 8).map (10 + ·) else if b = 0xB then [18] else if b = 0xC then [19]
    else if b = 0xD then [36] else [27 + b]
  (List.range 18).foldl (fun n b => n + if (vecs b).any (intCond m) then 2 ^ b else 0) 0

/-- Strobe groups pending in some block (HOST_STROBE_STAT). -/
def strobeStat (m : Mod) : Nat :=
  (List.range 8).foldl (fun n g => n + if m.host.strobes.any (fun s => s.2.contains g) then 2 ^ g else 0) 0

def flagBit (b : Bool) (k : Nat) : Nat := if b then 2 ^ k else 0

/-- Registers of the HOST, KPR, TD and PE windows whose value the module computes at the read. -/
def readLow (m : Mod) (off : Nat) : Option Nat :=
  if off = Reg.HOST_PRODUCT then
    some (0x40000000 + flagBit m.factory.orderL 16 + m.factory.silicon % 256 * 256 + m.factory.assembly % 256)
  else if off = Reg.HOST_COMPAT then some (flagBit m.mode.vz20 0 + flagBit m.mode.vz20Next 1)
  else if off = Reg.HOST_STROBE_STAT then some (strobeStat m)
  else if off = Reg.HOST_MBOX_STAT then some (flagBit m.host.mboxHost.valid 0)
  else if off = Reg.HOST_INT_SUM then some (intSum m)
  else if off = Reg.KPR_STAT then some (kprStat m m.hlth.stage)
  else if off = Reg.TD_QUAR_CNT then
    some ((m.td.flows.filter fun f => f.2.quar.isSome).length + (m.td.quar.filter fun q => q.2.isSome).length)
  else if off = Reg.PE_SGRP_STAT then some (sgrpStat m)
  else (nth off (Reg.PE_CL_MODE 0) 4 16).map (clModeWord m)

/-- Those of the SV, FLT and BSN windows. -/
def readIngress (m : Mod) (off : Nat) : Option Nat :=
  let o := selObj m off
  if off = Reg.SV_SUBS then some (([0, 1, 2, 3].map fun p => (imageOf m p).subs.length).foldl (· + ·) 0)
  else if off = Reg.SV_STAT then some (svStat m o)
  else if off = Reg.SV_LAST then some (svLast m o)
  else if off = Reg.FLT_LOAD then some (ceilDiv (laneCycles (loadedUni m)) 1000000)
  else if off = Reg.FLT_QUEUE then some (fadePending m)
  else if off = Reg.FLT_GRP_STAT then some (fltStat m o)
  else if off = Reg.FLT_GRP_DFINE then some (fltFine m o)
  else if off = Reg.FLT_GRP_DFAST then some (fltFast m o)
  else if off = Reg.BSN_CFG then some (bsnCfgWord m)
  else if off = Reg.BSN_IN_STAT then some (bsnInStat m o)
  else if off = Reg.BSN_IN_LAST then some (bsnIn m o).lastSoc
  else if off = Reg.BSN_OUT_STAT then some (bsnOutStat m o)
  else if off = Reg.BSN_OUT_LASTTAG then some (bsnOut m o).lastTag
  else if off = Reg.BSN_SLOTS then some (bsnSlots m)
  else none

/-- Those of the WAD and OUT windows. -/
def readDecide (m : Mod) (off : Nat) : Option Nat :=
  let o := selObj m off
  let g := (reg m Reg.WAD_GRP_SEL).toNat
  let k := (reg m Reg.WAD_MODE_SEL).toNat
  if off = Reg.WAD_CFG then some (wadCfgWord m)
  else if off = Reg.WAD_ALM_STAT then some (wadAlmStat m o)
  else if off = Reg.WAD_ALM_TAG then some (alarmSt m o).tag
  else if off = Reg.WAD_GRP_STAT then some (wadGrpStat m o)
  else if off = Reg.WAD_GRP_INFO then some (wadGrpInfo m o)
  else if off = Reg.WAD_GRP_PEAK then some (wadGrpPeak m o)
  else if off = Reg.WAD_GRP_UPD then some (wadGrpUpd m o)
  else if off = Reg.WAD_MODE_F then some ((grpMode m g k).getD 0 0)
  else if off = Reg.WAD_MODE_Z then some (if (grpMode m g k).getD 0 0 = 0 then 0 else (grpMode m g k).getD 1 0)
  else if off = Reg.WAD_ISL_STAT then some (wadIslStat m o)
  else if off = Reg.WAD_ISL_DTH then some (tabGet m.wad.crits o).dth
  else if off = Reg.WAD_ISL_DF then some (tabGet m.wad.crits o).df
  else if off = Reg.WAD_ISL_BASE then some (tabGet m.wad.crits o).base
  else if off = Reg.OUT_STAT then some (outStatWord m)
  else if off = Reg.OUT_CLAIM then some (claimNow m)
  else if off = Reg.OUT_PEER then some (outPeerWord m)
  else if off = Reg.OUT_LASTTAG then some (lastClosed m)
  else if off = Reg.OUT_PUB_STNUM then some (pubSt m o).stNum
  else if off = Reg.OUT_PUB_SQNUM then some (pubSt m o).sqNum
  else if off = Reg.OUT_SUB_STAT then some (gsubStat m o)
  else (nth off (Reg.WAD_ALM_WORD 0) 4 16).map fun n => (alarmWord m n).1

/-- Those of the PTP, MAC and REC windows. -/
def readTime (m : Mod) (off : Nat) : Option Nat :=
  let o := selObj m off
  if off = Reg.PTP_STAT then some (ptpStat m)
  else if off = Reg.PTP_ERR then some (ptpErrWord m)
  else if off = Reg.PTP_UNLOCK_S then some (unlockSeconds m)
  else if off = Reg.PTP_PARENT then some (ptpParent m)
  else if off = Reg.PTP_MBOX_STAT then some (flagBit m.host.mboxPtp.valid 0)
  else if off = Reg.MAC_M0_STAT then some (flagBit m.net.m0Link 0 + flagBit m.net.m0An 2)
  else if off = Reg.REC_CFG then some (recCfgWord m)
  else if off = Reg.REC_SPAN then some (recSpan m)
  else if off = Reg.REC_RATE then some (capRate m / 1000)
  else if off = Reg.REC_DEF_STAT then some (recDefStat m o)
  else if off = Reg.REC_DEF_LAST then some (defSt m o).last
  else if off = Reg.REC_NEXT then some (m.rec_.next % 2 ^ 32)
  else ((nth off (Reg.PTP_PSTAT 0) 16 8).map (ptpPortStat m)
    <|> (nth off (Reg.MAC_PSTAT 0) 0x1000 8).map (macStat m)
    <|> (nth off (Reg.REC_OPEN 0) 4 2).map (recOpenWord m))

/-- Those of the DMA, CMP and MTR windows. -/
def readEnergy (m : Mod) (off : Nat) : Option Nat :=
  let o := selObj m off
  if off = Reg.MTR_STAT then some (mtrStat m)
  else if off = Reg.MTR_HOLD then some m.mtr.holdCv
  else if off = Reg.MTR_LG_LAST then some (mtrLgLast m)
  else if off = Reg.MTR_SEQ then some (match newestCopy m with | some c => c.seq % 2 ^ 32 | none => 0)
  else if off = Reg.MTR_LOG_FILL then some (logFill m)
  else if off = Reg.MTR_PT_STAT then some (mtrPtStat m o)
  else if off = Reg.MTR_PT_TAG then some (mtrPt m o).tag
  else if off = Reg.MTR_PQ_STAT then some (pqStat m o)
  else if off = Reg.MTR_MBOX_STAT then some (flagBit m.host.mboxMtr.valid 0)
  else ((nth off (Reg.DMA_CH_STAT 0) 0x20 16).map (dmaStat m)
    <|> (nth off (Reg.DMA_CH_CUR 0) 0x20 16).map (fun n => (dmaChan m n).cur)
    <|> (nth off (Reg.DMA_CH_CRC 0) 0x20 16).map (fun n => (dmaChan m n).crcReg)
    <|> (nth off (Reg.CMP_L_STAT 0) 0x40 4).map (cmpStat m))

/-- Those of the EVR, KEY and HLTH windows. -/
def readHigh (m : Mod) (off : Nat) : Option Nat :=
  let s := keySlot m (selObj m off)
  if off = Reg.EVR_STAT then some (evrStat m)
  else if off = Reg.EVR_RD_STAT then some (evrRdStat m)
  else if off = Reg.EVR_MBOX_STAT then some (flagBit m.host.mboxEvr.valid 0)
  else if off = Reg.KEY_STAT then some (keyStat m)
  else if off = Reg.KEY_SLOT_STAT then some (keySlotStat s)
  else if off = Reg.KEY_SLOT_KID then some s.kid
  else if off = Reg.KEY_SLOT_FPR then some (fingerprint s)
  else if off = Reg.KEY_TAMPER then some m.key.tamper
  else if off = Reg.KEY_MON then some (m.key.vbatMv % 65536 + codedOf 16 m.key.tempDeci * 65536)
  else if off = Reg.HLTH_STAT then some (hlthStat m)
  else if off = Reg.HLTH_ALARM then some (hlthAlarm m)
  else (nth off (Reg.EVR_RD_DATA 0) 4 16).map (evrRdData m)

/-- The value a register shows because the module computes it. -/
def computed (m : Mod) (off : Nat) : Option Nat :=
  let b := srcOf off
  if b ≤ 3 then readLow m off
  else if b ≤ 6 then readIngress m off
  else if b ≤ 8 then readDecide m off
  else if b ≤ 0xB then readTime m off
  else if b ≤ 0xE then readEnergy m off
  else readHigh m off

/-- What a full read of an implemented location returns: a shadowed field its shadow copy unless HOST_CTRL.LIVE_RD is set (R533),
a selected register the selected object's, a write-only one zero; zero while the block does not run (R510). The data words of
the mailboxes are read by `mboxRead`. -/
def readValue (m : Mod) (off : Nat) : Word :=
  if !blockUp m (srcOf off) then 0
  else if isReq off then BitVec.ofNat 32 (leNat (readBytes m.kpr.req (off - 0x11000) 4))
  else if isRsp off then BitVec.ofNat 32 (leNat (readBytes m.kpr.rsp (off - 0x12000) 4))
  else if isMsix off || isPba off then reg m off
  else match regRow? off with
    | none => 0
    | some r =>
      if r.wo then 0
      else match computed m off with
        | some v => BitVec.ofNat 32 v
        | none =>
          let mask := BitVec.ofNat 32 r.shadow
          let live := regO m off (selObj m off)
          if regBits m Reg.HOST_CTRL 0 0 = 1 then live else (shadowReg m off &&& mask) ||| (live &&& ~~~mask)

/-- The bytes of a word that a read's byte enables name; the others read zero (R525). -/
def lanes (be : BitVec 4) (v : Word) : Word :=
  (List.range 4).foldl (fun w i => if be.getLsbD i then w ||| (v &&& BitVec.ofNat 32 (0xFF * 2 ^ (8 * i))) else w) 0

/-! ## Wide-value mailboxes (R536) -/

def boxSel : WideBox → Nat
  | .host => Reg.HOST_MBOX_SEL | .ptp => Reg.PTP_MBOX_SEL | .mtr => Reg.MTR_MBOX_SEL | .evr => Reg.EVR_MBOX_SEL
def boxData (b : WideBox) (n : Nat) : Nat := match b with
  | .host => Reg.HOST_MBOX_DATA n | .ptp => Reg.PTP_MBOX_DATA n | .mtr => Reg.MTR_MBOX_DATA n | .evr => Reg.EVR_MBOX_DATA n
def boxes : List WideBox := [.host, .ptp, .mtr, .evr]

def getBox (m : Mod) (b : WideBox) : Mailbox := match b with
  | .host => m.host.mboxHost | .ptp => m.host.mboxPtp | .mtr => m.host.mboxMtr | .evr => m.host.mboxEvr
def setBox (m : Mod) (b : WideBox) (x : Mailbox) : Mod := match b with
  | .host => { m with host := { m.host with mboxHost := x } }
  | .ptp => { m with host := { m.host with mboxPtp := x } }
  | .mtr => { m with host := { m.host with mboxMtr := x } }
  | .evr => { m with host := { m.host with mboxEvr := x } }

/-- HOST mailbox words by code (R536). -/
def hostMbox (m : Mod) (code : Nat) : Option (List Nat) :=
  match code with
  | 0 => some [m.factory.serial % 2 ^ 32, m.factory.serial / 2 ^ 32 % 2 ^ 32, m.factory.mfgDay, 0]
  | 1 => some [m.factory.fwVersion, 2, (reg m Reg.PE_CAT).toNat, 0]
  | _ => none

/-- The snapshot that a selection takes: a code that is not defined leaves VALID clear, with SET_REFUSED in the PTP block
(R334). -/
def boxTake (m : Mod) (b : WideBox) (v : Nat) : Mod :=
  let x := match b with
    | .host => (m, hostMbox m (v % 256))
    | .ptp => (m, ptpMbox m (v % 256))
    | .mtr => mtrMbox m (bitsOf v 15 8) (bitsOf v 7 4) (bitsOf v 3 0)
    | .evr => (m, evrMbox m (v % 256))
  match x.2 with
  | some ws => setBox x.1 b { valid := true, code := v, words := ws }
  | none =>
    let m := setBox x.1 b {}
    if b = .ptp then setFault m Reg.PTP_FAULT 10 else m

/-- A write of a mailbox's SEL. -/
def mboxSel (m : Mod) (b : WideBox) (v : Word) (be : BitVec 4) : Mod :=
  hostWrite m (boxSel b) be fun m =>
    if !blockUp m (srcOf (boxSel b)) then m
    else
      let v := match regRow? (boxSel b) with
        | some r => v &&& BitVec.ofNat 32 r.live
        | none => v
      boxTake (setReg m (boxSel b) v) b v.toNat

/-- A read of data word `n` of a mailbox, touching it: DATA3 clears VALID and takes a shown timestamp entry off its queue
(R328, R536). -/
def mboxRead (m : Mod) (b : WideBox) (n : Nat) : Word × Mod :=
  let x := getBox m b
  if !x.valid then (0, accErr m 5 (boxData b n))
  else
    let v := BitVec.ofNat 32 (x.words.getD n 0)
    if n ≠ 3 then (v, m)
    else
      let m := setBox m b {}
      let c := x.code
      if b = .ptp ∧ 0x10 ≤ c ∧ c ≤ 0x17 ∧ (x.words.getD 1 0).testBit 31 then
        (v, { m with clk := { m.clk with tsq := tabMod m.clk.tsq (c - 0x10) fun l => l.drop 1 } })
      else (v, m)

/-- The mailbox and word of a data register. -/
def boxWord (off : Nat) : Option (WideBox × Nat) :=
  boxes.findSome? fun b => (nth off (boxData b 0) 4 4).map fun n => (b, n)

/-- MBOX_DATA3_READ: a read that touches DATA3. -/
def mboxData3 (m : Mod) (b : WideBox) (be : BitVec 4) : Mod :=
  if be = 0 then m
  else
    let (v, m) := mboxRead m b 3
    { m with host := { m.host with latched := .data (lanes be v) } }

/-! ## Reads -/

/-- The vectors whose condition depends on a register: those of a FAULT or INT_EN register, or of DMA_DONE and CMP_DONE. -/
def vectorsOf (off : Nat) : List Nat :=
  if off = Reg.DMA_DONE then (List.range 12).map (20 + ·)
  else if off = Reg.CMP_DONE then [37, 38]
  else (vectorOf off).toList

def recheckAll (m : Mod) (off : Nat) : Mod := (vectorsOf off).foldl recheck m

/-- The clear-on-read bits of a register cleared, its interrupt condition evaluated again (R529, R537). -/
def clearRc (m : Mod) (off : Nat) : Mod :=
  match regRow? off with
  | some r =>
    if r.rc = 0 then m
    else
      let o := selObj m off
      recheckAll (setRegO m off o (regO m off o &&& ~~~(BitVec.ofNat 32 r.rc))) off
  | none => m

/-- A RESERVED_ACCESS: RSVD; a read completes with zero or Completer Abort, a write is discarded (R527). -/
def reservedAccess (m : Mod) (addr : Nat) (write : Bool) : Mod :=
  let m := accErr m 1 addr
  if m.mode.vz20 then
    if write then { m with host := { m.host with aerAbort := true } } else { m with host := { m.host with latched := .abort } }
  else if write then m
  else { m with host := { m.host with latched := .data 0 } }

/-- A read of one dword (R525, R529): the completion and what it clears. -/
def hostRead (m : Mod) (addr : Nat) (be : BitVec 4) : Mod :=
  let a := addr / 4 * 4
  if be = 0 then m
  else if !implemented a then reservedAccess m a false
  else if !blockUp m (srcOf a) then { m with host := { m.host with latched := .data 0 } }
  else
    let (v, m) := match boxWord a with
      | some (b, n) => mboxRead m b n
      | none => (readValue m a, clearRc m a)
    let m := if a = Reg.EVR_RD_DATA 15 then { m with evr := { m.evr with readValid := false } } else m
    { m with host := { m.host with latched := .data (lanes be v) } }

/-! ## The key gate (R535) -/

def keygateOff (b : Nat) : Nat := if b = 0xA then Reg.MAC_KEYGATE else 0x10000 * b + 0xC

/-- KEYGATE_WRITE. -/
def keygateWrite (m : Mod) (b : Nat) (v : Word) (be : BitVec 4) : Mod :=
  hostWrite m (keygateOff b) be fun m =>
    if v = 0x0000C5A7 then openGate m b
    else accErr (auditEvent (closeGate m b) b 0x001 1 b []) 4 (keygateOff b)

/-- KEYGATE_RELOCK: 1 ms after the opening. -/
def keygateRelock (m : Mod) (b : Nat) : Mod := expire m .keygate b fun m => closeGate m b

/-! ## Shadow registers and strobes (R531 to R534) -/

/-- Blocks with a shadowed field. -/
def shadowBlocks : List Nat := [2, 4, 5, 6, 7, 8, 9, 0xA, 0xB, 0xC, 0xE, 0xF, 0x10, 0x11]

/-- The places of a block that have an apply point of their own: ports of MAC, channels of DMA, one in any other block. -/
def applyUnits (b : Nat) : Nat := if b = 0xA then 8 else if b = 0xC then 16 else 1

/-- The unit of a shadowed register. -/
def unitOf (off : Nat) : Nat :=
  if srcOf off = 0xA then off % 0x10000 / 0x1000 else if srcOf off = 0xC then (off % 0x10000 - 0x100) / 0x20 else 0

/-- The strobe group of a block. -/
def groupOf (m : Mod) (b : Nat) : Nat := bitsOf (reg m (Reg.HOST_SGRP (b / 8))).toNat (4 * (b % 8) + 2) (4 * (b % 8))

/-- A group's strobe at its blocks: it waits for their apply points, or is done at once. -/
def strobeGroup (m : Mod) (g : Nat) : Mod :=
  let units := (shadowBlocks.filter fun b => groupOf m b == g).flatMap fun b => (List.range (applyUnits b)).map fun u => 16 * b + u
  if units.isEmpty then setFaultQuiet m Reg.HOST_FAULT 2
  else
    let add (l : Cells (List Nat)) (k : Nat) := tabMod l k fun gs => if gs.contains g then gs else gs ++ [g]
    let m := if units.contains 0x50 then
        { m with sv := { m.sv with fltFrom := [0, 2, 3].foldl (fun l d => tabSet l d (latestTag m d)) m.sv.fltFrom } } else m
    { m with host := { m.host with strobes := units.foldl add m.host.strobes } }

/-- HOST_STROBE. -/
def hostStrobe (m : Mod) (v : Word) (be : BitVec 4) : Mod :=
  hostWrite m Reg.HOST_STROBE be fun m => ((List.range 8).filter fun g => v.toNat.testBit g).foldl strobeGroup m

/-- HOST_SGRP_WRITE: ignored while a strobe is pending. -/
def sgrpWrite (m : Mod) (n : Nat) (v : Word) (be : BitVec 4) : Mod :=
  hostWrite m (Reg.HOST_SGRP n) be fun m =>
    if strobeStat m ≠ 0 then accErr m 3 (Reg.HOST_SGRP n)
    else match regRow? (Reg.HOST_SGRP n) with
      | some r => setReg m (Reg.HOST_SGRP n) (v &&& BitVec.ofNat 32 r.live)
      | none => m

/-- A shadow value as its block applies it, where the field table gives a limit. -/
def limited (off : Nat) (v : Word) : Word :=
  let n := v.toNat
  if off = Reg.TD_STEAL_AGE then BitVec.ofNat 32 (max 8 n)
  else if off = Reg.OUT_REVERT then BitVec.ofNat 32 (min 3600 n)
  else if off = Reg.MTR_SAVE then BitVec.ofNat 32 (min 600 (max 1 n))
  else if off = Reg.KEY_CTRL then BitVec.ofNat 32 (min 3600 n)
  else if off = Reg.HLTH_ST_CFG then BitVec.ofNat 32 (min 3600 (max 10 n))
  else if (nth off (Reg.DMA_CH_CFG 0) 0x20 16).isSome then
    BitVec.ofNat 32 (min 8 (max 1 (bitsOf n 19 16)) * 65536 + max 1 (bitsOf n 15 0))
  else v

/-- The shadow copies of a unit of a block become its live values. -/
def copyShadow (m : Mod) (b u : Nat) : Mod :=
  ((windowRows b).filter fun r => r.shadow ≠ 0 && unitOf r.off == u).foldl (fun m r =>
    let k := BitVec.ofNat 32 r.shadow
    setReg m r.off ((limited r.off (shadowReg m r.off) &&& k) ||| (reg m r.off &&& ~~~k))) m

/-- The hand-over of a unit of a block, with what its chapter says a new value does. -/
def applyShadow (m : Mod) (b u : Nat) : Mod :=
  if b = 9 then ptpApply m
  else if b = 0xE then
    let p := savePeriod m
    let en := regBits m Reg.MTR_CTRL 7 0
    mtrApply (copyShadow m b u) p en
  else
    let m := copyShadow m b u
    if b = 5 then
      let w := reg m Reg.FLT_PAL_CMD
      if w.getLsbD 31 then palRequest (loadReg m Reg.FLT_PAL_CMD (w &&& 0x7FFFFFFF)) w else m
    else if b = 8 then watchRevert m
    else if b = 0xA ∧ regBits m (Reg.MAC_PCFG u) 0 0 = 1 ∧ (netPort m u).link then linkDown m u false
    else m

/-- The filter array has its apply point before it: the next sample it processes carries a master tag that the parser assigned
after the strobe, of the domain of the group that FLT_PAL_CMD names (R187). DESIGN CHOICE (log 374): with no such group any
instant is one. -/
def fltReady (m : Mod) : Bool :=
  let g := (shadowReg m Reg.FLT_PAL_CMD).toNat % 1024
  let p := groupPart m g
  (groupCfg m g).isNone || match m.sv.lanes.find? fun x => !laneHeld m x.sub with
    | some x => (subCfg m x.sub).any (fun c => c.part == p) && x.tag.any fun t => tagBefore (tabGet m.sv.fltFrom p) t
    | none => false

/-- BLOCK_APPLY_POINT of a unit of a block: one hand-over for the strobes that wait there; a group that waits nowhere any more is
done. -/
def applyPoint (m : Mod) (b u : Nat) : Mod :=
  let k := 16 * b + u
  match tabGet m.host.strobes k with
  | [] => m
  | gs =>
    if b = 5 ∧ !fltReady m then m
    else
      let m := applyShadow m b u
      let m := { m with host := { m.host with strobes := tabSet m.host.strobes k [] } }
      gs.foldl (fun m g => if m.host.strobes.any fun s => s.2.contains g then m else setFaultQuiet m Reg.HOST_FAULT 2) m

/-- The FLT apply point, when the next sample of the filter array is one. -/
def fltPoint (m : Mod) : Mod := if fltReady m then applyPoint m 5 0 else m

/-! ## MSI-X table (R537) -/

/-- A write of a dword of the MSI-X table: unmasking a vector with its PBA bit set sends its message. -/
def msixWrite (m : Mod) (a : Nat) (v : Word) (be : BitVec 4) : Mod :=
  hostWrite m a be fun m =>
    let vec := (a - 0x3F0000) / 16
    match a % 16 with
    | 0 => setReg m a (v &&& 0xFFFFFFFC)
    | 12 =>
      let m := setReg m a (v &&& 1)
      if v.getLsbD 0 = false ∧ pbaBit m vec then msixSend (setPba m vec false) vec else m
    | _ => setReg m a v

/-- MSIX_VECTOR_UNMASK. -/
def msixUnmask (m : Mod) (vec : Nat) : Mod := msixWrite m (msixEntry vec + 12) 0 15

/-! ## Writes -/

/-- A write of a register by its row: bits that change at once, and shadowed bits into the shadow copy (R525, R531). -/
def plainWrite (m : Mod) (r : RegRow) (v : Word) : Mod :=
  let live := BitVec.ofNat 32 r.live
  let sh := BitVec.ofNat 32 r.shadow
  let m := if r.live = 0 ∨ r.wo then m else setReg m r.off ((v &&& live) ||| (reg m r.off &&& ~~~live))
  let m := if r.shadow = 0 then m else setShadow m r.off ((v &&& sh) ||| (shadowReg m r.off &&& ~~~sh))
  recheckAll m r.off

/-- PE_SGRP_REQ: a settings-group request (R145). -/
def sgrpReq (m : Mod) (v : Word) (be : BitVec 4) : Mod :=
  guardedWrite m Reg.PE_SGRP_REQ be fun m =>
    groupRequest m (bitsOf v.toNat 9 8) (bitsOf v.toNat 3 0)

/-- SV_BLOCK, guarded (R172). -/
def svBlockWrite (m : Mod) (v : Word) (be : BitVec 4) : Mod := guardedWrite m Reg.SV_BLOCK be fun m => svBlock m v

/-- EVR_RD_CMD. -/
def evrRdWrite (m : Mod) (v : Word) (be : BitVec 4) : Mod := hostWrite m Reg.EVR_RD_CMD be fun m => evrReadCmd m v

/-- MTR_PT_CMD: the operation of its OP field; any other is refused (R450). -/
def ptCmdWrite (m : Mod) (v : Word) (be : BitVec 4) : Mod :=
  let pt := v.toNat % 256
  match bitsOf v.toNat 31 28 with
  | 1 => mtrClearTest m pt be
  | 2 => mtrClearService m pt be
  | 3 => mtrClearWrap m pt be
  | 4 => mtrClearOver m pt be
  | _ => guardedWrite m Reg.MTR_PT_CMD be fun m => ptRefuse (setReg m Reg.MTR_PT_CMD (v &&& 0xF00000FF)) pt false

/-- The registers whose write is an operation of their own. -/
def opWrite (m : Mod) (mem : Mem) (a : Nat) (v : Word) (be : BitVec 4) : Option Mod :=
  if a = Reg.HOST_STROBE then some (hostStrobe m v be)
  else if a = Reg.KPR_DOORBELL then some (hostWrite m a be fun m => doorbell m v)
  else if a = Reg.PE_SGRP_REQ then some (sgrpReq m v be)
  else if a = Reg.SV_BLOCK then some (svBlockWrite m v be)
  else if a = Reg.BSN_IN_BLOCK then some (bsnInBlock m v be)
  else if a = Reg.WAD_ALM_ACK then some (wadAlmAck m v be)
  else if a = Reg.OUT_UNIT then some (outUnitWrite m v be)
  else if a = Reg.OUT_EPOCH_SET then some (outEpochSet m v be)
  else if a = Reg.PTP_UTC then some (ptpUtcWrite m v be)
  else if a = Reg.PTP_SET_CMD then some (ptpSetCmd m v be)
  else if a = Reg.PTP_FREQ then some (ptpFreqWrite m v be)
  else if a = Reg.REC_ARM then some (recArm m v be)
  else if a = Reg.MTR_PT_CMD then some (ptCmdWrite m v be)
  else if a = Reg.MTR_SAVE_CMD then some (mtrSaveCmd m v be)
  else if a = Reg.MTR_LOG_ACK then some (mtrLogAck m v be)
  else if a = Reg.EVR_RD_CMD then some (evrRdWrite m v be)
  else if a = Reg.KEY_SEAL_CMD then some (keySealCmd m v be)
  else if a = Reg.HLTH_RECOVER then some (hlthRecover m v be)
  else if a % 0x10000 = 0xC ∧ srcOf a < 0x12 ∧ srcOf a ≠ 0xA ∨ a = Reg.MAC_KEYGATE then some (keygateWrite m (srcOf a) v be)
  else (nth a (Reg.HOST_SGRP 0) 4 3).map (fun n => sgrpWrite m n v be)
    <|> (boxes.find? fun b => boxSel b == a).map (fun b => mboxSel m b v be)
    <|> (nth a (Reg.REC_MANUAL 0) 4 2).map (fun n => recManual m n v be)
    <|> (nth a (Reg.DMA_CH_CHAIN 0) 0x20 16).map (fun n => dmaChain m n v be false)
    <|> (nth a (Reg.DMA_CH_CMD 0) 0x20 16).map (fun n => dmaCmd m n v be false)
    <|> (nth a (Reg.CMP_L_BASE 0) 0x40 4).map (fun n => laneBaseSize m n false v be)
    <|> (nth a (Reg.CMP_L_SIZE 0) 0x40 4).map (fun n => laneBaseSize m n true v be)
    <|> (nth a (Reg.CMP_L_TAIL 0) 0x40 4).map (fun n => cmpRingTail m mem n v be false)
    <|> ringWrite
where
  /-- The twelve registers of the MAC rings. -/
  ringWrite : Option Mod :=
    (List.range 8).findSome? fun r =>
      if a = ringBase r then some (ringBaseSizeWrite m r false v be)
      else if a = ringSz r then some (ringBaseSizeWrite m r true v be)
      else if a = ringTail r then some (hostRxTail m r v be)
      else none

/-- A host write of one dword (R525): RWB bytes, a guarded register through its gate, a Keeper channel's configuration refused
(R392), any other register by its row; ignored in a block that does not run. -/
def hostRegWrite (m : Mod) (mem : Mem) (addr : Nat) (v : Word) (be : BitVec 4) : Mod :=
  let a := addr / 4 * 4
  if be = 0 then m
  else if !implemented a then reservedAccess m a true
  else if !blockUp m (srcOf a) then m
  else if isReq a then kprReqWrite m (a - 0x11000) v be
  else if isMsix a then msixWrite m a v be
  else match opWrite m mem a v be with
    | some m => m
    | none =>
      match regRow? a with
      | none => hostWrite m a be id
      | some r =>
        if r.guarded then guardedWrite m a be fun m => plainWrite m r v
        else hostWrite m a be fun m =>
          match nth a (Reg.DMA_CH_CFG 0) 0x20 16 with
          | some n => if keeperChan n then setFault m Reg.DMA_FAULT 5 n else plainWrite m r v
          | none => plainWrite m r v

/-- A register write that has a row of its own, in a block that runs. -/
def inRunning (m : Mod) (b : Nat) (f : Mod → Mod) : Mod := if blockUp m b then f m else m

/-- RING_INT_HOLDOFF_EXPIRY is `ringHoldExpiry`; EVR_RD_DATA15_READ clears VALID of the read buffer (R462). -/
def rdData15 (m : Mod) (be : BitVec 4) : Mod := hostRead m (Reg.EVR_RD_DATA 15) be

end Sys2Proof.Machine
end

