-- ==== Sys2Proof/Machine/KeeperCmd.lean ====
section
/-!
DEFINITION. The remaining commands of Keeper's mailbox (R488): status, statistics, names, files, modes, the dispatcher snapshot and
the commands of the key store.
-/
namespace Sys2Proof.Machine

/-! ## STATUS, STATS, NAME_LOOKUP (R488, R489, R498) -/

/-- Codes of the Test axis (R488) and of the seal (MTR_STAT.SEAL). -/
def testCode : TestVal → Nat
  | .off => 0 | .test => 1 | .testBlocked => 2 | .simulation => 3
def sealCode : SealState → Nat
  | .notFitted => 0 | .unsealed => 1 | .sealed => 2 | .broken => 3

/-- STATUS. -/
def statusCmd (m : Mod) (rq : KReq) : Mod :=
  keeperAsk m rq 0x0001 1 0 [] fun m =>
    let id (p : Nat) : Nat := if (partOf m p).state = .absent then 0 else (imageOf m p).imageId
    let head := [partCode (partOf m 0).state, partCode (partOf m 1).state, partCode (partOf m 2).state, partCode (partOf m 3).state,
      roleCode m.mode.role, timeModeCode m.clk.mode, testCode m.mode.test, sealCode (sealState m), m.kpr.shed,
      if m.img.staged.isSome then 1 else 0, commitStep m, m.img.result]
    { result := 0, data := head.map (fun n => BitVec.ofNat 8 n) ++ ((List.range 4).map fun p => leBytes 16 (id p)).flatten }

/-- The registers of a block that count (R530): cleared by a read, all 32 bits; DMA_DONE, CMP_DONE and the two largest-value
registers are no counters. -/
def isCounter (r : RegRow) : Bool :=
  r.rc == 0xFFFFFFFF && r.off != Reg.DMA_DONE && r.off != Reg.CMP_DONE && r.off != Reg.OUT_COPY_MAX
    && (nth r.off (Reg.MAC_PBUF_MAX 0) 0x1000 8).isNone

/-- The object of a counter that stands once per port, channel, lane or cluster. -/
def counterPlace (off : Nat) : Option Nat :=
  match srcOf off with
  | 3 => nth off (Reg.PE_CL_ECC 0) 4 16
  | 9 => nth off (Reg.PTP_PTSQ_DROP 0) 16 8
  | 0xA => if off % 0x10000 < 0x8000 then some (off % 0x10000 / 0x1000) else none
  | 0xC => if 0xC0100 ≤ off then some ((off - 0xC0100) / 0x20) else none
  | 0xD => if 0xD0100 ≤ off then some ((off - 0xD0100) / 0x40) else none
  | _ => none

/-- The counters of a block for an object, as offset and bank object: those of the object, and those that belong to none. -/
def statRows (b obj : Nat) : List (Nat × Nat) :=
  ((windowRows b).filter isCounter).filterMap fun r =>
    match counterPlace r.off, selector r.off with
    | some n, _ => if n = obj then some (r.off, 0) else none
    | none, some _ => some (r.off, obj)
    | none, none => some (r.off, 0)

/-- STATS: the counters, cleared as a register read clears them. -/
def statsCmd (m : Mod) (rq : KReq) (b obj : Nat) : Mod :=
  keeperCmd m rq 0x0002 3 b (leBytes 4 b ++ leBytes 4 obj) fun m =>
    if 0x12 ≤ b then (m, answer 0x0E)
    else
      let rows := statRows b obj
      let data := (rows.map fun r => leBytes 4 (regO m r.1 r.2).toNat).flatten
      (rows.foldl (fun m r => setRegO m r.1 r.2 0) m, { result := 0, data := data })

/-- NAME_LOOKUP: the first loaded partition's entry of the kind and number. -/
def nameLookup (m : Mod) (rq : KReq) (kind num : Nat) : Mod :=
  keeperAsk m rq 0x0003 1 num (leBytes 4 kind ++ leBytes 4 num) fun m =>
    if kind = 0 ∨ 9 < kind then answer 0x0E
    else match ([0, 1, 2, 3].map fun p => (imageOf m p).names).flatten.find? fun x => x.1 == kind && x.2.1 == num with
      | some x => { result := 0, data := x.2.2 ++ [0] }
      | none => answer 0x0F

/-- FILE_READ: bytes of a file into BAR2; answers how many were copied. -/
def fileRead (m : Mod) (rq : KReq) (handle off len dst : Nat) : Mod × List MemWrite :=
  keeperCmdMem m rq 0x0004 1 handle (leBytes 4 handle ++ leBytes 4 off ++ leBytes 4 len) fun m =>
    if 2 ^ 32 < dst + len then (m, answer 0x0E, [])
    else match m.kpr.files.lookup handle with
      | none => (m, answer 0x0F, [])
      | some f =>
        let b := (f.data.drop off).take len
        (m, { result := 0, data := leBytes 4 b.length }, if b.isEmpty then [] else [toDram dst b])

/-! ## The mode axes (R64 to R71) -/

/-- ROLE_SET: the role takes effect at the protection partition's boundary; the unit takes its OUT_UNIT (R275). -/
def roleSet (m : Mod) (rq : KReq) (r : Role) : Mod :=
  keeperCmd m rq 0x0030 0 (roleCode r) [] fun m =>
    match roleCheck m (roleLeft m) r with
    | (0, _) => ({ modO m (fun o => { o with unit := (reg m Reg.OUT_UNIT).toNat }) with
        mode := { m.mode with pendRole := some r, pendFrom := m.mode.role } }, answer 0)
    | (c, clash) => (if clash then setFault m Reg.OUT_FAULT 10 else m, answer c)

/-- TIME_MODE: takes effect at the next 1PPS edge; holdover is selected only from PTP slave or boundary (R66). -/
def timeModeCmd (m : Mod) (rq : KReq) (t : TimeMode) : Mod :=
  keeperCmd m rq 0x0031 0 (timeModeCode t) [] fun m =>
    let left := m.clk.pendMode.getD m.clk.mode
    if t = .holdover ∧ left ≠ .slave ∧ left ≠ .boundary then (m, answer 0x21)
    else ({ m with clk := { m.clk with pendMode := some t } }, answer 0)

/-- TEST_MODE: takes effect at each Live partition's boundary; a Standby or Referee keeps the Active's value (R65, R69 I4). -/
def testModeCmd (m : Mod) (rq : KReq) (v : TestVal) : Mod :=
  keeperCmd m rq 0x0032 0 (testCode v) [] fun m =>
    if (match activeTest m (roleLeft m) with | some t => t != v | none => false) then (m, answer 0x21)
    else
      let mode := { m.mode with test := v, pendTest := [0, 1, 2, 3].foldl (fun l k => tabSet l k (some v)) m.mode.pendTest }
      ({ m with mode := mode }, answer 0)

/-- COMPAT_SET: for the next device reset (R528). -/
def compatSet (m : Mod) (rq : KReq) (vz20 : Bool) : Mod :=
  keeperCmd m rq 0x0033 0 (if vz20 then 1 else 0) [] fun m => ({ m with mode := { m.mode with vz20Next := vz20 } }, answer 0)

/-! ## TD_SNAPSHOT (R114) -/

/-- Payload words of a snapshot record: type, low, high. -/
def snapVal (v : Val) : List Nat := [valType v, (valWords v).1, (valWords v).2]

/-- The frozen dispatcher state of a partition as records: type and fields; the ticks that were left to a delay entry at the halt
point (R112). DESIGN CHOICE (log 360): a flow that has retired no task since the start shows next tag and FLOW_SEQ 0. -/
def snapRecs (m : Mod) (p : Nat) : List (Nat × List Nat) :=
  let own (t : Nat) : Bool := match template m t with
    | some x => tmplPart x == p
    | none => false
  let slots := m.td.slots.filterMap fun s => s.2.bind fun x =>
    if own x.tok.tmpl then some (1, [x.tok.tmpl, x.tok.op, x.tok.tag, x.tok.stream, x.tok.q.toNat] ++ snapVal x.tok.val) else none
  let sticky := (m.td.sticky.filter fun s => own (s.1 / 8)).flatMap fun s =>
    s.2.map fun v => (2, [s.1 / 8, s.1 % 8, v.etag, v.q.toNat] ++ snapVal v.val)
  let ks := m.td.tasks.filter fun k => own k.tmpl
  let st (k : Task) : Nat := match k.state with
    | .ready | .executing => 0 | .held => 1 | .done => 2
  let tasks := ks.map fun k => (3, [k.tmpl, k.tag, st k, k.cluster, k.retries])
  let held := ks.flatMap fun k => match k.result with
    | some r => if k.committed then k.routes.map fun i => (4, [k.tmpl, k.tag, i, r.q.toNat] ++ snapVal r.val) else []
    | none => []
  let flows := ((imageOf m p).flows.map (·.1)).map fun f =>
    let s := tabGet m.td.flows f
    (5, [f, s.nextTag.getD 0, s.nextSeq, if s.quar.isSome then 1 else 0])
  let delays := (m.td.delays.filter fun d => own d.target).map fun d =>
    let tick := max 1 (delayTick m d.list)
    (6, [d.list, d.target, d.op, d.tag, d.etag, ceilDiv (d.due - (partOf m p).haltAt) tick])
  let quar := m.td.quar.filterMap fun q => q.2.bind fun t => if own q.1 then some (7, [q.1, t]) else none
  slots ++ sticky ++ tasks ++ held ++ flows ++ delays ++ quar

/-- The snapshot file: 32-byte records, the last with their count and CRC-32C. -/
def snapFile (m : Mod) (p : Nat) : Bytes :=
  let recs := snapRecs m p
  let b := (recs.map fun r => leBytes 1 r.1 ++ (Config.snapBytes r.1 r.2).toList).flatten
  b ++ leBytes 1 0xFF ++ (Config.snapBytes 0xFF [recs.length, crc32c b]).toList

/-- TD_SNAPSHOT: refused unless the partition is Halted. -/
def tdSnapshot (m : Mod) (rq : KReq) (p : Nat) : Mod :=
  keeperCmd m rq 0x0040 1 p [] fun m =>
    if 4 ≤ p then (m, answer 0x0E)
    else if (partOf m p).state ≠ .halted then (m, answer 0x0B)
    else
      let b := snapFile m p
      let (h, m) := newFile m 1 b
      (m, { result := 0, data := leBytes 4 h ++ leBytes 8 b.length })

/-! ## Commands of the key store (R469 to R472) -/

/-- Slots that the KEY fields of the loaded partitions name (R472). -/
def namedSlots (m : Mod) : List Nat :=
  let u := loadedUni m
  u.subs.filterMap (fun s => if s.2.auth then some s.2.key else none)
    ++ u.pubs.filterMap (fun x => if x.2.auth then some x.2.key else none)
    ++ u.gsubs.filterMap (fun x => if x.2.auth then some x.2.key else none)
    ++ (u.img 1).ins.filterMap (fun x => if x.2.transport = 2 then some x.2.key else none)
    ++ (if (u.img 1).wad.fedPorts = 0 then [] else [(u.img 1).wad.fedKey])
    ++ (if (u.img 0).outHdr.refPorts = 0 then [] else [(u.img 0).outHdr.refKey])

/-- The slot is the metering-seal slot of a seal that is Sealed. -/
def isSealSlot (m : Mod) (i : Nat) : Bool := sealState m == .sealed && m.mtr.sealSlot == some i

def keyCommissionCmd (m : Mod) (rq : KReq) (sig : Bytes) : Mod := keeperCmd m rq 0x0070 0 0 [] fun m => keyCommission m sig
def keyCloseCmd (m : Mod) (rq : KReq) : Mod := keeperCmd m rq 0x0071 0 0 [] keyClose

/-- KEY_LOAD: slot, POLICY, TYPE, KID, material and authenticator; whether its backup reads back (R470, R471). -/
def keyLoadCmd (m : Mod) (rq : KReq) (slot policy type kid : Nat) (mat auth : Bytes) (backupOk : Bool) : Mod :=
  keeperCmd m rq 0x0072 0 slot (leBytes 4 policy ++ leBytes 4 type ++ leBytes 4 kid) fun m =>
    if 256 ≤ slot then (m, answer 0x0E) else keyLoad m slot policy type kid mat auth backupOk

def keyCommitCmd (m : Mod) (rq : KReq) (slot : Nat) : Mod :=
  keeperCmd m rq 0x0073 0 slot [] fun m =>
    if 256 ≤ slot then (m, answer 0x0E) else keyCommit m slot (isSealSlot m slot) ((namedSlots m).contains slot)

def keyEraseCmd (m : Mod) (rq : KReq) (slot : Nat) : Mod :=
  keeperCmd m rq 0x0074 0 slot [] fun m =>
    if 256 ≤ slot then (m, answer 0x0E) else keyErase m slot (isSealSlot m slot) ((namedSlots m).contains slot)

/-- KEY_SIGN_LOG: slot, first SEQ and count. -/
def keySignLogCmd (m : Mod) (rq : KReq) (slot first count : Nat) : Mod :=
  keeperCmd m rq 0x0075 0 slot (leBytes 8 first ++ leBytes 4 count) fun m =>
    if 256 ≤ slot then (m, answer 0x0E) else keySignLog m slot first count

end Sys2Proof.Machine
end

