-- ==== Sys2Proof/Machine/Power.lean ====
section
/-!
DEFINITION. Power (R438, R495, R513, R545, R547): the supply failing and returning, the PCIe link, and the pins that follow the
module's state (R553, R554).
-/
namespace Sys2Proof.Machine

/-! ## Supply failure (R296, R438) -/

/-- PWR_CYCLE_REQ_N is released, where it is held (R513). -/
def releaseReq (m : Mod) : Mod :=
  if m.hlth.pwrReq then emit (modHlth m fun h => { h with pwrReq := false }) (.powerCycleReq false) else m

/-- The supply is gone: every island stops; what MRAM, NAND and the battery domain hold stays. -/
def supplyLost (m : Mod) : Mod :=
  let m := resetIslands m
  let cause := if m.hlth.pwrReq then 1 else 0
  let m := stopTimer m .powerCycle 0
  let evr := { m.evr with queue := [], lostGap := 0, lostFirst := 0 }
  let m := { m with timers := [], evr := evr, host := { m.host with linkUp := false } }
  modHlth m fun h => { h with power := .off, stage := 0, stopCause := cause, wipe := true }

/-- A last-gasp save that is armed: accumulators frozen, pulse outputs inactive, FAULT from an Active, the copy's write begun;
then the module draws no more (R438). -/
def lastGasp (m : Mod) (trig : Bool) : Mod :=
  if !m.mtr.holdOk then m else lastGaspSave m trig

/-- PFAIL_N_ASSERT: PFAIL_N low for 2 µs. A PWR_CYCLE_REQ_N that is held stays so until the input falls (R513, R563). -/
def pfailAssert (m : Mod) : Mod :=
  if m.hlth.power = .off then m
  else
    let m := leaveActive m 2
    if m.mtr.holdOk then supplyLost (lastGasp m false) else m

/-- INPUT_UNDERVOLTAGE: the input below 5.5 V for 10 µs. -/
def inputUndervoltage (m : Mod) : Mod :=
  if m.hlth.power = .off then releaseReq m
  else releaseReq (supplyLost (lastGasp (if m.mtr.holdOk then leaveActive m 2 else m) true))

/-! ## Power good (R495) -/

/-- Registers whose values Keeper and the health block retain without supply. -/
def retainedRow (off : Nat) : Bool :=
  off == Reg.OUT_UNIT || off == Reg.OUT_EPOCH || off == Reg.OUT_REVERT || off == Reg.HLTH_PREDICT
    || (List.range 16).any (fun c => off == Reg.PE_CL_CLK c || off == Reg.HLTH_CL_MARGIN c)
    || (List.range 10).any fun i => off == Reg.HLTH_IS_MARGIN i

/-- A Commissioning store's 600 s start again (log 210). -/
def keyTimers (m : Mod) : Mod :=
  if m.key.store = .commissioning then startTimer m .commissioning 0 (secs 600) else m

/-- POWER_GOOD: step 1 of the start sequence; step 2 begins. -/
def powerGood (m : Mod) : Mod :=
  if m.hlth.power ≠ .off then m
  else
    let op := opTime m
    let m := clockPowerOn (releaseReq m)
    let m := { m with
      regs := m.regs.filter fun r => retainedRow r.1
      shadow := [], timers := [], host := {}, kpr := { opBase := op, pcyc := m.kpr.pcyc } }
    let h := m.hlth
    let m := { m with hlth := {
      power := if h.thermal = 3 then .thermalStop else .on
      stage := if h.thermal = 3 then 0 else 2
      stopCause := h.stopCause, rung4At := h.rung4At, readings := h.readings
      thermal := h.thermal, plate := h.plate, junctions := h.junctions } }
    keyTimers (startTimer m .holdLow 0 (secs 10))

/-- HOLD_LOW_CHECK: 10 s after power good (R545). -/
def holdLowCheck (m : Mod) : Mod :=
  expire m .holdLow 0 fun m => if m.mtr.holdOk then m else setFault m Reg.MTR_FAULT 5

/-! ## The PCIe link (R519, R522) -/

/-- PCIE_RESET: a conventional reset, a hot reset or a link-down event: the link is down and the MSI-X table at its reset values. -/
def pcieReset (m : Mod) : Mod :=
  let m := (List.range 256).foldl (fun m k => setReg m (0x3F0000 + 4 * k) (regReset (0x3F0000 + 4 * k))) m
  { m with host := { m.host with linkUp := false, linkGen := 0, linkWidth := 0, aerAbort := false } }

/-- PCIE_LINK_TRAINED at a generation and width. -/
def pcieTrained (m : Mod) (gen width : Nat) : Mod :=
  let m := { m with host := { m.host with linkUp := true, linkGen := gen, linkWidth := width } }
  if gen < 4 ∨ width < 4 then setFault m Reg.HOST_FAULT 1 else m

/-! ## Pins (R553, R554) -/

/-- PPS_OUT is high for 100 ms from each 1PPS edge of the local clock, low while TOD_VALID is clear. -/
def ppsOut (m : Mod) : Bool := m.hlth.power != .off && clkTod m.clk && decide (m.clk.ns < 100000000)

/-- LED_RUN: every loaded partition is Live. -/
def ledRun (m : Mod) : Bool :=
  powered m && (List.range 4).any (isLive m) && (List.range 4).all fun p => (partOf m p).state == .absent || isLive m p

/-- LED_FAULT: an HLTH_ALARM bit is set, or BOOTFAIL. -/
def ledFault (m : Mod) : Bool := m.hlth.power != .off && (hlthAlarm m != 0 || m.kpr.bootFail)

/-- LED_ROLE and LED_TIME. -/
def ledRole (m : Mod) : Bool := m.hlth.power != .off && m.out.claiming
def ledTime (m : Mod) : Bool := m.hlth.power != .off && clkLocked m.clk

/-- PWR_CYCLE_REQ_N is asserted, and the level of pulse output `o`. -/
def pwrCycleReq (m : Mod) : Bool := m.hlth.pwrReq
def pulsePin (m : Mod) (o : Nat) : Bool := m.hlth.power != .off && tabGet m.mtr.pulsing o

end Sys2Proof.Machine
end

