-- ==== Sys2Proof/Machine/Settle.lean ====
section
/-!
DEFINITION. What follows a command in the same instant: the actions of output primitives and cycle boundaries that the dispatcher
asks for, the metrological log of a sealed module, and steps that waited for what the command changed.
-/
namespace Sys2Proof.Machine

/-! ## What the dispatcher asks for -/

/-- EVENT_WRITE at retire: a class-7 event on a rise of its condition (R454). -/
def actEvent (m : Mod) (t : Template) (k : Task) : Mod :=
  if outEdge m t k ≠ 1 then m
  else
    let code := (paramsFor m t k.tag).getD 0 0
    let words := (List.range 5).map fun i => match k.ops[i + 1]? with
      | some o => (valWords o.val).1
      | none => 0
    originEvent m (taskOrigin m t k) 7 (code % 4096) (words.map (leBytes 4)).flatten

/-- The action of a task at its retire, by primitive (R141, R151, R152). -/
def actHook (m : Mod) (t : Template) (k : Task) : Mod :=
  let m := noteVector m t k
  match t.prim with
  | 64 => actPub m t k
  | 65 => actStage m t k
  | 66 => boundary (closeCycle m k.tag) 0 k.tag
  | 67 => actRec m t k
  | 68 => actAlarm m t k
  | 69 => actMeter m t k
  | 70 => actPmu m t k
  | 71 => actEvent m t k
  | _ => m

/-- The hooks of the dispatcher. -/
def hooks : Hooks := ⟨actHook, boundary⟩

/-! ## The metrological log of a sealed module (R444, R445) -/

/-- Entries for what a command did while the seal is Sealed or Broken; `pre` is the module before it. -/
def sealWatch (pre m : Mod) : Mod :=
  if !sealLogs m then m
  else
    let m := if sealState m = .broken ∧ sealState pre ≠ .broken then mtrLogFree (setFault m Reg.MTR_FAULT 6) 0x04 0xFF [] else m
    let m := if clkLocked pre.clk ≠ clkLocked m.clk then mtrLogFree m 0x0F 0xFF [0, if clkLocked m.clk then 1 else 0] else m
    let m := if (reg pre Reg.PTP_CNT_STEP).toNat < (reg m Reg.PTP_CNT_STEP).toNat then mtrLogFree m 0x0F 0xFF [1] else m
    let m := if pre.clk.leapAt ≠ m.clk.leapAt then mtrLogFree m 0x0F 0xFF [2] else m
    let old := tabGet pre.pe.pend 2
    let m := match (tabGet m.pe.pend 2).getLast? with
      | some x => if old.length < (tabGet m.pe.pend 2).length then logConfig m 0 0xFF x.2 else m
      | none => m
    let m := (imageOf m 2).groups.foldl (fun m g =>
      match (groupSt pre g.1).pending, (groupSt m g.1).pending with
      | none, some pal => logConfig m 1 0xFF (g.1 * 2 + pal)
      | _, _ => m) m
    let m := (imageOf m 2).subs.foldl (fun m s =>
      if (stream pre s.1).blocks ≠ (stream m s.1).blocks then logConfig m 2 0xFF s.1 else m) m
    let m := if (partOf pre 2).next.isNone ∧ (partOf m 2).next.isSome then logConfig m 6 0xFF 0 else m
    let t := tabGet m.mode.partTest 2
    if tabGet pre.mode.partTest 2 ≠ t then mtrLogFree m 0x0E 0xFF [testCode (tabGet pre.mode.partTest 2), testCode t] else m

/-! ## Steps that waited -/

/-- What follows a command at once: the metrological log, a rung 2 that the hardware asked for, a commit, a planned clock or a
partition that waited for what the command changed. -/
def settle (pre m : Mod) : Mod :=
  settleThermal (settleClocks (settleShed (settleCommit (settleRung2 (sealWatch pre m)))))

/-- DRAM after a command: empty where the command lost it (R510). -/
def settleMem (m : Mod) (mem : Mem) : Mem := if m.hlth.wipe then { mem with dram := [] } else mem
def settled (m : Mod) : Mod := if m.hlth.wipe then modHlth m fun h => { h with wipe := false } else m

/-! ## Composite commands -/

/-- FILTER_LANE_SAMPLE: the array processes the sample; recording and power quality take what it gave (R174, R366, R429). -/
def laneSample (m : Mod) : Mod :=
  match filterSample (fltPoint m) with
  | (m, some x, fresh) => pqSample (recSample m x fresh) x fresh
  | (m, none, _) => m

end Sys2Proof.Machine
end

