-- ==== Sys2Proof/Machine/Run.lean ====
section
/-!
DEFINITION. How an effect on the module becomes a command's outcome: nothing happens in a module without supply, memory takes
the writes, and what follows at once follows (`settle`).
-/
namespace Sys2Proof.Machine

/-- The outcome of a command. -/
abbrev Done := Host.Outcome State Fault Refusal

/-- An effect of a supplied module; without supply only the battery domain and MRAM hold, and nothing happens (log 1). -/
def onSupply (f : Mod → Mod) (m : Mod) : Mod := if m.hlth.power = .off then m else f m

/-- An effect on a module, supplied or not. -/
def runRaw (s : State) (f : Mod → Mod) : Done := .next { s with m := f s.m }

/-- An effect on a supplied module. -/
def runM (s : State) (f : Mod → Mod) : Done := runRaw s (onSupply f)

/-- The state after an effect and what follows it at once. -/
def settleState (s : State) (m : Mod) : State :=
  { s with m := settled (settle s.m m), mem := settleMem (settle s.m m) s.mem }

/-- An effect that others may follow, on a module supplied or not. -/
def runSupply (s : State) (f : Mod → Mod) : Done := .next (settleState s (f s.m))

/-- An effect on a supplied module that others may follow. -/
def runS (s : State) (f : Mod → Mod) : Done := if s.m.hlth.power = .off then .next s else runSupply s f

/-- An effect on a supplied module and its memories. -/
def runW (s : State) (f : Mod → Mod × List MemWrite) : Done :=
  if s.m.hlth.power = .off then .next s else .next { s with m := (f s.m).1, mem := memWrites s.mem (f s.m).2 }

end Sys2Proof.Machine
end

