-- ==== Sys2Proof/Machine/CmdBasin.lean ====
section
/-!
DEFINITION. Meanings of the phasor, alarm and federation commands.
-/
namespace Sys2Proof.Machine

/-- PMU_FRAME_RECEIVED (R207): The PMU frame parser stores a UDP or IEC 61850-90-5 frame's members for each output it
feeds. -/
def execPmuFrameReceived (port : Nat) (s : State) : Done := runM s fun m => pmuReceived m port

/-- PMU_TCP_FRAME (R207): Keeper terminates a C37.118.2 TCP frame and writes its members through the parser interface. -/
def execPmuTcpFrame (input : Nat) (frame : PmuFrame) (s : State) : Done := runM s fun m => pmuTcpFrame m input frame

/-- PMU_TCP_RECONNECT (R201): Every 5 s a disconnected TCP input is reconnected, requesting CFG-2 and sending turn on. -/
def execPmuTcpReconnect (input : Nat) (ok : Bool) (s : State) : Done := runM s fun m => pmuTcpReconnect m input ok

/-- PMU_TCP_DOWN (R208): A TCP input's connection drops and TCP_DOWN sets. -/
def execPmuTcpDown (input : Nat) (s : State) : Done := runM s fun m => pmuTcpDown m input

/-- PMU_INPUT_LOST (R208): No frame of an input for 1 s puts it in the lost state. -/
def execPmuInputLost (input : Nat) (s : State) : Done := runM s fun m => pmuInputLost m input

/-- C37_COMMAND_FRAME (R201): A command frame at an output's or alarm stream's command port is answered by Keeper. -/
def execC37CommandFrame (port : Nat) (s : State) : Done := runM s fun m => c37Command m port

/-- SLUICE_RELEASE (R210): A set is released when complete after its predecessor, or at its deadline; tokens and frame
follow. -/
def execSluiceRelease (out : Nat) (s : State) : Done := runS s fun m => sluiceRelease hooks m out

/-- SLUICE_RELEASE_RESUME (R214): A release paused by back-pressure resumes token delivery. -/
def execSluiceReleaseResume (out : Nat) (s : State) : Done := runS s fun m => sluiceResume m out

/-- CONFIG_CHANGE_FLAG_EXPIRY (R218): An output's configuration-change flag clears 60 s after it went Live with a changed
CFG-2. -/
def execConfigChangeFlagExpiry (out : Nat) (s : State) : Done := runM s fun m => cfgChangeExpiry m out

/-- BSN_IN_BLOCK (R226): A BSN_IN_BLOCK write blocks or unblocks an input from the next release decision. -/
def execBsnInBlock (v : Word) (be : BitVec 4) (s : State) : Done :=
  runM s fun m => inRunning m (srcOf Reg.BSN_IN_BLOCK) fun m => bsnInBlock m v be

/-- WAD_ALM_ACK (R243): A write acknowledging an alarm clears a latched alarm or sets ACKED, or is refused. -/
def execWadAlmAck (v : Word) (be : BitVec 4) (s : State) : Done :=
  runM s fun m => inRunning m (srcOf Reg.WAD_ALM_ACK) fun m => wadAlmAck m v be

/-- ALARM_STREAM_SECOND (R248): At each whole TAI second a C37.118.2 alarm frame is sent. -/
def execAlarmStreamSecond (s : State) : Done := runM s fun m => alarmSecond m

/-- FEDERATION_MESSAGE_RECEIVED (R252): A federation message is checked and accepted, forwarded, or discarded. -/
def execFederationMessageReceived (port : Nat) (s : State) : Done := runM s fun m => fedReceived m port

/-- FEDERATION_REPEAT (R251): A federation message is repeated 10 ms and 100 ms after the change. -/
def execFederationRepeat (alarm : Nat) (s : State) : Done := runM s fun m => fedRepeat m alarm

end Sys2Proof.Machine
end

