-- ==== Sys2Proof/Machine/CmdBox.lean ====
section
/-!
DEFINITION. Meanings of the wide-value mailbox commands.
-/
namespace Sys2Proof.Machine

/-- PTP_MBOX_SEL (R334): A PTP mailbox selection takes a snapshot of the coded value. -/
def execPtpMboxSel (v : Word) (be : BitVec 4) (s : State) : Done := runM s fun m => mboxSel m .ptp v be

/-- MTR_MBOX_SEL (R450): An MTR mailbox selection takes a snapshot of registers, times, PQ event or seal digest. -/
def execMtrMboxSel (v : Word) (be : BitVec 4) (s : State) : Done := runM s fun m => mboxSel m .mtr v be

/-- EVR_MBOX_SEL (R481): An EVR mailbox selection snapshots SEQ range, operating time or lost count. -/
def execEvrMboxSel (v : Word) (be : BitVec 4) (s : State) : Done := runM s fun m => mboxSel m .evr v be

/-- HOST_MBOX_SEL (R536): A HOST mailbox selection snapshots serial number or firmware identity. -/
def execHostMboxSel (v : Word) (be : BitVec 4) (s : State) : Done := runM s fun m => mboxSel m .host v be

/-- MBOX_DATA3_READ (R536): A read of a mailbox's DATA3 clears VALID and, for a timestamp entry, pops its queue. -/
def execMboxData3Read (box : WideBox) (be : BitVec 4) (s : State) : Done := runM s fun m => mboxData3 m box be

end Sys2Proof.Machine
end

