-- ==== Sys2Proof/Machine/CmdDispatch.lean ====
section
/-!
DEFINITION. Meanings of the dispatcher commands.
-/
namespace Sys2Proof.Machine

/-- TOKEN_MATCH (R83): One token reaches the match stage and enters its operand slot or is held. -/
def execTokenMatch (s : State) : Done := runS s fun m => tokenMatch hooks m

/-- HELD_TOKEN_ENTRY (R84): A token held at its producer enters its slot once the slot or in-flight count frees. -/
def execHeldTokenEntry (tmpl : Nat) (op : Nat) (s : State) : Done := runS s fun m => heldEntry m tmpl op

/-- PRECEDENCE_INTERVAL_END (R93): The 1 µs protection-precedence interval ends and the count of protection tasks
restarts. -/
def execPrecedenceIntervalEnd (s : State) : Done := runM s fun m => precedenceEnd m

/-- TASK_ISSUE (R90): A cluster issues a ready task to an idle eligible engine. -/
def execTaskIssue (cluster : Nat) (s : State) : Done := runM s fun m => taskIssue m cluster

/-- STEAL_DECISION (R103): An idle engine with no own ready task steals an aged stateless task from a ring neighbour. -/
def execStealDecision (cluster : Nat) (s : State) : Done := runM s fun m => stealDecision m cluster

/-- TASK_RETIRE (R91): A completed task retires in tag order: commits flow state, places results on routings, frees its
entry. -/
def execTaskRetire (tmpl : Nat) (tag : Nat) (s : State) : Done := runS s fun m => taskRetire hooks m tmpl tag

/-- DELAY_EXPIRY (R98): A delay entry reaches its expiry tick edge and is delivered to its sticky operand or leaves as a
cancellation. -/
def execDelayExpiry (list : Nat) (s : State) : Done := runS s fun m => delayExpiry m list

/-- TASK_FAULT (R96): An ECC, overrun or parity fault discards a task's results and re-issues it, quarantining after two
failed retries. -/
def execTaskFault (tmpl : Nat) (tag : Nat) (kind : TaskFaultKind) (s : State) : Done :=
  runS s fun m => taskFault m tmpl tag kind

end Sys2Proof.Machine
end

