-- ==== Sys2Proof/Machine/CmdDma.lean ====
section
/-!
DEFINITION. Meanings of the DMA and compression commands.
-/
namespace Sys2Proof.Machine

/-- DMA_CHAIN (R395): A CHAIN write queues a descriptor chain on a channel, or is refused. -/
def execDmaChain (ch : Nat) (v : Word) (be : BitVec 4) (byKeeper : Bool) (s : State) : Done :=
  runM s fun m => inRunning m (srcOf (Reg.DMA_CH_CHAIN ch)) fun m => dmaChain m ch v be byKeeper

/-- DMA_ABORT (R401): ABORT of a halted channel discards fetched descriptors and queued chains. -/
def execDmaAbort (ch : Nat) (v : Word) (be : BitVec 4) (byKeeper : Bool) (s : State) : Done :=
  runM s fun m => inRunning m (srcOf (Reg.DMA_CH_CMD ch)) fun m => dmaAbort m ch v be byKeeper

/-- DMA_RETRY (R401): RETRY of a halted channel re-executes from the faulting descriptor. -/
def execDmaRetry (ch : Nat) (v : Word) (be : BitVec 4) (byKeeper : Bool) (s : State) : Done :=
  runM s fun m => inRunning m (srcOf (Reg.DMA_CH_CMD ch)) fun m => dmaRetry m ch v be byKeeper

/-- DMA_DESCRIPTOR_COMPLETE (R397): A descriptor's writes complete, CRC is handled, status is written back with OWN
cleared. -/
def execDmaDescriptorComplete (ch : Nat) (meet : DmaMeet) (s : State) : Done :=
  runW s fun m => dmaComplete m s.mem ch meet

/-- DMA_TIMEOUT (R399): A host read without completion for 10 µs halts the channel with ERR 4. -/
def execDmaTimeout (ch : Nat) (done : Nat) (s : State) : Done := runW s fun m => dmaTimeout m s.mem ch done

/-- CMP_RING_TAIL (R403): A compression ring TAIL write hands jobs to a lane. -/
def execCmpRingTail (lane : Nat) (v : Word) (be : BitVec 4) (byKeeper : Bool) (s : State) : Done :=
  runM s fun m => inRunning m (srcOf (Reg.CMP_L_TAIL lane)) fun m => cmpRingTail m s.mem lane v be byKeeper

/-- CMP_JOB_COMPLETE (R412): A compression job ends with its CODE and writes back with OWN cleared. -/
def execCmpJobComplete (lane : Nat) (meet : CmpMeet) (s : State) : Done :=
  runW s fun m => cmpComplete m s.mem lane meet

/-- DMA_DESCRIPTOR_FETCH (R400): A channel fetches the next descriptor of a chain, counting a hop, and halts with ERR 8, 9
or 10 when the hop limit, OWN or NEXT forbids it. -/
def execDmaDescriptorFetch (ch : Nat) (s : State) : Done := runM s fun m => dmaFetch m s.mem ch

end Sys2Proof.Machine
end

