-- ==== Sys2Proof/Machine/CmdEvr.lean ====
section
/-!
DEFINITION. Meanings of the event-recorder and key-store timer commands.
-/
namespace Sys2Proof.Machine

/-- EVENT_COMMIT (R456): The event recorder commits a queued event as a new record or a merge, or a gap record. -/
def execEventCommit (s : State) : Done := runM s fun m => eventCommit m

/-- EVR_RD_CMD (R462): A GO write copies one record into the read buffer with its result. -/
def execEvrRdCmd (v : Word) (be : BitVec 4) (s : State) : Done :=
  runM s fun m => inRunning m (srcOf Reg.EVR_RD_CMD) fun m => evrRdWrite m v be

/-- COMMISSIONING_TIMEOUT (R469): 600 s after KEY_COMMISSION the store moves to Provisioned. -/
def execCommissioningTimeout (s : State) : Done := runM s fun m => commissioningTimeout m

/-- GRACE_EXPIRY (R471): The grace time of a policy-1 slot ends and the previous key is erased. -/
def execGraceExpiry (slot : Nat) (s : State) : Done := runM s fun m => graceExpiry m slot

/-- TAG_BACKGROUND_PASS (R466): The background pass checks a slot's integrity tag, making it Unusable on failure. -/
def execTagBackgroundPass (slot : Nat) (s : State) : Done := runM s fun m => tagPass m slot

/-- EVR_RD_DATA15_READ (R462): A read of EVR_RD_DATA15 clears EVR_RD_STAT.VALID. -/
def execEvrRdData15Read (be : BitVec 4) (s : State) : Done := runM s fun m => rdData15 m be

end Sys2Proof.Machine
end

