-- ==== Sys2Proof/Machine/CmdGoose.lean ====
section
/-!
DEFINITION. Meanings of the GOOSE commands.
-/
namespace Sys2Proof.Machine

/-- GOOSE_FRAME_RECEIVED (R264): A subscribed GOOSE frame is a repeat, retransmission or state change delivering sticky
tokens. -/
def execGooseFrameReceived (port : Nat) (s : State) : Done := runS s fun m => gooseReceived m port

/-- GOOSE_TAL_EXPIRY (R264): timeAllowedtoLive expires and members are delivered invalid with the subscription expired. -/
def execGooseTalExpiry (sub : Nat) (s : State) : Done := runM s fun m => gooseTalExpiry m sub

/-- GOOSE_RETRANSMIT (R262): A publication's retransmission interval runs out and the frame is sent again with sqNum
raised. -/
def execGooseRetransmit (pub : Nat) (s : State) : Done := runM s fun m => gooseRetransmit m pub

end Sys2Proof.Machine
end

