-- ==== Sys2Proof/Machine/CmdHealth.lean ====
section
/-!
DEFINITION. Meanings of the health, recovery and start commands.
-/
namespace Sys2Proof.Machine

/-- An HLTH_RECOVER value that names a rung and a partition (R518). -/
def recoverWord (rung part : Nat) : Word := BitVec.ofNat 32 (part + 256 * rung)

/-- POWER_CYCLE_TIMEOUT (R513): Input not fallen 2 s after PWR_CYCLE_REQ_N: the signal is released and rung 3 runs
instead. -/
def execPowerCycleTimeout (s : State) : Done := runS s fun m => powerCycleTimeout m

/-- HLTH_RECOVER_RUNG2 (R512): HLTH_RECOVER write naming rung 2 re-images a partition, refused while Keeper is not READY.
-/
def execHlthRecoverRung2 (part : Nat) (be : BitVec 4) (s : State) : Done :=
  runS s fun m => hlthRecover m (recoverWord 2 part) be

/-- HLTH_RECOVER_RUNG3 (R512): HLTH_RECOVER write naming rung 3 performs a device reset. -/
def execHlthRecoverRung3 (be : BitVec 4) (s : State) : Done := runS s fun m => hlthRecover m (recoverWord 3 0) be

/-- HLTH_RECOVER_RUNG4 (R512): HLTH_RECOVER write naming rung 4 requests a power cycle. -/
def execHlthRecoverRung4 (be : BitVec 4) (s : State) : Done := runS s fun m => hlthRecover m (recoverWord 4 0) be

/-- WATCHDOG_EXPIRY (R493): Keeper's 100 ms watchdog expires and resets the four cores and firmware state only. -/
def execWatchdogExpiry (s : State) : Done := runS s fun m => watchdogExpiry m

/-- KEEPER_RESTART_COMPLETE (R493): Restarted firmware sets READY and KPR_FAULT.RESTART. -/
def execKeeperRestartComplete (s : State) : Done := runS s fun m => keeperRestarted m

/-- KEEPER_READY_TIMEOUT (R512): A Keeper restart not READY within 15 s triggers rung 3. -/
def execKeeperReadyTimeout (s : State) : Done := runS s fun m => keeperReadyTimeout m

/-- SHED_LEVEL_UPDATE (R491): At the end of each second Keeper raises or lowers the shed level from core utilisation. -/
def execShedLevelUpdate (core0 : Nat) (core1 : Nat) (core2 : Nat) (core3 : Nat) (s : State) : Done :=
  runS s fun m => shedUpdate m core0 core1 core2 core3

/-- SCRUB_PASS (R499): A scrubber reads a memory word, writes back corrections and handles uncorrectable words. -/
def execScrubPass (word : ScrubWord) (find : ScrubFind) (s : State) : Done := runS s fun m => scrubPass m word find

/-- RESIDENT_SET_REWRITE (R500): Keeper rewrites an engine's resident parameters after PARAM_UE. -/
def execResidentSetRewrite (cluster : Nat) (engine : Nat) (part : Nat) (s : State) : Done :=
  runS s fun m => residentRewrite m cluster engine part

/-- PALETTE_REWRITE (R500): Keeper rewrites a Palette after COEF_UE. -/
def execPaletteRewrite (group : Nat) (s : State) : Done := runS s fun m => paletteRewrite m group

/-- SELFTEST_ROTATION_SLOT (R501): Each period Keeper selects the next testable cluster and drains it, or defers. -/
def execSelftestRotationSlot (s : State) : Done := runS s fun m => rotationSlot m

/-- CLUSTER_DRAINED (R106): A draining cluster's in-service tasks have retired; test or pending clock and voltage change
proceeds. -/
def execClusterDrained (cluster : Nat) (s : State) : Done := runS s fun m => clusterDrained m cluster

/-- CLUSTER_SELFTEST_COMPLETE (R502): A cluster's test ends; it returns to service or, after a failed retest, goes out of
service. -/
def execClusterSelftestComplete (cluster : Nat) (pass : Bool) (flowOk : Bool) (ms : Nat) (s : State) : Done :=
  runS s fun m => selfTestComplete m cluster pass flowOk ms

/-- AGEING_READING (R505): Daily reading of replicas forms slack and plans supply and clock changes per cluster. -/
def execAgeingReading (clusters : List Int) (islands : List Int) (s : State) : Done :=
  runS s fun m => ageingReading m clusters islands

/-- START_STEP_COMPLETE (R495): A step of the start sequence (firmware read, DRAM training, retained-state restore, start
self-test, partition load) finishes and the next step begins or its failure rule applies. -/
def execStartStepComplete (outcome : StepOutcome) (s : State) : Done := runS s fun m => startStep m outcome

/-- TEST_DRAIN_RETURN_TIMEOUT (R494): The health hardware returns a cluster drained for test to service 50 ms after the
drain began when Keeper has restarted. -/
def execTestDrainReturnTimeout (s : State) : Done := runS s fun m => testDrainReturn m

/-- RUNG3_START_STEP9_TIMEOUT (R512): A start after a device reset has not reached step 9 within 12 s; the second such
successive start triggers rung 4. -/
def execRung3StartStep9Timeout (s : State) : Done := runS s fun m => startStep9Timeout m

end Sys2Proof.Machine
end

