-- ==== Sys2Proof/Machine/CmdHost.lean ====
section
/-!
DEFINITION. Meanings of the host-interface commands.
-/
namespace Sys2Proof.Machine

/-- KEYGATE_WRITE (R535): A KEYGATE write opens the block's gate with the key or closes it and logs a wrong key. -/
def execKeygateWrite (block : Nat) (v : Word) (be : BitVec 4) (s : State) : Done :=
  runM s fun m => inRunning m block fun m => keygateWrite m block v be

/-- KEYGATE_RELOCK (R535): An open gate with no guarded write for 1 ms closes by itself. -/
def execKeygateRelock (block : Nat) (s : State) : Done := runM s fun m => keygateRelock m block

/-- HOST_STROBE (R532): A HOST_STROBE write sends update strobes to every block of the named groups. -/
def execHostStrobe (v : Word) (be : BitVec 4) (s : State) : Done := runM s fun m => hostStrobe m v be

/-- BLOCK_APPLY_POINT (R532): A strobed block reaches its apply point and hands shadow values to its live registers. -/
def execBlockApplyPoint (block : Nat) (unit : Nat) (s : State) : Done := runS s fun m => applyPoint m block unit

/-- HOST_SGRP_WRITE (R531): A HOST_SGRPn write assigns blocks to strobe groups, ignored while a strobe is pending. -/
def execHostSgrpWrite (num : Nat) (v : Word) (be : BitVec 4) (s : State) : Done :=
  runM s fun m => sgrpWrite m num v be

/-- CLEAR_ON_READ_READ (R529): A read touching an RC register returns and clears its RC bits, re-arming its interrupt. -/
def execClearOnReadRead (addr : Nat) (be : BitVec 4) (s : State) : Done := runM s fun m => hostRead m addr be

/-- RESERVED_ACCESS (R527): An access to a reserved location completes with zero or a Completer Abort by compatibility
mode. -/
def execReservedAccess (addr : Nat) (write : Bool) (s : State) : Done := runM s fun m => reservedAccess m addr write

/-- REGISTER_WRITE (R525): A write to a register without its own row updates its value or shadow, or is ignored as narrow
or locked. -/
def execRegisterWrite (addr : Nat) (v : Word) (be : BitVec 4) (s : State) : Done :=
  runS s fun m => hostRegWrite m s.mem addr v be

/-- MSIX_VECTOR_UNMASK (R537): Unmasking a vector with its PBA bit set sends the pending message. -/
def execMsixVectorUnmask (vec : Nat) (s : State) : Done := runM s fun m => msixUnmask m vec

/-- RING_INT_HOLDOFF_EXPIRY (R538): A ring vector's hold-off ends and one message covers the write-backs in it. -/
def execRingIntHoldoffExpiry (ring : Nat) (s : State) : Done := runM s fun m => ringHoldExpiry m ring

end Sys2Proof.Machine
end

