-- ==== Sys2Proof/Machine/CmdKeeper.lean ====
section
/-!
DEFINITION. Meanings of the Keeper and partition commands.
-/
namespace Sys2Proof.Machine

/-- IMAGE_STAGE (R58): Command staging an image, then verifying and admitting it against the loaded partitions. -/
def execImageStage (rq : KReq) (off : Nat) (len : Nat) (s : State) : Done :=
  runM s fun m => imageStage m s.mem rq off len

/-- IMAGE_COMMIT (R59): Command committing the staged image; it is verified and admitted again and the partitions begin
the commit steps. -/
def execImageCommit (rq : KReq) (id : Nat) (s : State) : Done := runS s fun m => imageCommit m rq id

/-- IMAGE_DISCARD (R488): Command discarding the staged image. -/
def execImageDiscard (rq : KReq) (s : State) : Done := runM s fun m => imageDiscard m rq

/-- PARTITION_START (R112): Command making a Halted partition Live, clearing frozen slots, tasks and delay entries. -/
def execPartitionStart (rq : KReq) (part : Nat) (s : State) : Done := runS s fun m => partStart m rq part

/-- PARTITION_HALT (R59): Command halting a partition at its next cycle boundary. -/
def execPartitionHalt (rq : KReq) (part : Nat) (s : State) : Done := runS s fun m => partHaltCmd m rq part

/-- PARTITION_HALT_POINT (R112): At the partition's cycle boundary it stops admitting tokens and the dispatcher stops
issuing its tasks. -/
def execPartitionHaltPoint (part : Nat) (s : State) : Done := runS s fun m => haltPoint m part

/-- PARTITION_HALTED (R59): The partition's in-flight tasks have retired; it is Halted and its numbered outputs write gap
records. -/
def execPartitionHalted (part : Nat) (s : State) : Done := runS s fun m => partHalted m part

/-- PARTITION_LOAD_COMPLETE (R60): Loading of a partition's sections ends, or faults and reloads the previous committed
image. -/
def execPartitionLoadComplete (part : Nat) (ok : Bool) (s : State) : Done := runS s fun m => loadComplete m part ok

/-- PARTITION_GO_LIVE (R59): At the next cycle boundary the loaded partition becomes Live; pending changes take effect and
the role is decided. -/
def execPartitionGoLive (part : Nat) (s : State) : Done := runS s fun m => goLive m part

/-- ROLE_SET (R64): Command setting the unit's role, checked against the combination rules. -/
def execRoleSet (rq : KReq) (role : Role) (s : State) : Done := runS s fun m => roleSet m rq role

/-- TIME_MODE (R66): Command setting the Time mode, taking effect at the next 1PPS edge. -/
def execTimeMode (rq : KReq) (mode : TimeMode) (s : State) : Done := runS s fun m => timeModeCmd m rq mode

/-- TEST_MODE (R65): Command setting the Test value, taking effect at each Live partition's cycle boundary. -/
def execTestMode (rq : KReq) (value : TestVal) (s : State) : Done := runS s fun m => testModeCmd m rq value

/-- COMPAT_SET (R528): Command choosing native or VZ20 register access for the next device reset. -/
def execCompatSet (rq : KReq) (vz20 : Bool) (s : State) : Done := runM s fun m => compatSet m rq vz20

/-- STATUS (R489): Command returning the status block. -/
def execStatus (rq : KReq) (s : State) : Done := runM s fun m => statusCmd m rq

/-- STATS (R488): Command returning and clearing every counter of a block for one object. -/
def execStats (rq : KReq) (block : Nat) (obj : Nat) (s : State) : Done := runM s fun m => statsCmd m rq block obj

/-- NAME_LOOKUP (R498): Command returning the IEC 61850 name of an object from the name map. -/
def execNameLookup (rq : KReq) (kind : Nat) (num : Nat) (s : State) : Done := runM s fun m => nameLookup m rq kind num

/-- FILE_READ (R488): Command copying bytes of a Keeper file handle into BAR2. -/
def execFileRead (rq : KReq) (handle : Nat) (off : Nat) (len : Nat) (dst : Nat) (s : State) : Done :=
  runW s fun m => fileRead m rq handle off len dst

/-- TD_SNAPSHOT (R114): Command copying a Halted partition's frozen dispatcher state into a snapshot file. -/
def execTdSnapshot (rq : KReq) (part : Nat) (s : State) : Done := runM s fun m => tdSnapshot m rq part

/-- REC_LIST (R488): Command listing stored records. -/
def execRecList (rq : KReq) (first : Nat) (count : Nat) (s : State) : Done := runM s fun m => recList m rq first count

/-- REC_INFO (R488): Command returning a record's flags, reasons, trigger list and measurements. -/
def execRecInfo (rq : KReq) (num : Nat) (s : State) : Done := runM s fun m => recInfo m rq num

/-- REC_EXPORT (R385): Command starting COMTRADE export of a record. -/
def execRecExport (rq : KReq) (num : Nat) (format : Nat) (timeCode : Int) (off : Nat) (len : Nat) (s : State) : Done :=
  runM s fun m => recExport m rq num format timeCode off len

/-- REC_DELETE (R488): Command deleting a closed record. -/
def execRecDelete (rq : KReq) (num : Nat) (s : State) : Done := runM s fun m => recDelete m rq num

/-- MTR_LOG_READ (R446): Command copying metrological log entries into BAR2. -/
def execMtrLogRead (rq : KReq) (first : Nat) (count : Nat) (off : Nat) (s : State) : Done :=
  runW s fun m => mtrLogRead m rq first count off

/-- KEY_COMMISSION (R469): Command moving the key store to Commissioning, drawing a new root from Zeroed. -/
def execKeyCommission (rq : KReq) (sig : Bytes) (s : State) : Done := runM s fun m => keyCommissionCmd m rq sig

/-- KEY_CLOSE (R469): Command moving the key store from Commissioning to Provisioned. -/
def execKeyClose (rq : KReq) (s : State) : Done := runM s fun m => keyCloseCmd m rq

/-- KEY_LOAD (R470): Command loading key material into a slot after authentication and a verified backup. -/
def execKeyLoad (rq : KReq) (slot : Nat) (policy : Nat) (type : Nat) (kid : Nat) (mat : Bytes) (auth : Bytes) (backupOk : Bool) (s : State) : Done :=
  runM s fun m => keyLoadCmd m rq slot policy type kid mat auth backupOk

/-- KEY_COMMIT (R471): Command writing the commit mark and making a pending key current. -/
def execKeyCommit (rq : KReq) (slot : Nat) (s : State) : Done := runM s fun m => keyCommitCmd m rq slot

/-- KEY_ERASE (R472): Command emptying a slot and its backups. -/
def execKeyErase (rq : KReq) (slot : Nat) (s : State) : Done := runM s fun m => keyEraseCmd m rq slot

/-- KEY_SIGN_LOG (R465): Command forming an HMAC over event records under a log-signing slot. -/
def execKeySignLog (rq : KReq) (slot : Nat) (first : Nat) (count : Nat) (s : State) : Done :=
  runM s fun m => keySignLogCmd m rq slot first count

/-- KEY_UNSEAL (R478): Command unsealing the metering partition under an authenticated policy-5 slot. -/
def execKeyUnseal (rq : KReq) (kid : Nat) (mac : Bytes) (s : State) : Done := runS s fun m => keyUnseal m rq kid mac

/-- SELFTEST_REQ (R503): Command queueing clusters for the next rotation slot at which they may be tested. -/
def execSelftestReq (rq : KReq) (mask : Nat) (s : State) : Done := runS s fun m => selfTestReq m rq mask

/-- SELFTEST_FULL (R504): Command running the full memory-pattern test of clusters whose partitions are Halted or Absent.
-/
def execSelftestFull (rq : KReq) (mask : Nat) (results : List FullTest) (s : State) : Done :=
  runS s fun m => selfTestFull m rq mask results

/-- RECOVER (R510): Command performing rung 2, 3 or 4 of the recovery ladder. -/
def execRecover (rq : KReq) (rung : Nat) (part : Nat) (s : State) : Done := runS s fun m => recoverCmd m rq rung part

/-- HEALTH_REPORT (R488): Command returning margins, recent self-test results, prediction and temperatures. -/
def execHealthReport (rq : KReq) (s : State) : Done := runM s fun m => healthReport m rq

/-- CYCLE_BOUNDARY_AT_INSTANT (R57): For a metering or recording partition with no source in its master domain, the cycle
boundary of tag t falls at the local-clock instant I(t+1) and pending changes take effect. -/
def execCycleBoundaryAtInstant (part : Nat) (s : State) : Done := runS s fun m => boundaryAtInstant m part

end Sys2Proof.Machine
end

