-- ==== Sys2Proof/Machine/CmdMtr.lean ====
section
/-!
DEFINITION. Meanings of the metering commands.
-/
namespace Sys2Proof.Machine

/-- PULSE_START (R425): Pulse credit reaches 1 after 2 x PW since the last pulse and a pulse starts. -/
def execPulseStart (out : Nat) (s : State) : Done := runM s fun m => pulseStart m out

/-- PULSE_END (R425): A pulse output's pulse ends after PW. -/
def execPulseEnd (out : Nat) (s : State) : Done := runM s fun m => pulseEnd m out

/-- PERIODIC_SAVE (R436): The save period runs out and a snapshot is written into the older copy. -/
def execPeriodicSave (s : State) : Done := runM s fun m => periodicSave m

/-- MTR_SAVE_CMD (R436): A write requests a command save at once. -/
def execMtrSaveCmd (v : Word) (be : BitVec 4) (s : State) : Done :=
  runM s fun m => inRunning m (srcOf Reg.MTR_SAVE_CMD) fun m => mtrSaveCmd m v be

/-- SAVE_VERIFY (R435): A copy write ends and its read-back makes it the newest valid copy or sets SAVE_FAIL. -/
def execSaveVerify (ok : Bool) (s : State) : Done := runRaw s fun m => saveVerify m ok

/-- MTR_CLEAR_TEST_SET (R450): MTR_PT_CMD op 1 clears a point's test set. -/
def execMtrClearTestSet (pt : Nat) (be : BitVec 4) (s : State) : Done :=
  runM s fun m => inRunning m (srcOf Reg.MTR_PT_CMD) fun m => mtrClearTest m pt be

/-- MTR_CLEAR_SERVICE_SET (R444): MTR_PT_CMD op 2 clears a point's service set, refused under the seal for LEGAL points.
-/
def execMtrClearServiceSet (pt : Nat) (be : BitVec 4) (s : State) : Done :=
  runM s fun m => inRunning m (srcOf Reg.MTR_PT_CMD) fun m => mtrClearService m pt be

/-- MTR_CLEAR_WRAP (R450): MTR_PT_CMD op 3 clears a point's WRAP flags. -/
def execMtrClearWrap (pt : Nat) (be : BitVec 4) (s : State) : Done :=
  runM s fun m => inRunning m (srcOf Reg.MTR_PT_CMD) fun m => mtrClearWrap m pt be

/-- MTR_CLEAR_OVER_LOST (R450): MTR_PT_CMD op 4 clears a point's OVER and LOST flags. -/
def execMtrClearOverLost (pt : Nat) (be : BitVec 4) (s : State) : Done :=
  runM s fun m => inRunning m (srcOf Reg.MTR_PT_CMD) fun m => mtrClearOver m pt be

/-- MTR_LOG_ACK (R446): A write acknowledges metrological log entries up to a SEQ, freeing them. -/
def execMtrLogAck (v : Word) (be : BitVec 4) (s : State) : Done :=
  runM s fun m => inRunning m (srcOf Reg.MTR_LOG_ACK) fun m => mtrLogAck m v be

/-- KEY_SEAL_CMD (R478): A guarded seal write seals the metering partition under a policy-5 slot. -/
def execKeySealCmd (v : Word) (be : BitVec 4) (s : State) : Done :=
  runS s fun m => inRunning m (srcOf Reg.KEY_SEAL_CMD) fun m => keySealCmd m v be

end Sys2Proof.Machine
end

