-- ==== Sys2Proof/Machine/NetRx.lean ====
section
/-!
DEFINITION. Reception at the ports (R340 to R347, R354 to R358): MAC checks, redundancy stage, classification.
-/
namespace Sys2Proof.Machine

/-! ## What a frame is -/

/-- EtherType of a frame's payload. -/
def etherType : Payload → Nat
  | .sv _ => 0x88BA
  | .goose _ => 0x88B8
  | .ptp m => if m.udp then 0x0800 else 0x88F7
  | .supervision _ _ => 0x88FB
  | .arpRequest _ _ _ => 0x0806
  | .arpReply _ _ => 0x0806
  | .igmpQuery => 0x0800
  | .igmpReport _ => 0x0800
  | .udp _ _ _ _ _ => 0x0800
  | .fragment .. => 0x0800
  | .tcp _ _ _ _ _ => 0x0800
  | .pause _ => 0x8808
  | .other e => e

/-- VID of a frame, 0 for an untagged one (R346). -/
def frameVid (f : Frame) : Nat :=
  match f.tags with
  | t :: _ => t.2
  | [] => 0

/-- The errors of a frame at a port, as status bits of R352: FCS, RUNT, OVERSIZE, CODE (R340, R345). -/
def frameErrs (m : Mod) (p : Nat) (f : Frame) : Nat :=
  (if f.fcsBad then 2 else 0) + (if f.len < 64 then 4 else 0)
    + (if f.len > (portCfg m p).mtu + 4 * min f.tags.length 1 then 8 else 0) + (if f.codeErr then 16 else 0)

/-- The counter of an errored frame: that of the first error it has (log 60). -/
def errCounter (p errs : Nat) : Nat :=
  if errs.testBit 1 then Reg.MAC_PRX_FCS p
  else if errs.testBit 2 then Reg.MAC_PRX_RUNT p
  else if errs.testBit 3 then Reg.MAC_PRX_OVERSIZE p
  else Reg.MAC_PRX_CODE p

/-- An errored or odd frame, to receive ring 3 when ERR_DELIVER is set (R345). -/
def oddFrame (m : Mod) (mem : Mem) (p : Nat) (it : RxItem) (flags : Nat) : Mod × List MemWrite :=
  if regBits m (Reg.MAC_PCFG p) 3 3 = 1 then hostDeliver m mem 3 p it (flags + if it.dupPass then 1 else 0) else (m, [])

/-! ## The redundancy stage (R354 to R357) -/

/-- Entries of a pair's node table that are not older than FORGET. -/
def liveNodes (m : Mod) (pr : Nat) : List NodeEntry :=
  let age := secs (tabGet m.portMap.pairs pr).forget
  (tabGet m.net.pairs pr).nodes.filter fun n => decide (m.clk.elapsed < n.seen + age)

/-- A source seen by the redundancy stage: its entry refreshed, or made while the table of 1,024 has room. Answers whether
the source has one. -/
def seeNode (m : Mod) (pr src : Nat) : Bool × Mod :=
  let ns := liveNodes m pr
  let now := m.clk.elapsed
  if ns.any (·.src == src) then
    (true, modPair m pr fun x => { x with nodes := ns.map fun n => if n.src = src then { n with seen := now } else n })
  else if ns.length < 1024 then
    (true, modPair m pr fun x => { x with nodes := ns ++ [⟨src, now, [], [], []⟩] })
  else (false, modPair m pr fun x => { x with nodes := ns })

def nodeOf (m : Mod) (pr src : Nat) : Option NodeEntry := (tabGet m.net.pairs pr).nodes.find? (·.src == src)

def modNode (m : Mod) (pr src : Nat) (f : NodeEntry → NodeEntry) : Mod :=
  modPair m pr fun x => { x with nodes := x.nodes.map fun n => if n.src = src then f n else n }

/-- A sequence number noted in a window of 256. -/
def noteSeq (l : List Nat) (s : Nat) : List Nat := (s :: l).take 256

/-- The ring forwards a frame to the other port, in the queue of its PCP (R355). -/
def ringForward (m : Mod) (p : Nat) (f : Frame) : Mod :=
  let o := if p % 2 = 0 then p + 1 else p - 1
  let q := match f.tags with
    | t :: _ => if t.1 = 7 then 6 else t.1
    | [] => 0
  queueModule m o q ⟨f, f.len + redBytes f.red, none, 0⟩

/-- What the redundancy stage makes of a frame: taken or not, and whether it passed by a full node table (R355, R356). -/
def redStage (m : Mod) (p : Nat) (f : Frame) : Bool × Bool × Mod :=
  let pr := p / 2
  let mode := (pairCfg m p).mode
  let isPtp : Bool := match f.payload with
    | .ptp _ => true
    | _ => false
  match f.red with
  | none => (true, false, m)
  | some t =>
    if mode = 0 ∨ isPtp ∨ t.hsr ≠ (mode == 2) then (true, false, m)
    else if mode = 2 ∧ f.src = (portCfg m p).mac then (false, false, m)
    else
      let m := if mode = 1 ∧ t.lan ≠ p % 2 then bump m (Reg.MAC_PRED_WRONG_LAN p) else m
      let (known, m) := seeNode m pr f.src
      if !known then
        let m := setFault m (Reg.MAC_PFAULT p) 7 p
        let m := if mode = 2 ∧ f.dst ≠ (portCfg m p).mac then ringForward m p f else m
        (true, true, m)
      else
        let n := (nodeOf m pr f.src).getD ⟨f.src, 0, [], [], []⟩
        let dup := n.seqs.contains t.seq
        let sent := if p % 2 = 0 then n.fwdA else n.fwdB
        let away : Bool := mode == 2 && f.dst != (portCfg m p).mac
        let ringDup := away && sent.contains t.seq
        let m := if away && !ringDup then ringForward m p f else m
        let m := modNode m pr f.src fun x =>
          let seqs := if dup then x.seqs else noteSeq x.seqs t.seq
          let fa := if away && !ringDup && p % 2 == 0 then noteSeq x.fwdA t.seq else x.fwdA
          let fb := if away && !ringDup && p % 2 == 1 then noteSeq x.fwdB t.seq else x.fwdB
          { x with seqs := seqs, fwdA := fa, fwdB := fb }
        let m := if dup || ringDup then bump m (Reg.MAC_PRED_DUP p) else m
        (!dup, false, m)

/-! ## Classification (R342) -/

/-- Where a frame goes (R342). -/
inductive RxClass where
  | control | parser | responder | redundancy
  | host (ring : Nat)
  | odd
  deriving DecidableEq, Repr, Inhabited

/-- A host classification entry matches a frame (R360). -/
def classMatch (p : Nat) (f : Frame) (e : ClassEntry) : Bool :=
  e.ports.testBit p && (e.etype == 0xFFFF || e.etype == etherType f.payload) && (e.vid == 0xFFFF || e.vid == frameVid f)
    && (e.macAny || e.dst == f.dst)

/-- A Referee, federation or command port of the image on this port (R342 order 5). -/
def isImagePort (m : Mod) (p dport : Nat) : Bool :=
  let h := outHdr m
  let w := (imageOf m 1).wad
  (h.refPorts.testBit p && h.refUdp == dport) || (w.fedPorts.testBit p && w.fedUdp == dport)
    || (w.almPorts.testBit p && w.almCmd == dport && dport != 0)
    || (imageOf m 1).outs.any fun o => o.2.ports.testBit p && o.2.cmdPort == dport && dport != 0

/-- The class of a frame that passed the checks: the first matching row of R342. -/
def rxClass (m : Mod) (p : Nat) (f : Frame) : RxClass :=
  let own : Option RxClass := match f.payload with
    | .ptp msg => if !msg.udp || ptpProfile m == 0 then some .control else none
    | .supervision _ _ => some .redundancy
    | .goose g =>
      if (peerPub m f g).isSome || (allGSubs m).any (fun x => x.2.appid == g.appid && x.2.dst == f.dst
        && x.2.gocbRef == g.gocbRef && x.2.ports.testBit p) then some .control else none
    | .arpRequest ip _ _ => if ip ≠ 0 ∧ ip = (portCfg m p).ip then some .responder else none
    | .arpReply _ _ => if f.dst = (portCfg m p).mac then some .responder else none
    | .igmpQuery => some .responder
    | .udp src dst _ dport body =>
      if isImagePort m p dport then some .control
      else match body with
        | .pmu d => if (inputOf m p src dst dport d).isSome then some .parser else none
        | _ => none
    | .sv v => if ([0, 2, 3].any fun q => (imageOf m q).subs.any fun x => headerMatch x.2 p f v) then some .parser else none
    | .tcp src _ _ _ _ =>
      if (imageOf m 1).ins.any fun x => x.2.transport == 1 && x.2.ports.testBit p && x.2.srcIp == src then some .control else none
    | _ => none
  match own with
  | some c => c
  | none => match m.portMap.classes.find? (classMatch p f) with
    | some e => .host e.ring
    | none => .odd

/-- Multicast groups of a port: destinations of its Basin inputs, and FED_IP (R347). -/
def portGroups (m : Mod) (p : Nat) : List Nat :=
  let w := (imageOf m 1).wad
  let ins := ((imageOf m 1).ins.filter fun x => x.2.ports.testBit p && ipMulticast x.2.dstIp).map (·.2.dstIp)
  (ins ++ if w.fedPorts.testBit p && ipMulticast w.fedIp then [w.fedIp] else []).eraseDups

/-- The hardware responder (R347). -/
def responder (m : Mod) (p : Nat) (f : Frame) : Mod :=
  match f.payload with
  | .arpRequest ip _ mac => sendFrame m (2 ^ p) 6 mac [] (.arpReply ip (portCfg m p).mac)
  | .arpReply ip mac => arpLearn m p ip mac
  | .igmpQuery => (portGroups m p).foldl (fun m g => sendFrame m (2 ^ p) 6 (ipMcastMac g) [] (.igmpReport g)) m
  | _ => m

/-- Bytes of the frames in an ingress buffer. -/
def bufFill (l : List RxItem) : Nat := l.foldl (fun n x => n + x.frame.len) 0

/-- A frame for the parser buffer of a port (R343); the peak is kept in whole KiB. -/
def toParser (m : Mod) (p : Nat) (it : RxItem) : Mod :=
  let fill := bufFill (netPort m p).parser + it.frame.len
  if fill ≤ 2097152 then
    let m := modPort m p fun st => { st with parser := st.parser ++ [it] }
    let off := Reg.MAC_PBUF_MAX p
    if (reg m off).toNat < fill / 1024 then setReg m off (BitVec.ofNat 32 (fill / 1024)) else m
  else
    let m := bump m (Reg.MAC_PRX_DROP_FULL p)
    let due : Bool := match (netPort m p).dropEvt with
      | some t => decide (t + secs 1 ≤ m.clk.elapsed)
      | none => true
    if due then setFault (modPort m p fun st => { st with dropEvt := some m.clk.elapsed }) (Reg.MAC_PFAULT p) 4 p
    else setFaultQuiet m (Reg.MAC_PFAULT p) 4

/-- A frame for the control buffer of a port (R343). -/
def toControl (m : Mod) (p : Nat) (it : RxItem) : Mod :=
  if bufFill (netPort m p).control + it.frame.len ≤ 131072 then modPort m p fun st => { st with control := st.control ++ [it] }
  else bump m (Reg.MAC_PRX_DROP_CTL p)

/-- A frame that the redundancy stage left is routed (R342, R345). -/
def routeFrame (m : Mod) (mem : Mem) (p : Nat) (it : RxItem) : Mod × List MemWrite :=
  match rxClass m p it.frame with
  | .control => (toControl m p it, [])
  | .parser => (toParser m p it, [])
  | .responder => (responder m p it.frame, [])
  | .redundancy =>
    match it.frame.payload with
    | .supervision node _ => ((seeNode m (p / 2) node).2, [])
    | _ => (m, [])
  | .host r => hostDeliver m mem r p it (if it.dupPass then 1 else 0)
  | .odd => oddFrame (bump m (Reg.MAC_PRX_UNCLASS p)) mem p it 128

/-- MAC_FRAME_RECEIVED: a frame completes at a port whose link is up (R342 to R346). -/
def macFrameReceived (m : Mod) (mem : Mem) (p : Nat) (f : Frame) : Mod × List MemWrite :=
  if !(netPort m p).link then (m, [])
  else
    let it : RxItem := ⟨f, rxStamp m p, false⟩
    let errs := frameErrs m p f
    let vid := frameVid f
    if errs ≠ 0 then oddFrame (setFaultQuiet (bump m (errCounter p errs)) (Reg.MAC_PFAULT p) 0) mem p it errs
    else if 2 ≤ f.tags.length then oddFrame (bump m (Reg.MAC_PRX_UNCLASS p)) mem p it (64 + 128)
    else if (portCfg m p).vlanFilter ∧ vid ≠ 0 ∧ !(portCfg m p).vids.contains vid then
      oddFrame (bump m (Reg.MAC_PRX_VLAN p)) mem p it (32 + 128)
    else
      let m := bump m (Reg.MAC_PRX_OK p)
      match f.payload with
      | .pause q => (pauseFrame m p q, [])
      | _ =>
        let (taken, pass, m) := redStage m p f
        if taken then routeFrame m mem p { it with dupPass := pass } else (m, [])

end Sys2Proof.Machine
end

