-- ==== Sys2Proof/Machine/CmdNet.lean ====
section
/-!
DEFINITION. Meanings of the network and host ring commands.
-/
namespace Sys2Proof.Machine

/-- SETTINGS_GROUP_REQUEST (R145): A PE_SGRP_REQ write requests a settings-group change with effective tag T + 3, or is
refused. -/
def execSettingsGroupRequest (v : Word) (be : BitVec 4) (s : State) : Done :=
  runS s fun m => inRunning m (srcOf Reg.PE_SGRP_REQ) fun m => sgrpReq m v be

/-- MAC_FRAME_RECEIVED (R342): A frame completes at a port; MAC checks, redundancy stage and classification route or
discard it. -/
def execMacFrameReceived (port : Nat) (frame : Frame) (s : State) : Done :=
  runW s fun m => macFrameReceived m s.mem port frame

/-- LINK_DOWN (R341): Loss of signal or block lock for 1 ms takes a port's link down. -/
def execLinkDown (port : Nat) (cut : Bool) (s : State) : Done := runM s fun m => linkDown m port cut

/-- LINK_UP (R341): 10 ms of continuous lock brings a port's link up. -/
def execLinkUp (port : Nat) (speedOk : Bool) (s : State) : Done := runM s fun m => linkUp portGroups m port speedOk

/-- PAUSE_EXPIRY (R350): The pause time of an obeyed PAUSE frame runs out and the port's queues resume. -/
def execPauseExpiry (port : Nat) (s : State) : Done := runM s fun m => pauseExpiry m port

/-- FRAME_TRANSMIT (R348): A port starts the next frame by strict queue priority once the line is free. -/
def execFrameTransmit (port : Nat) (s : State) : Done := runM s fun m => frameTransmit m port

/-- ARP_REFRESH (R347): Every 60 s unresolved destinations are resolved again by ARP. -/
def execArpRefresh (port : Nat) (s : State) : Done := runM s fun m => arpRefresh m port

/-- SUPERVISION_FRAME_TIMER (R354): Every SUP_INTV a PRP or HSR supervision frame is sent. -/
def execSupervisionFrameTimer (pair : Nat) (s : State) : Done := runM s fun m => supervisionTimer m pair

/-- NODE_FORGET (R354): A node-table entry unseen for FORGET is removed. -/
def execNodeForget (pair : Nat) (s : State) : Done := runM s fun m => nodeForget m pair

/-- PARSER_HOLD_RELEASE (R107): Back-pressure ends and the SV parser resumes reading a held port's buffer. -/
def execParserHoldRelease (port : Nat) (s : State) : Done := runM s fun m => parserHoldRelease m port

/-- HOST_RX_RING_TAIL (R351): A write of a receive ring's TAIL gives descriptors to the module. -/
def execHostRxRingTail (ring : Nat) (v : Word) (be : BitVec 4) (s : State) : Done :=
  runM s fun m => inRunning m (srcOf (ringTail ring)) fun m => hostRxTail m ring v be

/-- HOST_TX_RING_TAIL (R351): A write of a transmit ring's TAIL hands frames to the module. -/
def execHostTxRingTail (ring : Nat) (v : Word) (be : BitVec 4) (s : State) : Done :=
  runM s fun m => inRunning m (srcOf (ringTail (4 + ring))) fun m => hostTxTail m ring v be

/-- HOST_TX_DESCRIPTOR (R353): The module queues a host transmit frame once its queue has room and writes back its status.
-/
def execHostTxDescriptor (ring : Nat) (s : State) : Done := runW s fun m => hostTxDescriptor m s.mem ring

/-- HOST_TX_QUEUE_TIMEOUT (R353): A host frame waiting 10 ms for a full queue is marked DROPPED. -/
def execHostTxQueueTimeout (ring : Nat) (s : State) : Done := runW s fun m => hostTxTimeout m s.mem ring

/-- RING_BASE_SIZE_WRITE (R361): A ring BASE or SIZE write is taken only while HEAD equals TAIL, otherwise ignored with
RING set. -/
def execRingBaseSizeWrite (ring : Nat) (size : Bool) (v : Word) (be : BitVec 4) (s : State) : Done :=
  runM s fun m => if ring < 8 then inRunning m 0xA fun m => ringBaseSizeWrite m ring size v be else inRunning m 0xD fun m => laneBaseSize m (ring - 8) size v be

/-- M0_FRAME_RECEIVED (R359): A frame on M0 reaches Keeper's receive queue or is dropped. -/
def execM0FrameReceived (bytes : Bytes) (full : Bool) (s : State) : Done := runM s fun m => m0Frame m bytes full

end Sys2Proof.Machine
end

