-- ==== Sys2Proof/Machine/CmdPair.lean ====
section
/-!
DEFINITION. Meanings of the redundant-pair and Referee commands.
-/
namespace Sys2Proof.Machine

/-- HELLO (R281): A HELLO received on the Towpath updates peer identity and brings the Towpath up. -/
def execHello (crcOk : Bool) (data : HelloData) (s : State) : Done := runS s fun m => towHello m crcOk data

/-- HEARTBEAT (R281): A Towpath HEARTBEAT received from the peer. -/
def execHeartbeat (crcOk : Bool) (data : HeartbeatData) (s : State) : Done :=
  runS s fun m => towHeartbeat m crcOk data

/-- DIGEST (R287): A DIGEST received is compared with the unit's own output and state digests. -/
def execDigest (crcOk : Bool) (tag : Nat) (output : Nat) (state : Nat) (s : State) : Done :=
  runS s fun m => towDigest m crcOk tag output state

/-- COPY (R283): A COPY record of the Active's state for a tag is received. -/
def execCopy (crcOk : Bool) (tag : Nat) (recs : List CopyRec) (s : State) : Done :=
  runS s fun m => towCopy m crcOk tag recs

/-- COPY_END (R284): COPY_END received; the Standby applies the copy when counts, CRC and digests allow. -/
def execCopyEnd (crcOk : Bool) (tag : Nat) (count : Nat) (bytes : Nat) (crc : Nat) (s : State) : Done :=
  runS s fun m => towCopyEnd m crcOk tag count bytes crc

/-- SWEEP (R285): A SWEEP frame of a resync is received and applied. -/
def execSweep (crcOk : Bool) (recs : List CopyRec) (last : Bool) (s : State) : Done :=
  runS s fun m => towSweep m crcOk recs last

/-- FAULT (R296): A FAULT frame from the Active makes the Standby take over. -/
def execFault (crcOk : Bool) (reason : Nat) (tag : Nat) (s : State) : Done :=
  runS s fun m => towFault m crcOk reason tag

/-- REVERT_REQ (R304): A revert request with t_r is received by the Active and answered. -/
def execRevertReq (crcOk : Bool) (tag : Nat) (s : State) : Done := runS s fun m => towRevertReq m crcOk tag

/-- REVERT_ACK (R304): A revert acknowledgement is received by the preferred unit. -/
def execRevertAck (crcOk : Bool) (tag : Nat) (s : State) : Done := runS s fun m => towRevertAck m crcOk tag

/-- REVERT_NAK (R304): A revert refusal is received and the revert is abandoned. -/
def execRevertNak (crcOk : Bool) (tag : Nat) (s : State) : Done := runS s fun m => towRevertNak m crcOk tag

/-- HELLO_TIMER (R281): Every 1 ms a HELLO is sent on the Towpath. -/
def execHelloTimer (s : State) : Done := runM s fun m => helloTimer m

/-- HEARTBEAT_TIMER (R281): Every 5 µs a Towpath HEARTBEAT is sent. -/
def execHeartbeatTimer (s : State) : Done := runM s fun m => heartbeatTimer m

/-- STATUS_TIMER (R290): Every 5 µs a unit sends STATUS to the Referee. -/
def execStatusTimer (s : State) : Done := runM s fun m => statusTimer m

/-- REF_STATUS_TIMER (R293): Every 1 ms a Referee sends REF_STATUS. -/
def execRefStatusTimer (s : State) : Done := runM s fun m => refStatusTimer m

/-- TOWPATH_LANE_LOCK_LOSS (R286): A Towpath lane loses lock and the link runs on one lane. -/
def execTowpathLaneLockLoss (s : State) : Done := runS s fun m => laneLoss m

/-- TOWPATH_LOST (R282): No valid Towpath frame for 12 µs, or both lanes unlocked, declares the Towpath lost. -/
def execTowpathLost (s : State) : Done := runS s fun m => towpathLost m

/-- REFEREE_STATUS (R292): A STATUS message from a unit is received by the Referee. -/
def execRefereeStatus (port : Nat) (s : State) : Done := runM s fun m => refereeStatus m port

/-- REPORT (R291): A REPORT received by the Referee is compared and may produce a VERDICT. -/
def execReport (port : Nat) (s : State) : Done := runM s fun m => refereeReport m port

/-- TAKEOVER_REQ (R292): A TAKEOVER_REQ received by the Referee is granted or denied. -/
def execTakeoverReq (port : Nat) (s : State) : Done := runM s fun m => refereeTakeover m port

/-- VERDICT (R291): A VERDICT received for a held copy keeps the Active or makes the Standby take over. -/
def execVerdict (port : Nat) (s : State) : Done := runS s fun m => refVerdict m port

/-- GRANT (R289): A GRANT naming a sent TAKEOVER_REQ makes the Standby Active, or a denial leaves it Isolated. -/
def execGrant (port : Nat) (s : State) : Done := runS s fun m => refGrant m port

/-- REF_STATUS (R294): A REF_STATUS received updates EPOCH_MAX and Referee presence. -/
def execRefStatus (port : Nat) (s : State) : Done := runS s fun m => refStatus m port

/-- TAKEOVER_REQ_RETRY (R279): At start with the Towpath down, TAKEOVER_REQ is resent every 1 ms until answered. -/
def execTakeoverReqRetry (s : State) : Done := runM s fun m => takeoverRetry m

/-- START_PEER_WAIT_EXPIRY (R279): 1 s after protection went Live without peer heartbeat and no Referee, the unit becomes
Active. -/
def execStartPeerWaitExpiry (s : State) : Done := runS s fun m => peerWaitExpiry m

/-- REFEREE_ABSENT (R295): No REF_STATUS for 3 ms makes the Referee absent and sets REF_LOST. -/
def execRefereeAbsent (s : State) : Done := runS s fun m => refereeAbsent m

/-- HB_WAIT_EXPIRY (R302): No Active heartbeat for HB_WAIT lets a Standby without Referee take over. -/
def execHbWaitExpiry (s : State) : Done := runS s fun m => hbWaitExpiry m

/-- VERDICT_WAIT_EXPIRY (R287): No verdict within VERDICT_WAIT: the Standby applies the held copy and sets VERDICT_LATE.
-/
def execVerdictWaitExpiry (tag : Nat) (s : State) : Done := runS s fun m => verdictWaitExpiry m tag

/-- COPY_BOUND_MISS (R284): A copy not applied by its bound sets COPY_FAIL and makes the Standby Unsynchronised. -/
def execCopyBoundMiss (tag : Nat) (s : State) : Done := runS s fun m => copyBoundMiss m tag

/-- TAKEOVER_INTERVAL_END (R298): After TKO_CYCLES tags the takeover interval ends and bit 8 and TKO clear. -/
def execTakeoverIntervalEnd (s : State) : Done := runS s fun m => takeoverEnd m

/-- REVERT_HOLD_EXPIRY (R303): The revert conditions held for HOLD, so the preferred unit sends REVERT_REQ. -/
def execRevertHoldExpiry (s : State) : Done := runS s fun m => revertHoldExpiry m

/-- OUT_UNIT_WRITE (R275): A guarded OUT_UNIT write sets unit identity, refused while Active or Standby. -/
def execOutUnitWrite (v : Word) (be : BitVec 4) (s : State) : Done :=
  runM s fun m => inRunning m (srcOf Reg.OUT_UNIT) fun m => outUnitWrite m v be

/-- OUT_EPOCH_SET (R273): A guarded write restores a low epoch while Standalone with protection Halted. -/
def execOutEpochSet (v : Word) (be : BitVec 4) (s : State) : Done :=
  runM s fun m => inRunning m (srcOf Reg.OUT_EPOCH_SET) fun m => outEpochSet m v be

/-- TOWPATH_LANE_LOCK_REGAIN (R286): A Towpath lane regains lock, OUT_STAT.LANES rises and the link returns to two-lane
payload rate. -/
def execTowpathLaneLockRegain (s : State) : Done := runM s fun m => laneRegain m

end Sys2Proof.Machine
end

