-- ==== Sys2Proof/Machine/CmdPower.lean ====
section
/-!
DEFINITION. Meanings of the power, battery domain and PCIe link commands.
-/
namespace Sys2Proof.Machine

/-- POWER_GOOD (R495): Input at or above 6 V for 100 ms with PFAIL_N high starts the start sequence from step 1. -/
def execPowerGood (s : State) : Done := runRaw s fun m => powerGood m

/-- PFAIL_N_ASSERT (R438): PFAIL_N held low for 2 µs triggers the last-gasp save. -/
def execPfailNAssert (s : State) : Done := runSupply s fun m => pfailAssert m

/-- INPUT_UNDERVOLTAGE (R438): Input below 5.5 V for 10 µs triggers the last-gasp save. -/
def execInputUndervoltage (s : State) : Done := runSupply s fun m => inputUndervoltage m

/-- HOLD_OK_CHANGE (R438): HOLD crosses 48 V, setting or clearing HOLD_OK and arming or disarming the last-gasp save. -/
def execHoldOkChange (ok : Bool) (cv : Nat) (s : State) : Done := runRaw s fun m => holdOkChange m ok cv

/-- HOLD_LOW_CHECK (R545): 10 s after start with HOLD_OK still clear, MTR_FAULT.HOLD_LOW sets. -/
def execHoldLowCheck (s : State) : Done := runM s fun m => holdLowCheck m

/-- PCIE_RESET (R522): PERST_N, a hot reset or a link-down resets the endpoint configuration space and MSI-X table only.
-/
def execPcieReset (s : State) : Done := runM s fun m => pcieReset m

/-- PCIE_LINK_TRAINED (R522): The link trains; below Gen4 x4 HOST_FAULT.LINK_DEGRADED sets. -/
def execPcieLinkTrained (gen : Nat) (width : Nat) (s : State) : Done := runM s fun m => pcieTrained m gen width

/-- TAMPER_DETECTED (R475): A mesh, loop, temperature or VBAT cause found on two consecutive samples zeroes the root
secret and latches KEY_TAMPER. -/
def execTamperDetected (cause : Nat) (s : State) : Done :=
  runSupply s fun m => tamperDetected m cause (m.hlth.power != .off)

/-- BATT_LOW_DETECTED (R477): VBAT below 2.2 V for two samples sets KEY_FAULT.BATT_LOW and writes an event. -/
def execBattLowDetected (mv : Nat) (s : State) : Done := runM s fun m => battLow m mv

/-- THERMAL_READING (R560): The once-per-second plate and junction reading moves the module between Normal, Warning, Shed
and Stop. -/
def execThermalReading (plate : Int) (junctions : List Int) (s : State) : Done :=
  runS s fun m => thermalReading m s.mem plate junctions

end Sys2Proof.Machine
end

