-- ==== Sys2Proof/Machine/CmdPrim.lean ====
section
/-!
DEFINITION. Meanings of the task completion commands.
-/
namespace Sys2Proof.Machine

/-- ADD (R147): code 0 completes. -/
def execAdd (tmpl : Nat) (tag : Nat) (s : State) : Done := runM s fun m => complete 0 (fun _ => primAdd) m tmpl tag

/-- SUB (R147): code 1 completes. -/
def execSub (tmpl : Nat) (tag : Nat) (s : State) : Done := runM s fun m => complete 1 (fun _ => primSub) m tmpl tag

/-- MUL (R147): code 2 completes. -/
def execMul (tmpl : Nat) (tag : Nat) (s : State) : Done := runM s fun m => complete 2 (fun _ => primMul) m tmpl tag

/-- DIV (R147): code 3 completes. -/
def execDiv (tmpl : Nat) (tag : Nat) (s : State) : Done := runM s fun m => complete 3 (fun _ => primDiv) m tmpl tag

/-- MAC (R147): code 4 completes. -/
def execMac (tmpl : Nat) (tag : Nat) (s : State) : Done := runM s fun m => complete 4 (fun _ => primMac) m tmpl tag

/-- ABS_NEG (R147): code 5 completes. -/
def execAbsNeg (tmpl : Nat) (tag : Nat) (s : State) : Done :=
  runM s fun m => complete 5 (fun _ => primAbsNeg) m tmpl tag

/-- MINMAX (R147): code 6 completes. -/
def execMinmax (tmpl : Nat) (tag : Nat) (s : State) : Done :=
  runM s fun m => complete 6 (fun _ => primMinMax) m tmpl tag

/-- SQRT (R147): code 7 completes. -/
def execSqrt (tmpl : Nat) (tag : Nat) (s : State) : Done := runM s fun m => complete 7 (fun _ => primSqrt) m tmpl tag

/-- SCALE (R147): code 8 completes. -/
def execScale (tmpl : Nat) (tag : Nat) (s : State) : Done :=
  runM s fun m => complete 8 (fun _ => primScale) m tmpl tag

/-- CONVERT (R147): code 9 completes. -/
def execConvert (tmpl : Nat) (tag : Nat) (s : State) : Done :=
  runM s fun m => complete 9 (fun _ => primConvert) m tmpl tag

/-- SELECT (R147): code 10 completes. -/
def execSelect (tmpl : Nat) (tag : Nat) (s : State) : Done :=
  runM s fun m => complete 10 (fun _ => primSelect) m tmpl tag

/-- LIMIT (R147): code 11 completes. -/
def execLimit (tmpl : Nat) (tag : Nat) (s : State) : Done :=
  runM s fun m => complete 11 (fun _ => primLimit) m tmpl tag

/-- INT_OP (R147): code 12 completes. -/
def execIntOp (tmpl : Nat) (tag : Nat) (s : State) : Done :=
  runM s fun m => complete 12 (fun _ => primIntOp) m tmpl tag

/-- POLY (R147): code 13 completes. -/
def execPoly (tmpl : Nat) (tag : Nat) (s : State) : Done := runM s fun m => complete 13 (fun _ => primPoly) m tmpl tag

/-- CPX_MAG (R147): code 14 completes. -/
def execCpxMag (tmpl : Nat) (tag : Nat) (s : State) : Done :=
  runM s fun m => complete 14 (fun _ => primCpxMag) m tmpl tag

/-- CPX_ANG (R147): code 15 completes. -/
def execCpxAng (tmpl : Nat) (tag : Nat) (s : State) : Done :=
  runM s fun m => complete 15 (fun _ => primCpxAng) m tmpl tag

/-- POLAR (R147): code 16 completes. -/
def execPolar (tmpl : Nat) (tag : Nat) (s : State) : Done :=
  runM s fun m => complete 16 (fun _ => primPolar) m tmpl tag

/-- ROTATE (R147): code 17 completes. -/
def execRotate (tmpl : Nat) (tag : Nat) (s : State) : Done :=
  runM s fun m => complete 17 (fun _ => primRotate) m tmpl tag

/-- SEQ_COMP (R147): code 18 completes. -/
def execSeqComp (tmpl : Nat) (tag : Nat) (s : State) : Done :=
  runM s fun m => complete 18 (fun _ => primSeqComp) m tmpl tag

/-- DELTA_PH (R147): code 19 completes. -/
def execDeltaPh (tmpl : Nat) (tag : Nat) (s : State) : Done :=
  runM s fun m => complete 19 (fun _ => primDeltaPh) m tmpl tag

/-- POWER (R147): code 20 completes. -/
def execPower (tmpl : Nat) (tag : Nat) (s : State) : Done :=
  runM s fun m => complete 20 (fun _ => primPower) m tmpl tag

/-- IMPEDANCE (R147): code 21 completes. -/
def execImpedance (tmpl : Nat) (tag : Nat) (s : State) : Done :=
  runM s fun m => complete 21 (fun _ => primImpedance) m tmpl tag

/-- LOOP_IMP (R147): code 22 completes. -/
def execLoopImp (tmpl : Nat) (tag : Nat) (s : State) : Done :=
  runM s fun m => complete 22 (fun _ => primLoopImp) m tmpl tag

/-- ANGLE_DIFF (R147): code 23 completes. -/
def execAngleDiff (tmpl : Nat) (tag : Nat) (s : State) : Done :=
  runM s fun m => complete 23 (fun _ => primAngleDiff) m tmpl tag

/-- TS_COMP (R147): code 24 completes. -/
def execTsComp (tmpl : Nat) (tag : Nat) (s : State) : Done :=
  runM s fun m => complete 24 (fun _ => primTsComp) m tmpl tag

/-- FREQ_EST (R147): code 25 completes. -/
def execFreqEst (tmpl : Nat) (tag : Nat) (s : State) : Done :=
  runM s fun m => complete 25 (fun _ => primFreqEst) m tmpl tag

/-- MHO (R147): code 26 completes. -/
def execMho (tmpl : Nat) (tag : Nat) (s : State) : Done := runM s fun m => complete 26 (fun _ => primMho) m tmpl tag

/-- QUAD (R147): code 27 completes. -/
def execQuad (tmpl : Nat) (tag : Nat) (s : State) : Done := runM s fun m => complete 27 (fun _ => primQuad) m tmpl tag

/-- DIRECTIONAL (R147): code 28 completes. -/
def execDirectional (tmpl : Nat) (tag : Nat) (s : State) : Done :=
  runM s fun m => complete 28 (fun _ => primDirectional) m tmpl tag

/-- IDMT (R147): code 29 completes. -/
def execIdmt (tmpl : Nat) (tag : Nat) (s : State) : Done := runM s fun m => complete 29 (fun _ => primIdmt) m tmpl tag

/-- LOAD_ENC (R147): code 30 completes. -/
def execLoadEnc (tmpl : Nat) (tag : Nat) (s : State) : Done :=
  runM s fun m => complete 30 (fun _ => primLoadEnc) m tmpl tag

/-- PSWING (R147): code 31 completes. -/
def execPswing (tmpl : Nat) (tag : Nat) (s : State) : Done :=
  runM s fun m => complete 31 (fun _ => primPswing) m tmpl tag

/-- DIFF_BIAS (R147): code 32 completes. -/
def execDiffBias (tmpl : Nat) (tag : Nat) (s : State) : Done :=
  runM s fun m => complete 32 (fun _ => primDiffBias) m tmpl tag

/-- DIFF_BIAS_N (R147): code 33 completes. -/
def execDiffBiasN (tmpl : Nat) (tag : Nat) (s : State) : Done :=
  runM s fun m => complete 33 (fun _ => primDiffBiasN) m tmpl tag

/-- HARM_RESTR (R147): code 34 completes. -/
def execHarmRestr (tmpl : Nat) (tag : Nat) (s : State) : Done :=
  runM s fun m => complete 34 (fun _ => primHarmRestr) m tmpl tag

/-- CMP_OVER (R147): code 35 completes. -/
def execCmpOver (tmpl : Nat) (tag : Nat) (s : State) : Done :=
  runM s fun m => complete 35 (fun _ => primCmpOver) m tmpl tag

/-- CMP_UNDER (R147): code 36 completes. -/
def execCmpUnder (tmpl : Nat) (tag : Nat) (s : State) : Done :=
  runM s fun m => complete 36 (fun _ => primCmpUnder) m tmpl tag

/-- CMP_BAND (R147): code 37 completes. -/
def execCmpBand (tmpl : Nat) (tag : Nat) (s : State) : Done :=
  runM s fun m => complete 37 (fun _ => primCmpBand) m tmpl tag

/-- CMP_RATE (R147): code 38 completes. -/
def execCmpRate (tmpl : Nat) (tag : Nat) (s : State) : Done :=
  runM s fun m => complete 38 (fun _ => primCmpRate) m tmpl tag

/-- CMP_DELTA (R147): code 39 completes. -/
def execCmpDelta (tmpl : Nat) (tag : Nat) (s : State) : Done :=
  runM s fun m => complete 39 (fun _ => primCmpDelta) m tmpl tag

/-- LOGIC64 (R148): code 40 completes. -/
def execLogic64 (tmpl : Nat) (tag : Nat) (s : State) : Done :=
  runM s fun m => complete 40 (fun _ => primLogic64) m tmpl tag

/-- BIT_PACK (R148): code 41 completes. -/
def execBitPack (tmpl : Nat) (tag : Nat) (s : State) : Done :=
  runM s fun m => complete 41 (fun _ => primBitPack) m tmpl tag

/-- BIT_EXTRACT (R147): code 42 completes. -/
def execBitExtract (tmpl : Nat) (tag : Nat) (s : State) : Done :=
  runM s fun m => complete 42 (fun _ => primBitExtract) m tmpl tag

/-- EDGE (R148): code 43 completes. -/
def execEdge (tmpl : Nat) (tag : Nat) (s : State) : Done := runM s fun m => complete 43 (fun _ => primEdge) m tmpl tag

/-- TIMER_ON (R147): code 44 completes. -/
def execTimerOn (tmpl : Nat) (tag : Nat) (s : State) : Done :=
  runM s fun m => complete 44 (fun _ => primTimerOn) m tmpl tag

/-- TIMER_OFF (R147): code 45 completes. -/
def execTimerOff (tmpl : Nat) (tag : Nat) (s : State) : Done :=
  runM s fun m => complete 45 (fun _ => primTimerOff) m tmpl tag

/-- PULSE (R147): code 46 completes. -/
def execPulse (tmpl : Nat) (tag : Nat) (s : State) : Done :=
  runM s fun m => complete 46 (fun _ => primPulse) m tmpl tag

/-- LATCH_SR (R147): code 47 completes. -/
def execLatchSr (tmpl : Nat) (tag : Nat) (s : State) : Done :=
  runM s fun m => complete 47 (fun _ => primLatchSr) m tmpl tag

/-- COUNT_CONSEC (R149): code 48 completes. -/
def execCountConsec (tmpl : Nat) (tag : Nat) (s : State) : Done :=
  runM s fun m => complete 48 primCountConsec m tmpl tag

/-- COUNT_EVENT (R147): code 49 completes. -/
def execCountEvent (tmpl : Nat) (tag : Nat) (s : State) : Done :=
  runM s fun m => complete 49 (fun _ => primCountEvent) m tmpl tag

/-- TIMER_INTEG (R147): code 50 completes. -/
def execTimerInteg (tmpl : Nat) (tag : Nat) (s : State) : Done :=
  runM s fun m => complete 50 (fun _ => primTimerInteg) m tmpl tag

/-- SAMPLE_HOLD (R147): code 51 completes. -/
def execSampleHold (tmpl : Nat) (tag : Nat) (s : State) : Done :=
  runM s fun m => complete 51 (fun _ => primSampleHold) m tmpl tag

/-- MEAN_WIN (R147): code 52 completes. -/
def execMeanWin (tmpl : Nat) (tag : Nat) (s : State) : Done :=
  runM s fun m => complete 52 (fun _ => primMeanWin) m tmpl tag

/-- RMS_WIN (R147): code 53 completes. -/
def execRmsWin (tmpl : Nat) (tag : Nat) (s : State) : Done :=
  runM s fun m => complete 53 (fun _ => primRmsWin) m tmpl tag

/-- MINMAX_WIN (R147): code 54 completes. -/
def execMinmaxWin (tmpl : Nat) (tag : Nat) (s : State) : Done :=
  runM s fun m => complete 54 (fun _ => primMinMaxWin) m tmpl tag

/-- EW_STAT (R147): code 55 completes. -/
def execEwStat (tmpl : Nat) (tag : Nat) (s : State) : Done :=
  runM s fun m => complete 55 (fun _ => primEwStat) m tmpl tag

/-- CORR_EW (R147): code 56 completes. -/
def execCorrEw (tmpl : Nat) (tag : Nat) (s : State) : Done :=
  runM s fun m => complete 56 (fun _ => primCorrEw) m tmpl tag

/-- SPREAD (R147): code 57 completes. -/
def execSpread (tmpl : Nat) (tag : Nat) (s : State) : Done :=
  runM s fun m => complete 57 (fun _ => primSpread) m tmpl tag

/-- INTEGRATE (R147): code 58 completes. -/
def execIntegrate (tmpl : Nat) (tag : Nat) (s : State) : Done :=
  runM s fun m => complete 58 (fun _ => primIntegrate) m tmpl tag

/-- MODAL_ACC (R150): code 59 completes. -/
def execModalAcc (tmpl : Nat) (tag : Nat) (s : State) : Done :=
  runM s fun m => complete 59 (fun _ => primModalAcc) m tmpl tag

/-- MODAL_FIT (R150): code 60 completes. -/
def execModalFit (tmpl : Nat) (tag : Nat) (s : State) : Done :=
  runM s fun m => complete 60 primModalFit m tmpl tag

/-- MODAL_TRACK (R150): code 61 completes. -/
def execModalTrack (tmpl : Nat) (tag : Nat) (s : State) : Done :=
  runM s fun m => complete 61 primModalTrack m tmpl tag

/-- PGRAM_ACC (R150): code 62 completes. -/
def execPgramAcc (tmpl : Nat) (tag : Nat) (s : State) : Done :=
  runM s fun m => complete 62 (fun _ => primPgramAcc) m tmpl tag

/-- PGRAM_PEAK (R150): code 63 completes. -/
def execPgramPeak (tmpl : Nat) (tag : Nat) (s : State) : Done :=
  runM s fun m => complete 63 primPgramPeak m tmpl tag

/-- GOOSE_PUB (R151): code 64 completes. -/
def execGoosePub (tmpl : Nat) (tag : Nat) (s : State) : Done :=
  runM s fun m => complete 64 (fun _ => primPass) m tmpl tag

/-- GOOSE_STAGE (R151): code 65 completes. -/
def execGooseStage (tmpl : Nat) (tag : Nat) (s : State) : Done :=
  runM s fun m => complete 65 (fun _ => primPass) m tmpl tag

/-- CLAIM (R152): code 66 completes. -/
def execClaim (tmpl : Nat) (tag : Nat) (s : State) : Done :=
  runM s fun m => complete 66 (fun _ => primClaim) m tmpl tag

/-- REC_TRIGGER (R373): code 67 completes. -/
def execRecTrigger (tmpl : Nat) (tag : Nat) (s : State) : Done :=
  runM s fun m => complete 67 (fun _ => condEdge true) m tmpl tag

/-- ALARM (R241): code 68 completes. -/
def execAlarm (tmpl : Nat) (tag : Nat) (s : State) : Done :=
  runM s fun m => complete 68 (fun _ => condEdge false) m tmpl tag

/-- METER_ACC (R420): code 69 completes. -/
def execMeterAcc (tmpl : Nat) (tag : Nat) (s : State) : Done :=
  runM s fun m => complete 69 (fun _ => primPass) m tmpl tag

/-- PMU_PUB (R221): code 70 completes. -/
def execPmuPub (tmpl : Nat) (tag : Nat) (s : State) : Done :=
  runM s fun m => complete 70 (fun _ => primPass) m tmpl tag

/-- EVENT_WRITE (R454): code 71 completes. -/
def execEventWrite (tmpl : Nat) (tag : Nat) (s : State) : Done :=
  runM s fun m => complete 71 (fun _ => condEdge false) m tmpl tag

end Sys2Proof.Machine
end

