-- ==== Sys2Proof/Machine/CmdRec.lean ====
section
/-!
DEFINITION. Meanings of the recording commands.
-/
namespace Sys2Proof.Machine

/-- REC_MANUAL (R371): A manual trigger write triggers each named definition. -/
def execRecManual (half : Nat) (v : Word) (be : BitVec 4) (s : State) : Done :=
  runM s fun m => inRunning m (srcOf (Reg.REC_MANUAL half)) fun m => recManual m half v be

/-- REC_ARM (R375): A guarded REC_ARM write arms, disarms or ends hold-off of a definition. -/
def execRecArm (v : Word) (be : BitVec 4) (s : State) : Done :=
  runM s fun m => inRunning m (srcOf Reg.REC_ARM) fun m => recArm m v be

/-- RECORD_CLOSE (R379): A record reaches its end sample and closes with its reason; hold-off begins. -/
def execRecordClose (defn : Nat) (s : State) : Done := runM s fun m => recordClose m defn

/-- HOLD_OFF_EXPIRY (R380): HOLD_T runs out or HOLD_N triggers are counted and the definition re-arms. -/
def execHoldOffExpiry (defn : Nat) (s : State) : Done := runM s fun m => holdOffExpiry m defn

/-- RECORD_COPY (R381): Keeper copies an open record's rows from the ring into the NAND store, with overrun gaps. -/
def execRecordCopy (num : Nat) (s : State) : Done := runM s fun m => recordCopy m num

/-- RECORD_MEASURE (R384): Keeper computes and stores a closed record's measurements. -/
def execRecordMeasure (num : Nat) (s : State) : Done := runM s fun m => recordMeasure m num

/-- COMTRADE_EXPORT (R385): Keeper exports a record as COMTRADE files, by command or AUTO_EXPORT. -/
def execComtradeExport (s : State) : Done := runW s fun m => comtradeExport m

end Sys2Proof.Machine
end

