-- ==== Sys2Proof/Machine/CmdSv.lean ====
section
/-!
DEFINITION. Meanings of the sampled-value, filter and power-quality commands.
-/
namespace Sys2Proof.Machine

/-- SV_FRAME_RECEIVED (R165): The SV parser processes a frame: subscription checks, tag assignment and per-ASDU ordering.
-/
def execSvFrameReceived (port : Nat) (s : State) : Done := runS s fun m => svFrameReceived m port

/-- SV_TAG_MISSING (R168): A tag's deadline passes without it and a gap token is emitted by MISS_MODE. -/
def execSvTagMissing (sub : Nat) (s : State) : Done := runS s fun m => svTagMissing m sub

/-- SV_SLIP (R162): A scheduled slip takes effect at tag T + 8, inserting or discarding one tag. -/
def execSvSlip (sub : Nat) (s : State) : Done := runS s fun m => svSlip m sub

/-- SV_BLOCK (R172): An SV_BLOCK write blocks or unblocks a subscription from effective tag T + 8. -/
def execSvBlock (v : Word) (be : BitVec 4) (s : State) : Done :=
  runS s fun m => inRunning m (srcOf Reg.SV_BLOCK) fun m => svBlockWrite m v be

/-- FILTER_LANE_SAMPLE (R174): The filter array processes a delivered sample and emits the chain's outputs at master tags.
-/
def execFilterLaneSample (s : State) : Done := runS s fun m => laneSample m

/-- PQ_EVENT_TIMEOUT (R431): An event that lasted 1 s of all-invalid refreshes ends as incomplete. -/
def execPqEventTimeout (pq : Nat) (s : State) : Done := runM s fun m => pqTimeout m pq

/-- PALETTE_SWITCH_START (R189): A request at the head of the fade queue gets effective tag T + 8 and starts a fade or
abrupt switch. -/
def execPaletteSwitchStart (s : State) : Done := runS s fun m => palSwitchStart m

/-- PALETTE_FADE_END (R189): After XF tags only the new Palette runs and the request leaves the queue. -/
def execPaletteFadeEnd (group : Nat) (s : State) : Done := runS s fun m => palFadeEnd m group

end Sys2Proof.Machine
end

