-- ==== Sys2Proof/Machine/CmdTime.lean ====
section
/-!
DEFINITION. Meanings of the time commands.
-/
namespace Sys2Proof.Machine

/-- PTP_MESSAGE_RECEIVED (R329): A PTP message is handled by the engine: BMCA, delay measurement, servo, lock and UTC
data. -/
def execPtpMessageReceived (port : Nat) (s : State) : Done := runS s fun m => ptpReceived m port

/-- PTP_MESSAGE_TIMER (R330): A port's Sync, Announce or delay-request interval runs out and the message is sent. -/
def execPtpMessageTimer (port : Nat) (kind : Nat) (s : State) : Done := runM s fun m => ptpMessageTimer m port kind

/-- REFERENCE_LOST (R314): Announce receipt timeout or three missing Syncs move the clock into Holdover. -/
def execReferenceLost (s : State) : Done := runS s fun m => referenceLost m

/-- SLEW_COMPLETE (R319): A slew removes the offset and the slew term ends. -/
def execSlewComplete (s : State) : Done := runS s fun m => slewComplete m

/-- PPS_EDGE (R310): The nanoseconds count carries into seconds, forming the local 1PPS edge. -/
def execPpsEdge (s : State) : Done := runS s fun m => toPps m

/-- EXT_1PPS_EDGE (R318): An external 1PPS rising edge is captured and used for validity and lock. -/
def execExt1ppsEdge (tenOk : Bool) (s : State) : Done := runS s fun m => extPpsEdge m tenOk

/-- EXT_REFERENCE_LOST (R318): An external input lost for 2 s sets EXT_LOST and moves a Locked master to Holdover. -/
def execExtReferenceLost (ten : Bool) (s : State) : Done := runS s fun m => extLost m ten

/-- LEAP_SECOND_APPLY (R323): At the UTC midnight a pending leap changes the UTC offset and sets PTP_FAULT.LEAP. -/
def execLeapSecondApply (s : State) : Done := runS s fun m => leapApply m

/-- PTP_SET_CMD (R320): A GO write steps the clock to the host time set, accepted only in Free-run or Grandmaster. -/
def execPtpSetCmd (v : Word) (be : BitVec 4) (s : State) : Done :=
  runS s fun m => inRunning m (srcOf Reg.PTP_SET_CMD) fun m => ptpSetCmd m v be

/-- PTP_UTC_WRITE (R322): A PTP_UTC write sets the UTC offset and pending leap when the host is the source. -/
def execPtpUtcWrite (v : Word) (be : BitVec 4) (s : State) : Done :=
  runS s fun m => inRunning m (srcOf Reg.PTP_UTC) fun m => ptpUtcWrite m v be

/-- PTP_FREQ_WRITE (R337): A PTP_FREQ write sets the rate word, refused outside Free-run and Grandmaster. -/
def execPtpFreqWrite (v : Word) (be : BitVec 4) (s : State) : Done :=
  runM s fun m => inRunning m (srcOf Reg.PTP_FREQ) fun m => ptpFreqWrite m v be

/-- FOREIGN_MASTER_RECORD_TIMEOUT (R331): A port's foreign master stops announcing for announceReceiptTimeout, so a
PASSIVE or LISTENING port is re-evaluated, e.g. returning to MASTER in PTP master mode. -/
def execForeignMasterRecordTimeout (port : Nat) (s : State) : Done := runM s fun m => foreignTimeout m port

/-- CLOCK_SECONDS_RETAIN (R312): Every 60 s Keeper retains the local clock's TAI seconds in MRAM for the step at the next
power good. -/
def execClockSecondsRetain (s : State) : Done := runM s fun m => clockRetain m

end Sys2Proof.Machine
end

