-- ==== Sys2Proof/Machine/Dispatch.lean ====
section
/-!
DEFINITION. One meaning per command.
-/
namespace Sys2Proof.Machine

def exec (i : Instr) (s : State) : Host.Outcome State Fault Refusal :=
  match i with
  | .holdOkChange ok cv => Sys2Proof.Machine.execHoldOkChange ok cv s
  | .pcieLinkTrained gen width => Sys2Proof.Machine.execPcieLinkTrained gen width s
  | .tamperDetected cause => Sys2Proof.Machine.execTamperDetected cause s
  | .battLowDetected mv => Sys2Proof.Machine.execBattLowDetected mv s
  | .thermalReading plate junctions => Sys2Proof.Machine.execThermalReading plate junctions s
  | .imageStage rq off len => Sys2Proof.Machine.execImageStage rq off len s
  | .imageCommit rq id => Sys2Proof.Machine.execImageCommit rq id s
  | .imageDiscard rq => Sys2Proof.Machine.execImageDiscard rq s
  | .partitionStart rq part => Sys2Proof.Machine.execPartitionStart rq part s
  | .partitionHalt rq part => Sys2Proof.Machine.execPartitionHalt rq part s
  | .partitionHaltPoint part => Sys2Proof.Machine.execPartitionHaltPoint part s
  | .partitionHalted part => Sys2Proof.Machine.execPartitionHalted part s
  | .partitionLoadComplete part ok => Sys2Proof.Machine.execPartitionLoadComplete part ok s
  | .partitionGoLive part => Sys2Proof.Machine.execPartitionGoLive part s
  | .roleSet rq role => Sys2Proof.Machine.execRoleSet rq role s
  | .timeMode rq mode => Sys2Proof.Machine.execTimeMode rq mode s
  | .testMode rq value => Sys2Proof.Machine.execTestMode rq value s
  | .compatSet rq vz20 => Sys2Proof.Machine.execCompatSet rq vz20 s
  | .status rq => Sys2Proof.Machine.execStatus rq s
  | .stats rq block obj => Sys2Proof.Machine.execStats rq block obj s
  | .nameLookup rq kind num => Sys2Proof.Machine.execNameLookup rq kind num s
  | .fileRead rq handle off len dst => Sys2Proof.Machine.execFileRead rq handle off len dst s
  | .tdSnapshot rq part => Sys2Proof.Machine.execTdSnapshot rq part s
  | .recList rq first count => Sys2Proof.Machine.execRecList rq first count s
  | .recInfo rq num => Sys2Proof.Machine.execRecInfo rq num s
  | .recExport rq num format timeCode off len => Sys2Proof.Machine.execRecExport rq num format timeCode off len s
  | .recDelete rq num => Sys2Proof.Machine.execRecDelete rq num s
  | .mtrLogRead rq first count off => Sys2Proof.Machine.execMtrLogRead rq first count off s
  | .keyCommission rq sig => Sys2Proof.Machine.execKeyCommission rq sig s
  | .keyClose rq => Sys2Proof.Machine.execKeyClose rq s
  | .keyLoad rq slot policy type kid mat auth backupOk => Sys2Proof.Machine.execKeyLoad rq slot policy type kid mat auth backupOk s
  | .keyCommit rq slot => Sys2Proof.Machine.execKeyCommit rq slot s
  | .keyErase rq slot => Sys2Proof.Machine.execKeyErase rq slot s
  | .keySignLog rq slot first count => Sys2Proof.Machine.execKeySignLog rq slot first count s
  | .keyUnseal rq kid mac => Sys2Proof.Machine.execKeyUnseal rq kid mac s
  | .selftestReq rq mask => Sys2Proof.Machine.execSelftestReq rq mask s
  | .selftestFull rq mask results => Sys2Proof.Machine.execSelftestFull rq mask results s
  | .recover rq rung part => Sys2Proof.Machine.execRecover rq rung part s
  | .healthReport rq => Sys2Proof.Machine.execHealthReport rq s
  | .hlthRecoverRung2 part be => Sys2Proof.Machine.execHlthRecoverRung2 part be s
  | .hlthRecoverRung3 be => Sys2Proof.Machine.execHlthRecoverRung3 be s
  | .hlthRecoverRung4 be => Sys2Proof.Machine.execHlthRecoverRung4 be s
  | .shedLevelUpdate core0 core1 core2 core3 => Sys2Proof.Machine.execShedLevelUpdate core0 core1 core2 core3 s
  | .scrubPass word find => Sys2Proof.Machine.execScrubPass word find s
  | .residentSetRewrite cluster engine part => Sys2Proof.Machine.execResidentSetRewrite cluster engine part s
  | .paletteRewrite group => Sys2Proof.Machine.execPaletteRewrite group s
  | .clusterDrained cluster => Sys2Proof.Machine.execClusterDrained cluster s
  | .clusterSelftestComplete cluster pass flowOk ms => Sys2Proof.Machine.execClusterSelftestComplete cluster pass flowOk ms s
  | .ageingReading clusters islands => Sys2Proof.Machine.execAgeingReading clusters islands s
  | .heldTokenEntry tmpl op => Sys2Proof.Machine.execHeldTokenEntry tmpl op s
  | .taskIssue cluster => Sys2Proof.Machine.execTaskIssue cluster s
  | .stealDecision cluster => Sys2Proof.Machine.execStealDecision cluster s
  | .taskRetire tmpl tag => Sys2Proof.Machine.execTaskRetire tmpl tag s
  | .delayExpiry list => Sys2Proof.Machine.execDelayExpiry list s
  | .taskFault tmpl tag kind => Sys2Proof.Machine.execTaskFault tmpl tag kind s
  | .add tmpl tag => Sys2Proof.Machine.execAdd tmpl tag s
  | .sub tmpl tag => Sys2Proof.Machine.execSub tmpl tag s
  | .mul tmpl tag => Sys2Proof.Machine.execMul tmpl tag s
  | .div tmpl tag => Sys2Proof.Machine.execDiv tmpl tag s
  | .mac tmpl tag => Sys2Proof.Machine.execMac tmpl tag s
  | .absNeg tmpl tag => Sys2Proof.Machine.execAbsNeg tmpl tag s
  | .minmax tmpl tag => Sys2Proof.Machine.execMinmax tmpl tag s
  | .sqrt tmpl tag => Sys2Proof.Machine.execSqrt tmpl tag s
  | .scale tmpl tag => Sys2Proof.Machine.execScale tmpl tag s
  | .convert tmpl tag => Sys2Proof.Machine.execConvert tmpl tag s
  | .select tmpl tag => Sys2Proof.Machine.execSelect tmpl tag s
  | .limit tmpl tag => Sys2Proof.Machine.execLimit tmpl tag s
  | .intOp tmpl tag => Sys2Proof.Machine.execIntOp tmpl tag s
  | .poly tmpl tag => Sys2Proof.Machine.execPoly tmpl tag s
  | .cpxMag tmpl tag => Sys2Proof.Machine.execCpxMag tmpl tag s
  | .cpxAng tmpl tag => Sys2Proof.Machine.execCpxAng tmpl tag s
  | .polar tmpl tag => Sys2Proof.Machine.execPolar tmpl tag s
  | .rotate tmpl tag => Sys2Proof.Machine.execRotate tmpl tag s
  | .seqComp tmpl tag => Sys2Proof.Machine.execSeqComp tmpl tag s
  | .deltaPh tmpl tag => Sys2Proof.Machine.execDeltaPh tmpl tag s
  | .power tmpl tag => Sys2Proof.Machine.execPower tmpl tag s
  | .impedance tmpl tag => Sys2Proof.Machine.execImpedance tmpl tag s
  | .loopImp tmpl tag => Sys2Proof.Machine.execLoopImp tmpl tag s
  | .angleDiff tmpl tag => Sys2Proof.Machine.execAngleDiff tmpl tag s
  | .tsComp tmpl tag => Sys2Proof.Machine.execTsComp tmpl tag s
  | .freqEst tmpl tag => Sys2Proof.Machine.execFreqEst tmpl tag s
  | .mho tmpl tag => Sys2Proof.Machine.execMho tmpl tag s
  | .quad tmpl tag => Sys2Proof.Machine.execQuad tmpl tag s
  | .directional tmpl tag => Sys2Proof.Machine.execDirectional tmpl tag s
  | .idmt tmpl tag => Sys2Proof.Machine.execIdmt tmpl tag s
  | .loadEnc tmpl tag => Sys2Proof.Machine.execLoadEnc tmpl tag s
  | .pswing tmpl tag => Sys2Proof.Machine.execPswing tmpl tag s
  | .diffBias tmpl tag => Sys2Proof.Machine.execDiffBias tmpl tag s
  | .diffBiasN tmpl tag => Sys2Proof.Machine.execDiffBiasN tmpl tag s
  | .harmRestr tmpl tag => Sys2Proof.Machine.execHarmRestr tmpl tag s
  | .cmpOver tmpl tag => Sys2Proof.Machine.execCmpOver tmpl tag s
  | .cmpUnder tmpl tag => Sys2Proof.Machine.execCmpUnder tmpl tag s
  | .cmpBand tmpl tag => Sys2Proof.Machine.execCmpBand tmpl tag s
  | .cmpRate tmpl tag => Sys2Proof.Machine.execCmpRate tmpl tag s
  | .cmpDelta tmpl tag => Sys2Proof.Machine.execCmpDelta tmpl tag s
  | .logic64 tmpl tag => Sys2Proof.Machine.execLogic64 tmpl tag s
  | .bitPack tmpl tag => Sys2Proof.Machine.execBitPack tmpl tag s
  | .bitExtract tmpl tag => Sys2Proof.Machine.execBitExtract tmpl tag s
  | .edge tmpl tag => Sys2Proof.Machine.execEdge tmpl tag s
  | .timerOn tmpl tag => Sys2Proof.Machine.execTimerOn tmpl tag s
  | .timerOff tmpl tag => Sys2Proof.Machine.execTimerOff tmpl tag s
  | .pulse tmpl tag => Sys2Proof.Machine.execPulse tmpl tag s
  | .latchSr tmpl tag => Sys2Proof.Machine.execLatchSr tmpl tag s
  | .countConsec tmpl tag => Sys2Proof.Machine.execCountConsec tmpl tag s
  | .countEvent tmpl tag => Sys2Proof.Machine.execCountEvent tmpl tag s
  | .timerInteg tmpl tag => Sys2Proof.Machine.execTimerInteg tmpl tag s
  | .sampleHold tmpl tag => Sys2Proof.Machine.execSampleHold tmpl tag s
  | .meanWin tmpl tag => Sys2Proof.Machine.execMeanWin tmpl tag s
  | .rmsWin tmpl tag => Sys2Proof.Machine.execRmsWin tmpl tag s
  | .minmaxWin tmpl tag => Sys2Proof.Machine.execMinmaxWin tmpl tag s
  | .ewStat tmpl tag => Sys2Proof.Machine.execEwStat tmpl tag s
  | .corrEw tmpl tag => Sys2Proof.Machine.execCorrEw tmpl tag s
  | .spread tmpl tag => Sys2Proof.Machine.execSpread tmpl tag s
  | .integrate tmpl tag => Sys2Proof.Machine.execIntegrate tmpl tag s
  | .modalAcc tmpl tag => Sys2Proof.Machine.execModalAcc tmpl tag s
  | .modalFit tmpl tag => Sys2Proof.Machine.execModalFit tmpl tag s
  | .modalTrack tmpl tag => Sys2Proof.Machine.execModalTrack tmpl tag s
  | .pgramAcc tmpl tag => Sys2Proof.Machine.execPgramAcc tmpl tag s
  | .pgramPeak tmpl tag => Sys2Proof.Machine.execPgramPeak tmpl tag s
  | .goosePub tmpl tag => Sys2Proof.Machine.execGoosePub tmpl tag s
  | .gooseStage tmpl tag => Sys2Proof.Machine.execGooseStage tmpl tag s
  | .claim tmpl tag => Sys2Proof.Machine.execClaim tmpl tag s
  | .recTrigger tmpl tag => Sys2Proof.Machine.execRecTrigger tmpl tag s
  | .alarm tmpl tag => Sys2Proof.Machine.execAlarm tmpl tag s
  | .meterAcc tmpl tag => Sys2Proof.Machine.execMeterAcc tmpl tag s
  | .pmuPub tmpl tag => Sys2Proof.Machine.execPmuPub tmpl tag s
  | .eventWrite tmpl tag => Sys2Proof.Machine.execEventWrite tmpl tag s
  | .settingsGroupRequest v be => Sys2Proof.Machine.execSettingsGroupRequest v be s
  | .macFrameReceived port frame => Sys2Proof.Machine.execMacFrameReceived port frame s
  | .linkDown port cut => Sys2Proof.Machine.execLinkDown port cut s
  | .linkUp port speedOk => Sys2Proof.Machine.execLinkUp port speedOk s
  | .pauseExpiry port => Sys2Proof.Machine.execPauseExpiry port s
  | .frameTransmit port => Sys2Proof.Machine.execFrameTransmit port s
  | .arpRefresh port => Sys2Proof.Machine.execArpRefresh port s
  | .supervisionFrameTimer pair => Sys2Proof.Machine.execSupervisionFrameTimer pair s
  | .nodeForget pair => Sys2Proof.Machine.execNodeForget pair s
  | .parserHoldRelease port => Sys2Proof.Machine.execParserHoldRelease port s
  | .hostRxRingTail ring v be => Sys2Proof.Machine.execHostRxRingTail ring v be s
  | .hostTxRingTail ring v be => Sys2Proof.Machine.execHostTxRingTail ring v be s
  | .hostTxDescriptor ring => Sys2Proof.Machine.execHostTxDescriptor ring s
  | .hostTxQueueTimeout ring => Sys2Proof.Machine.execHostTxQueueTimeout ring s
  | .ringBaseSizeWrite ring size v be => Sys2Proof.Machine.execRingBaseSizeWrite ring size v be s
  | .m0FrameReceived bytes full => Sys2Proof.Machine.execM0FrameReceived bytes full s
  | .svFrameReceived port => Sys2Proof.Machine.execSvFrameReceived port s
  | .svTagMissing sub => Sys2Proof.Machine.execSvTagMissing sub s
  | .svSlip sub => Sys2Proof.Machine.execSvSlip sub s
  | .svBlock v be => Sys2Proof.Machine.execSvBlock v be s
  | .pqEventTimeout pq => Sys2Proof.Machine.execPqEventTimeout pq s
  | .paletteFadeEnd group => Sys2Proof.Machine.execPaletteFadeEnd group s
  | .pmuFrameReceived port => Sys2Proof.Machine.execPmuFrameReceived port s
  | .pmuTcpFrame input frame => Sys2Proof.Machine.execPmuTcpFrame input frame s
  | .pmuTcpReconnect input ok => Sys2Proof.Machine.execPmuTcpReconnect input ok s
  | .pmuTcpDown input => Sys2Proof.Machine.execPmuTcpDown input s
  | .pmuInputLost input => Sys2Proof.Machine.execPmuInputLost input s
  | .c37CommandFrame port => Sys2Proof.Machine.execC37CommandFrame port s
  | .sluiceRelease out => Sys2Proof.Machine.execSluiceRelease out s
  | .sluiceReleaseResume out => Sys2Proof.Machine.execSluiceReleaseResume out s
  | .configChangeFlagExpiry out => Sys2Proof.Machine.execConfigChangeFlagExpiry out s
  | .bsnInBlock v be => Sys2Proof.Machine.execBsnInBlock v be s
  | .wadAlmAck v be => Sys2Proof.Machine.execWadAlmAck v be s
  | .federationMessageReceived port => Sys2Proof.Machine.execFederationMessageReceived port s
  | .federationRepeat alarm => Sys2Proof.Machine.execFederationRepeat alarm s
  | .gooseFrameReceived port => Sys2Proof.Machine.execGooseFrameReceived port s
  | .gooseTalExpiry sub => Sys2Proof.Machine.execGooseTalExpiry sub s
  | .gooseRetransmit pub => Sys2Proof.Machine.execGooseRetransmit pub s
  | .hello crcOk data => Sys2Proof.Machine.execHello crcOk data s
  | .heartbeat crcOk data => Sys2Proof.Machine.execHeartbeat crcOk data s
  | .digest crcOk tag output state => Sys2Proof.Machine.execDigest crcOk tag output state s
  | .copy crcOk tag recs => Sys2Proof.Machine.execCopy crcOk tag recs s
  | .copyEnd crcOk tag count bytes crc => Sys2Proof.Machine.execCopyEnd crcOk tag count bytes crc s
  | .sweep crcOk recs last => Sys2Proof.Machine.execSweep crcOk recs last s
  | .fault crcOk reason tag => Sys2Proof.Machine.execFault crcOk reason tag s
  | .revertReq crcOk tag => Sys2Proof.Machine.execRevertReq crcOk tag s
  | .revertAck crcOk tag => Sys2Proof.Machine.execRevertAck crcOk tag s
  | .revertNak crcOk tag => Sys2Proof.Machine.execRevertNak crcOk tag s
  | .refereeStatus port => Sys2Proof.Machine.execRefereeStatus port s
  | .report port => Sys2Proof.Machine.execReport port s
  | .takeoverReq port => Sys2Proof.Machine.execTakeoverReq port s
  | .verdict port => Sys2Proof.Machine.execVerdict port s
  | .grant port => Sys2Proof.Machine.execGrant port s
  | .refStatus port => Sys2Proof.Machine.execRefStatus port s
  | .verdictWaitExpiry tag => Sys2Proof.Machine.execVerdictWaitExpiry tag s
  | .copyBoundMiss tag => Sys2Proof.Machine.execCopyBoundMiss tag s
  | .outUnitWrite v be => Sys2Proof.Machine.execOutUnitWrite v be s
  | .outEpochSet v be => Sys2Proof.Machine.execOutEpochSet v be s
  | .ptpMessageReceived port => Sys2Proof.Machine.execPtpMessageReceived port s
  | .ptpMessageTimer port kind => Sys2Proof.Machine.execPtpMessageTimer port kind s
  | .ext1ppsEdge tenOk => Sys2Proof.Machine.execExt1ppsEdge tenOk s
  | .extReferenceLost ten => Sys2Proof.Machine.execExtReferenceLost ten s
  | .ptpSetCmd v be => Sys2Proof.Machine.execPtpSetCmd v be s
  | .ptpUtcWrite v be => Sys2Proof.Machine.execPtpUtcWrite v be s
  | .ptpFreqWrite v be => Sys2Proof.Machine.execPtpFreqWrite v be s
  | .ptpMboxSel v be => Sys2Proof.Machine.execPtpMboxSel v be s
  | .mtrMboxSel v be => Sys2Proof.Machine.execMtrMboxSel v be s
  | .evrMboxSel v be => Sys2Proof.Machine.execEvrMboxSel v be s
  | .hostMboxSel v be => Sys2Proof.Machine.execHostMboxSel v be s
  | .mboxData3Read box be => Sys2Proof.Machine.execMboxData3Read box be s
  | .recManual half v be => Sys2Proof.Machine.execRecManual half v be s
  | .recArm v be => Sys2Proof.Machine.execRecArm v be s
  | .recordClose defn => Sys2Proof.Machine.execRecordClose defn s
  | .holdOffExpiry defn => Sys2Proof.Machine.execHoldOffExpiry defn s
  | .recordCopy num => Sys2Proof.Machine.execRecordCopy num s
  | .recordMeasure num => Sys2Proof.Machine.execRecordMeasure num s
  | .dmaChain ch v be byKeeper => Sys2Proof.Machine.execDmaChain ch v be byKeeper s
  | .dmaAbort ch v be byKeeper => Sys2Proof.Machine.execDmaAbort ch v be byKeeper s
  | .dmaRetry ch v be byKeeper => Sys2Proof.Machine.execDmaRetry ch v be byKeeper s
  | .dmaDescriptorComplete ch meet => Sys2Proof.Machine.execDmaDescriptorComplete ch meet s
  | .dmaTimeout ch done => Sys2Proof.Machine.execDmaTimeout ch done s
  | .cmpRingTail lane v be byKeeper => Sys2Proof.Machine.execCmpRingTail lane v be byKeeper s
  | .cmpJobComplete lane meet => Sys2Proof.Machine.execCmpJobComplete lane meet s
  | .pulseStart out => Sys2Proof.Machine.execPulseStart out s
  | .pulseEnd out => Sys2Proof.Machine.execPulseEnd out s
  | .mtrSaveCmd v be => Sys2Proof.Machine.execMtrSaveCmd v be s
  | .saveVerify ok => Sys2Proof.Machine.execSaveVerify ok s
  | .mtrClearTestSet pt be => Sys2Proof.Machine.execMtrClearTestSet pt be s
  | .mtrClearServiceSet pt be => Sys2Proof.Machine.execMtrClearServiceSet pt be s
  | .mtrClearWrap pt be => Sys2Proof.Machine.execMtrClearWrap pt be s
  | .mtrClearOverLost pt be => Sys2Proof.Machine.execMtrClearOverLost pt be s
  | .mtrLogAck v be => Sys2Proof.Machine.execMtrLogAck v be s
  | .keySealCmd v be => Sys2Proof.Machine.execKeySealCmd v be s
  | .evrRdCmd v be => Sys2Proof.Machine.execEvrRdCmd v be s
  | .graceExpiry slot => Sys2Proof.Machine.execGraceExpiry slot s
  | .tagBackgroundPass slot => Sys2Proof.Machine.execTagBackgroundPass slot s
  | .keygateWrite block v be => Sys2Proof.Machine.execKeygateWrite block v be s
  | .keygateRelock block => Sys2Proof.Machine.execKeygateRelock block s
  | .hostStrobe v be => Sys2Proof.Machine.execHostStrobe v be s
  | .blockApplyPoint block unit => Sys2Proof.Machine.execBlockApplyPoint block unit s
  | .hostSgrpWrite num v be => Sys2Proof.Machine.execHostSgrpWrite num v be s
  | .clearOnReadRead addr be => Sys2Proof.Machine.execClearOnReadRead addr be s
  | .reservedAccess addr write => Sys2Proof.Machine.execReservedAccess addr write s
  | .registerWrite addr v be => Sys2Proof.Machine.execRegisterWrite addr v be s
  | .msixVectorUnmask vec => Sys2Proof.Machine.execMsixVectorUnmask vec s
  | .ringIntHoldoffExpiry ring => Sys2Proof.Machine.execRingIntHoldoffExpiry ring s
  | .startStepComplete outcome => Sys2Proof.Machine.execStartStepComplete outcome s
  | .cycleBoundaryAtInstant part => Sys2Proof.Machine.execCycleBoundaryAtInstant part s
  | .dmaDescriptorFetch ch => Sys2Proof.Machine.execDmaDescriptorFetch ch s
  | .foreignMasterRecordTimeout port => Sys2Proof.Machine.execForeignMasterRecordTimeout port s
  | .evrRdData15Read be => Sys2Proof.Machine.execEvrRdData15Read be s
  | .powerGood => Sys2Proof.Machine.execPowerGood s
  | .pfailNAssert => Sys2Proof.Machine.execPfailNAssert s
  | .inputUndervoltage => Sys2Proof.Machine.execInputUndervoltage s
  | .holdLowCheck => Sys2Proof.Machine.execHoldLowCheck s
  | .pcieReset => Sys2Proof.Machine.execPcieReset s
  | .powerCycleTimeout => Sys2Proof.Machine.execPowerCycleTimeout s
  | .watchdogExpiry => Sys2Proof.Machine.execWatchdogExpiry s
  | .keeperRestartComplete => Sys2Proof.Machine.execKeeperRestartComplete s
  | .keeperReadyTimeout => Sys2Proof.Machine.execKeeperReadyTimeout s
  | .selftestRotationSlot => Sys2Proof.Machine.execSelftestRotationSlot s
  | .tokenMatch => Sys2Proof.Machine.execTokenMatch s
  | .precedenceIntervalEnd => Sys2Proof.Machine.execPrecedenceIntervalEnd s
  | .filterLaneSample => Sys2Proof.Machine.execFilterLaneSample s
  | .paletteSwitchStart => Sys2Proof.Machine.execPaletteSwitchStart s
  | .alarmStreamSecond => Sys2Proof.Machine.execAlarmStreamSecond s
  | .helloTimer => Sys2Proof.Machine.execHelloTimer s
  | .heartbeatTimer => Sys2Proof.Machine.execHeartbeatTimer s
  | .statusTimer => Sys2Proof.Machine.execStatusTimer s
  | .refStatusTimer => Sys2Proof.Machine.execRefStatusTimer s
  | .towpathLaneLockLoss => Sys2Proof.Machine.execTowpathLaneLockLoss s
  | .towpathLost => Sys2Proof.Machine.execTowpathLost s
  | .takeoverReqRetry => Sys2Proof.Machine.execTakeoverReqRetry s
  | .startPeerWaitExpiry => Sys2Proof.Machine.execStartPeerWaitExpiry s
  | .refereeAbsent => Sys2Proof.Machine.execRefereeAbsent s
  | .hbWaitExpiry => Sys2Proof.Machine.execHbWaitExpiry s
  | .takeoverIntervalEnd => Sys2Proof.Machine.execTakeoverIntervalEnd s
  | .revertHoldExpiry => Sys2Proof.Machine.execRevertHoldExpiry s
  | .referenceLost => Sys2Proof.Machine.execReferenceLost s
  | .slewComplete => Sys2Proof.Machine.execSlewComplete s
  | .ppsEdge => Sys2Proof.Machine.execPpsEdge s
  | .leapSecondApply => Sys2Proof.Machine.execLeapSecondApply s
  | .comtradeExport => Sys2Proof.Machine.execComtradeExport s
  | .periodicSave => Sys2Proof.Machine.execPeriodicSave s
  | .eventCommit => Sys2Proof.Machine.execEventCommit s
  | .commissioningTimeout => Sys2Proof.Machine.execCommissioningTimeout s
  | .towpathLaneLockRegain => Sys2Proof.Machine.execTowpathLaneLockRegain s
  | .testDrainReturnTimeout => Sys2Proof.Machine.execTestDrainReturnTimeout s
  | .rung3StartStep9Timeout => Sys2Proof.Machine.execRung3StartStep9Timeout s
  | .clockSecondsRetain => Sys2Proof.Machine.execClockSecondsRetain s

end Sys2Proof.Machine
end

