-- ==== Sys2Proof/Machine/Step.lean ====
section
/-!
DEFINITION. A step of the block: the command at the front of its queue, or time passing.
-/
namespace Sys2Proof.Machine

/-- A step: the command at the front of the queue is taken and executed on the state with the queue's rest. On an empty queue
one 25 MHz tick of the local clock passes (R310, R311; log 2), in a module that has its supply. -/
def step (s : State) : Host.Outcome State Fault Refusal :=
  match s.pending with
  | c :: rest => exec c { s with pending := rest }
  | [] => if s.m.hlth.power = .off then .next s else .next { s with m := tick s.m }

/-- The table gives its rows no bits, so no word spells a command and the queue stays as it is. -/
def State.withFetchWord (s : State) (nbits w : Nat) : State :=
  match Sys2Proof.decodeTableWord nbits w with
  | some c => { s with pending := c :: s.pending }
  | none => s

end Sys2Proof.Machine
end

