-- ==== Sys2Proof/Safety.lean ====
section
/-!
DEFINITION. The terms in which claims about the block are stated: what an outcome leaves, what may still wait, and the invariant of
its memories.
-/
namespace Sys2Proof.Machine

/-- The module has its supply and is not stopped for its temperature. -/
abbrev Powered (s : State) : Prop := s.m.hlth.power = .on

/-- The command answers a next state that differs from `s` in the module alone; the module is `u`, of which `P` holds. Queue and
memories stay. -/
def Leaves (i : Instr) (s : State) (u : Mod) (P : Mod → Prop) : Prop := exec i s = .next { s with m := u } ∧ P u

/-- The command answers the next state that follows at once (`settleState`) from the module `u`, of which `P` holds. -/
def Becomes (i : Instr) (s : State) (u : Mod) (P : Mod → Prop) : Prop := exec i s = .next (settleState s u) ∧ P u

/-- The command answers a next state whose module is `u`, of which `P` holds, and whose memories differ by the writes `ws`. -/
def Stores (i : Instr) (s : State) (u : Mod) (ws : List MemWrite) (P : Mod → Prop) : Prop :=
  exec i s = .next { s with m := u, mem := memWrites s.mem ws } ∧ P u

/-- Nothing waits for what a command changes: no rung 2 is asked for, no commit, no planned clock and no partition of a thermal
shed waits, no DRAM loss is pending and the seal asks for no log. -/
abbrev NothingWaits (m : Mod) : Prop :=
  m.rung2 = [] ∧ m.img.commit = none ∧ m.hlth.shedFor = none ∧ m.hlth.pendClk = [] ∧ m.hlth.shedMask = 0 ∧
    m.hlth.wipe = false ∧ sealLogs m = false

/-- No commit waits for a takeover or revert to end, and none has still to replace the common sections (R59, R63). -/
def CommitSettled (m : Mod) : Prop := ∀ c, m.img.commit = some c → c.waiting = false ∧ (c.full = false ∨ c.begun = true)

/-- Both memories are in canonical form. -/
abbrev MemoryCanonical (s : State) : Prop := s.mem.wf = true

/-- Commands that write memory: file and log reads into module DRAM, frames into host rings, DMA, compression and exports. -/
def writesMemory : Instr → Bool
  | .fileRead _ _ _ _ _ | .mtrLogRead _ _ _ _ | .macFrameReceived _ _ | .hostTxDescriptor _ | .hostTxQueueTimeout _
  | .dmaDescriptorComplete _ _ | .dmaTimeout _ _ | .cmpJobComplete _ _ | .comtradeExport => true
  | _ => false

/-- The timer of a command runs, and its instant has come. -/
abbrev Due (m : Mod) (k : TimerKind) (i : Nat) : Prop := ∃ d ∈ timerDue m k i, d ≤ m.clk.elapsed

/-- Bit `b` of the register at `off` reads 1. -/
abbrev Bit (m : Mod) (off b : Nat) : Prop := (reg m off).toNat.testBit b = true

/-- Registers that neither an event nor its interrupt changes. -/
def eventFree (off : Nat) : Bool := decide (off < 0x3F8000) && off != Reg.EVR_LOST_CNT && off != Reg.EVR_FAULT

/-- A register that neither events nor responses touch. -/
def responseFree (off : Nat) : Bool :=
  eventFree off && off != Reg.KPR_RSP_INFO && off != Reg.KPR_RSP_TAG && off != Reg.KPR_CNT_CMD && off != Reg.KPR_FAULT

/-- The response `r` of Keeper to the command: on the PCIe mailbox in KPR_RSP_INFO, KPR_RSP_TAG and KPR_RSP with KPR_FAULT.DONE and
BUSY clear, or the latest frame sent on the request's M0 session (R485, R486). -/
def Answers (u : Mod) (rq : KReq) (cmd : Nat) (r : KResp) : Prop :=
  if rq.pcie then
    reg u Reg.KPR_RSP_INFO = BitVec.ofNat 32 (cmd * 65536 + r.result) ∧ reg u Reg.KPR_RSP_TAG = BitVec.ofNat 32 rq.tag ∧
      u.kpr.busy = false ∧ u.kpr.rsp = writeBytes [] 0 ((respBytes cmd rq.tag r).take 4096) ∧ Bit u Reg.KPR_FAULT 0
  else u.sent.head? = some (.m0 0 (respBytes cmd rq.tag r))

/-- Some response of Keeper with RESULT `result`. -/
def Answered (u : Mod) (rq : KReq) (cmd result : Nat) : Prop := ∃ r, r.result = result ∧ Answers u rq cmd r

/-- Keeper takes the command: it is ready, and its shed level is below the level at which the command is refused. -/
abbrev KeeperTakes (m : Mod) (shed : Nat) : Prop := m.kpr.ready = true ∧ ¬(shed ≠ 0 ∧ shed ≤ m.kpr.shed)

/-- Both modules agree on everything that a response of Keeper and its events do not touch. -/
def SameButResponse (m u : Mod) : Prop :=
  u = { m with regs := u.regs, sent := u.sent, host := u.host, evr := u.evr, kpr := u.kpr }


/-- The task-completion commands: template and tag of the task, the code of its primitive (R147) and what the primitive computes. -/
def taskDone : Instr → Option (Nat × Nat × Nat × (Nat → PrimIn → Raw))
  | .add t g => some (t, g, 0, fun _ => primAdd)
  | .sub t g => some (t, g, 1, fun _ => primSub)
  | .mul t g => some (t, g, 2, fun _ => primMul)
  | .div t g => some (t, g, 3, fun _ => primDiv)
  | .mac t g => some (t, g, 4, fun _ => primMac)
  | .absNeg t g => some (t, g, 5, fun _ => primAbsNeg)
  | .minmax t g => some (t, g, 6, fun _ => primMinMax)
  | .sqrt t g => some (t, g, 7, fun _ => primSqrt)
  | .scale t g => some (t, g, 8, fun _ => primScale)
  | .convert t g => some (t, g, 9, fun _ => primConvert)
  | .select t g => some (t, g, 10, fun _ => primSelect)
  | .limit t g => some (t, g, 11, fun _ => primLimit)
  | .intOp t g => some (t, g, 12, fun _ => primIntOp)
  | .poly t g => some (t, g, 13, fun _ => primPoly)
  | .cpxMag t g => some (t, g, 14, fun _ => primCpxMag)
  | .cpxAng t g => some (t, g, 15, fun _ => primCpxAng)
  | .polar t g => some (t, g, 16, fun _ => primPolar)
  | .rotate t g => some (t, g, 17, fun _ => primRotate)
  | .seqComp t g => some (t, g, 18, fun _ => primSeqComp)
  | .deltaPh t g => some (t, g, 19, fun _ => primDeltaPh)
  | .power t g => some (t, g, 20, fun _ => primPower)
  | .impedance t g => some (t, g, 21, fun _ => primImpedance)
  | .loopImp t g => some (t, g, 22, fun _ => primLoopImp)
  | .angleDiff t g => some (t, g, 23, fun _ => primAngleDiff)
  | .tsComp t g => some (t, g, 24, fun _ => primTsComp)
  | .freqEst t g => some (t, g, 25, fun _ => primFreqEst)
  | .mho t g => some (t, g, 26, fun _ => primMho)
  | .quad t g => some (t, g, 27, fun _ => primQuad)
  | .directional t g => some (t, g, 28, fun _ => primDirectional)
  | .idmt t g => some (t, g, 29, fun _ => primIdmt)
  | .loadEnc t g => some (t, g, 30, fun _ => primLoadEnc)
  | .pswing t g => some (t, g, 31, fun _ => primPswing)
  | .diffBias t g => some (t, g, 32, fun _ => primDiffBias)
  | .diffBiasN t g => some (t, g, 33, fun _ => primDiffBiasN)
  | .harmRestr t g => some (t, g, 34, fun _ => primHarmRestr)
  | .cmpOver t g => some (t, g, 35, fun _ => primCmpOver)
  | .cmpUnder t g => some (t, g, 36, fun _ => primCmpUnder)
  | .cmpBand t g => some (t, g, 37, fun _ => primCmpBand)
  | .cmpRate t g => some (t, g, 38, fun _ => primCmpRate)
  | .cmpDelta t g => some (t, g, 39, fun _ => primCmpDelta)
  | .logic64 t g => some (t, g, 40, fun _ => primLogic64)
  | .bitPack t g => some (t, g, 41, fun _ => primBitPack)
  | .bitExtract t g => some (t, g, 42, fun _ => primBitExtract)
  | .edge t g => some (t, g, 43, fun _ => primEdge)
  | .timerOn t g => some (t, g, 44, fun _ => primTimerOn)
  | .timerOff t g => some (t, g, 45, fun _ => primTimerOff)
  | .pulse t g => some (t, g, 46, fun _ => primPulse)
  | .latchSr t g => some (t, g, 47, fun _ => primLatchSr)
  | .countConsec t g => some (t, g, 48, primCountConsec)
  | .countEvent t g => some (t, g, 49, fun _ => primCountEvent)
  | .timerInteg t g => some (t, g, 50, fun _ => primTimerInteg)
  | .sampleHold t g => some (t, g, 51, fun _ => primSampleHold)
  | .meanWin t g => some (t, g, 52, fun _ => primMeanWin)
  | .rmsWin t g => some (t, g, 53, fun _ => primRmsWin)
  | .minmaxWin t g => some (t, g, 54, fun _ => primMinMaxWin)
  | .ewStat t g => some (t, g, 55, fun _ => primEwStat)
  | .corrEw t g => some (t, g, 56, fun _ => primCorrEw)
  | .spread t g => some (t, g, 57, fun _ => primSpread)
  | .integrate t g => some (t, g, 58, fun _ => primIntegrate)
  | .modalAcc t g => some (t, g, 59, fun _ => primModalAcc)
  | .modalFit t g => some (t, g, 60, primModalFit)
  | .modalTrack t g => some (t, g, 61, primModalTrack)
  | .pgramAcc t g => some (t, g, 62, fun _ => primPgramAcc)
  | .pgramPeak t g => some (t, g, 63, primPgramPeak)
  | .goosePub t g => some (t, g, 64, fun _ => primPass)
  | .gooseStage t g => some (t, g, 65, fun _ => primPass)
  | .claim t g => some (t, g, 66, fun _ => primClaim)
  | .recTrigger t g => some (t, g, 67, fun _ => condEdge true)
  | .alarm t g => some (t, g, 68, fun _ => condEdge false)
  | .meterAcc t g => some (t, g, 69, fun _ => primPass)
  | .pmuPub t g => some (t, g, 70, fun _ => primPass)
  | .eventWrite t g => some (t, g, 71, fun _ => condEdge false)
  | _ => none

end Sys2Proof.Machine
end

