-- ==== Sys2Proof/Certificates/Slice0/Obligations.lean ====
section
/-!
DEFINITION. Statements about the block for the provers. `Leaves`, `Becomes` and `Stores` (Sys2Proof/Safety.lean) say that a command
answers a next state, and what holds of its module.
-/
open Sys2Proof Sys2Proof.Machine

/-! ## The queue, time and memory -/

/-- A step takes the command at the front of the queue and executes it on the state with the queue's rest. -/
def Obligations.StepRunsTheFrontCommand : Prop :=
  ∀ (c : Instr) (rest : List Instr) (s : State), s.pending = c :: rest → step s = exec c { s with pending := rest }

/-- On an empty queue one tick of the local clock passes in a module that has its supply, and nothing happens in one that has not
(the model's choice, log 2). -/
def Obligations.EmptyQueueLetsTimePass : Prop :=
  ∀ s : State, s.pending = [] →
    (s.m.hlth.power ≠ .off → step s = .next { s with m := tick s.m }) ∧ (s.m.hlth.power = .off → step s = .next s)

/-- Every step keeps both memories in canonical form. -/
def Obligations.StepKeepsMemoryCanonical : Prop :=
  ∀ s t : State, MemoryCanonical s → step s = .next t → MemoryCanonical t

/-- Memory is canonical at reset. -/
def Obligations.ResetMemoryIsCanonical : Prop :=
  MemoryCanonical State.reset ∧ ∀ a : Nat, memByte State.reset.mem true a = 0 ∧ memByte State.reset.mem false a = 0

/-- Every command answers a next state, and none changes the queue. -/
def Obligations.EveryCommandCompletes : Prop :=
  ∀ (i : Instr) (s : State), ∃ t, exec i s = .next t ∧ t.pending = s.pending

/-- The frame of memory: a command that is no transfer leaves every byte of the host's memory as it was, and every byte of module
DRAM, unless the command loses DRAM as a whole (a device reset or the supply's failure). -/
def Obligations.OnlyTransfersWriteMemory : Prop :=
  ∀ (i : Instr) (s t : State), writesMemory i = false → exec i s = .next t →
    (∀ a, memByte t.mem true a = memByte s.mem true a) ∧
      ((∀ a, memByte t.mem false a = memByte s.mem false a) ∨ t.mem.dram = [])

/-- A module without supply: a command changes nothing, but for those that the battery domain, the hold-up circuit or the supply
itself take part in (the model's reading, log 1). -/
def Obligations.NoEffectWithoutSupply : Prop :=
  ∀ (i : Instr) (s : State), s.m.hlth.power = .off →
    i ≠ .powerGood → i ≠ .pfailNAssert → i ≠ .inputUndervoltage → (∀ c, i ≠ .tamperDetected c) →
    (∀ ok cv, i ≠ .holdOkChange ok cv) → (∀ ok, i ≠ .saveVerify ok) → exec i s = .next s

/-- What follows a command at once is nothing where nothing waits: the next state is the command's own effect. -/
def Obligations.NothingFollowsWhereNothingWaits : Prop :=
  ∀ (s : State) (u : Mod), NothingWaits u → settleState s u = { s with m := u }

/-! ## Keeper's mailbox -/

/-- Queries of Keeper answer RESULT 0 with what they ask for, and change nothing beside the response and its audit event: STATUS the
modes, partitions and Image_IDs, HEALTH_REPORT the margins, test results and temperatures, REC_LIST at most 200 records, REC_INFO a
stored record, NAME_LOOKUP the name of a named object, SELFTEST_FULL the result of each cluster that serves no Live or loading
partition (the bytes of HEALTH_REPORT, REC_LIST, REC_INFO and SELFTEST_FULL are free values of what they hold: logs 267 and 323). -/
def Obligations.KeeperAnswersQueries : Prop :=
  ∀ (s : State) (rq : KReq), Powered s → KeeperTakes s.m 1 →
    Leaves (.status rq) s (statusCmd s.m rq) (fun u => SameButResponse s.m u ∧ Answers u rq 0x0001
      { result := 0
        data := [partCode (partOf s.m 0).state, partCode (partOf s.m 1).state, partCode (partOf s.m 2).state,
            partCode (partOf s.m 3).state, roleCode s.m.mode.role, timeModeCode s.m.clk.mode, testCode s.m.mode.test,
            sealCode (sealState s.m), s.m.kpr.shed, if s.m.img.staged.isSome then 1 else 0, commitStep s.m,
            s.m.img.result].map (fun n => BitVec.ofNat 8 n) ++
          ([0, 1, 2, 3].map fun p =>
            leBytes 16 (if (partOf s.m p).state = .absent then 0 else (imageOf s.m p).imageId)).flatten }) ∧
    Leaves (.healthReport rq) s (healthReport s.m rq) (fun u => SameButResponse s.m u ∧ Answers u rq 0x0083
      { result := 0
        data := Config.healthBytes
          ([((List.range 16).map fun c => ((reg s.m (Reg.HLTH_CL_MARGIN c)).toNat : Int)) ++
              (List.range 10).map fun i => ((reg s.m (Reg.HLTH_IS_MARGIN i)).toNat : Int)] ++
            (s.m.hlth.results.map fun r => [(r.1 : Int), (r.2.1 : Int), (r.2.2 : Int)]) ++
            [[((reg s.m Reg.HLTH_PREDICT).toNat : Int)], s.m.hlth.plate :: s.m.hlth.junctions]) }) ∧
    (∀ first count, count ≤ 200 →
      Leaves (.recList rq first count) s (recList s.m rq first count) fun u => SameButResponse s.m u ∧ Answers u rq 0x0050
        { result := 0
          data := (((s.m.rec_.recs.filter fun r => decide (first ≤ r.num)).take count).map fun r =>
            (Config.recListBytes r.num r.def_ r.closed.isNone r.openSec).toList).flatten }) ∧
    (∀ n r, recFile s.m n = some r →
      Leaves (.recInfo rq n) s (recInfo s.m rq n) fun u => SameButResponse s.m u ∧ Answers u rq 0x0051
        { result := 0
          data := (Config.recInfoBytes ([[n, recFlags r, (r.closed.map (·.1)).getD 0, recLength r]] ++
            (r.trigs.map fun t => [t.cls, t.num, t.time, t.kind, t.val]) ++
            (r.meas.getD []).flatten.map fun x => [x.val, x.valid, x.time])).take 4080 }) ∧
    (∀ kind num, 1 ≤ kind → kind ≤ 9 → (∃ p x, p < 4 ∧ (kind, num, x) ∈ (imageOf s.m p).names) →
      Leaves (.nameLookup rq kind num) s (nameLookup s.m rq kind num) fun u => SameButResponse s.m u ∧
        ∃ p x, p < 4 ∧ (kind, num, x) ∈ (imageOf s.m p).names ∧ Answers u rq 0x0003 { result := 0, data := x ++ [0] }) ∧
    (∀ mask res, mask < 2 ^ 16 → (∀ p < 4, (partOf s.m p).state = .live ∨ (partOf s.m p).state = .loading →
        (imageOf s.m p).homeSet &&& mask = 0) →
      Becomes (.selftestFull rq mask res) s (selfTestFull s.m rq mask res) fun u => SameButResponse s.m u ∧ Answers u rq 0x0081
        { result := 0
          data := Config.fullTestBytes (((List.range 16).filter mask.testBit).map fun c => match res.find? (·.cl == c) with
            | some r => [c, if r.pass then 1 else 3, r.unit]
            | none => [c, 0, 0]) })

/-- Settings that Keeper takes: IMAGE_DISCARD drops the staged image, COMPAT_SET and TIME_MODE note what the next device reset and the
next 1PPS edge bring, TEST_MODE sets the Test value commanded, ROLE_SET leaves the role pending where its checks pass, SELFTEST_REQ
queues clusters. Each answers RESULT 0. -/
def Obligations.KeeperTakesSettings : Prop :=
  ∀ (s : State) (rq : KReq), Powered s → KeeperTakes s.m 0 →
    Leaves (.imageDiscard rq) s (imageDiscard s.m rq) (fun u => Answered u rq 0x0012 0 ∧
      u.img = { s.m.img with staged := none, commit := s.m.img.commit.filter fun c => !c.waiting }) ∧
    (∀ v, Leaves (.compatSet rq v) s (compatSet s.m rq v) fun u => Answered u rq 0x0033 0 ∧ u.mode = { s.m.mode with vz20Next := v }) ∧
    (∀ mode, (mode = .holdover → s.m.clk.pendMode.getD s.m.clk.mode = .slave ∨ s.m.clk.pendMode.getD s.m.clk.mode = .boundary) →
      Becomes (.timeMode rq mode) s (timeModeCmd s.m rq mode) fun u =>
        Answered u rq 0x0031 0 ∧ u.clk = { s.m.clk with pendMode := some mode }) ∧
    (∀ v, (∀ t, activeTest s.m (roleLeft s.m) = some t → t = v) →
      Becomes (.testMode rq v) s (testModeCmd s.m rq v) fun u =>
        Answered u rq 0x0032 0 ∧ u.mode.test = v ∧ u.mode.partTest = s.m.mode.partTest ∧
          ∀ p < 4, tabGet u.mode.pendTest p = some v) ∧
    (∀ r, (roleCheck s.m (roleLeft s.m) r).1 = 0 →
      Becomes (.roleSet rq r) s (roleSet s.m rq r) fun u =>
        Answered u rq 0x0030 0 ∧ u.mode = { s.m.mode with pendRole := some r, pendFrom := s.m.mode.role } ∧
           u.out.unit = (reg s.m Reg.OUT_UNIT).toNat) ∧
    (∀ mask, mask < 2 ^ 16 → Becomes (.selftestReq rq mask) s (selfTestReq s.m rq mask) fun u =>
      Answered u rq 0x0080 0 ∧ reg u Reg.HLTH_ST_QUEUE = reg s.m Reg.HLTH_ST_QUEUE ||| BitVec.ofNat 32 mask)

/-- PARTITION_START makes a Halted partition wait for its next cycle boundary with its tasks cleared; PARTITION_HALT makes a Live one
halt at its next cycle boundary and stay. A metering partition of a sealed module is not halted: RESULT 0x0A. -/
def Obligations.KeeperStartsAndHaltsPartitions : Prop :=
  ∀ (s : State) (rq : KReq) (p : Nat), Powered s → KeeperTakes s.m 0 → p < 4 →
    ((partOf s.m p).state = .halted → partBusy s.m p = false → (partOf s.m p).step = 0 →
      Becomes (.partitionStart rq p) s (partStart s.m rq p) fun u =>
        Answered u rq 0x0020 0 ∧ partOf u p = { partOf s.m p with starting := true } ∧ u.td = (clearPart s.m p).td) ∧
    ((partOf s.m p).state = .live → partBusy s.m p = false → ¬(p = 2 ∧ sealState s.m = .sealed) →
      Becomes (.partitionHalt rq p) s (partHaltCmd s.m rq p) fun u =>
        Answered u rq 0x0021 0 ∧ partOf u p = { partOf s.m p with next := some .stay } ∧ u.td = s.m.td) ∧
    ((partOf s.m p).state = .live → partBusy s.m p = false → p = 2 ∧ sealState s.m = .sealed →
      Becomes (.partitionHalt rq p) s (partHaltCmd s.m rq p) fun u => Answered u rq 0x0021 0x0A ∧ SameButResponse s.m u)

/-- STATS answers the block's counters of the object, 4 bytes each, and clears them: each reads 0 afterwards, outside the windows of Keeper and of the
event recorder, whose registers the response and the audit event themselves change. -/
def Obligations.StatsClearsCounters : Prop :=
  ∀ (s : State) (rq : KReq) (b obj : Nat), Powered s → KeeperTakes s.m 3 → b < 0x12 →
    Leaves (.stats rq b obj) s (statsCmd s.m rq b obj) fun u =>
      Answers u rq 0x0002
        { result := 0, data := ((statRows b obj).map fun x => leBytes 4 (regO s.m x.1 x.2).toNat).flatten } ∧
      ∀ x ∈ statRows b obj, responseFree x.1 = true → regO u x.1 x.2 = 0

/-- Files: FILE_READ copies the file's bytes to module DRAM and MTR_LOG_READ log entries; TD_SNAPSHOT stores a Halted partition's
snapshot as a file under the next handle; REC_EXPORT queues the export of a record; REC_DELETE removes a closed one. -/
def Obligations.KeeperReadsAndWritesFiles : Prop :=
  ∀ (s : State) (rq : KReq), Powered s → KeeperTakes s.m 1 →
    (∀ handle off len dst f, dst + len ≤ 2 ^ 32 → s.m.kpr.files.lookup handle = some f →
      ∃ ws, Stores (.fileRead rq handle off len dst) s (fileRead s.m rq handle off len dst).1 ws (fun u =>
          Answers u rq 0x0004 { result := 0, data := leBytes 4 ((f.data.drop off).take len).length } ∧ SameButResponse s.m u) ∧
        (∀ k, (h : k < ((f.data.drop off).take len).length) →
          memByte (memWrites s.mem ws) false (dst + k) = ((f.data.drop off).take len)[k]) ∧
        ∀ a, (a < dst ∨ dst + len ≤ a) → memByte (memWrites s.mem ws) false a = memByte s.mem false a) ∧
    (∀ first count off, count ≤ 4096 → off + 64 * count ≤ 2 ^ 32 → s.m.mtr.logFree ≤ first → first < s.m.mtr.logNext →
      ∃ ws bs, bs = ((List.range (min count (s.m.mtr.logNext - first))).map fun k =>
          tabGet s.m.mtr.log ((first + k) % 65536)).flatten ∧
        Stores (.mtrLogRead rq first count off) s (mtrLogRead s.m rq first count off).1 ws (fun u =>
          Answers u rq 0x0060 { result := 0, data := leBytes 4 (min count (s.m.mtr.logNext - first)) } ∧ SameButResponse s.m u) ∧
        (∀ k, (h : k < bs.length) → memByte (memWrites s.mem ws) false (off + k) = bs[k]) ∧
        ∀ a, (a < off ∨ off + bs.length ≤ a) → memByte (memWrites s.mem ws) false a = memByte s.mem false a) ∧
    (∀ p, p < 4 → (partOf s.m p).state = .halted →
      Leaves (.tdSnapshot rq p) s (tdSnapshot s.m rq p) fun u =>
        Answers u rq 0x0040
          { result := 0, data := leBytes 4 s.m.kpr.nextHandle ++ leBytes 8 (snapFile s.m p).length } ∧
          tabGet u.kpr.files s.m.kpr.nextHandle = ⟨1, snapFile s.m p⟩ ∧ u.kpr.nextHandle = s.m.kpr.nextHandle + 1 ∧
          u.td = s.m.td ∧ u.parts = s.m.parts) ∧
    (∀ n format tc off len r, format < 16 → format % 8 ≤ 3 → recFile s.m n = some r →
      Leaves (.recExport rq n format tc off len) s (recExport s.m rq n format tc off len) fun u =>
        ∃ hs, hs.length = (exportOf s.m r format tc).length ∧
          u.rec_.exports = s.m.rec_.exports ++ [⟨n, format, tc, off, len, hs⟩] ∧
          Answers u rq 0x0052
            { result := 0
              data := ((hs.zip (exportOf s.m r format tc)).map fun x => leBytes 4 x.1 ++ leBytes 8 x.2.length).flatten.take 4080 }) ∧
    (∀ n r, recFile s.m n = some r → r.closed.isSome →
      Leaves (.recDelete rq n) s (recDelete s.m rq n) fun u =>
        Answered u rq 0x0053 0 ∧ recFile u n = none ∧ u.rec_.ring = s.m.rec_.ring)

/-- A command of a shed level that Keeper has reached is refused with RESULT 0x0D and counts in KPR_CNT_SHED; nothing else happens. -/
def Obligations.ShedCommandsAreRefused : Prop :=
  ∀ (s : State) (rq : KReq), Powered s → s.m.kpr.ready = true →
    (1 ≤ s.m.kpr.shed →
      Leaves (.status rq) s (statusCmd s.m rq) (fun u => Answered u rq 0x0001 0x0D ∧ SameButResponse s.m u) ∧
      (∀ n, Leaves (.recInfo rq n) s (recInfo s.m rq n) fun u => Answered u rq 0x0051 0x0D ∧ SameButResponse s.m u) ∧
      (∀ n, Leaves (.recDelete rq n) s (recDelete s.m rq n) fun u => Answered u rq 0x0053 0x0D ∧ SameButResponse s.m u)) ∧
    (2 ≤ s.m.kpr.shed → ∀ n format tc off len,
      Leaves (.recExport rq n format tc off len) s (recExport s.m rq n format tc off len) fun u =>
        Answered u rq 0x0052 0x0D ∧ SameButResponse s.m u) ∧
    (3 ≤ s.m.kpr.shed → ∀ b obj, Leaves (.stats rq b obj) s (statsCmd s.m rq b obj) fun u =>
      Answered u rq 0x0002 0x0D ∧ SameButResponse s.m u)

/-! ## Key store, image and recovery commands -/

/-- Commands of the key store where their checks pass: KEY_COMMISSION of a zeroed store or of one without an image key opens it for
600 s, KEY_CLOSE closes it, KEY_LOAD fills an empty slot at once and keeps a filled one's new key pending, KEY_COMMIT makes the pending
key the current one with KEY_FAULT.COMMIT, KEY_ERASE empties the slot, KEY_SIGN_LOG answers over committed records, KEY_UNSEAL
opens the seal. -/
def Obligations.KeeperRunsKeyCommands : Prop :=
  ∀ (s : State) (rq : KReq), Powered s → KeeperTakes s.m 0 →
    (∀ sig, (s.m.key.store = .zeroed ∨ ∀ i < 256, validPolicy s.m 2 i = false) →
      Leaves (.keyCommission rq sig) s (keyCommissionCmd s.m rq sig) fun u =>
        Answered u rq 0x0070 0 ∧ u.key.store = .commissioning ∧
          timerDue u .commissioning 0 = some (s.m.clk.elapsed + secs 600) ∧
          (s.m.key.store = .zeroed → u.key.slots = [] ∧ u.key.tamper = 0)) ∧
    (s.m.key.store = .commissioning →
      Leaves (.keyClose rq) s (keyCloseCmd s.m rq) fun u =>
        Answered u rq 0x0071 0 ∧ u.key = { s.m.key with store := .provisioned } ∧ timerDue u .commissioning 0 = none) ∧
    (∀ slot policy type kid mat auth, slot < 256 → loadAuthOk s.m slot policy type kid mat auth = true →
      typeSuits policy type = true → materialOk type mat = true → (policy = 5 → s.m.factory.orderL = true) →
      (∀ j < 256, j ≠ slot → (keySlot s.m j).state = .empty ∨ ((keySlot s.m j).kid ≠ kid ∧
        ((keySlot s.m j).state = .pending → (keySlot s.m j).nxtKid ≠ kid))) →
      (keySlot s.m slot).state ≠ .pending → s.m.key.store ≠ .zeroed →
      Leaves (.keyLoad rq slot policy type kid mat auth true) s (keyLoadCmd s.m rq slot policy type kid mat auth true) fun u =>
        Answered u rq 0x0072 0 ∧
          if (keySlot s.m slot).state = .empty then
            (keySlot u slot).state = .valid ∧ (keySlot u slot).cur = mat ∧ (keySlot u slot).policy = policy ∧ (keySlot u slot).kid = kid
          else keySlot u slot = { keySlot s.m slot with
            state := .pending, cur := if (keySlot s.m slot).state = .unusable then [] else (keySlot s.m slot).cur
            nxt := mat, nxtKid := kid, nxtType := type, nxtPolicy := policy }) ∧
    (∀ slot, slot < 256 → (keySlot s.m slot).state = .pending → checkTag s.m slot = s.m → isSealSlot s.m slot = false → slot ∉ namedSlots s.m →
      Leaves (.keyCommit rq slot) s (keyCommitCmd s.m rq slot) fun u =>
        Answered u rq 0x0073 0 ∧ Bit u Reg.KEY_FAULT 4 ∧ (keySlot u slot).cur = (keySlot s.m slot).nxt ∧
          (keySlot u slot).kid = (keySlot s.m slot).nxtKid ∧ (keySlot u slot).policy = (keySlot s.m slot).nxtPolicy ∧
          (keySlot u slot).state =
            if (keySlot s.m slot).policy = 1 ∧ (keySlot s.m slot).nxtPolicy = 1 then .grace else .valid) ∧
    (∀ slot, slot < 256 → isSealSlot s.m slot = false → slot ∉ namedSlots s.m →
      Leaves (.keyErase rq slot) s (keyEraseCmd s.m rq slot) fun u => Answered u rq 0x0074 0 ∧ keySlot u slot = {}) ∧
    (∀ slot first count, slot < 256 → checkTag s.m slot = s.m → validPolicy s.m 3 slot = true →
      (∀ k < count, (keySignLog.readRecord' s.m ((first + k) % 2 ^ 64)).isSome) →
      Leaves (.keySignLog rq slot first count) s (keySignLogCmd s.m rq slot first count) fun u =>
        SameButResponse s.m u ∧ Answers u rq 0x0075
          { result := 0
            data := hmac256 (keySlot s.m slot).cur
              ((List.range count).filterMap fun k => keySignLog.readRecord' s.m ((first + k) % 2 ^ 64)).flatten }) ∧
    (∀ kid slot, (List.range 256).find? (fun i => sealSlotOk s.m i && (keySlot s.m i).kid == kid) = some slot →
      checkTag s.m slot = s.m → sealLogs s.m = true → (s.m.mtr.sealSlot = none ∨ s.m.mtr.sealSlot = some slot) →
      Becomes (.keyUnseal rq kid ((hmac256 (keySlot s.m slot).cur
          (Config.keyAuthBytes [s.m.mtr.logNext % 2 ^ 64] (ascii "UNSEAL" ++ serialBytes s.m))).take 16)) s
        (keyUnseal s.m rq kid ((hmac256 (keySlot s.m slot).cur
          (Config.keyAuthBytes [s.m.mtr.logNext % 2 ^ 64] (ascii "UNSEAL" ++ serialBytes s.m))).take 16)) fun u =>
        Answered u rq 0x0076 0 ∧ u.mode.sealSt = .unsealed)

/-- IMAGE_STAGE keeps the bytes at its BAR2 offset as the staged image, whatever the judgement it answers with; IMAGE_COMMIT judges the
staged image again and, where verification and admission pass, answers RESULT 0 and begins the commit, each Live partition of its
scope to halt at its next cycle boundary (or, while a takeover or a revert runs, lets it wait). -/
def Obligations.KeeperStagesAndCommitsImages : Prop :=
  ∀ (s : State) (rq : KReq), Powered s → KeeperTakes s.m 0 → s.m.img.commit = none →
    (∀ off len, off + len ≤ 2 ^ 32 →
      Leaves (.imageStage rq off len) s (imageStage s.m s.mem rq off len) fun u =>
        (∃ result, Answered u rq 0x0010 result) ∧ u.img = { s.m.img with staged := some (dramRead s.mem off len) }) ∧
    (∀ b id pl, s.m.img.staged = some b → 256 ≤ b.length → hImageId b = id → (judgeCommit s.m b).2.2 = some pl →
      Becomes (.imageCommit rq id) s (imageCommit s.m rq id) fun u =>
        Answered u rq 0x0011 (judgeCommit s.m b).2.1.result ∧ u.img.result = 0 ∧
          (∃ c, u.img.commit = some c ∧ c.waiting = pairBusy s.m ∧ c.full = (hKind b == 1)) ∧
          (pairBusy s.m = false → ∀ p ∈ touched b, isLive s.m p = true →
            (partOf u p).next.isSome ∧ (partOf u p).step = 1 ∧ (partOf u p).state = .live))

/-- Recovery: RECOVER of Keeper answers and then runs the rung; HLTH_RECOVER, written whole through an open key gate, runs it. Rung 3
is a device reset of cause 1: HLTH_FAULT.RUNG3, step 3 of the start, its 12 s running. Rung 4 asks the host for a power cycle and
waits 2 s for it. Rung 2 of a Live partition makes it halt and load again, HLTH_FAULT.RUNG2. -/
def Obligations.RecoveryRuns : Prop :=
  ∀ s : State, Powered s →
    (gateOpen s.m (srcOf Reg.HLTH_RECOVER) = true →
      Becomes (.hlthRecoverRung3 15) s (hlthRecover s.m (recoverWord 3 0) 15) (fun u =>
        Bit u Reg.HLTH_FAULT 1 ∧ u.hlth.stage = 3 ∧ u.hlth.afterReset = true ∧
          timerDue u .startStep9 0 = some (u.clk.elapsed + secs 12)) ∧
      (s.m.hlth.pwrReq = false →
        Becomes (.hlthRecoverRung4 15) s (hlthRecover s.m (recoverWord 4 0) 15) fun u =>
          u.hlth.pwrReq = true ∧ u.sent.head? = some (.powerCycleReq true) ∧
            timerDue u .powerCycle 0 = some (u.clk.elapsed + secs 2)) ∧
      (∀ p, p < 4 → s.m.kpr.ready = true → (partOf s.m p).state = .live → (partOf s.m p).next = none →
        (partOf s.m p).starting = false → s.m.hlth.trigs = [] →
        Becomes (.hlthRecoverRung2 p 15) s (hlthRecover s.m (recoverWord 2 p) 15) fun u =>
          Bit u Reg.HLTH_FAULT 0 ∧ (partOf u p).next = some .reload ∧ (partOf u p).state = .live)) ∧
    (∀ rq, KeeperTakes s.m 0 →
      Becomes (.recover rq 3 0) s (recoverCmd s.m rq 3 0) fun u =>
        Bit u Reg.HLTH_FAULT 1 ∧ u.hlth.stage = 3 ∧ timerDue u .startStep9 0 = some (u.clk.elapsed + secs 12)) ∧
    (∀ rq p, KeeperTakes s.m 0 → p < 4 → (partOf s.m p).state = .live → (partOf s.m p).next = none →
      (partOf s.m p).starting = false → s.m.hlth.trigs = [] →
      Becomes (.recover rq 2 p) s (recoverCmd s.m rq 2 p) fun u =>
        Bit u Reg.HLTH_FAULT 0 ∧ (partOf u p).next = some .reload ∧ (partOf u p).state = .live)

/-! ## Power, start, health -/

/-- Power good starts a module that had no supply: start step 2, every block's registers but the retained ones at reset, no gate open,
Keeper not ready, and the 10 s run within which HOLD must have risen. The key store, the metrology and the retained modes stay. -/
def Obligations.PowerGoodStartsTheModule : Prop :=
  ∀ s : State, s.m.hlth.power = .off → s.m.hlth.thermal ≠ 3 →
    ∃ t, exec .powerGood s = .next t ∧ t.mem = s.mem ∧ t.m.hlth.power = .on ∧ t.m.hlth.stage = 2 ∧ t.m.kpr.ready = false ∧
      t.m.host = {} ∧ t.m.shadow = [] ∧ t.m.clk.elapsed = 0 ∧ timerDue t.m .holdLow 0 = some (secs 10) ∧
      t.m.mtr = s.m.mtr ∧ t.m.key = s.m.key ∧ t.m.mode = s.m.mode ∧ t.m.rec_ = s.m.rec_ ∧
      ∀ off, retainedRow off = false → off < 0x400000 → reg t.m off = regReset off

/-- The supply fails: with HOLD charged, or once the input is gone, the module stops. No timer runs, the PCIe link is down, the event
queue is empty, DRAM is lost and every island is at reset. PFAIL_N without HOLD leaves a unit that is not Active as it is. -/
def Obligations.SupplyFailureStopsTheModule : Prop :=
  ∀ s : State, Powered s →
    (s.m.mtr.holdOk = true → Becomes .pfailNAssert s (pfailAssert s.m) fun u =>
      u.hlth.power = .off ∧ u.timers = [] ∧ u.host.linkUp = false ∧ u.evr.queue = [] ∧ u.td = {} ∧ u.hlth.wipe = true) ∧
    (s.m.mtr.holdOk = false → s.m.mode.role ≠ .active → Becomes .pfailNAssert s (pfailAssert s.m) fun u => u = s.m) ∧
    Becomes .inputUndervoltage s (inputUndervoltage s.m) fun u =>
      u.hlth.power = .off ∧ u.timers = [] ∧ u.host.linkUp = false ∧ u.evr.queue = [] ∧ u.td = {} ∧ u.hlth.wipe = true

/-- HOLD and the battery: HOLD_OK_CHANGE notes HOLD and sets MTR_FAULT.HOLD_LOW when it falls below its level, HOLD_LOW_CHECK sets it
where HOLD has not risen 10 s after power good, BATT_LOW_DETECTED sets KEY_FAULT.BATT_LOW, TAMPER_DETECTED zeroes the root key
and notes its cause, and on a supplied module makes every key slot unusable. -/
def Obligations.HoldBatteryAndTamper : Prop :=
  ∀ s : State, Powered s →
    (∀ ok cv, ∃ t, exec (.holdOkChange ok cv) s = .next t ∧ t.m.mtr = { s.m.mtr with holdOk := ok, holdCv := min cv 5500 } ∧
      (s.m.mtr.holdOk = true → ok = false → Bit t.m Reg.MTR_FAULT 5)) ∧
    (Due s.m .holdLow 0 → s.m.mtr.holdOk = false →
      Leaves .holdLowCheck s (holdLowCheck s.m) fun u => Bit u Reg.MTR_FAULT 5 ∧ timerDue u .holdLow 0 = none) ∧
    (∀ mv, Leaves (.battLowDetected mv) s (battLow s.m mv) fun u => Bit u Reg.KEY_FAULT 2 ∧ u.key = { s.m.key with vbatMv := mv }) ∧
    (∀ c, c < 7 → (c = 2 → s.m.factory.orderL = true) →
      Becomes (.tamperDetected c) s (tamperDetected s.m c true) fun u =>
        u.key.root = List.replicate 32 0 ∧ u.key.tamper.testBit c = true ∧ u.key.store = .zeroed ∧ Bit u Reg.KEY_FAULT 1 ∧
          ∀ x ∈ u.key.slots, x.2.state = .unusable ∧ x.2.cur = [])

/-- The PCIe link: a fundamental reset takes it down and puts the MSI-X table back to its reset values, training brings it up with its
generation and width, HOST_FAULT.LINK_DEGRADED where it is below the module's own. -/
def Obligations.PcieLinkFollowsItsPins : Prop :=
  ∀ s : State, Powered s →
    Leaves .pcieReset s (pcieReset s.m) (fun u =>
      u.host.linkUp = false ∧ u.host.gates = s.m.host.gates ∧ u.timers = s.m.timers ∧
        ∀ off, off % 4 = 0 → reg u off = if isMsix off then regReset off else reg s.m off) ∧
    ∀ gen width, Leaves (.pcieLinkTrained gen width) s (pcieTrained s.m gen width) fun u =>
      u.host.linkUp = true ∧ u.host.linkGen = gen ∧ u.host.linkWidth = width ∧ (gen < 4 ∨ width < 4 → Bit u Reg.HOST_FAULT 1)

/-- Every thermal reading is noted with the thermal state it gives. One that leaves the state as it was changes nothing else; below the
shed temperature every partition goes on; at it the Live partitions 1 and 3 that nothing else holds halt at their next cycle
boundary; at the stop temperature the islands stop; a reading that ends the stop begins the start at step 3. -/
def Obligations.ThermalReadingsAreNoted : Prop :=
  ∀ (s : State) (plate : Int) (js : List Int), s.m.hlth.power ≠ .off →
    Becomes (.thermalReading plate js) s (thermalReading s.m s.mem plate js) fun u =>
      u.hlth.plate = plate ∧ u.hlth.junctions = js ∧ u.hlth.thermal = thermalNext s.m.hlth.thermal plate js ∧
      (thermalNext s.m.hlth.thermal plate js = s.m.hlth.thermal →
        u = { s.m with hlth := { s.m.hlth with plate := plate, junctions := js } }) ∧
      (s.m.hlth.thermal < 2 → thermalNext s.m.hlth.thermal plate js < 2 → u.parts = s.m.parts) ∧
      (s.m.hlth.thermal < 2 → thermalNext s.m.hlth.thermal plate js = 2 →
        ∀ p, p = 1 ∨ p = 3 → isLive s.m p = true → partBusy s.m p = false → (partOf u p).next = some .stay) ∧
      (s.m.hlth.thermal < 3 → thermalNext s.m.hlth.thermal plate js = 3 →
        u.hlth.power = .thermalStop ∧ u.hlth.stage = 0 ∧ u.td = {} ∧ u.parts = [] ∧ u.hlth.wipe = true) ∧
      (s.m.hlth.thermal = 3 → thermalNext s.m.hlth.thermal plate js ≠ 3 → u.hlth.power = .on ∧ u.hlth.stage = 3)

/-- Keeper's watchdog: its expiry restarts Keeper with KPR_FAULT.WDOG and 15 s to become ready; READY again sets KPR_FAULT.RESTART; 15 s
without it, or a power cycle that the carrier does not make in 2 s, is a device reset with its cause in HLTH_RESET. -/
def Obligations.KeeperRestartsAndResets : Prop :=
  ∀ s : State, Powered s →
    (s.m.kpr.kstate ≠ 0 → s.m.hlth.wdogs = [] → Becomes .watchdogExpiry s (watchdogExpiry s.m) fun u =>
      u.kpr.ready = false ∧ u.kpr.kstate = 2 ∧ Bit u Reg.KPR_FAULT 2 ∧ timerDue u .keeperReady 0 = some (u.clk.elapsed + secs 15)) ∧
    (s.m.kpr.kstate = 2 → Becomes .keeperRestartComplete s (keeperRestarted s.m) fun u =>
      u.kpr.ready = true ∧ u.kpr.kstate = 1 ∧ Bit u Reg.KPR_FAULT 3 ∧ timerDue u .keeperReady 0 = none) ∧
    (Due s.m .keeperReady 0 → s.m.kpr.kstate = 2 → Becomes .keeperReadyTimeout s (keeperReadyTimeout s.m) fun u =>
      Bit u Reg.HLTH_FAULT 1 ∧ u.hlth.stage = 3 ∧ ∃ n, reg u Reg.HLTH_RESET = BitVec.ofNat 32 (n * 65536 + 3)) ∧
    (Due s.m .powerCycle 0 → Becomes .powerCycleTimeout s (powerCycleTimeout s.m) fun u =>
      Bit u Reg.HLTH_FAULT 1 ∧ u.hlth.stage = 3 ∧ ∃ n, reg u Reg.HLTH_RESET = BitVec.ofNat 32 (n * 65536 + 5)) ∧
    (Due s.m .startStep9 0 → s.m.hlth.failedStarts = 0 → Becomes .rung3StartStep9Timeout s (startStep9Timeout s.m) fun u =>
      u.hlth = { s.m.hlth with failedStarts := 1 } ∧ timerDue u .startStep9 0 = none)

/-- Keeper's shed level: a second above 360 % over its four cores raises it by one with KPR_FAULT.SHED_UP, a second at 70 % to 90 % of
the mean keeps it, the tenth second in a row below lowers it. KPR_LOAD shows the loads. -/
def Obligations.ShedLevelFollowsTheLoad : Prop :=
  ∀ (s : State) (a b c d : Nat), Powered s → Due s.m .shedSecond 0 → s.m.kpr.kstate = 1 → a ≤ 100 → b ≤ 100 → c ≤ 100 → d ≤ 100 →
    Becomes (.shedLevelUpdate a b c d) s (shedUpdate s.m a b c d) fun u =>
      reg u Reg.KPR_LOAD = BitVec.ofNat 32 (a + 256 * b + 65536 * c + 16777216 * d) ∧
      timerDue u .shedSecond 0 = some (s.m.clk.elapsed + secs 1) ∧
      (360 < a + b + c + d → s.m.kpr.shed < 4 → u.kpr.shed = s.m.kpr.shed + 1 ∧ Bit u Reg.KPR_FAULT 4) ∧
      (280 ≤ a + b + c + d → a + b + c + d ≤ 360 → u.kpr.shed = s.m.kpr.shed) ∧
      (a + b + c + d < 280 → u.kpr.shed = if s.m.kpr.lowSecs + 1 < 10 then s.m.kpr.shed else s.m.kpr.shed - 1)

/-- The start sequence: each step that ends well begins the next. Step 4 makes Keeper ready and the register mode its commanded one. -/
def Obligations.StartStepsFollowEachOther : Prop :=
  ∀ (s : State) (o : StepOutcome), Powered s → o.ok = true →
    (s.m.hlth.stage = 2 → Becomes (.startStepComplete o) s (startStep s.m o) fun u => u.hlth.stage = 3) ∧
    (s.m.hlth.stage = 3 → Becomes (.startStepComplete o) s (startStep s.m o) fun u => u.hlth.stage = 4) ∧
    (s.m.hlth.stage = 4 → Becomes (.startStepComplete o) s (startStep s.m o) fun u =>
      u.hlth.stage = 5 ∧ u.kpr.ready = true ∧ u.kpr.kstate = 1 ∧ u.mode.vz20 = s.m.mode.vz20Next) ∧
    (s.m.hlth.stage = 5 → Becomes (.startStepComplete o) s (startStep s.m o) fun u => u.hlth.stage = 6)

/-- Memory errors and rewrites: a corrected flow-state word sets PE_FAULT.FS_CE, an uncorrectable one FS_UE, an uncorrectable
coefficient word marks its group, an uncorrectable capture row becomes a gap, an uncorrectable DRAM word sets HLTH_FAULT.SCRUB_UE,
an uncorrectable task-store word asks for rung 2; a withdrawn engine's resident set and a marked Palette are rewritten with
HLTH_FAULT.REWRITE. -/
def Obligations.ScrubbingAndRewriting : Prop :=
  ∀ s : State, Powered s →
    (∀ w, Becomes (.scrubPass w .clean) s (scrubPass s.m w .clean) fun u => u = s.m) ∧
    (∀ c f, Becomes (.scrubPass (.flowState c f) .corrected) s (scrubPass s.m (.flowState c f) .corrected) fun u =>
      Bit u Reg.PE_FAULT 0) ∧
    (∀ c f, Becomes (.scrubPass (.flowState c f) .bad) s (scrubPass s.m (.flowState c f) .bad) fun u =>
      Bit u Reg.PE_FAULT 1 ∧ Bit u Reg.HLTH_FAULT 7) ∧
    (∀ g, Becomes (.scrubPass (.coef g) .bad) s (scrubPass s.m (.coef g) .bad) fun u =>
      Bit u Reg.FLT_FAULT 3 ∧ (groupSt u g).coefUe = true) ∧
    (∀ i, Becomes (.scrubPass (.ringRow i) .bad) s (scrubPass s.m (.ringRow i) .bad) fun u =>
      Bit u Reg.REC_FAULT 5 ∧ ∀ x, u.rec_.ring[i]? = some x → x.gap = true) ∧
    (Becomes (.scrubPass .dram .bad) s (scrubPass s.m .dram .bad) fun u => Bit u Reg.HLTH_FAULT 7) ∧
    (∀ p, p < 4 → s.m.rung2 = [] → Becomes (.scrubPass (.store p) .bad) s (scrubPass s.m (.store p) .bad) fun u =>
      Bit u Reg.HLTH_FAULT 7 ∧ Bit u Reg.TD_FAULT 4 ∧ u.rung2 = [(p, 2)]) ∧
    (∀ c e p, 16 * c + e ∈ s.m.td.withdrawn → Becomes (.residentSetRewrite c e p) s (residentRewrite s.m c e p) fun u =>
      Bit u Reg.HLTH_FAULT 6 ∧ 16 * c + e ∉ u.td.withdrawn) ∧
    (∀ g, (groupSt s.m g).coefUe = true → Becomes (.paletteRewrite g) s (paletteRewrite s.m g) fun u =>
      Bit u Reg.HLTH_FAULT 6 ∧ (groupSt u g).coefUe = false)

/-- The rotating self-test: a slot of the rotation drains the next cluster that may be tested, or is deferred; a drained cluster is
tested; a pass returns it to service with its result in HLTH_ST_LAST, a first failure tests it once more; a Keeper that does not
come back within 50 ms returns it too. -/
def Obligations.ClustersAreTestedInTurn : Prop :=
  ∀ s : State, Powered s →
    (∀ c, Due s.m .rotation 0 → s.m.kpr.kstate = 1 → regBits s.m Reg.HLTH_CTRL 0 0 = 1 → s.m.hlth.testing = none →
      (((List.range 16).filter (reg s.m Reg.HLTH_ST_QUEUE).toNat.testBit ++ (List.range 16).map fun k => (s.m.hlth.rot + k) % 16).find?
        fun c => clMode s.m c == .service && drainOk s.m c) = some c →
      Becomes .selftestRotationSlot s (rotationSlot s.m) fun u => u.hlth.testing = some c ∧ clMode u c = .draining) ∧
    (∀ c, clMode s.m c = .draining → (∀ k ∈ s.m.td.tasks, ∀ x e, k.engine = some (x, e) → x ≠ c) →
      Becomes (.clusterDrained c) s (clusterDrained s.m c) fun u => clMode u c = .testing ∧ u.td = s.m.td) ∧
    (∀ c ms, c < 16 → s.m.hlth.testing = some c → clMode s.m c = .testing →
      Becomes (.clusterSelftestComplete c true true ms) s (selfTestComplete s.m c true true ms) (fun u =>
        clMode u c = .service ∧ u.hlth.testing = none ∧
          reg u Reg.HLTH_ST_LAST = BitVec.ofNat 32 (c * 65536 + (if s.m.hlth.retest then 2 else 1) * 256 + min ms 255)) ∧
      (s.m.hlth.retest = false → Becomes (.clusterSelftestComplete c false true ms) s (selfTestComplete s.m c false true ms) fun u =>
        u.hlth = { s.m.hlth with retest := true } ∧ clMode u c = .testing)) ∧
    (∀ c, Due s.m .testDrain 0 → s.m.hlth.testing = some c →
      Becomes .testDrainReturnTimeout s (testDrainReturn s.m) fun u => clMode u c = .service ∧ u.hlth.testing = none)

/-- A daily ageing reading of a cluster at the highest voltage with less than 5 % slack sets HLTH_ALARM.MARGIN_EXHAUSTED. -/
def Obligations.AgeingReadingsRaiseTheAlarm : Prop :=
  ∀ (s : State) (cl isl : List Int) (c : Nat), Powered s → s.m.kpr.kstate = 1 → c < 16 →
    marginVolt s.m (Reg.HLTH_CL_MARGIN c) = 14 → cl.getD c 0 < 500 →
    Becomes (.ageingReading cl isl) s (ageingReading s.m cl isl) fun u => Bit u Reg.HLTH_ALARM 4

/-! ## Partitions -/

/-- At its halt point a Live partition that is asked to halt stops: no token admitted, no task issued, its delay
entries frozen at that instant. -/
def Obligations.PartitionsStopAtTheirHaltPoint : Prop :=
  ∀ (s : State) (p : Nat), Powered s → p < 4 → (partOf s.m p).state = .live → (partOf s.m p).next.isSome = true →
    (partOf s.m p).stopped = false → testHolds s.m p = false →
    Becomes (.partitionHaltPoint p) s (haltPoint s.m p) fun u =>
      partOf u p = { partOf s.m p with
        stopped := true, haltAt := s.m.clk.elapsed, step := min 2 (2 * (partOf s.m p).step) } ∧ u.img = s.m.img

/-- A stopped partition whose tasks have retired is Halted, and what was to follow its halt follows: nothing after PARTITION_HALT, no
step remaining; the load of its new image, or of its committed one, at step 5; Absent for a partition that a full image leaves out;
and in a full commit whose other partitions still run, step 4 until they have halted too. -/
def Obligations.DrainedPartitionsAreHalted : Prop :=
  ∀ (s : State) (p : Nat), Powered s → p < 4 → (partOf s.m p).state = .live → (partOf s.m p).stopped = true →
    drainedPart s.m p = true →
    (CommitSettled s.m →
      ((partOf s.m p).next = some .stay → Becomes (.partitionHalted p) s (partHalted s.m p) fun u =>
        partOf u p = { partOf s.m p with state := .halted, next := none, step := 0 } ∧
          (s.m.img.commit = none → u.img = s.m.img)) ∧
      (∀ c, (partOf s.m p).next = some (.load c) → Becomes (.partitionHalted p) s (partHalted s.m p) fun u =>
        partOf u p =
          { state := .loading, image := some c.img, step := 5, stopped := true, older := tabGet s.m.img.copies p, fresh := some c }) ∧
      (∀ c rest, (partOf s.m p).next = some .reload → tabGet s.m.img.copies p = c :: rest →
        Becomes (.partitionHalted p) s (partHalted s.m p) fun u =>
          partOf u p = { state := .loading, image := some c.img, step := 5, stopped := true, older := rest }) ∧
      ((partOf s.m p).next = some .absent → Becomes (.partitionHalted p) s (partHalted s.m p) fun u =>
        partOf u p = { state := .absent } ∧ tabGet u.img.copies p = [])) ∧
    (∀ c x q, s.m.img.commit = some c → c.full = true → c.begun = false → c.waiting = false → p ∈ c.scope → q ∈ c.scope →
      q ≠ p → (partOf s.m q).state = .live → (partOf s.m p).next = some (.load x) →
      Becomes (.partitionHalted p) s (partHalted s.m p) fun u =>
        partOf u p = { partOf s.m p with state := .halted, next := none, step := 4 } ∧ u.img = s.m.img)

/-- The end of a load: a load that went well waits for the partition's cycle boundary at step 6; one that faulted begins again from the
committed copy that stands behind it, and without one leaves the partition Absent. -/
def Obligations.LoadsEndOrFallBack : Prop :=
  ∀ (s : State) (p : Nat), Powered s → (partOf s.m p).state = .loading → (partOf s.m p).loaded = false →
    (Becomes (.partitionLoadComplete p true) s (loadComplete s.m p true) fun u =>
      partOf u p = { partOf s.m p with loaded := true, step := 6 } ∧ u.img = s.m.img) ∧
    ((partOf s.m p).older = [] → Becomes (.partitionLoadComplete p false) s (loadComplete s.m p false) fun u =>
      partOf u p = { state := .absent }) ∧
    (∀ c rest, (partOf s.m p).older = c :: rest →
      Becomes (.partitionLoadComplete p false) s (loadComplete s.m p false) fun u =>
        (partOf u p).state = .loading ∧ (partOf u p).image = some c.img ∧ (partOf u p).older = rest ∧ (partOf u p).loaded = false)

/-- A loaded partition, or a Halted one that was started, becomes Live with its image, nothing of its halt left. -/
def Obligations.ReadyPartitionsGoLive : Prop :=
  ∀ (s : State) (p : Nat), Powered s → p < 4 → readyLive s.m p = true → CommitSettled s.m →
    Becomes (.partitionGoLive p) s (goLive s.m p) fun u => partOf u p = { state := .live, image := (partOf s.m p).image }

/-- The cycle boundary of a metering or recording partition that has no source of its own comes at the instant of its next tag, which
the local clock then shows; the partition's latest boundary is the tag before it. -/
def Obligations.BoundaryAtAnInstantAdvancesTheTag : Prop :=
  ∀ (s : State) (p : Nat), Powered s → p = 2 ∨ p = 3 → (imageOf s.m p).subs = [] → (domainRate s.m p).1 ≠ 0 →
    (partOf s.m p).state = .live → (partOf s.m p).next = none →
    Becomes (.cycleBoundaryAtInstant p) s (boundaryAtInstant s.m p) fun u =>
      (partOf u p).lastTag = some ((nextIndex s.m p - 1) % 2 ^ 32) ∧ (partOf u p).state = .live


/-! ## The task dispatcher -/

/-- A token that reaches the match stage, or that was held at its producer, fills its free operand slot: one that completes no set
stays there. The first clause is of a token from outside the tasks for a partition without cycle boundaries of its own. -/
def Obligations.TokensFillTheirSlots : Prop :=
  ∀ (s : State) (c : Nat) (x : XTok) (t : Template), Powered s → template s.m x.tok.tmpl = some t → t.num = x.tok.tmpl →
    isLive s.m (tmplPart t) = true → canEnter s.m t x.tok = true → completes s.m t x.tok = false → x.src = .async →
    (partOf s.m (tmplPart t)).stopped = false →
    (nextToken s.m = some (.tok c x) → isSticky t x.tok.op = false → tmplPart t < 2 →
      (s.m.td.held.any fun y => y.tok.tmpl == t.num && y.tok.op == x.tok.op) = false →
      Becomes .tokenMatch s (tokenMatch hooks s.m) fun u =>
        tabGet u.td.slots (slotKey t.num x.tok.op) = some x ∧ tabGet u.td.cross c = (tabGet s.m.td.cross c).erase x ∧
          u.td.tasks = s.m.td.tasks) ∧
    (heldFirst s.m t.num x.tok.op = some x →
      Becomes (.heldTokenEntry t.num x.tok.op) s (heldEntry s.m t.num x.tok.op) fun u =>
        tabGet u.td.slots (slotKey t.num x.tok.op) = some x ∧ u.td.held = s.m.td.held.erase x ∧ u.td.tasks = s.m.td.tasks)

/-- A cluster in service starts the first task it may start; an idle engine without a task of its own may steal a neighbour's, unless
the neighbour starts it at the same instant: the task executes on the engine chosen for it. The end of a precedence interval restarts
the count of protection tasks. -/
def Obligations.ClustersStartTasksInTurn : Prop :=
  ∀ (s : State) (c e : Nat) (k : Task), Powered s → clusterClosed s.m c = false → findTask s.m k.tmpl k.tag = some k →
    (firstTask s.m (ownTasks s.m c) = some k → engineFor s.m c k = some e → Leaves (.taskIssue c) s (taskIssue s.m c) fun u =>
      findTask u k.tmpl k.tag = some { k with state := .executing, engine := some (c, e), cluster := c }) ∧
    ((regBits s.m Reg.TD_CTRL 15 0).testBit c = true → stealPick s.m c = some (e, k) →
      (victimIssues s.m k = false → Leaves (.stealDecision c) s (stealDecision s.m c) fun u =>
        findTask u k.tmpl k.tag = some { k with state := .executing, engine := some (c, e), cluster := c }) ∧
      (victimIssues s.m k = true → Leaves (.stealDecision c) s (stealDecision s.m c) fun u => u = s.m)) ∧
    Leaves .precedenceIntervalEnd s (precedenceEnd s.m) fun u => u.td.precCount = 0 ∧ u.parts = s.m.parts

/-- A task that may retire commits its flow's write log and, where its template has no destination, frees its entry; its flow then
waits for the next task of the flow. Of the primitives without an action of their own. -/
def Obligations.RetiredTasksFreeTheirEntry : Prop :=
  ∀ (s : State) (tn tag : Nat) (k : Task) (t : Template), Powered s → findTask s.m tn tag = some k → template s.m tn = some t →
    t.num = tn → mayRetire s.m t k = true → k.committed = false → k.result.isSome = true → t.dests = [] →
    t.prim < 64 →
    Becomes (.taskRetire tn tag) s (taskRetire hooks s.m tn tag) fun u =>
      findTask u tn tag = none ∧ (∀ f, t.flow = some f → (tabGet u.td.flows f).busy = none ∧
        ∀ g, k.log = some g → tabGet (tabGet u.td.flows f).segs tn = g)

/-- At its expiry edge the delay entry that the match stage takes next leaves its list; one that is no cancellation fills the sticky slot of its target. -/
def Obligations.DelayEntriesExpire : Prop :=
  ∀ (s : State) (l : Nat) (e : DelayEntry) (t : Template), Powered s → nextDelay s.m l = some e → e.due ≤ s.m.clk.elapsed → nextToken s.m = some (.delay e) →
    template s.m e.target = some t →
    Becomes (.delayExpiry l) s (delayExpiry s.m l) fun u =>
      u.td.delays = s.m.td.delays.erase e ∧
      (e.cancel = false → (tabGet u.td.sticky (slotKey t.num e.op)).head? = some ⟨e.etag, e.val, e.q, false⟩)

/-- A fault on an executing task discards its result: up to two times the task is ready again, on another engine; then it stands
as quarantined. -/
def Obligations.FaultedTasksRunAgain : Prop :=
  ∀ (s : State) (tn tag : Nat) (kind : TaskFaultKind) (k : Task) (t : Template), Powered s → findTask s.m tn tag = some k →
    template s.m tn = some t → t.num = tn → k.state = .executing →
    Becomes (.taskFault tn tag kind) s (taskFault s.m tn tag kind) fun u =>
      ∃ x, findTask u tn tag = some x ∧
        if k.retries < 2 then x.state = .ready ∧ x.retries = k.retries + 1 ∧ x.avoid = k.engine ∧ x.result = none
        else x.state = .done ∧ x.quar = true ∧ x.result = some (quarResult t)

/-! ## The primitive engines -/

/-- Each of the 72 completion commands ends the executing task of its template and tag with the primitive's own result, its quality
formed from the operands, bit 3 where an operand came late, and, for a primitive with state in a flow, its write log; no other task
changes and nothing else. Where a memory error stands in the flow's state or in the engine's memory, the task faults instead. -/
def Obligations.TasksCompleteWithTheirResult : Prop :=
  ∀ (s : State) (i : Instr) (tn tag code : Nat) (f : Nat → PrimIn → Raw) (k : Task) (t : Template), Powered s →
    taskDone i = some (tn, tag, code, f) → findTask s.m tn tag = some k → template s.m tn = some t →
    k.state = .executing → t.prim = code →
    (memFault s.m t k = none → Leaves i s (complete code f s.m tn tag) fun u =>
      (∃ r g, finish (hasState code) (taskInput s.m t k) (fun j => (readVal ((k.ops.getD j default).val)).2)
          (f tag (taskInput s.m t k)) = (r, g) ∧
        findTask u tn tag = some { k with
          state := .done, result := some { r with q := if k.late then qOr r.q qLate else r.q }
          log := if t.flow.isSome ∧ hasState code then some g else none }) ∧
      (∀ a b, (a ≠ tn ∨ b ≠ tag) → findTask u a b = findTask s.m a b) ∧
      ∃ l, u = { s.m with td := { s.m.td with tasks := l } }) ∧
    ∀ kind, memFault s.m t k = some kind → Leaves i s (complete code f s.m tn tag) fun u => u = taskFault s.m tn tag kind

/-- TIMER_ON: of consecutive tags with a true operand and no reset, from an empty count, the result is 1 from the n-th on. -/
def Obligations.TimerOnOperatesAfterItsCount : Prop :=
  ∀ (x : PrimIn) (n k : Nat) (nan : Nat → Bool), x.pNat 0 = n → x.hasOp 1 = false → x.oTrue 0 = true → x.st 0 = 0 →
    let fire (g : Seg) : Result × Seg := finish true { x with seg := g } nan (primTimerOn { x with seg := g })
    (fire ((fun g => (fire g).2)^[k] x.seg)).1.val = .int (if n ≤ k + 1 then 1 else 0)

/-! ## Host interface -/

/-- An ignored access (reserved location, partial write, write through a closed key gate) records its BAR0 offset in HOST_ACCADDR and
sets HOST_FAULT.ACCERR; it consumes no key-gate opening and writes no shadow copy. -/
def Obligations.IgnoredAccessesAreNoted : Prop :=
  let Noted (m u : Mod) (a : Nat) : Prop :=
    reg u Reg.HOST_ACCADDR = BitVec.ofNat 32 (a % 0x400000) ∧ Bit u Reg.HOST_FAULT 0 ∧ u.host.gates = m.host.gates ∧ u.shadow = m.shadow
  (∀ (s : State) (a : Nat) (w : Bool), Powered s → Leaves (.reservedAccess a w) s (reservedAccess s.m a w) fun u => Noted s.m u a) ∧
  (∀ (m : Mod) (off : Nat) (be : BitVec 4) (f : Mod → Mod), be ≠ 0 → be ≠ 15 → Noted m (hostWrite m off be f) off) ∧
  (∀ (m : Mod) (off : Nat) (f : Mod → Mod), gateOpen m (srcOf off) = false → Noted m (guardedWrite m off 15 f) off)

/-- Key gates and strobes: the key opens the block's gate for 1 ms, another word closes it, the 1 ms over closes it; a strobe waits
at every apply point of the blocks of its group, and the apply point takes it and copies the shadow bits of the block's registers
(the time base: where their values are in range) to the live ones; a HOST_SGRP register takes its write while no strobe
waits. -/
def Obligations.GatesAndStrobesWait : Prop :=
  ∀ s : State, Powered s →
    (∀ b, blockUp s.m b = true → Leaves (.keygateWrite b 0x0000C5A7 15) s (keygateWrite s.m b 0x0000C5A7 15) fun u =>
      gateOpen u b = true ∧ timerDue u .keygate b = some (s.m.clk.elapsed + msec 1) ∧ u.regs = s.m.regs) ∧
    (∀ b v, blockUp s.m b = true → v ≠ 0x0000C5A7 → Leaves (.keygateWrite b v 15) s (keygateWrite s.m b v 15) fun u =>
      gateOpen u b = false ∧ Bit u Reg.HOST_FAULT 0) ∧
    (∀ b, Due s.m .keygate b → Leaves (.keygateRelock b) s (keygateRelock s.m b) fun u =>
      gateOpen u b = false ∧ timerDue u .keygate b = none) ∧
    (∀ g b n, g < 8 → b ∈ shadowBlocks → groupOf s.m b = g → n < applyUnits b →
      Leaves (.hostStrobe (BitVec.ofNat 32 (2 ^ g)) 15) s (hostStrobe s.m (BitVec.ofNat 32 (2 ^ g)) 15) fun u =>
        g ∈ tabGet u.host.strobes (16 * b + n)) ∧
    (∀ b n, b ≠ 5 ∨ fltReady s.m = true → Becomes (.blockApplyPoint b n) s (applyPoint s.m b n) fun u =>
      tabGet u.host.strobes (16 * b + n) = [] ∧
        (tabGet s.m.host.strobes (16 * b + n) ≠ [] → b ≠ 9 → (b = 0xA → (netPort s.m n).link = false) →
          ∀ r ∈ windowRows b, r.shadow ≠ 0 → unitOf r.off = n → r.off ≠ Reg.FLT_PAL_CMD → r.off ≠ Reg.MTR_CTRL →
            reg u r.off = (limited r.off (shadowReg s.m r.off) &&& BitVec.ofNat 32 r.shadow) |||
              (reg s.m r.off &&& ~~~(BitVec.ofNat 32 r.shadow))) ∧
        (tabGet s.m.host.strobes (16 * b + n) ≠ [] → b = 9 → ∀ off ∈ [Reg.PTP_CTRL, Reg.PTP_CFG, Reg.PTP_INTV, Reg.PTP_SERVO],
          ptpInRange off (shadowReg s.m off) = true → reg u off = shadowReg s.m off)) ∧
    (∀ n, fltReady s.m = false → Becomes (.blockApplyPoint 5 n) s (applyPoint s.m 5 n) fun u => u = s.m) ∧
    (∀ n v r, strobeStat s.m = 0 → regRow? (Reg.HOST_SGRP n) = some r →
      Leaves (.hostSgrpWrite n v 15) s (sgrpWrite s.m n v 15) fun u =>
        reg u (Reg.HOST_SGRP n) = v &&& BitVec.ofNat 32 r.live ∧ u.shadow = s.m.shadow ∧ u.host = s.m.host)

/-- Registers: a plain write, through the open key gate where the register has one, reaches the live bits at once and the shadow bits'
copy; a read of a clear-on-read register answers its value and clears the bits; a group request is kept for its partition with
PE_SGRP_REQ, to take effect three tags on in each domain of the partition; unmasking a vector sends its pending message; the end of a
ring's hold-off lets the next interrupt of the ring go. -/
def Obligations.RegistersReadAndWrite : Prop :=
  ∀ s : State, Powered s →
    (∀ a v r, a % 4 = 0 → regRow? a = some r → blockUp s.m (srcOf a) = true → isReq a = false → isMsix a = false →
      opWrite s.m s.mem a v 15 = none → nth a (Reg.DMA_CH_CFG 0) 0x20 16 = none → r.off = a → a < 0x3F8000 →
      (r.guarded = true → gateOpen s.m (srcOf a) = true) →
      Becomes (.registerWrite a v 15) s (hostRegWrite s.m s.mem a v 15) fun u =>
        (r.wo = false → reg u a = (v &&& BitVec.ofNat 32 r.live) ||| (reg s.m a &&& ~~~(BitVec.ofNat 32 r.live))) ∧
        (r.shadow ≠ 0 →
          shadowReg u a = (v &&& BitVec.ofNat 32 r.shadow) ||| (shadowReg s.m a &&& ~~~(BitVec.ofNat 32 r.shadow))) ∧
        (r.guarded = true → gateOpen u (srcOf a) = false)) ∧
    (∀ a r, a % 4 = 0 → regRow? a = some r → blockUp s.m (srcOf a) = true → boxWord a = none → r.rc ≠ 0 → a < 0x3F8000 →
      a ≠ Reg.EVR_RD_DATA 15 →
      Leaves (.clearOnReadRead a 15) s (hostRead s.m a 15) fun u =>
        u.host.latched = .data (readValue s.m a) ∧ regO u a (selObj s.m a) &&& BitVec.ofNat 32 r.rc = 0) ∧
    (∀ p g v, p < 4 → 1 ≤ g → g ≤ groupCount s.m p → g < 16 → (partOf s.m p).state ≠ .absent → s.m.mode.role ≠ .standby →
      s.m.mode.role ≠ .referee → v = BitVec.ofNat 32 (p * 256 + g) → gateOpen s.m (srcOf Reg.PE_SGRP_REQ) = true →
      blockUp s.m (srcOf Reg.PE_SGRP_REQ) = true →
      Becomes (.settingsGroupRequest v 15) s (sgrpReq s.m v 15) fun u =>
        reg u Reg.PE_SGRP_REQ = v ∧ tabGet u.pe.kept p = some g ∧
          (∀ d ∈ partDomains s.m p, (tagAdd (latestTag s.m d) 3, g) ∈ tabGet u.pe.pend d) ∧ gateOpen u (srcOf Reg.PE_SGRP_REQ) = false) ∧
    (∀ v, v < 64 → pbaBit s.m v = true → s.m.host.linkUp = true →
      Leaves (.msixVectorUnmask v) s (msixUnmask s.m v) fun u =>
        pbaBit u v = false ∧ msixMasked u v = false ∧ ∃ a d, u.sent = .msix v a d :: s.m.sent) ∧
    (∀ r, Due s.m .ringHold r → tabGet s.m.host.ringPend r = false → Leaves (.ringIntHoldoffExpiry r) s (ringHoldExpiry s.m r) fun u =>
      tabGet u.host.ringHold r = false ∧ u.sent = s.m.sent)

/-- The wide-value mailboxes: a selected code latches its four words as valid, one that does not exist leaves the box invalid (the time
base: with PTP_FAULT bit 10); module code 0 of HOST is the serial number and the manufacturing day; DATA word 3 of a valid box is
answered and ends it. EVR_RD_DATA15 ends the read buffer's record. -/
def Obligations.MailboxesLatchTheirValue : Prop :=
  ∀ s : State, Powered s →
    (∀ b v r, blockUp s.m (srcOf (boxSel b)) = true → regRow? (boxSel b) = some r →
      let w := v &&& BitVec.ofNat 32 r.live
      let m := setReg s.m (boxSel b) w
      let Latched (ws : Option (List Nat)) (u : Mod) : Prop := reg u (boxSel b) = w ∧ getBox u b =
        match ws with
        | some ws => { valid := true, code := w.toNat, words := ws }
        | none => {}
      (b = .ptp → Leaves (.ptpMboxSel v 15) s (mboxSel s.m .ptp v 15) fun u =>
        Latched (ptpMbox m (w.toNat % 256)) u ∧ (ptpMbox m (w.toNat % 256) = none → Bit u Reg.PTP_FAULT 10)) ∧
      (b = .mtr → Leaves (.mtrMboxSel v 15) s (mboxSel s.m .mtr v 15)
        (Latched (mtrMbox m (bitsOf w.toNat 15 8) (bitsOf w.toNat 7 4) (bitsOf w.toNat 3 0)).2)) ∧
      (b = .evr → Leaves (.evrMboxSel v 15) s (mboxSel s.m .evr v 15) (Latched (evrMbox m (w.toNat % 256)))) ∧
      (b = .host → Leaves (.hostMboxSel v 15) s (mboxSel s.m .host v 15) (Latched (hostMbox m (w.toNat % 256))))) ∧
    Leaves (.hostMboxSel 0 15) s (mboxSel s.m .host 0 15) (fun u =>
      getBox u .host = ⟨true, 0, [s.m.factory.serial % 2 ^ 32, s.m.factory.serial / 2 ^ 32 % 2 ^ 32, s.m.factory.mfgDay, 0]⟩) ∧
    (∀ b, (getBox s.m b).valid = true → Leaves (.mboxData3Read b 15) s (mboxData3 s.m b 15) fun u =>
      getBox u b = {} ∧ u.host.latched = .data (BitVec.ofNat 32 ((getBox s.m b).words.getD 3 0)) ∧ u.regs = s.m.regs) ∧
    (blockUp s.m (srcOf (Reg.EVR_RD_DATA 15)) = true → Leaves (.evrRdData15Read 15) s (rdData15 s.m 15) fun u =>
      u.evr.readValid = false ∧ u.host.latched = .data (readValue s.m (Reg.EVR_RD_DATA 15)))

/-! ## Ports and rings -/

/-- Links and transmit queues: a link goes down with its fault flag, and up again; a pause that ends lets the port send; the frame
at the head of the highest queue that is not empty leaves the port, a PTP message stamped; the port's unanswered ARP requests repeat
every 60 s. A port of the parser is read again once no token of it is held and no lane that it feeds is full. Redundant pairs and M0: a supervision frame takes the next sequence number and comes
again after the pair's interval; nodes not seen for the pair's forget time leave its table; a frame on M0 reaches Keeper's queue, or
is counted as dropped where the queue is full. -/
def Obligations.PortsAndPairsSendAndForget : Prop :=
  (∀ (s : State) (p : Nat), Powered s → p < 8 →
      ((netPort s.m p).link = true → Leaves (.linkDown p false) s (linkDown s.m p false) fun u =>
        (netPort u p).link = false ∧ Bit u (Reg.MAC_PFAULT p) 1 ∧ (netPort u p).txq = (netPort s.m p).txq) ∧
      ((netPort s.m p).link = false → (portCfg s.m p).mode ≠ 0 → regBits s.m (Reg.MAC_PCFG p) 0 0 = 0 →
        Leaves (.linkUp p true) s (linkUp portGroups s.m p true) fun u => (netPort u p).link = true ∧ Bit u (Reg.MAC_PFAULT p) 2) ∧
      (Due s.m .pause p → Leaves (.pauseExpiry p) s (pauseExpiry s.m p) fun u =>
        (netPort u p).paused = false ∧ timerDue u .pause p = none) ∧
      (∀ q it rest, (netPort s.m p).link = true → (netPort s.m p).paused = false →
        ([7, 6, 5, 4, 3, 2, 1, 0].find? fun q => !(tabGet (netPort s.m p).txq q).isEmpty) = some q →
        tabGet (netPort s.m p).txq q = it :: rest →
        Leaves (.frameTransmit p) s (frameTransmit s.m p) fun u =>
          (∃ a b f, u.sent = a ++ .frame p f :: (b ++ s.m.sent) ∧ { f with payload := it.frame.payload } = it.frame ∧
            (it.ptp ≠ 2 → f = it.frame)) ∧
          (it.ptp = 0 → tabGet (netPort u p).txq q = rest)) ∧
      (Due s.m .arp p → Leaves (.arpRefresh p) s (arpRefresh s.m p) fun u =>
        timerDue u .arp p = some (s.m.clk.elapsed + secs 60) ∧
        u = startTimer (((netPort s.m p).arp.filter (·.mac.isNone)).foldl (fun m e => arpAsk m p e.ip) (stopTimer s.m .arp p))
          .arp p (secs 60)) ∧
      ((s.m.td.held.any fun x => x.src == .sv p) = false →
        (∀ x ∈ s.m.sv.lanes, (subCfg s.m x.sub).any (fun c => c.ports.testBit p) = true → laneFull s.m x.sub = false) →
        Leaves (.parserHoldRelease p) s (parserHoldRelease s.m p) fun u =>
        (netPort u p).held = false)) ∧
  (∀ s : State, Powered s →
      (∀ pr, Due s.m .supervision pr → (tabGet s.m.portMap.pairs pr).mode ≠ 0 →
        Leaves (.supervisionFrameTimer pr) s (supervisionTimer s.m pr) fun u =>
          (tabGet u.net.pairs pr).supSeq = ((tabGet s.m.net.pairs pr).supSeq + 1) % 65536 ∧
          timerDue u .supervision pr = some (s.m.clk.elapsed + msec (tabGet s.m.portMap.pairs pr).supIntv) ∧
          u = startTimer (sendFrame (modPair (stopTimer s.m .supervision pr) pr fun x =>
              { x with supSeq := ((tabGet s.m.net.pairs pr).supSeq + 1) % 65536 })
            (4 ^ pr) 6 (0x01154E000100 + (tabGet s.m.portMap.pairs pr).supOctet) []
            (.supervision (portCfg s.m (2 * pr)).mac (tabGet s.m.net.pairs pr).supSeq))
            .supervision pr (msec (tabGet s.m.portMap.pairs pr).supIntv)) ∧
      (∀ pr, (∃ e ∈ (tabGet s.m.net.pairs pr).nodes, e.seen + secs (tabGet s.m.portMap.pairs pr).forget ≤ s.m.clk.elapsed) →
        Leaves (.nodeForget pr) s (nodeForget s.m pr) fun u =>
          (tabGet u.net.pairs pr).nodes = (tabGet s.m.net.pairs pr).nodes.filter fun n =>
            decide (s.m.clk.elapsed < n.seen + secs (tabGet s.m.portMap.pairs pr).forget)) ∧
      (∀ b, Leaves (.m0FrameReceived b false) s (m0Frame s.m b false) fun u =>
        u.net = { s.m.net with m0Link := true, m0An := true, m0Queue := s.m.net.m0Queue ++ [b] }) ∧
      (∀ b, Leaves (.m0FrameReceived b true) s (m0Frame s.m b true) fun u =>
        u.net = { s.m.net with m0Link := true, m0An := true, m0Drops := s.m.net.m0Drops + 1 }))

/-- Host rings: a TAIL write gives or hands over descriptors, BASE and SIZE are taken while the ring is empty and refused with the
RING flag else; a transmit descriptor without its OWN bit stops the ring, one that asks for more than the port allows is done with
status 4 (refused), one whose ports have room is queued on each of them and done with status 1, one whose ports have not waits, and
one that waited 10 ms with status 2, its HEAD one further. Received frames: a good frame goes to the control or the parser buffer of
its port where that has room, or to the host ring of its class, with its bytes and its descriptor written; a frame with
errors counts in the counter of its first error with the port's error flag; one of a VID that the port does not list counts as such;
an accepted PAUSE frame stops an obeying port for its quanta. -/
def Obligations.HostRingsAndReceivedFrames : Prop :=
  (∀ s : State, Powered s → blockUp s.m 0xA = true →
      (∀ r v, r < 4 → Leaves (.hostRxRingTail r v 15) s (hostRxTail s.m r v 15) fun u =>
        reg u (ringTail r) = v ∧ tabGet u.net.stopped r = false) ∧
      (∀ r v, r < 4 → Leaves (.hostTxRingTail r v 15) s (hostTxTail s.m r v 15) fun u =>
        reg u (ringTail (4 + r)) = v ∧ tabGet u.net.stopped (4 + r) = false) ∧
      (∀ r v, r < 8 → reg s.m (ringHead r) = reg s.m (ringTail r) →
        Leaves (.ringBaseSizeWrite r false v 15) s (ringBaseSizeWrite s.m r false v 15) (fun u => reg u (ringBase r) = v) ∧
        Leaves (.ringBaseSizeWrite r true v 15) s (ringBaseSizeWrite s.m r true v 15) fun u => reg u (ringSz r) = v) ∧
      (∀ r v, r < 8 → reg s.m (ringHead r) ≠ reg s.m (ringTail r) →
        Leaves (.ringBaseSizeWrite r false v 15) s (ringBaseSizeWrite s.m r false v 15) fun u =>
          reg u (ringBase r) = reg s.m (ringBase r) ∧ Bit u (Reg.MAC_PFAULT 0) 8) ∧
      (∀ r i, r < 4 → tabGet s.m.net.stopped (4 + r) = false → i = (reg s.m (ringHead (4 + r))).toNat →
        i ≠ (reg s.m (ringTail (4 + r))).toNat →
        (dramNat s.mem (ringDesc s.m (4 + r) i + 28) 4 < 2 ^ 31 →
          Stores (.hostTxDescriptor r) s (hostTxDescriptor s.m s.mem r).1 [] fun u => tabGet u.net.stopped (4 + r) = true) ∧
        (2 ^ 31 ≤ dramNat s.mem (ringDesc s.m (4 + r) i + 28) 4 →
          ∀ len ports queue flags ps, len = dramNat s.mem (ringDesc s.m (4 + r) i + 4) 2 →
            ports = dramNat s.mem (ringDesc s.m (4 + r) i + 6) 1 → queue = dramNat s.mem (ringDesc s.m (4 + r) i + 7) 1 →
            flags = dramNat s.mem (ringDesc s.m (4 + r) i + 10) 2 → ps = hostTxPorts s.m ports (flags.testBit 1) →
          let Room (p : Nat) : Prop :=
            queueRoom s.m p queue (len + 4 + if flags.testBit 1 = false ∧ (pairCfg s.m p).mode ≠ 0 then 6 else 0) = true
          (hostTxOk s.m len ports queue flags = false →
            Stores (.hostTxDescriptor r) s (hostTxDescriptor s.m s.mem r).1
                [toDram (ringDesc s.m (4 + r) i + 28) (leBytes 4 4)] fun u =>
              reg u (ringHead (4 + r)) = BitVec.ofNat 32 (ringNext s.m (4 + r) i)) ∧
          (hostTxOk s.m len ports queue flags = true → (∀ p ∈ ps, Room p) →
            Stores (.hostTxDescriptor r) s (hostTxDescriptor s.m s.mem r).1
                [toDram (ringDesc s.m (4 + r) i + 28) (leBytes 4 1)] fun u =>
              reg u (ringHead (4 + r)) = BitVec.ofNat 32 (ringNext s.m (4 + r) i) ∧
                ∀ p ∈ ps, ∃ it, tabGet (netPort u p).txq queue = tabGet (netPort s.m p).txq queue ++ [it] ∧
                  it.frame.raw = dramRead s.mem (dramNat s.mem (ringDesc s.m (4 + r) i) 4) len ∧ it.frame.len = len + 4) ∧
          (hostTxOk s.m len ports queue flags = true → (∃ p ∈ ps, ¬Room p) → (s.m.net.txWait.any (·.ring == r)) = false →
            Stores (.hostTxDescriptor r) s (hostTxDescriptor s.m s.mem r).1 [] fun u =>
              u.net.txWait = s.m.net.txWait ++ [⟨r, i⟩] ∧ timerDue u .hostTx r = some (s.m.clk.elapsed + msec 10)))) ∧
      (∀ r w, r < 4 → Due s.m .hostTx r → s.m.net.txWait.find? (·.ring == r) = some w →
        Stores (.hostTxQueueTimeout r) s (hostTxTimeout s.m s.mem r).1 [toDram (ringDesc s.m (4 + r) w.idx + 28) (leBytes 4 2)] fun u =>
          reg u (ringHead (4 + r)) = BitVec.ofNat 32 (ringNext s.m (4 + r) w.idx) ∧ (u.net.txWait.any (·.ring == r)) = false)) ∧
  (∀ (s : State) (p : Nat) (f : Frame), Powered s → p < 8 → (netPort s.m p).link = true → frameErrs s.m p f = 0 →
      f.tags.length < 2 → f.red = none → (∀ q, f.payload ≠ .pause q) →
      ((portCfg s.m p).vlanFilter = false ∨ frameVid f = 0 ∨ (portCfg s.m p).vids.contains (frameVid f) = true) →
      (rxClass s.m p f = .control → bufFill (netPort s.m p).control + f.len ≤ 131072 →
        Stores (.macFrameReceived p f) s (macFrameReceived s.m s.mem p f).1 [] fun u =>
          (netPort u p).control = (netPort s.m p).control ++ [⟨f, rxStamp s.m p, false⟩]) ∧
      (rxClass s.m p f = .parser → bufFill (netPort s.m p).parser + f.len ≤ 2097152 →
        Stores (.macFrameReceived p f) s (macFrameReceived s.m s.mem p f).1 [] fun u =>
          (netPort u p).parser = (netPort s.m p).parser ++ [⟨f, rxStamp s.m p, false⟩]) ∧
      (∀ r d, rxClass s.m p f = .host r → d = ringDesc s.m r (reg s.m (ringHead r)).toNat → tabGet s.m.net.stopped r = false →
        r < 4 → reg s.m (ringHead r) ≠ reg s.m (ringTail r) → 2 ^ 31 ≤ dramNat s.mem (d + 28) 4 →
        ∃ w, Stores (.macFrameReceived p f) s (macFrameReceived s.m s.mem p f).1
            [toDram (dramNat s.mem d 4) (f.raw.take (dramNat s.mem (d + 4) 2)), w,
              toDram (d + 28) (leBytes 4 (if dramNat s.mem (d + 4) 2 < f.raw.length then 256 else 0))] (fun u =>
          reg u (ringHead r) = BitVec.ofNat 32 (ringNext s.m r (reg s.m (ringHead r)).toNat)) ∧
          w.addr = d + 6 ∧ w.bytes.take 2 = leBytes 2 (f.raw.take (dramNat s.mem (d + 4) 2)).length)) ∧
  (∀ (s : State) (p : Nat) (f : Frame), Powered s → p < 8 → (netPort s.m p).link = true → regBits s.m (Reg.MAC_PCFG p) 3 3 = 0 →
      (frameErrs s.m p f ≠ 0 → Stores (.macFrameReceived p f) s (macFrameReceived s.m s.mem p f).1 [] fun u =>
        Bit u (Reg.MAC_PFAULT p) 0 ∧ (reg s.m (errCounter p (frameErrs s.m p f)) ≠ BitVec.allOnes 32 →
          reg u (errCounter p (frameErrs s.m p f)) = reg s.m (errCounter p (frameErrs s.m p f)) + 1)) ∧
      (frameErrs s.m p f = 0 → f.tags.length < 2 → (portCfg s.m p).vlanFilter = true → frameVid f ≠ 0 →
        (portCfg s.m p).vids.contains (frameVid f) = false → reg s.m (Reg.MAC_PRX_VLAN p) ≠ BitVec.allOnes 32 →
        Stores (.macFrameReceived p f) s (macFrameReceived s.m s.mem p f).1 [] fun u =>
          reg u (Reg.MAC_PRX_VLAN p) = reg s.m (Reg.MAC_PRX_VLAN p) + 1) ∧
      (∀ q, frameErrs s.m p f = 0 → f.tags = [] → f.payload = .pause q → 0 < q → regBits s.m (Reg.MAC_PCFG p) 2 2 = 1 →
        Stores (.macFrameReceived p f) s (macFrameReceived s.m s.mem p f).1 [] fun u =>
          (netPort u p).paused = true ∧ timerDue u .pause p =
            some (s.m.clk.elapsed + q * (if (portCfg s.m p).mode = 1 then 512 * nsUnit / 10 else 512 * nsUnit))))

/-! ## Sampled values, filters and GOOSE -/

/-- An SV frame of one synchronised ASDU that passes every check, from a stream in the synchronised state, leaves the parser buffer
and its sample is stored under its tag until the tags before it are emitted. One that does not decode is counted as bad with its
flag. A tag of a stream without a stored sample is declared missing once its deadline has passed and nothing waits: the next tag is
expected, and after more than HOLD_MAX in a row the stream is lost with its flag. -/
def Obligations.SvTagsAreStoredOrDeclaredMissing : Prop :=
  (∀ (s : State) (p sb : Nat) (x : RxItem) (rest : List RxItem) (v : SvFrame) (c : SubCfg), Powered s →
      (tabGet s.m.net.ports p).held = false → takeItem (tabGet s.m.net.ports p).parser isSv = some (x, rest) → x.frame.payload = .sv v →
      svSubOf s.m p x.frame v = some sb → subCfg s.m sb = some c → isLive s.m c.part = true →
      (svDecodes x.frame v = false → Becomes (.svFrameReceived p) s (svFrameReceived s.m p) fun u =>
        Bit u Reg.SV_FAULT 7 ∧ (tabGet u.net.ports p).parser = rest ∧ (stream u sb).store = (stream s.m sb).store) ∧
      (∀ a ix nx, v.asdus = [a] → ix = syncIndex c a.smpCnt (x.ts * (2 ^ 32 : Nat)) → svDecodes x.frame v = true → c.auth = false →
        a.confRev = c.confRev → a.chans.length = c.nch → rateOk s.m sb c v = true →
        tabGet s.m.mode.partTest c.part ≠ .simulation → v.sim = false → asduSynced s.m c a.smpSynch = true →
        (stream s.m sb).state = .sync → (stream s.m sb).synced = true → subD s.m c = 1 → (stream s.m sb).next = some nx →
        nx < ix → ix ≤ nx + c.w → x.ts * (2 ^ 32 : Nat) ≤ (ixInstant s.m c ix + usec c.h : Nat) →
        (∀ y ∈ (stream s.m sb).store ++ (stream s.m sb).done, y.ix ≠ ix ∧ y.ix ≠ nx) →
        Becomes (.svFrameReceived p) s (svFrameReceived s.m p) fun u =>
          (tabGet u.net.ports p).parser = rest ∧
          (stream u sb).store = (stream s.m sb).store ++ [⟨ix, a.smpCnt, asduVals true false a, a.chans, false, p⟩] ∧
          (stream u sb).next = some nx)) ∧
  (∀ (s : State) (sb : Nat) (c : SubCfg) (k : Int), Powered s → subCfg s.m sb = some c → isLive s.m c.part = true →
      (partOf s.m c.part).stopped = false → (stream s.m sb).next = some k → (stream s.m sb).store = [] → subD s.m c = 1 →
      (∀ p, p < 8 → c.ports.testBit p = true → (netPort s.m p).held = false ∧ (netPort s.m p).parser = []) →
      ixInstant s.m c k + usec c.h ≤ localTime s.m.clk →
      Becomes (.svTagMissing sb) s (svTagMissing s.m sb) fun u =>
        (stream u sb).next = some (k + 1) ∧ (stream u sb).missRun = (stream s.m sb).missRun + 1 ∧
        ((stream s.m sb).missRun < c.holdMax → (stream u sb).state = (stream s.m sb).state) ∧
        (c.holdMax ≤ (stream s.m sb).missRun → (stream s.m sb).state = .sync ∨ (stream s.m sb).state = .unsync →
          (stream u sb).state = .lost ∧ Bit u Reg.SV_FAULT 3))

/-- A scheduled slip takes effect once the stream has reached the tag before its tag, inserting or discarding one tag; SV_BLOCK
notes a subscription's block or unblock from tag T + 8; a power-quality event is ended by its timeout. The filter array takes the
oldest sample whose lane is not stopped, at the apply point of its registers: the sample's age in its lane and the history of each of
its channels grow by it. The request at the head of the fade queue starts its switch, from tag T + 8; once the fade's tags are over
the new Palette is the active one. -/
def Obligations.SlipsBlocksLanesAndPalettes : Prop :=
  (∀ s : State, Powered s →
      (∀ sb k h ins cnt, (stream s.m sb).slip = some (k, ins) → (stream s.m sb).high = some (h, cnt) → k ≤ h + 1 →
        Becomes (.svSlip sb) s (svSlip s.m sb) fun u =>
          (stream u sb).slip = none ∧ Bit u Reg.SV_FAULT 6 ∧
          (ins = true → (stream u sb).high = some (h + 1, cnt)) ∧
          (ins = false → (stream u sb).high = some (h, cnt) ∧ (stream u sb).drop = some (h + 1))) ∧
      (∀ v c, blockUp s.m (srcOf Reg.SV_BLOCK) = true → gateOpen s.m (srcOf Reg.SV_BLOCK) = true → s.m.mode.role ≠ .standby →
        s.m.mode.role ≠ .referee → subCfg s.m (v.toNat % 512) = some c →
        Becomes (.svBlock v 15) s (svBlockWrite s.m v 15) fun u =>
          reg u Reg.SV_BLOCK = v &&& 0x800001FF ∧ gateOpen u (srcOf Reg.SV_BLOCK) = false ∧
          (stream u (v.toNat % 512)).blocks.getLast? = some
            (((tagIndex s.m c.part (tagAdd (latestTag s.m c.part) 8) : Nat) : Int), v.toNat.testBit 31)) ∧
      (∀ pq c ty o, Due s.m .pqEvent pq → (mtrCfg s.m).pqs.lookup pq = some c → ty ∈ [1, 2, 3] →
        tabGet (pqSt s.m pq).open_ ty = some o →
        Leaves (.pqEventTimeout pq) s (pqTimeout s.m pq) fun u =>
          tabGet (pqSt u pq).open_ ty = none ∧ timerDue u .pqEvent pq = none)) ∧
  (∀ s : State, Powered s →
      (∀ m x c, m = fltPoint s.m → m.sv.lanes.find? (fun x => !laneHeld m x.sub) = some x → subCfg m x.sub = some c →
        Becomes .filterLaneSample s (laneSample s.m) fun u =>
          u.sv.lanes = m.sv.lanes.erase x ∧
          (tabGet u.sv.laneSt x.sub).age = (if x.disc then 1 else (tabGet m.sv.laneSt x.sub).age + 1) ∧
          (((subChans m x.sub).map (·.1)).Nodup → ∀ n ch g, (n, ch) ∈ subChans m x.sub → groupCfg m ch.group = some g →
            (tabGet u.sv.chans n).hist =
              (x.vals.getD ch.idx (0, 1) :: (tabGet m.sv.chans n).hist).take (histLen g c.rate))) ∧
      (∀ g rest c pal, s.m.sv.queue = g :: rest → (groupSt s.m g).fade = none → (groupSt s.m g).pending = some pal →
        groupCfg s.m g = some c →
        Becomes .paletteSwitchStart s (palSwitchStart s.m) fun u =>
          u.sv.queue = g :: rest ∧ (groupSt u g).pending = none ∧ (groupSt u g).active = (groupSt s.m g).active ∧
          (groupSt u g).fade = some ⟨tagAdd (latestTag s.m (groupPart s.m g)) 8, pal,
            decide (0 < c.xf) && (palOf c (groupSt s.m g).active).delay == (palOf c pal).delay⟩) ∧
      (∀ g f c, (groupSt s.m g).fade = some f → groupCfg s.m g = some c → f.fade = true →
        groupPassed s.m g (tagAdd f.etag c.xf) = true →
        Becomes (.paletteFadeEnd g) s (palFadeEnd s.m g) fun u =>
          (groupSt u g).active = f.pal ∧ (groupSt u g).fade = none ∧ u.sv.queue = s.m.sv.queue.erase g))

/-- A GOOSE frame with a new state number, of the one subscription it names, makes the subscription valid with the frame's values,
delivers those that changed, or all of them at the first frame, and starts its time allowed to live; the time over makes it expired with its flag, its values invalid. A publication's retransmission
takes the next sequence number and doubles its interval up to Tmax. -/
def Obligations.GooseFramesAndRetransmissions : Prop :=
  ∀ s : State, Powered s →
    (∀ p it m' g n c vals, takeControl s.m p isGoose = some (it, m') → it.frame.payload = .goose g → peerPub s.m it.frame g = none →
      allGSubs s.m = [(n, c)] → c.appid = g.appid → c.dst = it.frame.dst → c.gocbRef = g.gocbRef → c.ports.testBit p = true →
      isLive s.m c.part = true → gooseDecodes it.frame g = true → c.auth = false → g.confRev = c.confRev → g.sim = false →
      tabGet s.m.mode.partTest c.part ≠ .simulation → c.sgrp = false →
      c.routes.map (routedVal (gooseMembers g.vals)) = vals.map some →
      (∀ a, (gsubSt s.m n).last = some a → a.1 ≠ g.stNum) → (gsubSt s.m n).earlier.contains g.stNum = false →
      Becomes (.gooseFrameReceived p) s (gooseReceived s.m p) fun u =>
        (gsubSt u n).state = .valid ∧ (gsubSt u n).last = some (g.stNum, g.sqNum) ∧ (gsubSt u n).vals = vals ∧
        timerDue u .gooseTal n = some (s.m.clk.elapsed + msec g.tal) ∧
        tabGet u.td.cross 5 = tabGet s.m.td.cross 5 ++
          (((c.routes.zip vals).zip (List.range vals.length)).filter fun x =>
            (gsubSt s.m n).first || (gsubSt s.m n).vals[x.2]? != some x.1.2).map fun x =>
              ⟨⟨x.1.1.target, x.1.1.op, 0, n, x.1.2.val, x.1.2.q⟩, none, .async⟩) ∧
    (∀ n c, Due s.m .gooseTal n → (allGSubs s.m).lookup n = some c →
      Leaves (.gooseTalExpiry n) s (gooseTalExpiry s.m n) fun u =>
        (gsubSt u n).state = .expired ∧ Bit u Reg.OUT_FAULT 12 ∧ timerDue u .gooseTal n = none ∧
        (gsubSt u n).vals = (gsubSt s.m n).vals.map fun v => { v with q := BitVec.ofNat 16 (qGap + 1) }) ∧
    (∀ n c, Due s.m .gooseRetransmit n → pubCfg s.m n = some c → pubBlocked (unitTest s.m) c = false →
      Leaves (.gooseRetransmit n) s (gooseRetransmit s.m n) fun u =>
        (pubSt u n).sqNum = nextNum (pubSt s.m n).sqNum ∧
        (pubSt u n).interval = min (2 * (pubSt s.m n).interval) c.tmax ∧
        timerDue u .gooseRetransmit n =
          some (s.m.clk.elapsed + usec (max 1 (min (2 * (pubSt s.m n).interval) c.tmax))) ∧
        u = startTimer (sendPub (modPub (stopTimer s.m .gooseRetransmit n) n fun x =>
            { x with sqNum := nextNum x.sqNum, interval := min (2 * x.interval) c.tmax }) n c)
          .gooseRetransmit n (usec (max 1 (min (2 * (pubSt s.m n).interval) c.tmax))))

/-! ## Phasor concentration and alarms -/

/-- An accepted PMU data frame of a UDP or a TCP input: it leaves the parser, the input is Locked or Unlocked by its STAT words, its
SOC is noted, and its lost timer of 1 s starts again. TCP inputs and commands: a connection made again asks for CFG-2, a failed
attempt comes again in 5 s, and a dropped connection is flagged; an input without a frame for 1 s is lost; a turn-off command stops
its output's frames, a turn-on command lets them go on, and one for CFG-2 is answered with the output's; BSN_IN_BLOCK blocks an input or unblocks it; the configuration-change flag ends with its timer. -/
def Obligations.PmuInputsAreTakenAndLost : Prop :=
  (let Fits (m : Mod) (n : Nat) (c : InCfg) (f : PmuFrame) (t : Int) : Prop :=
      isLive m 1 = true ∧ f.kind = .data ∧ pmuFits c f = true ∧ (bsnIn m n).mis = false ∧
        (gridIndex c.rate (socToTai m c f (if f.v905 then 1000000000 else max 1 c.cfg.timeBase) t).1 f.fracsec
          (if f.v905 then 1000000000 else max 1 c.cfg.timeBase)).isSome = true
    let Taken (m u : Mod) (n : Nat) (f : PmuFrame) : Prop :=
      (bsnIn u n).state = (if (f.blocks.map (frameStat f)).any (·.testBit 13) then .unlocked else .locked) ∧
        (bsnIn u n).lastSoc = f.soc ∧ timerDue u .inputLost n = some (m.clk.elapsed + secs 1)
    ∀ s : State, Powered s →
      (∀ p x rest src dst sport dport f n c, (netPort s.m p).held = false →
        takeItem (netPort s.m p).parser isPmu = some (x, rest) → x.frame.payload = .udp src dst sport dport (.pmu f) →
        inputOf s.m p src dst dport f = some (n, c) → c.transport = 0 → Fits s.m n c f (x.ts * (2 ^ 32 : Nat)) →
        Leaves (.pmuFrameReceived p) s (pmuReceived s.m p) fun u => Taken s.m u n f ∧ (netPort u p).parser = rest) ∧
      (∀ n f c, inCfg s.m n = some c → c.transport = 1 → (bsnIn s.m n).tcp = true → Fits s.m n c f (localTime s.m.clk) →
        Leaves (.pmuTcpFrame n f) s (pmuTcpFrame s.m n f) fun u => Taken s.m u n f)) ∧
  (∀ (s : State) (n : Nat), Powered s →
      (Due s.m .tcpReconnect n →
        Leaves (.pmuTcpReconnect n true) s (pmuTcpReconnect s.m n true) (fun u =>
          (bsnIn u n).tcp = true ∧ (bsnIn u n).wantCfg = true ∧ (bsnIn u n).state ≠ .tcpDown ∧
            u.sent = .c37 true n 5 [] :: s.m.sent) ∧
        Leaves (.pmuTcpReconnect n false) s (pmuTcpReconnect s.m n false) fun u =>
          timerDue u .tcpReconnect n = some (s.m.clk.elapsed + secs 5) ∧ u.bsn = s.m.bsn) ∧
      ((bsnIn s.m n).tcp = true → Leaves (.pmuTcpDown n) s (pmuTcpDown s.m n) fun u =>
        (bsnIn u n).tcp = false ∧ (bsnIn u n).state = .tcpDown ∧ Bit u Reg.BSN_FAULT 10 ∧
          timerDue u .tcpReconnect n = some (s.m.clk.elapsed + secs 5)) ∧
      (Due s.m .inputLost n → Leaves (.pmuInputLost n) s (pmuInputLost s.m n) fun u =>
        (bsnIn u n).state = (if (bsnIn s.m n).state = .tcpDown then .tcpDown else .lost) ∧ Bit u Reg.BSN_FAULT 4) ∧
      (∀ p it m' a b c d id cmd o oc, takeControl s.m p isC37Cmd = some (it, m') →
        it.frame.payload = .udp a b c d (.c37cmd id cmd false) →
        ((imageOf s.m 1).outs.filter fun x => x.2.cmdPort ≠ 0 ∧ x.2.cmdPort = d ∧ x.2.idcode = id) = [(o, oc)] →
        (cmd = 1 → (bsnOut s.m o).txOff = false → Leaves (.c37CommandFrame p) s (c37Command s.m p) fun u =>
          (bsnOut u o).txOff = true ∧ Bit u Reg.BSN_FAULT 8) ∧
        (cmd = 2 → Leaves (.c37CommandFrame p) s (c37Command s.m p) fun u => (bsnOut u o).txOff = false ∧ (bsnOut u o).gap = none) ∧
        (cmd = 5 → outCfg s.m o = some oc → (wadCfg s.m).almCmd = 0 → Leaves (.c37CommandFrame p) s (c37Command s.m p) fun u =>
          u.sent = .c37 false o 5 oc.cfg.raw :: s.m.sent ∧ u.bsn = s.m.bsn)) ∧
      (∀ v, blockUp s.m (srcOf Reg.BSN_IN_BLOCK) = true → gateOpen s.m (srcOf Reg.BSN_IN_BLOCK) = true →
        (inCfg s.m (v.toNat % 8192)).isSome = true → Leaves (.bsnInBlock v 15) s (bsnInBlock s.m v 15) fun u =>
          (bsnIn u (v.toNat % 8192)).blocked = v.getLsbD 31 ∧ reg u Reg.BSN_IN_BLOCK = v &&& 0x80001FFF ∧
            gateOpen u (srcOf Reg.BSN_IN_BLOCK) = false) ∧
      (Due s.m .cfgChange n → Leaves (.configChangeFlagExpiry n) s (cfgChangeExpiry s.m n) fun u =>
        (bsnOut u n).cfgChg = false ∧ timerDue u .cfgChange n = none))

/-- The Sluice releases the next set of an output once it is complete or its deadline has come: the following set is the next one, and
the set's tag the output's last. A token of a release that was held enters its slot once the slot is free. -/
def Obligations.SetsAreReleasedInTurn : Prop :=
  ∀ (s : State) (o : Nat), Powered s →
    (∀ c k, outCfg s.m o = some c → (bsnOut s.m o).next = some k → isLive s.m 1 = true → (partOf s.m 1).stopped = false →
      setComplete (pruneSets s.m o c) c (setOf (bsnOut (pruneSets s.m o c) o) k) = true ∨ setDue c k ≤ localTime s.m.clk →
      let r := releaseSet (pruneSets s.m o c) o c k (setComplete (pruneSets s.m o c) c (setOf (bsnOut (pruneSets s.m o c) o) k))
      Becomes (.sluiceRelease o) s (sluiceRelease hooks s.m o) fun u =>
        u = hooks.cyc r 1 (ixTag k) ∧ (bsnOut r o).next = some (k + 1) ∧ (bsnOut r o).lastTag = ixTag k ∧
          (bsnOut r o).prev.length = c.members.length) ∧
    (∀ x t, s.m.td.held.find? (·.src == .sluice o) = some x → template s.m x.tok.tmpl = some t → t.num = x.tok.tmpl →
      heldFirst s.m t.num x.tok.op = some x → isLive s.m (tmplPart t) = true → (partOf s.m (tmplPart t)).stopped = false →
      canEnter s.m t x.tok = true →
      completes s.m t x.tok = false →
      Becomes (.sluiceReleaseResume o) s (sluiceResume s.m o) fun u =>
        tabGet u.td.slots (slotKey t.num x.tok.op) = some x ∧ u.td.held = s.m.td.held.erase x)

/-- Alarms: an acknowledgement marks a raised alarm as acknowledged, clears a latched one, and is refused with the flag for another;
each whole second sends the alarm stream's frame on its port. Federation: a message of another length or member is dropped; a fresh
one that bears the key's code sets its alarm and the origin's sequence number; a message is repeated as often as is left, the second
time 90 ms after the first. -/
def Obligations.AlarmsAreAcknowledgedStreamedAndFederated : Prop :=
  (∀ s : State, Powered s →
      (∀ v c, blockUp s.m (srcOf Reg.WAD_ALM_ACK) = true → alarmCfg s.m (v.toNat % 512) = some c →
        ((alarmSt s.m (v.toNat % 512)).on = true → Leaves (.wadAlmAck v 15) s (wadAlmAck s.m v 15) fun u =>
          (alarmSt u (v.toNat % 512)).acked = true ∧ (alarmSt u (v.toNat % 512)).on = true) ∧
        ((alarmSt s.m (v.toNat % 512)).on = false → (alarmSt s.m (v.toNat % 512)).latched = true →
          Leaves (.wadAlmAck v 15) s (wadAlmAck s.m v 15) fun u =>
            (alarmSt u (v.toNat % 512)).latched = false ∧ (alarmSt u (v.toNat % 512)).acked = false ∧
              (alarmSt u (v.toNat % 512)).on = false) ∧
        ((alarmSt s.m (v.toNat % 512)).on = false → (alarmSt s.m (v.toNat % 512)).latched = false →
          Leaves (.wadAlmAck v 15) s (wadAlmAck s.m v 15) fun u => Bit u Reg.WAD_FAULT 5 ∧ u.wad = s.m.wad)) ∧
      (∀ v p mac w, v = toPps s.m → w = wadCfg v → regBits v Reg.WAD_CTRL 2 2 = 1 → v.bsn.almOff = false →
        (partOf v 1).image.isSome = true → p < 8 → 146 ≤ (portCfg v p).mtu → w.almPorts = 2 ^ p → (tabGet v.portMap.pairs (p / 2)).mode = 0 →
        resolve v p w.almIp = some mac →
        Leaves .alarmStreamSecond s (alarmSecond s.m) fun u =>
          ∃ it f sp, u = queueModule v p w.almQueue it ∧ it.frame.dst = mac ∧
            it.frame.payload = .udp (portCfg v p).ip w.almIp sp w.almDport (.pmu f) ∧ f.idcode = w.almId ∧
            f.blocks = [alarmBlock v 0, alarmBlock v 1])) ∧
  (∀ s : State, Powered s →
      (∀ p it m' x y z d b, (wadCfg s.m).fedPorts.testBit p = true → takeControl s.m p (isRawTo (wadCfg s.m).fedUdp) = some (it, m') →
        it.frame.payload = .udp x y z d (.raw b) →
        (b.length ≠ 56 → reg s.m Reg.WAD_FED_CNT_DROP ≠ BitVec.allOnes 32 →
          Leaves (.federationMessageReceived p) s (fedReceived s.m p) fun u =>
            reg u Reg.WAD_FED_CNT_DROP = reg s.m Reg.WAD_FED_CNT_DROP + 1 ∧ u.wad = s.m.wad) ∧
        (∀ o r q a c, b.length = 56 → leNat (b.take 4) = 0x46414C4D → leNat ((b.drop 4).take 4) = (wadCfg s.m).fedId →
          leNat ((b.drop 8).take 2) = o → o ≠ (wadCfg s.m).member → leNat ((b.drop 12).take 2) = r → leNat ((b.drop 16).take 8) = q →
          slotLive (keySlot s.m (wadCfg s.m).fedKey) = true → (keySlot s.m (wadCfg s.m).fedKey).cur ≠ [] →
          (hmac256 (keySlot s.m (wadCfg s.m).fedKey).cur (b.take 40)).take 16 = b.drop 40 →
          (wadCfg s.m).alarms.find? (fun x => x.2.src == 2 && x.2.origin == o && x.2.remote == r) = some (a, c) →
          alarmCfg s.m a = some c → tabGet s.m.wad.seqRx (o * 512 + r) = none →
          Leaves (.federationMessageReceived p) s (fedReceived s.m p) fun u =>
            tabGet u.wad.seqRx (o * 512 + r) = some q ∧ (alarmSt u a).on = (leNat ((b.drop 11).take 1)).testBit 0)) ∧
      (∀ a r, Due s.m .fedRepeat a → (alarmSt s.m a).repeats = r + 1 →
        Leaves (.federationRepeat a) s (fedRepeat s.m a) fun u =>
          (alarmSt u a).repeats = r ∧
          timerDue u .fedRepeat a = (if r = 1 then some (s.m.clk.elapsed + msec 90) else none) ∧
          ∃ v, v = fedSend (modAlarm (stopTimer s.m .fedRepeat a) a fun x => { x with repeats := r }) (alarmSt s.m a).msg ∧
            u = if r = 1 then startTimer v .fedRepeat a (msec 90) else v))

/-! ## The redundant pair and the Referee -/

/-- Valid frames on the Towpath: HELLO brings the Towpath up for 12 µs with the peer's data, HEARTBEAT renews them, DIGEST is noted and
begins a synchronised Standby's copy, COPY
adds records to its tag's copy and COPY_END ends one that agrees, SWEEP installs its records on an unsynchronised Standby, FAULT makes a
live Standby take over, REVERT_REQ is acknowledged by an Active that may revert and refused by another unit, REVERT_ACK and REVERT_NAK
answer the open request or abandon the acknowledged one. A frame of a bad CRC is counted. -/
def Obligations.TowpathFramesAreTaken : Prop :=
  ∀ s : State, Powered s → s.m.out.lanes ≠ 0 →
    (∀ d, Becomes (.hello true d) s (towHello s.m true d) fun u =>
      u.out.peer = some d ∧ u.out.towUp = true ∧ timerDue u .towpath 0 = some (s.m.clk.elapsed + usec 12)) ∧
    (∀ d, reg s.m Reg.OUT_CNT_TPCRC ≠ BitVec.allOnes 32 → Becomes (.hello false d) s (towHello s.m false d) fun u =>
      reg u Reg.OUT_CNT_TPCRC = reg s.m Reg.OUT_CNT_TPCRC + 1 ∧ u.out = s.m.out) ∧
    (∀ d p, s.m.out.peer = some p → Becomes (.heartbeat true d) s (towHeartbeat s.m true d) fun u =>
      u.out.peer = some { p with role := d.role, epoch := d.epoch, fit := d.fit } ∧ u.out.peerTest = some d.test) ∧
    (∀ tag o st, s.m.mode.role ≠ .standby → Becomes (.digest true tag o st) s (towDigest s.m true tag o st) fun u =>
      u.out.theirs = ((tag, o, st) :: s.m.out.theirs).take 64) ∧
    (∀ tag o st, s.m.mode.role = .standby → s.m.mode.syncSt = 2 → s.m.out.own.find? (·.1 == tag) = none → s.m.out.copies = [] →
      Becomes (.digest true tag o st) s (towDigest s.m true tag o st) fun u =>
        u.out.theirs = ((tag, o, st) :: s.m.out.theirs).take 64 ∧ u.out.copies = [{ tag := tag }] ∧
          timerDue u .copyBound tag = some (s.m.clk.elapsed + cycleTime s.m)) ∧
    (∀ tag recs, s.m.mode.role = .standby → s.m.mode.syncSt = 1 ∨ s.m.mode.syncSt = 2 →
      Becomes (.copy true tag recs) s (towCopy s.m true tag recs) fun u =>
        (u.out.copies.find? (·.tag == tag)).map (·.recs) =
          some (((s.m.out.copies.find? (·.tag == tag)).map (·.recs)).getD [] ++ recs)) ∧
    (∀ tag n b crc c, s.m.mode.role = .standby → s.m.mode.syncSt = 2 → s.m.out.copies = [c] → c.tag = tag → c.clear = false →
      s.m.out.own.find? (·.1 == tag) = none → c.recs.length = n → (Config.copyBytes c.recs).length = b →
      crc32c (Config.copyBytes c.recs) = crc →
      Becomes (.copyEnd true tag n b crc) s (towCopyEnd s.m true tag n b crc) fun u => u.out.copies = [{ c with ended := true }]) ∧
    (∀ f t w last, s.m.mode.role = .standby → s.m.mode.syncSt ≠ 2 →
      Becomes (.sweep true [.segment f t w] last) s (towSweep s.m true [.segment f t w] last) fun u =>
        u.mode.syncSt = 1 ∧ tabGet (tabGet u.td.flows f).segs t = wordsSeg w ∧
          u.out.sweepEnd = (last || s.m.out.sweepEnd)) ∧
    (∀ r tag, s.m.mode.role = .standby → isLive s.m 0 = true → Becomes (.fault true r tag) s (towFault s.m true r tag) fun u =>
      u.mode.role = .active ∧ u.out.claiming = true ∧ u.out.tko.isSome = true ∧ Bit u Reg.OUT_FAULT 0) ∧
    (∀ tag, s.m.mode.role = .active → s.m.img.commit = none → s.m.out.tko = none → s.m.out.open_ = [] →
      Becomes (.revertReq true tag) s (towRevertReq s.m true tag) fun u =>
        u.out.revOut = some tag ∧ u.sent = .tow (.revertAck tag) :: s.m.sent) ∧
    (∀ tag, s.m.mode.role ≠ .active ∨ s.m.img.commit.isSome = true ∨ s.m.out.tko.isSome = true ∨ s.m.out.open_ ≠ [] →
      Becomes (.revertReq true tag) s (towRevertReq s.m true tag) fun u =>
        u.out = s.m.out ∧ u.sent = .tow (.revertNak tag) :: s.m.sent) ∧
    (∀ tag x, s.m.out.revReq = some (tag, x) →
      Becomes (.revertAck true tag) s (towRevertAck s.m true tag) (fun u => u.out.revReq = some (tag, true)) ∧
      Becomes (.revertNak true tag) s (towRevertNak s.m true tag) fun u => u.out.revReq = none ∧ Bit u Reg.OUT_FAULT 11) ∧
    (∀ tag, s.m.out.revOut = some tag → Becomes (.revertNak true tag) s (towRevertNak s.m true tag) fun u =>
      u.out.revOut = none ∧ Bit u Reg.OUT_FAULT 11)

/-- The Towpath's timers and lanes: HELLO every 1 ms and HEARTBEAT every 5 µs leave on it, a silent Towpath is lost with its flag, a lane
loses or regains lock. The Standby's watches: a start request comes again every 1 ms, the peer wait decides the start, a lost heartbeat
makes a Standby without Towpath take over, or ask a present Referee, a copy's verdict wait applies it, its bound missed ends synchronism where no held copy is before it; the
takeover interval ends with its last tag, and the revert hold sends its request. -/
def Obligations.TowpathTimersAndTakeover : Prop :=
  ∀ s : State, Powered s →
    (Due s.m .hello 0 → s.m.out.lanes ≠ 0 → Leaves .helloTimer s (helloTimer s.m) fun u =>
      (∃ d, u.sent = .tow (.hello d) :: s.m.sent ∧ d.role = s.m.mode.role) ∧
        timerDue u .hello 0 = some (s.m.clk.elapsed + msec 1)) ∧
    (Due s.m .heartbeat 0 → s.m.out.lanes ≠ 0 → Leaves .heartbeatTimer s (heartbeatTimer s.m) fun u =>
      (∃ d, u.sent = .tow (.heartbeat d) :: s.m.sent ∧ d.role = s.m.mode.role ∧ d.tag = lastClosed s.m) ∧
        timerDue u .heartbeat 0 = some (s.m.clk.elapsed + usec 5)) ∧
    (Due s.m .towpath 0 → s.m.out.towUp = true → s.m.mode.role ≠ .standby → Becomes .towpathLost s (towpathLost s.m) fun u =>
      u.out.towUp = false ∧ Bit u Reg.OUT_FAULT 2 ∧ u.mode.role = s.m.mode.role) ∧
    (Due s.m .towpath 0 → s.m.out.towUp = true → s.m.mode.role = .standby → s.m.out.deciding = false → s.m.out.refPresent = true →
      Becomes .towpathLost s (towpathLost s.m) fun u =>
        u.out.towUp = false ∧ Bit u Reg.OUT_FAULT 2 ∧ u.mode.syncSt = 3 ∧ u.out.copies = [] ∧
          u.out.reqs.head? = some u.out.seq) ∧
    (∀ n, s.m.out.lanes = n + 1 → Becomes .towpathLaneLockLoss s (laneLoss s.m) fun u =>
      u.out.lanes = n ∧ Bit u Reg.OUT_FAULT 3 ∧ (n = 0 → u.out.towUp = false)) ∧
    (s.m.out.lanes < 2 → Leaves .towpathLaneLockRegain s (laneRegain s.m) fun u =>
      u.out.lanes = s.m.out.lanes + 1 ∧ (s.m.out.lanes = 0 → ∃ d, u.sent = .tow (.hello d) :: s.m.sent)) ∧
    (Due s.m .takeoverRetry 0 → s.m.out.deciding = true → s.m.out.towUp = false → s.m.out.refPresent = true →
      Leaves .takeoverReqRetry s (takeoverRetry s.m) fun u =>
        u.out.reqs.head? = some u.out.seq ∧ timerDue u .takeoverRetry 0 = some (s.m.clk.elapsed + msec 1)) ∧
    (Due s.m .peerWait 0 → s.m.out.deciding = true → s.m.mode.role = .standby → isLive s.m 0 = true →
      Becomes .startPeerWaitExpiry s (peerWaitExpiry s.m) fun u => u.out.deciding = false ∧
        if s.m.out.hbHeard then u.mode.syncSt = 3 ∧ u.mode.role = .standby else u.mode.role = .active) ∧
    (Due s.m .hbWait 0 → s.m.mode.role = .standby →
      (s.m.out.towUp = true ∨ s.m.out.deciding = true → Becomes .hbWaitExpiry s (hbWaitExpiry s.m) fun u =>
        u.out.hbLost = true ∧ u.mode.role = .standby) ∧
      (s.m.out.towUp = false → s.m.out.deciding = false → s.m.out.refPresent = true → Becomes .hbWaitExpiry s (hbWaitExpiry s.m) fun u =>
        u.out.hbLost = true ∧ u.mode.role = .standby ∧ u.out.reqs.head? = some u.out.seq) ∧
      (s.m.out.towUp = false → s.m.out.deciding = false → s.m.out.refPresent = false → isLive s.m 0 = true →
        Becomes .hbWaitExpiry s (hbWaitExpiry s.m) fun u => u.mode.role = .active ∧ Bit u Reg.OUT_FAULT 0)) ∧
    (∀ tag c f t w, Due s.m .verdictWait tag → s.m.mode.role = .standby → s.m.mode.syncSt = 2 → s.m.out.revReq = none →
      s.m.out.copies = [c] → c.tag = tag → c.ended = true → c.recs = [.segment f t w] →
      Becomes (.verdictWaitExpiry tag) s (verdictWaitExpiry s.m tag) fun u =>
        u.out.copies = [] ∧ u.mode.copyTag = some tag ∧ tabGet (tabGet u.td.flows f).segs t = wordsSeg w ∧ Bit u Reg.OUT_FAULT 6 ∧
          u.out.open_ = s.m.out.open_.filter (· ≠ tag)) ∧
    (∀ tag, Due s.m .copyBound tag → s.m.mode.role = .standby → s.m.mode.syncSt = 2 →
      (s.m.out.copies.any fun c => c.held && tagBefore c.tag tag) = false →
      Becomes (.copyBoundMiss tag) s (copyBoundMiss s.m tag) fun u =>
        u.mode.syncSt = 0 ∧ u.out.copies = [] ∧ Bit u Reg.OUT_FAULT 4) ∧
    (∀ a b t, s.m.out.tko = some (a, b) → s.m.out.lastTag = some t → tagLe b t = true →
      Becomes .takeoverIntervalEnd s (takeoverEnd s.m) fun u => u = { s.m with out := { s.m.out with tko := none } }) ∧
    (Due s.m .revertHold 0 → revertReady s.m = true → s.m.out.lanes ≠ 0 → Becomes .revertHoldExpiry s (revertHoldExpiry s.m) fun u =>
      u.out.revReq = some (tagAdd (lastClosed s.m) 16, false) ∧
        u.sent = .tow (.revertReq (tagAdd (lastClosed s.m) 16)) :: s.m.sent)

/-- The Referee and its messages: STATUS, REPORT and TAKEOVER_REQ are kept by the Referee and granted where no other unit is known;
VERDICT, GRANT and REF_STATUS act on the units; the Referee is absent after 3 ms; STATUS and REF_STATUS leave in their time. OUT_UNIT
and OUT_EPOCH_SET are taken only where the role allows it. -/
def Obligations.RefereeMessagesAndUnits : Prop :=
  ∀ s : State, Powered s →
    (∀ p n q b m', refTake s.m p 1 = (some (n, q, b), m') → s.m.mode.role = .referee →
      Leaves (.refereeStatus p) s (refereeStatus s.m p) fun u =>
        (tabGet u.out.units n).role = bodyNat b 0 1 ∧ (tabGet u.out.units n).epoch = bodyNat b 4 4 ∧
          (tabGet u.out.units n).claim = bodyNat b 8 4 ∧ (tabGet u.out.units n).at_ = some s.m.clk.elapsed) ∧
    (∀ p n q b m', refTake s.m p 2 = (some (n, q, b), m') → s.m.mode.role = .referee →
      Leaves (.report p) s (refereeReport s.m p) fun u =>
        (tabGet u.out.units n).reports.head? = some (bodyNat b 0 4, bodyNat b 8 8, bodyNat b 28 32)) ∧
    (∀ p n q b m', refTake s.m p 3 = (some (n, q, b), m') → s.m.mode.role = .referee → s.m.out.granted = none →
      (∀ x ∈ s.m.out.units, x.1 = n) → Leaves (.takeoverReq p) s (refereeTakeover s.m p) fun u => u.out.granted = some n ∧
        ∃ v, u = refSend v 0x82 (leBytes 8 q ++ leBytes 1 1 ++ leBytes 3 0 ++ leBytes 4 v.out.refEpoch)) ∧
    (∀ p n q b m', refTake s.m p 0x81 = (some (n, q, b), m') →
      (s.m.mode.role = .active → s.m.out.open_.contains (bodyNat b 0 4) = true → bodyNat b 4 1 = 2 →
        Becomes (.verdict p) s (refVerdict s.m p) fun u => u.mode.role = .standby ∧ u.out.claiming = false) ∧
      (s.m.mode.role = .standby → (s.m.out.copies.any fun c => c.tag == bodyNat b 0 4 && c.held) = true → bodyNat b 4 1 = 2 →
        isLive s.m 0 = true → Becomes (.verdict p) s (refVerdict s.m p) fun u => u.mode.role = .active ∧ u.out.claiming = true) ∧
      (s.m.mode.role = .standby → (s.m.out.copies.any fun c => c.tag == bodyNat b 0 4 && c.held) = false →
        Becomes (.verdict p) s (refVerdict s.m p) fun u => u.mode = s.m.mode ∧ Bit u Reg.OUT_FAULT 6)) ∧
    (∀ p n q b m', refTake s.m p 0x82 = (some (n, q, b), m') → s.m.mode.role = .standby →
      s.m.out.reqs.contains (bodyNat b 0 8) = true →
      (s.m.out.deciding = true → Becomes (.grant p) s (refGrant s.m p) fun u =>
        u.out.deciding = false ∧ u.mode.role = if bodyNat b 8 1 = 1 then .active else .standby) ∧
      (s.m.out.deciding = false → bodyNat b 8 1 = 1 → isLive s.m 0 = true → Becomes (.grant p) s (refGrant s.m p) fun u =>
        u.mode.role = .active ∧ u.out.claiming = true)) ∧
    (∀ p n q b m', refTake s.m p 0x83 = (some (n, q, b), m') → s.m.mode.role ≠ .referee →
      (s.m.mode.role ≠ .standby ∨ s.m.out.deciding = false → bodyNat b 8 8 = ((imageOf s.m 0).red.getD {}).id →
        Becomes (.refStatus p) s (refStatus s.m p) fun u =>
          u.out.refPresent = true ∧ u.out.refEpoch = bodyNat b 0 4 ∧
            timerDue u .refereeAbsent 0 = some (s.m.clk.elapsed + msec 3)) ∧
      (s.m.mode.role ≠ .standby → bodyNat b 8 8 ≠ ((imageOf s.m 0).red.getD {}).id →
        Becomes (.refStatus p) s (refStatus s.m p) fun u =>
          u.out.refPresent = false ∧ Bit u Reg.OUT_FAULT 7 ∧ timerDue u .refereeAbsent 0 = none)) ∧
    (Due s.m .refereeAbsent 0 →
      (s.m.mode.role ≠ .standby → Becomes .refereeAbsent s (refereeAbsent s.m) fun u =>
        u.out.refPresent = false ∧ Bit u Reg.OUT_FAULT 7 ∧ u.mode = s.m.mode) ∧
      (s.m.mode.role = .standby → s.m.out.towUp = false → s.m.out.deciding = false → s.m.out.hbLost = true → isLive s.m 0 = true →
        Becomes .refereeAbsent s (refereeAbsent s.m) fun u => u.out.refPresent = false ∧ u.mode.role = .active)) ∧
    (Due s.m .status 0 → Leaves .statusTimer s (statusTimer s.m) fun u =>
      timerDue u .status 0 = some (s.m.clk.elapsed + usec 5) ∧
        (s.m.mode.role ≠ .referee → (outHdr s.m).refPorts ≠ 0 → canSign s.m (outHdr s.m).refKey = true →
          u.out.seq = (s.m.out.seq + 1) % 2 ^ 64)) ∧
    (Due s.m .refStatus 0 → Leaves .refStatusTimer s (refStatusTimer s.m) fun u =>
      timerDue u .refStatus 0 = some (s.m.clk.elapsed + msec 1) ∧
        (s.m.mode.role = .referee → (outHdr s.m).refPorts ≠ 0 → canSign s.m (outHdr s.m).refKey = true →
          u.out.seq = (s.m.out.seq + 1) % 2 ^ 64)) ∧
    (∀ v, blockUp s.m (srcOf Reg.OUT_UNIT) = true → gateOpen s.m (srcOf Reg.OUT_UNIT) = true →
      (s.m.mode.role ≠ .active → s.m.mode.role ≠ .standby → v.toNat % 256 ≠ 0 → v.toNat % 256 ≠ 255 →
        Leaves (.outUnitWrite v 15) s (outUnitWrite s.m v 15) fun u => reg u Reg.OUT_UNIT = v &&& 0xFFFFC0FF) ∧
      (s.m.mode.role = .active ∨ s.m.mode.role = .standby ∨ v.toNat % 256 = 0 ∨ v.toNat % 256 = 255 → Leaves (.outUnitWrite v 15) s (outUnitWrite s.m v 15) fun u =>
        reg u Reg.OUT_UNIT = reg s.m Reg.OUT_UNIT ∧ Bit u Reg.OUT_FAULT 9)) ∧
    (∀ v, blockUp s.m (srcOf Reg.OUT_EPOCH_SET) = true → gateOpen s.m (srcOf Reg.OUT_EPOCH_SET) = true →
      (s.m.mode.role = .standalone → (partOf s.m 0).state = .halted → v.toNat % 2 ^ 24 ≠ 0 →
        Leaves (.outEpochSet v 15) s (outEpochSet s.m v 15) fun u => reg u Reg.OUT_EPOCH = BitVec.ofNat 32 (v.toNat % 2 ^ 24)) ∧
      (s.m.mode.role ≠ .standalone ∨ (partOf s.m 0).state ≠ .halted ∨ v.toNat % 2 ^ 24 = 0 →
        Leaves (.outEpochSet v 15) s (outEpochSet s.m v 15) fun u =>
          reg u Reg.OUT_EPOCH = reg s.m Reg.OUT_EPOCH ∧ Bit u Reg.OUT_FAULT 9))

/-! ## Time -/

/-- The clock and PTP: Announce adds a foreign master, a Sync of the parent forms the offset, the message timers send and start again,
a silent foreign master leaves, a lost reference puts the clock in Holdover, a slew ends with no slew left, the seconds carry at the
1PPS edge, a pending leap second changes the UTC offset at its midnight, the external inputs are followed, and the host's settings are
taken in the states that allow them and refused in the others. -/
def Obligations.ClockFollowsItsReferences : Prop :=
  let Ours (m : Mod) (p : Nat) (x : PtpMsg) : Prop :=
    ptpEnabled m p = true ∧ (ptpPort m p).state ≠ .disabled ∧ x.domain = ptpDomain m ∧ x.src.clock ≠ Config.clockIdentity ∧
      (x.udp = true → ptpProfile m = 0)
  let Sends (m u : Mod) (p k lo : Nat) : Prop := timerDue u .ptpMessage (4 * p + k) = some (m.clk.elapsed + intvAt m lo)
  ∀ s : State, Powered s →
    (∀ p it m' x, takeControl s.m p (fun pl => match pl with | .ptp _ => true | _ => false) = some (it, m') →
      it.frame.payload = .ptp x → Ours s.m p x →
      (x.kind = .announce → s.m.clk.mode ≠ .freeRun → (∀ f ∈ (ptpPort s.m p).foreigns, f.src ≠ x.src) →
        (ptpPort s.m p).foreigns.length < 8 → Becomes (.ptpMessageReceived p) s (ptpReceived s.m p) fun u =>
          (ptpPort u p).foreigns =
            (ptpPort s.m p).foreigns ++ [⟨x.src, x.ann, 1, s.m.clk.elapsed, x.ann.utcValid⟩]) ∧
      (x.kind = .sync → fromParent s.m p x = true → x.twoStep = false → s.m.clk.cmdHoldover = false → s.m.clk.mode ≠ .holdover →
        regBits s.m Reg.PTP_CTRL 0 0 = 0 →
        s.m.clk.state = .acquiring ∨ s.m.clk.state = .locked →
        ∀ d : Int, d = (it.ts - x.origin - x.corr - (ptpPort s.m p).mpd) / 65536 →
        Becomes (.ptpMessageReceived p) s (ptpReceived s.m p) fun u =>
          reg u Reg.PTP_OFFSET = BitVec.ofInt 32 (satNs d) ∧ u.clk.lastSyncAt = s.m.clk.elapsed ∧ u.clk.slewLeft = -d * nsUnit)) ∧
    (∀ p, ptpEnabled s.m p = true → (ptpPort s.m p).state = .master →
      (Due s.m .ptpMessage (4 * p) → Leaves (.ptpMessageTimer p 0) s (ptpMessageTimer s.m p 0) fun u =>
        Sends s.m u p 0 0 ∧ (ptpPort u p).seqSync = ((ptpPort s.m p).seqSync + 1) % 65536) ∧
      (Due s.m .ptpMessage (4 * p + 1) → Leaves (.ptpMessageTimer p 1) s (ptpMessageTimer s.m p 1) fun u =>
        Sends s.m u p 1 4 ∧ (ptpPort u p).seqAnn = ((ptpPort s.m p).seqAnn + 1) % 65536)) ∧
    (∀ p, ptpEnabled s.m p = true →
      (ptpProfile s.m ≠ 0 ∧ (ptpPort s.m p).state ≠ .disabled) ∨ (ptpProfile s.m = 0 ∧ (ptpPort s.m p).state = .slave) →
      Due s.m .ptpMessage (4 * p + 2) → Leaves (.ptpMessageTimer p 2) s (ptpMessageTimer s.m p 2) fun u =>
        Sends s.m u p 2 (if ptpProfile s.m ≠ 0 then 8 else 12) ∧ (ptpPort u p).seqReq = ((ptpPort s.m p).seqReq + 1) % 65536) ∧
    (∀ p f, (ptpPort s.m p).foreigns = [f] → f.lastAt + announceTimeout s.m ≤ s.m.clk.elapsed →
      Leaves (.foreignMasterRecordTimeout p) s (foreignTimeout s.m p) fun u => (ptpPort u p).foreigns = []) ∧
    (∀ f p, s.m.clk.mode = .slave ∨ s.m.clk.mode = .boundary → s.m.clk.state = .locked ∨ s.m.clk.state = .acquiring →
      s.m.clk.parent = some f → s.m.clk.slavePort = some p → s.m.clk.lastSyncAt + 3 * intvAt s.m 0 ≤ s.m.clk.elapsed →
      Becomes .referenceLost s (referenceLost s.m) fun u =>
        u.clk.mode = .holdover ∧ u.clk.state = .holdover ∧ u.clk.fromMode = s.m.clk.mode ∧ Bit u Reg.PTP_FAULT 3) ∧
    (s.m.clk.slewLeft ≠ 0 → s.m.clk.pendStep = none → ceilDiv s.m.clk.slewLeft.natAbs slewTick < ticksToCarry s.m →
      Becomes .slewComplete s (slewComplete s.m) fun u => u.clk.slewLeft = 0 ∧ u.clk.mode = s.m.clk.mode) ∧
    (s.m.clk.slewLeft = 0 → s.m.clk.pendStep = none → s.m.clk.pendMode = none → localFine s.m.clk < secs 1 → 0 < tickInc s.m → tickInc s.m ≤ secs 1 →
      s.m.clk.sec + 1 < 2 ^ 64 →
      (pendingLeap s.m = 0 → Becomes .ppsEdge s (toPps s.m) fun u => u.clk.sec = s.m.clk.sec + 1 ∧ localFine u.clk < tickInc s.m) ∧
      (pendingLeap s.m = 1 → leapSecond s.m = s.m.clk.sec + 1 → secs 1 / 2 ≤ localFine s.m.clk →
        Becomes .leapSecondApply s (leapApply s.m) fun u =>
          u.clk.sec = s.m.clk.sec + 1 ∧ u.clk.leapAt = some u.clk.sec ∧ Bit u Reg.PTP_FAULT 7 ∧
            reg u Reg.PTP_UTC = BitVec.ofNat 32 (codedOf 16 (utcOffset s.m + 1)))) ∧
    (∀ c, regBits s.m Reg.PTP_CTRL 2 2 = 1 → s.m.clk.extCap = some c → s.m.clk.mode = .slave →
      ((localTime s.m.clk : Int) - (c.1 * secs 1 + c.2.1 * nsUnit + c.2.2 * 2 ^ 32 + secs 1 : Nat)).natAbs ≤ usec 1 →
      Becomes (.ext1ppsEdge true) s (extPpsEdge s.m true) fun u =>
        u.clk.extCap = some (s.m.clk.sec, s.m.clk.ns, s.m.clk.frac) ∧ u.clk.extPps = true ∧ u.clk.ext10 = true ∧
          u.clk.extState = if 16 ≤ u.clk.extRun then 2 else 1) ∧
    (∀ ten, regBits s.m Reg.PTP_CTRL 2 2 = 1 → Becomes (.extReferenceLost ten) s (extLost s.m ten) fun u =>
      u.clk.extState = 3 ∧ u.clk.extRun = 0 ∧ Bit u Reg.PTP_FAULT 6 ∧
        (s.m.clk.mode = .master → s.m.clk.state = .locked → u.clk.state = .holdover ∧ u.clk.mode = .holdover)) ∧
    (∀ v st, (st ↔ s.m.clk.state = .freeRun ∨ s.m.clk.state = .grandmaster) →
      (blockUp s.m (srcOf Reg.PTP_SET_CMD) = true → gateOpen s.m (srcOf Reg.PTP_SET_CMD) = true → v.toNat % 2 = 1 →
        (st → (reg s.m Reg.PTP_SET_NS).toNat < 1000000000 → Becomes (.ptpSetCmd v 15) s (ptpSetCmd s.m v 15) fun u =>
          u.clk.pendStep = some ((reg s.m Reg.PTP_SET_SECL).toNat + 2 ^ 32 * (reg s.m Reg.PTP_SET_SECH).toNat,
            (reg s.m Reg.PTP_SET_NS).toNat)) ∧
        (¬st ∨ 1000000000 ≤ (reg s.m Reg.PTP_SET_NS).toNat → Becomes (.ptpSetCmd v 15) s (ptpSetCmd s.m v 15) fun u =>
          Bit u Reg.PTP_FAULT 10 ∧ u.clk = s.m.clk)) ∧
      (blockUp s.m (srcOf Reg.PTP_FREQ) = true → gateOpen s.m (srcOf Reg.PTP_FREQ) = true →
        (st → Leaves (.ptpFreqWrite v 15) s (ptpFreqWrite s.m v 15) fun u => reg u Reg.PTP_FREQ = v ∧ reg u Reg.PTP_RATE = v) ∧
        (¬st → Leaves (.ptpFreqWrite v 15) s (ptpFreqWrite s.m v 15) fun u =>
          reg u Reg.PTP_FREQ = reg s.m Reg.PTP_FREQ ∧ reg u Reg.PTP_RATE = reg s.m Reg.PTP_RATE ∧ Bit u Reg.PTP_FAULT 10))) ∧
    (∀ v src, blockUp s.m (srcOf Reg.PTP_UTC) = true → gateOpen s.m (srcOf Reg.PTP_UTC) = true →
      src = ((s.m.clk.mode == .slave || s.m.clk.mode == .boundary) && s.m.clk.parent.any fun f => f.ann.utcValid) →
      (src = false → bitsOf v.toNat 17 16 ≠ 3 → Becomes (.ptpUtcWrite v 15) s (ptpUtcWrite s.m v 15) fun u =>
        reg u Reg.PTP_UTC = BitVec.ofNat 32 (v.toNat % 2 ^ 18)) ∧
      (src = true ∨ bitsOf v.toNat 17 16 = 3 → Becomes (.ptpUtcWrite v 15) s (ptpUtcWrite s.m v 15) fun u =>
        reg u Reg.PTP_UTC = reg s.m Reg.PTP_UTC ∧ Bit u Reg.PTP_FAULT 10)) ∧
    (Due s.m .clockRetain 0 → Leaves .clockSecondsRetain s (clockRetain s.m) fun u =>
      u.clk.savedSec = s.m.clk.sec ∧ timerDue u .clockRetain 0 = some (s.m.clk.elapsed + secs 60))

/-! ## Recording -/

/-- The recorder: REC_MANUAL opens a record of an armed definition, REC_ARM arms, disarms or ends a hold-off, a record whose end sample
has been written closes, hold-off ends with its timer, rows of the ring are copied into an open record, a closed record gets its
measurements, and an export leaves the queue with its bytes in module memory. -/
def Obligations.RecordsOpenCloseAndExport : Prop :=
  ∀ s : State, Powered s →
    (∀ half i d c, i < 32 → half < 2 → d = 32 * half + i → blockUp s.m (srcOf (Reg.REC_MANUAL half)) = true → isLive s.m 3 = true →
      (recCfg s.m).defs.lookup d = some c → (defSt s.m d).rec_ = none → (defSt s.m d).disarmed = false → (defSt s.m d).hold = false →
      Leaves (.recManual half (BitVec.ofNat 32 (2 ^ i)) 15) s (recManual s.m half (BitVec.ofNat 32 (2 ^ i)) 15) fun u =>
        ∃ r, u.rec_.recs = s.m.rec_.recs ++ [r] ∧ r.num = s.m.rec_.next ∧ r.def_ = d ∧ r.cfg = c ∧ r.closed = none ∧
          r.primary.kind = 2 ∧ (defSt u d).rec_ = some r.num ∧ Bit u Reg.REC_FAULT 0) ∧
    (∀ v d, d = v.toNat % 64 → blockUp s.m (srcOf Reg.REC_ARM) = true → gateOpen s.m (srcOf Reg.REC_ARM) = true →
      isLive s.m 3 = true → ((recCfg s.m).defs.lookup d).isSome = true → (defSt s.m d).rec_ = none →
      Leaves (.recArm v 15) s (recArm s.m v 15) fun u =>
        reg u Reg.REC_ARM = v &&& 0xC000003F ∧
        (v.toNat.testBit 30 = true → (defSt u d).hold = false ∧ (defSt u d).disarmed = (defSt s.m d).disarmed) ∧
        (v.toNat.testBit 30 = false → (defSt u d).disarmed = !v.toNat.testBit 31)) ∧
    (∀ d r sub l, openRec s.m d = some r → r.def_ = d → r.ref = some sub →
      (tabGet s.m.rec_.srcs sub).last = some l → (recEnd r).1 ≤ l →
      Leaves (.recordClose d) s (recordClose s.m d) fun u =>
        (defSt u d).rec_ = none ∧ Bit u Reg.REC_FAULT 1 ∧
          (recFile u r.num).map (·.closed) = some (some (if (recEnd r).2 then 1 else 0, localTime s.m.clk))) ∧
    (∀ d, Due s.m .holdOff d → Leaves (.holdOffExpiry d) s (holdOffExpiry s.m d) fun u =>
      (defSt u d).hold = false ∧ (defSt u d).cnt = 0 ∧ timerDue u .holdOff d = none) ∧
    (∀ r new, s.m.kpr.kstate = 1 → s.m.rec_.recs = [r] → r.lost = none → r.rows ≠ [] →
      new = (s.m.rec_.ring.drop (r.next - s.m.rec_.base)).filterMap (recPart r) →
      fileSize { r with rows := r.rows ++ new } ≤ storeBytes →
      Leaves (.recordCopy r.num) s (recordCopy s.m r.num) fun u =>
        u.rec_.recs = [{ r with rows := r.rows ++ new, next := s.m.rec_.base + s.m.rec_.ring.length }]) ∧
    (∀ n r, recFile s.m n = some r → r.closed.isSome = true → s.m.kpr.kstate = 1 →
      Leaves (.recordMeasure n) s (recordMeasure s.m n) fun u =>
        recFile u n = some { r with meas := some (r.chans.map (measureChan r)) }) ∧
    (∀ j rest r fs, s.m.rec_.exports = j :: rest → s.m.kpr.shed < 2 → s.m.kpr.kstate = 1 → recFile s.m j.num = some r →
      fs = exportOf (modRec s.m fun c => { c with exports := rest }) r j.format j.timeCode →
      Stores .comtradeExport s (comtradeExport s.m).1 (if j.len = 0 then [] else [toDram j.off (fs.flatten.take j.len)]) fun u =>
        u.rec_.exports = rest ∧
          u.kpr.nextHandle = s.m.kpr.nextHandle + if j.handles.isEmpty then fs.length else 0)

/-! ## DMA and compression -/

/-- DMA: an idle channel takes a chain and runs it, a running one queues it, a descriptor of the chain is fetched where it is the
channel's, a copy without CRC moves its bytes and writes its status back, a host time-out halts the channel with ERR 4, ABORT empties a
halted channel and RETRY runs it again. Compression: TAIL gives the lane the job at HEAD, and a job's end is written back with its code. -/
def Obligations.ChannelsAndLanesRunTheirWork : Prop :=
  ∀ (s : State) (n : Nat), Powered s → n < 16 →
    (∀ v, blockUp s.m (srcOf (Reg.DMA_CH_CHAIN n)) = true → (dmaChan s.m n).queue.length < 4 → v.toNat % 32 = 0 →
      ((dmaChan s.m n).state = .idle → (dmaChan s.m n).queue = [] → (dmaChan s.m n).next = none → (dmaChan s.m n).fetched = [] →
        (dmaChan s.m n).pend = none →
        Leaves (.dmaChain n v 15 (keeperChan n)) s (dmaChain s.m n v 15 (keeperChan n)) fun u =>
          (dmaChan u n).state = .running ∧ (dmaChan u n).next = some v.toNat ∧ (dmaChan u n).queue = []) ∧
      ((dmaChan s.m n).state = .running →
        Leaves (.dmaChain n v 15 (keeperChan n)) s (dmaChain s.m n v 15 (keeperChan n)) fun u =>
          (dmaChan u n).queue = (dmaChan s.m n).queue ++ [v.toNat])) ∧
    (∀ v, blockUp s.m (srcOf (Reg.DMA_CH_CMD n)) = true → (dmaChan s.m n).state = .halted →
      (v.toNat.testBit 0 = true → Leaves (.dmaAbort n v 15 (keeperChan n)) s (dmaAbort s.m n v 15 (keeperChan n)) fun u =>
        (dmaChan u n).state = .idle ∧ (dmaChan u n).queue = [] ∧ (dmaChan u n).fetched = [] ∧ (dmaChan u n).cur = 0xFFFFFFFF) ∧
      (v.toNat.testBit 0 = false → v.toNat.testBit 1 = true →
        Leaves (.dmaRetry n v 15 (keeperChan n)) s (dmaRetry s.m n v 15 (keeperChan n)) fun u =>
          (dmaChan u n).state = .running ∧ (dmaChan u n).fetched = (dmaChan s.m n).fetched)) ∧
    (∀ off, (dmaChan s.m n).next = some off → (dmaChan s.m n).state = .running → (dmaChan s.m n).fetched.length < 128 →
      (dmaChan s.m n).pend = none → off % 32 = 0 → (dmaChan s.m n).hops < (dmaChan s.m n).hopMax →
      2 ^ 31 ≤ dramNat s.mem (off + 28) 4 →
      Leaves (.dmaDescriptorFetch n) s (dmaFetch s.m s.mem n) fun u =>
        (∃ d, (dmaChan u n).fetched = (dmaChan s.m n).fetched ++ [d] ∧ d.off = off ∧ d.src = dramNat s.mem off 8 ∧
          d.dst = dramNat s.mem (off + 8) 8 ∧ d.len = dramNat s.mem (off + 16) 4 ∧ d.ctrl = dramNat s.mem (off + 20) 4) ∧
        (dmaChan u n).hops = (dmaChan s.m n).hops + 1) ∧
    (∀ d rest, (dmaChan s.m n).fetched = d :: rest → (dmaChan s.m n).state = .running → dmaCheck n d = 0 →
      (d.ctrl.testBit 10 = false → d.ctrl.testBit 11 = false → d.hazards = [] → d.ctrl % 8 ≠ 2 →
        Stores (.dmaDescriptorComplete n .ok) s (dmaComplete s.m s.mem n .ok).1
            (⟨bitsOf d.ctrl 5 4 == 1, d.dst, readBytes (if d.ctrl % 8 = 1 then s.mem.host else s.mem.dram) d.src d.len⟩ ::
              dmaStatus d false 0 d.len) fun u => (dmaChan u n).fetched = rest) ∧
      (d.ctrl % 8 = 1 ∨ bitsOf d.ctrl 5 4 = 1 → ∀ k,
        Stores (.dmaTimeout n k) s (dmaTimeout s.m s.mem n k).1 (dmaTimeout s.m s.mem n k).2 fun u =>
          (dmaChan u n).state = .halted ∧ (dmaChan u n).err = 4 ∧ (dmaChan u n).cur = d.off ∧ Bit u Reg.DMA_FAULT 0 ∧
            Bit u Reg.DMA_FAULT 1 ∧ ∃ w, (dmaTimeout s.m s.mem n k).2 = w ++ dmaStatus d false 4 (min k d.len))) ∧
    (∀ v a, n < 4 → blockUp s.m (srcOf (Reg.CMP_L_TAIL n)) = true → (cmpLane s.m n).job = none → s.m.hlth.thermal < 2 →
      n % 2 = 0 → (reg s.m (Reg.CMP_L_HEAD n)).toNat ≠ v.toNat →
      a = (reg s.m (Reg.CMP_L_BASE n)).toNat + 64 * (reg s.m (Reg.CMP_L_HEAD n)).toNat → 2 ^ 31 ≤ dramNat s.mem (a + 0x3C) 4 →
      Leaves (.cmpRingTail n v 15 (keeperLane n)) s (cmpRingTail s.m s.mem n v 15 (keeperLane n)) fun u =>
        reg u (Reg.CMP_L_TAIL n) = v ∧ ∃ j, (cmpLane u n).job = some j ∧ j.off = a ∧ j.src = dramNat s.mem a 8 ∧
          j.srcLen = dramNat s.mem (a + 32) 4 ∧ j.ctrl = dramNat s.mem (a + 44) 4) ∧
    (∀ j meet r, n < 4 → (cmpLane s.m n).job = some j → j.ctrl.testBit 13 = false →
      r = cmpResult { s.m with free := s.m.free + 1 } s.mem n j meet s.m.free →
      Stores (.cmpJobComplete n meet) s (cmpComplete s.m s.mem n meet).1 (cmpComplete s.m s.mem n meet).2 fun u =>
        (cmpLane u n).code = r.code ∧
        (∃ w, (cmpComplete s.m s.mem n meet).2 = w ++ [toDram (j.off + 0x30) (leBytes 4 r.used ++ leBytes 4 r.out.length ++
          leBytes 4 r.check ++ leBytes 4 (r.code * 65536 + 2 ^ 31)), toDram (j.off + 0x3F) [0]]) ∧
        reg u (Reg.CMP_L_HEAD n) = BitVec.ofNat 32 (laneNext s.m n (reg s.m (Reg.CMP_L_HEAD n)).toNat) ∧
        (meet = .memUe → cmpCheck n j = 0 → (cmpLane u n).code = 0x12 ∧ Bit u Reg.CMP_FAULT 0 ∧ Bit u Reg.CMP_FAULT 2))

/-! ## Metering, events and keys -/

/-- Metering, events and keys: pulses start and end, saves begin and become the newest copy, MTR_PT_CMD clears a point's sets and
flags, or leaves a sealed legal point as it is, MTR_LOG_ACK frees entries, KEY_SEAL_CMD seals; the event recorder commits and reads
records; commissioning and grace end with their timers, and a slot whose tag fails is unusable. -/
def Obligations.MeteringEventsAndKeysAct : Prop :=
  ∀ s : State,
    (Powered s → ∀ o c, (mtrCfg s.m).pulses.lookup o = some c → (reg s.m Reg.MTR_CTRL).toNat.testBit o = true →
      2 ^ 32 ≤ tabGet s.m.mtr.credits o → tabGet s.m.mtr.pulsing o = false → s.m.mtr.saving = none →
      (∀ t, tabGet s.m.mtr.pulseAt o = some t → t + usec (20 * c.pw) ≤ s.m.clk.elapsed) →
      Leaves (.pulseStart o) s (pulseStart s.m o) fun u =>
        tabGet u.mtr.pulsing o = true ∧ tabGet u.mtr.credits o = tabGet s.m.mtr.credits o - 2 ^ 32 ∧
          u.sent = .pulse o (!c.activeLow) :: s.m.sent ∧
          timerDue u .pulseEnd o = some (s.m.clk.elapsed + usec (10 * c.pw))) ∧
    (Powered s → ∀ o, Due s.m .pulseEnd o → Leaves (.pulseEnd o) s (pulseEnd s.m o) fun u =>
      tabGet u.mtr.pulsing o = false ∧ timerDue u .pulseEnd o = none) ∧
    (Powered s → s.m.mtr.saving = none →
      (Due s.m .periodicSave 0 → Leaves .periodicSave s (periodicSave s.m) fun u =>
        (∃ c, u.mtr.saving = some c ∧ c.kind = .periodic ∧ c.pts = s.m.mtr.pts ∧ c.seq = s.m.mtr.nextSeq) ∧
          timerDue u .periodicSave 0 = some (s.m.clk.elapsed + msec (100 * savePeriod s.m))) ∧
      (∀ v, blockUp s.m (srcOf Reg.MTR_SAVE_CMD) = true → v.toNat % 2 = 1 →
        Leaves (.mtrSaveCmd v 15) s (mtrSaveCmd s.m v 15) fun u =>
          ∃ c, u.mtr.saving = some c ∧ c.kind = .command ∧ c.pts = s.m.mtr.pts ∧ c.seq = s.m.mtr.nextSeq)) ∧
    (∀ c, s.m.mtr.saving = some c → c.kind ≠ .lastGasp → s.m.mtr.waiting = none →
      Leaves (.saveVerify true) s (saveVerify s.m true) (fun u => newestCopy u = some c ∧ u.mtr.saving = none) ∧
      Leaves (.saveVerify false) s (saveVerify s.m false) fun u => u.mtr.saving = none ∧ Bit u Reg.MTR_FAULT 0) ∧
    (Powered s → ∀ pt, blockUp s.m (srcOf Reg.MTR_PT_CMD) = true → gateOpen s.m (srcOf Reg.MTR_PT_CMD) = true →
      (¬(sealState s.m = .sealed ∧ ptLegal s.m pt = true) →
        Leaves (.mtrClearTestSet pt 15) s (mtrClearTest s.m pt 15) (fun u =>
          (mtrPt u pt).regs = (mtrPt s.m pt).regs.filter fun r => r.1 / 8 * 8 ≠ 8) ∧
        Leaves (.mtrClearServiceSet pt 15) s (mtrClearService s.m pt 15) (fun u =>
          (mtrPt u pt).regs = (mtrPt s.m pt).regs.filter fun r => r.1 / 8 * 8 ≠ 0) ∧
        Leaves (.mtrClearWrap pt 15) s (mtrClearWrap s.m pt 15) (fun u => (mtrPt u pt).wrap = 0) ∧
        Leaves (.mtrClearOverLost pt 15) s (mtrClearOver s.m pt 15) fun u =>
          (mtrPt u pt).ovf = false ∧ (mtrPt u pt).lost = false) ∧
      (sealState s.m = .sealed → ptLegal s.m pt = true →
        Leaves (.mtrClearTestSet pt 15) s (mtrClearTest s.m pt 15) (fun u =>
          (mtrPt u pt).regs = (mtrPt s.m pt).regs.filter fun r => r.1 / 8 * 8 ≠ 8) ∧
        Leaves (.mtrClearServiceSet pt 15) s (mtrClearService s.m pt 15) (fun u => u.mtr.pts = s.m.mtr.pts) ∧
        Leaves (.mtrClearWrap pt 15) s (mtrClearWrap s.m pt 15) (fun u => u.mtr.pts = s.m.mtr.pts) ∧
        Leaves (.mtrClearOverLost pt 15) s (mtrClearOver s.m pt 15) fun u => u.mtr.pts = s.m.mtr.pts)) ∧
    (Powered s → ∀ a, blockUp s.m (srcOf Reg.MTR_LOG_ACK) = true → gateOpen s.m (srcOf Reg.MTR_LOG_ACK) = true →
      s.m.mtr.logFree ≤ a → a < s.m.mtr.logNext → a < s.m.mtr.logFree + 2 ^ 32 →
      Leaves (.mtrLogAck (BitVec.ofNat 32 a) 15) s (mtrLogAck s.m (BitVec.ofNat 32 a) 15) fun u => u.mtr.logFree = a + 1) ∧
    (Powered s → ∀ v i, i = v.toNat % 256 → v.toNat.testBit 31 = true → blockUp s.m (srcOf Reg.KEY_SEAL_CMD) = true →
      gateOpen s.m (srcOf Reg.KEY_SEAL_CMD) = true → sealState s.m = .unsealed → sealSlotOk s.m i = true →
      (keySlot s.m i).tag = slotTag s.m i (keySlot s.m i) → isLive s.m 2 = true →
      Becomes (.keySealCmd v 15) s (keySealCmd s.m v 15) fun u =>
        u.mode.sealSt = .sealed ∧ u.mtr.sealSlot = some i ∧ Bit u Reg.MTR_FAULT 6) ∧
    (Powered s → ∀ e q, s.m.evr.running = true → s.m.evr.lostGap = 0 → s.m.evr.queue = e :: q → s.m.evr.newest = none →
      Leaves .eventCommit s (eventCommit s.m) fun u =>
        u.evr.queue = q ∧ u.evr.next = (s.m.evr.next + 1) % 2 ^ 64 ∧ u.evr.newest = some (e, 0) ∧
          tabGet u.evr.ring (s.m.evr.next % ringSize) = recordBytes e s.m.evr.next 0) ∧
    (Powered s → ∀ v, blockUp s.m (srcOf Reg.EVR_RD_CMD) = true → v.toNat % 2 = 1 →
      Leaves (.evrRdCmd v 15) s (evrRdWrite s.m v 15) fun u =>
        let r := readRecord s.m.evr ((reg s.m Reg.EVR_RD_SEQL).toNat + 2 ^ 32 * (reg s.m Reg.EVR_RD_SEQH).toNat)
        u.evr.readValid = true ∧ u.evr.readResult = r.1 ∧ u.evr.readBuf = r.2) ∧
    (Powered s → Due s.m .commissioning 0 → s.m.key.store = .commissioning →
      Leaves .commissioningTimeout s (commissioningTimeout s.m) fun u => u.key.store = .provisioned) ∧
    (Powered s → ∀ i, Due s.m .grace i → (keySlot s.m i).state = .grace → Leaves (.graceExpiry i) s (graceExpiry s.m i) fun u =>
      (keySlot u i).state = .valid ∧ (keySlot u i).prev = [] ∧ (keySlot u i).cur = (keySlot s.m i).cur) ∧
    (Powered s → ∀ i, slotLive (keySlot s.m i) = true →
      ((keySlot s.m i).tag ≠ slotTag s.m i (keySlot s.m i) → Leaves (.tagBackgroundPass i) s (tagPass s.m i) fun u =>
        (keySlot u i).state = .unusable ∧ Bit u Reg.KEY_FAULT 0) ∧
      ((keySlot s.m i).tag = slotTag s.m i (keySlot s.m i) → Leaves (.tagBackgroundPass i) s (tagPass s.m i) fun u => u = s.m))

/-! ## Transmit timestamps -/

/-- A timestamp for a port's queue of 32 entries or more is discarded: it counts in the port's drop counter and sets PTP_FAULT.TSQ_OVF, and
no queue changes. Otherwise it is added to the port's queue alone and counts nothing; added to an empty queue it sets
PTP_FAULT.TSQ_READY. -/
def Obligations.TimestampQueuesKeepThirtyTwoEntries : Prop :=
  ∀ (m : Mod) (p : Nat) (e : TsqEntry), p < 8 →
    (32 ≤ (tabGet m.clk.tsq p).length →
      (tsqAdd m p e).clk = m.clk ∧ Bit (tsqAdd m p e) Reg.PTP_FAULT 5 ∧
        (reg m (Reg.PTP_PTSQ_DROP p) ≠ BitVec.allOnes 32 →
          reg (tsqAdd m p e) (Reg.PTP_PTSQ_DROP p) = reg m (Reg.PTP_PTSQ_DROP p) + 1)) ∧
    ((tabGet m.clk.tsq p).length < 32 →
      tabGet (tsqAdd m p e).clk.tsq p = tabGet m.clk.tsq p ++ [e] ∧
        (∀ q, q ≠ p → tabGet (tsqAdd m p e).clk.tsq q = tabGet m.clk.tsq q) ∧
        reg (tsqAdd m p e) (Reg.PTP_PTSQ_DROP p) = reg m (Reg.PTP_PTSQ_DROP p) ∧
        (tabGet m.clk.tsq p = [] → Bit (tsqAdd m p e) Reg.PTP_FAULT 4))
end

