-- ==== Sys2Proof/Laws/Cells.lean ====
section
/-!
SUPPORT. Laws of the sparse stores: a read after a write at the same key and at another one, and the canonical form kept by
every operation over a memory.
-/
namespace Sys2Proof.Machine

variable {α : Type}

/-- Nothing of what lies over `k` is read at a key up to `k`. -/
theorem cellGet_cellsOver_le (d : Nat → α) (l : Cells α) {k j : Nat} (h : j ≤ k) : cellGet d (cellsOver l k) j = d j := by
  induction l with
  | nil => rfl
  | cons c r ih =>
    obtain ⟨i, w⟩ := c
    by_cases hi : i ≤ k
    · simpa [cellsOver, List.dropWhile_cons, hi] using ih
    · simp only [cellsOver, List.dropWhile_cons, hi, decide_false, Bool.false_eq_true, if_false, cellGet]
      rw [if_neg (by omega), if_neg (by omega)]

/-- What lies over `k` reads above `k` as the whole store. -/
theorem cellGet_cellsOver_gt (d : Nat → α) (l : Cells α) {k j : Nat} (h : k < j) :
    cellGet d (cellsOver l k) j = cellGet d l j := by
  induction l with
  | nil => rfl
  | cons c r ih =>
    obtain ⟨i, w⟩ := c
    by_cases hi : i ≤ k
    · rw [show cellsOver ((i, w) :: r) k = cellsOver r k by simp [cellsOver, hi], ih, cellGet,
        if_neg (by omega), if_pos (by omega)]
    · simp [cellsOver, hi]

variable [DecidableEq α]

/-- A read at the written key gives the value written. -/
@[simp] theorem cellGet_cellSet_same (d : Nat → α) (l : Cells α) (k : Nat) (v : α) : cellGet d (cellSet d l k v) k = v := by
  induction l with
  | nil => by_cases h : v = d k <;> simp [cellSet, cellGet, h]
  | cons c r ih =>
    obtain ⟨j, w⟩ := c
    simp only [cellSet]
    split_ifs with h1 h2 h3 h4
    · rw [cellGet, if_neg (by omega), if_pos h1, ih]
    · rw [cellGet_cellsOver_le d r le_rfl, h3]
    · simp [cellGet]
    · rw [cellGet, if_neg h2, if_neg h1, h4]
    · simp [cellGet]

/-- A read at another key gives what it gave before. -/
theorem cellGet_cellSet_ne (d : Nat → α) (l : Cells α) {k j : Nat} (v : α) (h : j ≠ k) :
    cellGet d (cellSet d l k v) j = cellGet d l j := by
  induction l with
  | nil => by_cases hv : v = d k <;> simp [cellSet, cellGet, hv, h.symm]
  | cons c r ih =>
    obtain ⟨i, w⟩ := c
    simp only [cellSet]
    split_ifs with h1 h2 h3 h4
    · simp only [cellGet, ih]
    · subst h2
      rcases lt_or_gt_of_ne h with hj | hj
      · rw [cellGet_cellsOver_le d r hj.le, cellGet, if_neg (by omega), if_neg (by omega)]
      · rw [cellGet_cellsOver_gt d r hj, cellGet, if_neg (by omega), if_pos hj]
    · subst h2; simp [cellGet, h.symm]
    · rfl
    · rw [cellGet, if_neg h.symm]
      by_cases hk : k < j
      · rw [if_pos hk]
      · rw [if_neg hk, cellGet, if_neg (by omega), if_neg (by omega)]

/-- The first key of a store that `cellSet` gives lies above a bound that holds of the store and the key. -/
theorem cellsAbove_cellSet (d : Nat → α) (l : Cells α) {b k : Nat} (v : α) (hl : cellsAbove b l = true) (hk : b < k)
    (hw : cellsWf d l = true) : cellsAbove b (cellSet d l k v) = true := by
  cases l with
  | nil => by_cases h : v = d k <;> simp [cellSet, cellsAbove, h, hk]
  | cons c r =>
    obtain ⟨j, w⟩ := c
    simp only [cellsAbove, decide_eq_true_eq] at hl
    simp only [cellSet]
    split_ifs with h1 h2 h3 h4
    · simpa [cellsAbove] using hl
    · have hr : cellsAbove j r = true := by simp [cellsWf] at hw; exact hw.1.1
      cases r with
      | nil => rfl
      | cons c r =>
        obtain ⟨i, x⟩ := c
        have hji : j < i := by simpa [cellsAbove] using hr
        simp [cellsOver, show ¬ i ≤ k by omega, cellsAbove]; omega
    · simpa [cellsAbove] using hk
    · simpa [cellsAbove] using hl
    · simpa [cellsAbove] using hk

omit [DecidableEq α] in
/-- On a canonical store, dropping what lies up to its first key drops nothing of the rest. -/
theorem cellsOver_of_above {l : Cells α} {k : Nat} (h : cellsAbove k l = true) : cellsOver l k = l := by
  cases l with
  | nil => rfl
  | cons c r =>
    obtain ⟨i, x⟩ := c
    have : k < i := by simpa [cellsAbove] using h
    simp [cellsOver, show ¬ i ≤ k by omega]

/-- A write keeps the canonical form. -/
theorem cellsWf_cellSet (d : Nat → α) (l : Cells α) (k : Nat) (v : α) (h : cellsWf d l = true) :
    cellsWf d (cellSet d l k v) = true := by
  induction l with
  | nil => by_cases hv : v = d k <;> simp [cellSet, cellsWf, cellsAbove, hv]
  | cons c r ih =>
    obtain ⟨j, w⟩ := c
    have h' := h
    simp only [cellsWf, Bool.and_eq_true, decide_eq_true_eq] at h'
    obtain ⟨⟨ha, hd⟩, hr⟩ := h'
    simp only [cellSet]
    split_ifs with h1 h2 h3 h4
    · simp only [cellsWf, Bool.and_eq_true, decide_eq_true_eq]
      exact ⟨⟨cellsAbove_cellSet d r v ha h1 hr, hd⟩, ih hr⟩
    · subst h2; rwa [cellsOver_of_above ha]
    · subst h2
      simp only [cellsWf, Bool.and_eq_true, decide_eq_true_eq]
      exact ⟨⟨ha, h3⟩, hr⟩
    · exact h
    · have : cellsAbove k ((j, w) :: r) = true := by simp [cellsAbove]; omega
      simp [cellsWf] at h ⊢
      exact ⟨⟨this, h4⟩, h⟩

omit [DecidableEq α] in
/-- A table's value read back. -/
@[simp] theorem tabGet_tabSet_same [Inhabited α] [DecidableEq α] (l : Cells α) (k : Nat) (v : α) :
    tabGet (tabSet l k v) k = v := cellGet_cellSet_same _ l k v

omit [DecidableEq α] in
/-- Another value of the table stays. -/
theorem tabGet_tabSet_ne [Inhabited α] [DecidableEq α] (l : Cells α) {k j : Nat} (v : α) (h : j ≠ k) :
    tabGet (tabSet l k v) j = tabGet l j := cellGet_cellSet_ne _ l v h

omit [DecidableEq α] in
/-- A table's value after a change of it. -/
@[simp] theorem tabGet_tabMod_same [Inhabited α] [DecidableEq α] (l : Cells α) (k : Nat) (f : α → α) :
    tabGet (tabMod l k f) k = f (tabGet l k) := tabGet_tabSet_same l k _

omit [DecidableEq α] in
/-- Another value of the table stays after a change of one. -/
theorem tabGet_tabMod_ne [Inhabited α] [DecidableEq α] (l : Cells α) {k j : Nat} (f : α → α) (h : j ≠ k) :
    tabGet (tabMod l k f) j = tabGet l j := tabGet_tabSet_ne l _ h

/-! ## Memory -/

/-- Writing bytes keeps the canonical form. -/
theorem cellsWf_writeBytes (bs : Bytes) : ∀ (l : List Host.Cell) (a : Nat), cellsWf (fun _ => (0 : Byte)) l = true →
    cellsWf (fun _ => (0 : Byte)) (writeBytes l a bs) = true := by
  induction bs with
  | nil => exact fun _ _ h => h
  | cons b bs ih => exact fun l a h => ih _ _ (cellsWf_cellSet _ l a b h)

/-- A byte outside the bytes written reads as before. -/
theorem cellGet_writeBytes_outside (bs : Bytes) : ∀ (l : List Host.Cell) (a x : Nat), x < a ∨ a + bs.length ≤ x →
    cellGet (fun _ => 0) (writeBytes l a bs) x = cellGet (fun _ => 0) l x := by
  induction bs with
  | nil => exact fun _ _ _ _ => rfl
  | cons b bs ih =>
    intro l a x h
    simp only [List.length_cons] at h
    rw [writeBytes, ih _ (a + 1) x (by omega), cellGet_cellSet_ne _ _ _ (by omega)]

/-- A byte written reads as written. -/
theorem cellGet_writeBytes_inside (bs : Bytes) : ∀ (l : List Host.Cell) (a i : Nat) (h : i < bs.length),
    cellGet (fun _ => 0) (writeBytes l a bs) (a + i) = bs[i] := by
  induction bs with
  | nil => exact fun _ _ _ h => absurd h (Nat.not_lt_zero _)
  | cons b bs ih =>
    intro l a i h
    cases i with
    | zero => rw [writeBytes, cellGet_writeBytes_outside _ _ _ _ (by omega)]; simp
    | succ i =>
      have := ih (cellSet (fun _ => 0) l a b) (a + 1) i (by simpa using h)
      rw [writeBytes, show a + (i + 1) = a + 1 + i by omega, this]; rfl

/-- A write keeps both memories canonical. -/
theorem memWrite_wf (mem : Mem) (w : MemWrite) (h : mem.wf = true) : (memWrite mem w).wf = true := by
  simp only [Mem.wf, Bool.and_eq_true] at h ⊢
  unfold memWrite
  split
  · exact ⟨h.1, cellsWf_writeBytes _ _ _ h.2⟩
  · exact ⟨cellsWf_writeBytes _ _ _ h.1, h.2⟩

/-- Writes keep both memories canonical. -/
theorem memWrites_wf (ws : List MemWrite) : ∀ mem : Mem, mem.wf = true → (memWrites mem ws).wf = true := by
  induction ws with
  | nil => exact fun _ h => h
  | cons w ws ih => exact fun mem h => ih _ (memWrite_wf mem w h)

end Sys2Proof.Machine
end

