-- ==== Sys2Proof/Laws/State.lean ====
section
/-!
SUPPORT. Frames of the operations that every block shares: for each operation, every field of the module that it leaves as it was.
-/
namespace Sys2Proof.Machine

/-- A register set: nothing else of the module changes. -/
@[simp] theorem setRegO_frame (m : Mod) (off obj : Nat) (v : Word) :
    (setRegO m off obj v).shadow = m.shadow ∧ (setRegO m off obj v).timers = m.timers ∧ (setRegO m off obj v).sent = m.sent ∧
    (setRegO m off obj v).free = m.free ∧ (setRegO m off obj v).factory = m.factory ∧ (setRegO m off obj v).mode = m.mode ∧
    (setRegO m off obj v).clk = m.clk ∧ (setRegO m off obj v).host = m.host ∧ (setRegO m off obj v).evr = m.evr ∧
    (setRegO m off obj v).key = m.key ∧ (setRegO m off obj v).kpr = m.kpr ∧ (setRegO m off obj v).hlth = m.hlth ∧
    (setRegO m off obj v).img = m.img ∧ (setRegO m off obj v).net = m.net ∧ (setRegO m off obj v).td = m.td ∧
    (setRegO m off obj v).pe = m.pe ∧ (setRegO m off obj v).sv = m.sv ∧ (setRegO m off obj v).bsn = m.bsn ∧
    (setRegO m off obj v).wad = m.wad ∧ (setRegO m off obj v).out = m.out ∧ (setRegO m off obj v).rec_ = m.rec_ ∧
    (setRegO m off obj v).dma = m.dma ∧ (setRegO m off obj v).mtr = m.mtr ∧ (setRegO m off obj v).parts = m.parts ∧
    (setRegO m off obj v).delayPlan = m.delayPlan ∧ (setRegO m off obj v).rung2 = m.rung2 ∧
    (setRegO m off obj v).portMap = m.portMap :=
    ⟨rfl, rfl, rfl, rfl, rfl, rfl, rfl, rfl, rfl, rfl, rfl, rfl, rfl, rfl, rfl, rfl, rfl, rfl, rfl, rfl, rfl, rfl, rfl, rfl, rfl, rfl, rfl⟩

/-- An unselected register set: nothing else of the module changes. -/
@[simp] theorem setReg_frame (m : Mod) (off : Nat) (v : Word) :
    (setReg m off v).shadow = m.shadow ∧ (setReg m off v).timers = m.timers ∧ (setReg m off v).sent = m.sent ∧
    (setReg m off v).free = m.free ∧ (setReg m off v).factory = m.factory ∧ (setReg m off v).mode = m.mode ∧
    (setReg m off v).clk = m.clk ∧ (setReg m off v).host = m.host ∧ (setReg m off v).evr = m.evr ∧
    (setReg m off v).key = m.key ∧ (setReg m off v).kpr = m.kpr ∧ (setReg m off v).hlth = m.hlth ∧
    (setReg m off v).img = m.img ∧ (setReg m off v).net = m.net ∧ (setReg m off v).td = m.td ∧ (setReg m off v).pe = m.pe ∧
    (setReg m off v).sv = m.sv ∧ (setReg m off v).bsn = m.bsn ∧ (setReg m off v).wad = m.wad ∧ (setReg m off v).out = m.out ∧
    (setReg m off v).rec_ = m.rec_ ∧ (setReg m off v).dma = m.dma ∧ (setReg m off v).mtr = m.mtr ∧
    (setReg m off v).parts = m.parts ∧ (setReg m off v).delayPlan = m.delayPlan ∧ (setReg m off v).rung2 = m.rung2 ∧
    (setReg m off v).portMap = m.portMap :=
    ⟨rfl, rfl, rfl, rfl, rfl, rfl, rfl, rfl, rfl, rfl, rfl, rfl, rfl, rfl, rfl, rfl, rfl, rfl, rfl, rfl, rfl, rfl, rfl, rfl, rfl, rfl, rfl⟩

/-- Bits of a register set: nothing else of the module changes. -/
@[simp] theorem setBits_frame (m : Mod) (off hi lo x : Nat) :
    (setBits m off hi lo x).shadow = m.shadow ∧ (setBits m off hi lo x).timers = m.timers ∧
    (setBits m off hi lo x).sent = m.sent ∧ (setBits m off hi lo x).free = m.free ∧
    (setBits m off hi lo x).factory = m.factory ∧ (setBits m off hi lo x).mode = m.mode ∧
    (setBits m off hi lo x).clk = m.clk ∧ (setBits m off hi lo x).host = m.host ∧ (setBits m off hi lo x).evr = m.evr ∧
    (setBits m off hi lo x).key = m.key ∧ (setBits m off hi lo x).kpr = m.kpr ∧ (setBits m off hi lo x).hlth = m.hlth ∧
    (setBits m off hi lo x).img = m.img ∧ (setBits m off hi lo x).net = m.net ∧ (setBits m off hi lo x).td = m.td ∧
    (setBits m off hi lo x).pe = m.pe ∧ (setBits m off hi lo x).sv = m.sv ∧ (setBits m off hi lo x).bsn = m.bsn ∧
    (setBits m off hi lo x).wad = m.wad ∧ (setBits m off hi lo x).out = m.out ∧ (setBits m off hi lo x).rec_ = m.rec_ ∧
    (setBits m off hi lo x).dma = m.dma ∧ (setBits m off hi lo x).mtr = m.mtr ∧ (setBits m off hi lo x).parts = m.parts ∧
    (setBits m off hi lo x).delayPlan = m.delayPlan ∧ (setBits m off hi lo x).rung2 = m.rung2 ∧
    (setBits m off hi lo x).portMap = m.portMap :=
    ⟨rfl, rfl, rfl, rfl, rfl, rfl, rfl, rfl, rfl, rfl, rfl, rfl, rfl, rfl, rfl, rfl, rfl, rfl, rfl, rfl, rfl, rfl, rfl, rfl, rfl, rfl, rfl⟩

/-- A shadow copy set: nothing else of the module changes. -/
@[simp] theorem setShadow_frame (m : Mod) (off : Nat) (v : Word) :
    (setShadow m off v).regs = m.regs ∧ (setShadow m off v).timers = m.timers ∧ (setShadow m off v).sent = m.sent ∧
    (setShadow m off v).free = m.free ∧ (setShadow m off v).factory = m.factory ∧ (setShadow m off v).mode = m.mode ∧
    (setShadow m off v).clk = m.clk ∧ (setShadow m off v).host = m.host ∧ (setShadow m off v).evr = m.evr ∧
    (setShadow m off v).key = m.key ∧ (setShadow m off v).kpr = m.kpr ∧ (setShadow m off v).hlth = m.hlth ∧
    (setShadow m off v).img = m.img ∧ (setShadow m off v).net = m.net ∧ (setShadow m off v).td = m.td ∧
    (setShadow m off v).pe = m.pe ∧ (setShadow m off v).sv = m.sv ∧ (setShadow m off v).bsn = m.bsn ∧
    (setShadow m off v).wad = m.wad ∧ (setShadow m off v).out = m.out ∧ (setShadow m off v).rec_ = m.rec_ ∧
    (setShadow m off v).dma = m.dma ∧ (setShadow m off v).mtr = m.mtr ∧ (setShadow m off v).parts = m.parts ∧
    (setShadow m off v).delayPlan = m.delayPlan ∧ (setShadow m off v).rung2 = m.rung2 ∧
    (setShadow m off v).portMap = m.portMap :=
    ⟨rfl, rfl, rfl, rfl, rfl, rfl, rfl, rfl, rfl, rfl, rfl, rfl, rfl, rfl, rfl, rfl, rfl, rfl, rfl, rfl, rfl, rfl, rfl, rfl, rfl, rfl, rfl⟩

/-- An RWS register loaded: its live value and its shadow copy, nothing else. -/
@[simp] theorem loadReg_frame (m : Mod) (off : Nat) (v : Word) :
    (loadReg m off v).timers = m.timers ∧ (loadReg m off v).sent = m.sent ∧ (loadReg m off v).free = m.free ∧
    (loadReg m off v).factory = m.factory ∧ (loadReg m off v).mode = m.mode ∧ (loadReg m off v).clk = m.clk ∧
    (loadReg m off v).host = m.host ∧ (loadReg m off v).evr = m.evr ∧ (loadReg m off v).key = m.key ∧
    (loadReg m off v).kpr = m.kpr ∧ (loadReg m off v).hlth = m.hlth ∧ (loadReg m off v).img = m.img ∧
    (loadReg m off v).net = m.net ∧ (loadReg m off v).td = m.td ∧ (loadReg m off v).pe = m.pe ∧ (loadReg m off v).sv = m.sv ∧
    (loadReg m off v).bsn = m.bsn ∧ (loadReg m off v).wad = m.wad ∧ (loadReg m off v).out = m.out ∧
    (loadReg m off v).rec_ = m.rec_ ∧ (loadReg m off v).dma = m.dma ∧ (loadReg m off v).mtr = m.mtr ∧
    (loadReg m off v).parts = m.parts ∧ (loadReg m off v).delayPlan = m.delayPlan ∧ (loadReg m off v).rung2 = m.rung2 ∧
    (loadReg m off v).portMap = m.portMap :=
    ⟨rfl, rfl, rfl, rfl, rfl, rfl, rfl, rfl, rfl, rfl, rfl, rfl, rfl, rfl, rfl, rfl, rfl, rfl, rfl, rfl, rfl, rfl, rfl, rfl, rfl, rfl⟩

/-- A timer stopped: nothing but the timers changes. -/
@[simp] theorem stopTimer_frame (m : Mod) (k : TimerKind) (i : Nat) :
    (stopTimer m k i).regs = m.regs ∧ (stopTimer m k i).shadow = m.shadow ∧ (stopTimer m k i).sent = m.sent ∧
    (stopTimer m k i).free = m.free ∧ (stopTimer m k i).factory = m.factory ∧ (stopTimer m k i).mode = m.mode ∧
    (stopTimer m k i).clk = m.clk ∧ (stopTimer m k i).host = m.host ∧ (stopTimer m k i).evr = m.evr ∧
    (stopTimer m k i).key = m.key ∧ (stopTimer m k i).kpr = m.kpr ∧ (stopTimer m k i).hlth = m.hlth ∧
    (stopTimer m k i).img = m.img ∧ (stopTimer m k i).net = m.net ∧ (stopTimer m k i).td = m.td ∧
    (stopTimer m k i).pe = m.pe ∧ (stopTimer m k i).sv = m.sv ∧ (stopTimer m k i).bsn = m.bsn ∧
    (stopTimer m k i).wad = m.wad ∧ (stopTimer m k i).out = m.out ∧ (stopTimer m k i).rec_ = m.rec_ ∧
    (stopTimer m k i).dma = m.dma ∧ (stopTimer m k i).mtr = m.mtr ∧ (stopTimer m k i).parts = m.parts ∧
    (stopTimer m k i).delayPlan = m.delayPlan ∧ (stopTimer m k i).rung2 = m.rung2 ∧ (stopTimer m k i).portMap = m.portMap :=
    ⟨rfl, rfl, rfl, rfl, rfl, rfl, rfl, rfl, rfl, rfl, rfl, rfl, rfl, rfl, rfl, rfl, rfl, rfl, rfl, rfl, rfl, rfl, rfl, rfl, rfl, rfl, rfl⟩

/-- A timer set: nothing but the timers changes. -/
@[simp] theorem setTimerAt_frame (m : Mod) (k : TimerKind) (i due : Nat) :
    (setTimerAt m k i due).regs = m.regs ∧ (setTimerAt m k i due).shadow = m.shadow ∧ (setTimerAt m k i due).sent = m.sent ∧
    (setTimerAt m k i due).free = m.free ∧ (setTimerAt m k i due).factory = m.factory ∧
    (setTimerAt m k i due).mode = m.mode ∧ (setTimerAt m k i due).clk = m.clk ∧ (setTimerAt m k i due).host = m.host ∧
    (setTimerAt m k i due).evr = m.evr ∧ (setTimerAt m k i due).key = m.key ∧ (setTimerAt m k i due).kpr = m.kpr ∧
    (setTimerAt m k i due).hlth = m.hlth ∧ (setTimerAt m k i due).img = m.img ∧ (setTimerAt m k i due).net = m.net ∧
    (setTimerAt m k i due).td = m.td ∧ (setTimerAt m k i due).pe = m.pe ∧ (setTimerAt m k i due).sv = m.sv ∧
    (setTimerAt m k i due).bsn = m.bsn ∧ (setTimerAt m k i due).wad = m.wad ∧ (setTimerAt m k i due).out = m.out ∧
    (setTimerAt m k i due).rec_ = m.rec_ ∧ (setTimerAt m k i due).dma = m.dma ∧ (setTimerAt m k i due).mtr = m.mtr ∧
    (setTimerAt m k i due).parts = m.parts ∧ (setTimerAt m k i due).delayPlan = m.delayPlan ∧
    (setTimerAt m k i due).rung2 = m.rung2 ∧ (setTimerAt m k i due).portMap = m.portMap :=
    ⟨rfl, rfl, rfl, rfl, rfl, rfl, rfl, rfl, rfl, rfl, rfl, rfl, rfl, rfl, rfl, rfl, rfl, rfl, rfl, rfl, rfl, rfl, rfl, rfl, rfl, rfl, rfl⟩

/-- A timer started: nothing but the timers changes. -/
@[simp] theorem startTimer_frame (m : Mod) (k : TimerKind) (i dur : Nat) :
    (startTimer m k i dur).regs = m.regs ∧ (startTimer m k i dur).shadow = m.shadow ∧ (startTimer m k i dur).sent = m.sent ∧
    (startTimer m k i dur).free = m.free ∧ (startTimer m k i dur).factory = m.factory ∧
    (startTimer m k i dur).mode = m.mode ∧ (startTimer m k i dur).clk = m.clk ∧ (startTimer m k i dur).host = m.host ∧
    (startTimer m k i dur).evr = m.evr ∧ (startTimer m k i dur).key = m.key ∧ (startTimer m k i dur).kpr = m.kpr ∧
    (startTimer m k i dur).hlth = m.hlth ∧ (startTimer m k i dur).img = m.img ∧ (startTimer m k i dur).net = m.net ∧
    (startTimer m k i dur).td = m.td ∧ (startTimer m k i dur).pe = m.pe ∧ (startTimer m k i dur).sv = m.sv ∧
    (startTimer m k i dur).bsn = m.bsn ∧ (startTimer m k i dur).wad = m.wad ∧ (startTimer m k i dur).out = m.out ∧
    (startTimer m k i dur).rec_ = m.rec_ ∧ (startTimer m k i dur).dma = m.dma ∧ (startTimer m k i dur).mtr = m.mtr ∧
    (startTimer m k i dur).parts = m.parts ∧ (startTimer m k i dur).delayPlan = m.delayPlan ∧
    (startTimer m k i dur).rung2 = m.rung2 ∧ (startTimer m k i dur).portMap = m.portMap :=
    ⟨rfl, rfl, rfl, rfl, rfl, rfl, rfl, rfl, rfl, rfl, rfl, rfl, rfl, rfl, rfl, rfl, rfl, rfl, rfl, rfl, rfl, rfl, rfl, rfl, rfl, rfl, rfl⟩

/-- A PBA bit: nothing but the registers changes. -/
@[simp] theorem setPba_frame (m : Mod) (v : Nat) (b : Bool) :
    (setPba m v b).shadow = m.shadow ∧ (setPba m v b).timers = m.timers ∧ (setPba m v b).sent = m.sent ∧
    (setPba m v b).free = m.free ∧ (setPba m v b).factory = m.factory ∧ (setPba m v b).mode = m.mode ∧
    (setPba m v b).clk = m.clk ∧ (setPba m v b).host = m.host ∧ (setPba m v b).evr = m.evr ∧ (setPba m v b).key = m.key ∧
    (setPba m v b).kpr = m.kpr ∧ (setPba m v b).hlth = m.hlth ∧ (setPba m v b).img = m.img ∧ (setPba m v b).net = m.net ∧
    (setPba m v b).td = m.td ∧ (setPba m v b).pe = m.pe ∧ (setPba m v b).sv = m.sv ∧ (setPba m v b).bsn = m.bsn ∧
    (setPba m v b).wad = m.wad ∧ (setPba m v b).out = m.out ∧ (setPba m v b).rec_ = m.rec_ ∧ (setPba m v b).dma = m.dma ∧
    (setPba m v b).mtr = m.mtr ∧ (setPba m v b).parts = m.parts ∧ (setPba m v b).delayPlan = m.delayPlan ∧
    (setPba m v b).rung2 = m.rung2 ∧ (setPba m v b).portMap = m.portMap :=
    ⟨rfl, rfl, rfl, rfl, rfl, rfl, rfl, rfl, rfl, rfl, rfl, rfl, rfl, rfl, rfl, rfl, rfl, rfl, rfl, rfl, rfl, rfl, rfl, rfl, rfl, rfl, rfl⟩

/-- An MSI-X message: sent, or noted in the PBA. -/
@[simp] theorem msixSend_frame (m : Mod) (v : Nat) :
    (msixSend m v).shadow = m.shadow ∧ (msixSend m v).timers = m.timers ∧ (msixSend m v).free = m.free ∧
    (msixSend m v).factory = m.factory ∧ (msixSend m v).mode = m.mode ∧ (msixSend m v).clk = m.clk ∧
    (msixSend m v).host = m.host ∧ (msixSend m v).evr = m.evr ∧ (msixSend m v).key = m.key ∧ (msixSend m v).kpr = m.kpr ∧
    (msixSend m v).hlth = m.hlth ∧ (msixSend m v).img = m.img ∧ (msixSend m v).net = m.net ∧ (msixSend m v).td = m.td ∧
    (msixSend m v).pe = m.pe ∧ (msixSend m v).sv = m.sv ∧ (msixSend m v).bsn = m.bsn ∧ (msixSend m v).wad = m.wad ∧
    (msixSend m v).out = m.out ∧ (msixSend m v).rec_ = m.rec_ ∧ (msixSend m v).dma = m.dma ∧ (msixSend m v).mtr = m.mtr ∧
    (msixSend m v).parts = m.parts ∧ (msixSend m v).delayPlan = m.delayPlan ∧ (msixSend m v).rung2 = m.rung2 ∧
    (msixSend m v).portMap = m.portMap := by
  refine ⟨?_, ?_, ?_, ?_, ?_, ?_, ?_, ?_, ?_, ?_, ?_, ?_, ?_, ?_, ?_, ?_, ?_, ?_, ?_, ?_, ?_, ?_, ?_, ?_, ?_, ?_⟩ <;> (unfold msixSend; split <;> rfl)

/-- A vector evaluated again: registers (the PBA), what is sent and the host block. -/
@[simp] theorem recheck_frame (m : Mod) (v : Nat) :
    (recheck m v).shadow = m.shadow ∧ (recheck m v).timers = m.timers ∧ (recheck m v).free = m.free ∧
    (recheck m v).factory = m.factory ∧ (recheck m v).mode = m.mode ∧ (recheck m v).clk = m.clk ∧ (recheck m v).evr = m.evr ∧
    (recheck m v).key = m.key ∧ (recheck m v).kpr = m.kpr ∧ (recheck m v).hlth = m.hlth ∧ (recheck m v).img = m.img ∧
    (recheck m v).net = m.net ∧ (recheck m v).td = m.td ∧ (recheck m v).pe = m.pe ∧ (recheck m v).sv = m.sv ∧
    (recheck m v).bsn = m.bsn ∧ (recheck m v).wad = m.wad ∧ (recheck m v).out = m.out ∧ (recheck m v).rec_ = m.rec_ ∧
    (recheck m v).dma = m.dma ∧ (recheck m v).mtr = m.mtr ∧ (recheck m v).parts = m.parts ∧
    (recheck m v).delayPlan = m.delayPlan ∧ (recheck m v).rung2 = m.rung2 ∧ (recheck m v).portMap = m.portMap := by
  refine ⟨?_, ?_, ?_, ?_, ?_, ?_, ?_, ?_, ?_, ?_, ?_, ?_, ?_, ?_, ?_, ?_, ?_, ?_, ?_, ?_, ?_, ?_, ?_, ?_, ?_⟩ <;> (unfold recheck; dsimp only; split <;> simp)

/-- Bits set with their interrupt. -/
@[simp] theorem orBits_frame (m : Mod) (off mask : Nat) :
    (orBits m off mask).shadow = m.shadow ∧ (orBits m off mask).timers = m.timers ∧ (orBits m off mask).free = m.free ∧
    (orBits m off mask).factory = m.factory ∧ (orBits m off mask).mode = m.mode ∧ (orBits m off mask).clk = m.clk ∧
    (orBits m off mask).evr = m.evr ∧ (orBits m off mask).key = m.key ∧ (orBits m off mask).kpr = m.kpr ∧
    (orBits m off mask).hlth = m.hlth ∧ (orBits m off mask).img = m.img ∧ (orBits m off mask).net = m.net ∧
    (orBits m off mask).td = m.td ∧ (orBits m off mask).pe = m.pe ∧ (orBits m off mask).sv = m.sv ∧
    (orBits m off mask).bsn = m.bsn ∧ (orBits m off mask).wad = m.wad ∧ (orBits m off mask).out = m.out ∧
    (orBits m off mask).rec_ = m.rec_ ∧ (orBits m off mask).dma = m.dma ∧ (orBits m off mask).mtr = m.mtr ∧
    (orBits m off mask).parts = m.parts ∧ (orBits m off mask).delayPlan = m.delayPlan ∧ (orBits m off mask).rung2 = m.rung2 ∧
    (orBits m off mask).portMap = m.portMap := by
  refine ⟨?_, ?_, ?_, ?_, ?_, ?_, ?_, ?_, ?_, ?_, ?_, ?_, ?_, ?_, ?_, ?_, ?_, ?_, ?_, ?_, ?_, ?_, ?_, ?_, ?_⟩ <;> (unfold orBits; dsimp only; split <;> simp)

/-- A FAULT bit without an event. -/
@[simp] theorem setFaultQuiet_frame (m : Mod) (off bit : Nat) :
    (setFaultQuiet m off bit).shadow = m.shadow ∧ (setFaultQuiet m off bit).timers = m.timers ∧
    (setFaultQuiet m off bit).free = m.free ∧ (setFaultQuiet m off bit).factory = m.factory ∧
    (setFaultQuiet m off bit).mode = m.mode ∧ (setFaultQuiet m off bit).clk = m.clk ∧ (setFaultQuiet m off bit).evr = m.evr ∧
    (setFaultQuiet m off bit).key = m.key ∧ (setFaultQuiet m off bit).kpr = m.kpr ∧ (setFaultQuiet m off bit).hlth = m.hlth ∧
    (setFaultQuiet m off bit).img = m.img ∧ (setFaultQuiet m off bit).net = m.net ∧ (setFaultQuiet m off bit).td = m.td ∧
    (setFaultQuiet m off bit).pe = m.pe ∧ (setFaultQuiet m off bit).sv = m.sv ∧ (setFaultQuiet m off bit).bsn = m.bsn ∧
    (setFaultQuiet m off bit).wad = m.wad ∧ (setFaultQuiet m off bit).out = m.out ∧ (setFaultQuiet m off bit).rec_ = m.rec_ ∧
    (setFaultQuiet m off bit).dma = m.dma ∧ (setFaultQuiet m off bit).mtr = m.mtr ∧
    (setFaultQuiet m off bit).parts = m.parts ∧ (setFaultQuiet m off bit).delayPlan = m.delayPlan ∧
    (setFaultQuiet m off bit).rung2 = m.rung2 ∧ (setFaultQuiet m off bit).portMap = m.portMap := by
  simp [setFaultQuiet]

/-- An event that found the queue full. -/
@[simp] theorem loseEvent_frame (m : Mod) (e : Event) :
    (loseEvent m e).shadow = m.shadow ∧ (loseEvent m e).timers = m.timers ∧ (loseEvent m e).free = m.free ∧
    (loseEvent m e).factory = m.factory ∧ (loseEvent m e).mode = m.mode ∧ (loseEvent m e).clk = m.clk ∧
    (loseEvent m e).key = m.key ∧ (loseEvent m e).kpr = m.kpr ∧ (loseEvent m e).hlth = m.hlth ∧ (loseEvent m e).img = m.img ∧
    (loseEvent m e).net = m.net ∧ (loseEvent m e).td = m.td ∧ (loseEvent m e).pe = m.pe ∧ (loseEvent m e).sv = m.sv ∧
    (loseEvent m e).bsn = m.bsn ∧ (loseEvent m e).wad = m.wad ∧ (loseEvent m e).out = m.out ∧ (loseEvent m e).rec_ = m.rec_ ∧
    (loseEvent m e).dma = m.dma ∧ (loseEvent m e).mtr = m.mtr ∧ (loseEvent m e).parts = m.parts ∧
    (loseEvent m e).delayPlan = m.delayPlan ∧ (loseEvent m e).rung2 = m.rung2 ∧ (loseEvent m e).portMap = m.portMap := by
  simp [loseEvent]

/-- An event queued, or counted as lost. -/
@[simp] theorem pushEvent_frame (m : Mod) (e : Event) :
    (pushEvent m e).shadow = m.shadow ∧ (pushEvent m e).timers = m.timers ∧ (pushEvent m e).free = m.free ∧
    (pushEvent m e).factory = m.factory ∧ (pushEvent m e).mode = m.mode ∧ (pushEvent m e).clk = m.clk ∧
    (pushEvent m e).key = m.key ∧ (pushEvent m e).kpr = m.kpr ∧ (pushEvent m e).hlth = m.hlth ∧ (pushEvent m e).img = m.img ∧
    (pushEvent m e).net = m.net ∧ (pushEvent m e).td = m.td ∧ (pushEvent m e).pe = m.pe ∧ (pushEvent m e).sv = m.sv ∧
    (pushEvent m e).bsn = m.bsn ∧ (pushEvent m e).wad = m.wad ∧ (pushEvent m e).out = m.out ∧ (pushEvent m e).rec_ = m.rec_ ∧
    (pushEvent m e).dma = m.dma ∧ (pushEvent m e).mtr = m.mtr ∧ (pushEvent m e).parts = m.parts ∧
    (pushEvent m e).delayPlan = m.delayPlan ∧ (pushEvent m e).rung2 = m.rung2 ∧ (pushEvent m e).portMap = m.portMap := by
  refine ⟨?_, ?_, ?_, ?_, ?_, ?_, ?_, ?_, ?_, ?_, ?_, ?_, ?_, ?_, ?_, ?_, ?_, ?_, ?_, ?_, ?_, ?_, ?_, ?_⟩ <;> (unfold pushEvent; dsimp only; (repeat' split) <;> simp)

/-- An event raised. -/
@[simp] theorem raiseEvent_frame (m : Mod) (src cls detail : Nat) (arg : Bytes) :
    (raiseEvent m src cls detail arg).shadow = m.shadow ∧ (raiseEvent m src cls detail arg).timers = m.timers ∧
    (raiseEvent m src cls detail arg).free = m.free ∧ (raiseEvent m src cls detail arg).factory = m.factory ∧
    (raiseEvent m src cls detail arg).mode = m.mode ∧ (raiseEvent m src cls detail arg).clk = m.clk ∧
    (raiseEvent m src cls detail arg).key = m.key ∧ (raiseEvent m src cls detail arg).kpr = m.kpr ∧
    (raiseEvent m src cls detail arg).hlth = m.hlth ∧ (raiseEvent m src cls detail arg).img = m.img ∧
    (raiseEvent m src cls detail arg).net = m.net ∧ (raiseEvent m src cls detail arg).td = m.td ∧
    (raiseEvent m src cls detail arg).pe = m.pe ∧ (raiseEvent m src cls detail arg).sv = m.sv ∧
    (raiseEvent m src cls detail arg).bsn = m.bsn ∧ (raiseEvent m src cls detail arg).wad = m.wad ∧
    (raiseEvent m src cls detail arg).out = m.out ∧ (raiseEvent m src cls detail arg).rec_ = m.rec_ ∧
    (raiseEvent m src cls detail arg).dma = m.dma ∧ (raiseEvent m src cls detail arg).mtr = m.mtr ∧
    (raiseEvent m src cls detail arg).parts = m.parts ∧ (raiseEvent m src cls detail arg).delayPlan = m.delayPlan ∧
    (raiseEvent m src cls detail arg).rung2 = m.rung2 ∧ (raiseEvent m src cls detail arg).portMap = m.portMap := by
  simp [raiseEvent]

/-- A FAULT bit with its event. -/
@[simp] theorem setFault_frame (m : Mod) (off bit obj : Nat) (vals : List Nat) :
    (setFault m off bit obj vals).shadow = m.shadow ∧ (setFault m off bit obj vals).timers = m.timers ∧
    (setFault m off bit obj vals).free = m.free ∧ (setFault m off bit obj vals).factory = m.factory ∧
    (setFault m off bit obj vals).mode = m.mode ∧ (setFault m off bit obj vals).clk = m.clk ∧
    (setFault m off bit obj vals).key = m.key ∧ (setFault m off bit obj vals).kpr = m.kpr ∧
    (setFault m off bit obj vals).hlth = m.hlth ∧ (setFault m off bit obj vals).img = m.img ∧
    (setFault m off bit obj vals).net = m.net ∧ (setFault m off bit obj vals).td = m.td ∧
    (setFault m off bit obj vals).pe = m.pe ∧ (setFault m off bit obj vals).sv = m.sv ∧
    (setFault m off bit obj vals).bsn = m.bsn ∧ (setFault m off bit obj vals).wad = m.wad ∧
    (setFault m off bit obj vals).out = m.out ∧ (setFault m off bit obj vals).rec_ = m.rec_ ∧
    (setFault m off bit obj vals).dma = m.dma ∧ (setFault m off bit obj vals).mtr = m.mtr ∧
    (setFault m off bit obj vals).parts = m.parts ∧ (setFault m off bit obj vals).delayPlan = m.delayPlan ∧
    (setFault m off bit obj vals).rung2 = m.rung2 ∧ (setFault m off bit obj vals).portMap = m.portMap := by
  simp [setFault]

/-- A state-change event. -/
@[simp] theorem stateEvent_frame (m : Mod) (src code old new obj : Nat) :
    (stateEvent m src code old new obj).shadow = m.shadow ∧ (stateEvent m src code old new obj).timers = m.timers ∧
    (stateEvent m src code old new obj).free = m.free ∧ (stateEvent m src code old new obj).factory = m.factory ∧
    (stateEvent m src code old new obj).mode = m.mode ∧ (stateEvent m src code old new obj).clk = m.clk ∧
    (stateEvent m src code old new obj).key = m.key ∧ (stateEvent m src code old new obj).kpr = m.kpr ∧
    (stateEvent m src code old new obj).hlth = m.hlth ∧ (stateEvent m src code old new obj).img = m.img ∧
    (stateEvent m src code old new obj).net = m.net ∧ (stateEvent m src code old new obj).td = m.td ∧
    (stateEvent m src code old new obj).pe = m.pe ∧ (stateEvent m src code old new obj).sv = m.sv ∧
    (stateEvent m src code old new obj).bsn = m.bsn ∧ (stateEvent m src code old new obj).wad = m.wad ∧
    (stateEvent m src code old new obj).out = m.out ∧ (stateEvent m src code old new obj).rec_ = m.rec_ ∧
    (stateEvent m src code old new obj).dma = m.dma ∧ (stateEvent m src code old new obj).mtr = m.mtr ∧
    (stateEvent m src code old new obj).parts = m.parts ∧ (stateEvent m src code old new obj).delayPlan = m.delayPlan ∧
    (stateEvent m src code old new obj).rung2 = m.rung2 ∧ (stateEvent m src code old new obj).portMap = m.portMap := by
  simp [stateEvent]

/-- A health event. -/
@[simp] theorem class6_frame (m : Mod) (detail : Nat) (arg : Bytes) :
    (class6 m detail arg).shadow = m.shadow ∧ (class6 m detail arg).timers = m.timers ∧ (class6 m detail arg).free = m.free ∧
    (class6 m detail arg).factory = m.factory ∧ (class6 m detail arg).mode = m.mode ∧ (class6 m detail arg).clk = m.clk ∧
    (class6 m detail arg).key = m.key ∧ (class6 m detail arg).kpr = m.kpr ∧ (class6 m detail arg).hlth = m.hlth ∧
    (class6 m detail arg).img = m.img ∧ (class6 m detail arg).net = m.net ∧ (class6 m detail arg).td = m.td ∧
    (class6 m detail arg).pe = m.pe ∧ (class6 m detail arg).sv = m.sv ∧ (class6 m detail arg).bsn = m.bsn ∧
    (class6 m detail arg).wad = m.wad ∧ (class6 m detail arg).out = m.out ∧ (class6 m detail arg).rec_ = m.rec_ ∧
    (class6 m detail arg).dma = m.dma ∧ (class6 m detail arg).mtr = m.mtr ∧ (class6 m detail arg).parts = m.parts ∧
    (class6 m detail arg).delayPlan = m.delayPlan ∧ (class6 m detail arg).rung2 = m.rung2 ∧
    (class6 m detail arg).portMap = m.portMap := by
  simp [class6]

/-- An audit event. -/
@[simp] theorem auditEvent_frame (m : Mod) (src code result obj : Nat) (args : Bytes) :
    (auditEvent m src code result obj args).shadow = m.shadow ∧ (auditEvent m src code result obj args).timers = m.timers ∧
    (auditEvent m src code result obj args).free = m.free ∧ (auditEvent m src code result obj args).factory = m.factory ∧
    (auditEvent m src code result obj args).mode = m.mode ∧ (auditEvent m src code result obj args).clk = m.clk ∧
    (auditEvent m src code result obj args).key = m.key ∧ (auditEvent m src code result obj args).kpr = m.kpr ∧
    (auditEvent m src code result obj args).hlth = m.hlth ∧ (auditEvent m src code result obj args).img = m.img ∧
    (auditEvent m src code result obj args).net = m.net ∧ (auditEvent m src code result obj args).td = m.td ∧
    (auditEvent m src code result obj args).pe = m.pe ∧ (auditEvent m src code result obj args).sv = m.sv ∧
    (auditEvent m src code result obj args).bsn = m.bsn ∧ (auditEvent m src code result obj args).wad = m.wad ∧
    (auditEvent m src code result obj args).out = m.out ∧ (auditEvent m src code result obj args).rec_ = m.rec_ ∧
    (auditEvent m src code result obj args).dma = m.dma ∧ (auditEvent m src code result obj args).mtr = m.mtr ∧
    (auditEvent m src code result obj args).parts = m.parts ∧
    (auditEvent m src code result obj args).delayPlan = m.delayPlan ∧
    (auditEvent m src code result obj args).rung2 = m.rung2 ∧ (auditEvent m src code result obj args).portMap = m.portMap := by
  simp [auditEvent]

/-- A counter of an object, with the event of its saturation. -/
@[simp] theorem addCntO_frame (m : Mod) (off obj k : Nat) :
    (addCntO m off obj k).shadow = m.shadow ∧ (addCntO m off obj k).timers = m.timers ∧ (addCntO m off obj k).free = m.free ∧
    (addCntO m off obj k).factory = m.factory ∧ (addCntO m off obj k).mode = m.mode ∧ (addCntO m off obj k).clk = m.clk ∧
    (addCntO m off obj k).key = m.key ∧ (addCntO m off obj k).kpr = m.kpr ∧ (addCntO m off obj k).hlth = m.hlth ∧
    (addCntO m off obj k).img = m.img ∧ (addCntO m off obj k).net = m.net ∧ (addCntO m off obj k).td = m.td ∧
    (addCntO m off obj k).pe = m.pe ∧ (addCntO m off obj k).sv = m.sv ∧ (addCntO m off obj k).bsn = m.bsn ∧
    (addCntO m off obj k).wad = m.wad ∧ (addCntO m off obj k).out = m.out ∧ (addCntO m off obj k).rec_ = m.rec_ ∧
    (addCntO m off obj k).dma = m.dma ∧ (addCntO m off obj k).mtr = m.mtr ∧ (addCntO m off obj k).parts = m.parts ∧
    (addCntO m off obj k).delayPlan = m.delayPlan ∧ (addCntO m off obj k).rung2 = m.rung2 ∧
    (addCntO m off obj k).portMap = m.portMap := by
  refine ⟨?_, ?_, ?_, ?_, ?_, ?_, ?_, ?_, ?_, ?_, ?_, ?_, ?_, ?_, ?_, ?_, ?_, ?_, ?_, ?_, ?_, ?_, ?_, ?_⟩ <;> (unfold addCntO; dsimp only; split <;> simp)

/-- A counter of an object. -/
@[simp] theorem bumpO_frame (m : Mod) (off obj : Nat) :
    (bumpO m off obj).shadow = m.shadow ∧ (bumpO m off obj).timers = m.timers ∧ (bumpO m off obj).free = m.free ∧
    (bumpO m off obj).factory = m.factory ∧ (bumpO m off obj).mode = m.mode ∧ (bumpO m off obj).clk = m.clk ∧
    (bumpO m off obj).key = m.key ∧ (bumpO m off obj).kpr = m.kpr ∧ (bumpO m off obj).hlth = m.hlth ∧
    (bumpO m off obj).img = m.img ∧ (bumpO m off obj).net = m.net ∧ (bumpO m off obj).td = m.td ∧
    (bumpO m off obj).pe = m.pe ∧ (bumpO m off obj).sv = m.sv ∧ (bumpO m off obj).bsn = m.bsn ∧
    (bumpO m off obj).wad = m.wad ∧ (bumpO m off obj).out = m.out ∧ (bumpO m off obj).rec_ = m.rec_ ∧
    (bumpO m off obj).dma = m.dma ∧ (bumpO m off obj).mtr = m.mtr ∧ (bumpO m off obj).parts = m.parts ∧
    (bumpO m off obj).delayPlan = m.delayPlan ∧ (bumpO m off obj).rung2 = m.rung2 ∧ (bumpO m off obj).portMap = m.portMap := by
  simp [bumpO]

/-- A counter, with the event of its saturation. -/
@[simp] theorem addCnt_frame (m : Mod) (off k : Nat) :
    (addCnt m off k).shadow = m.shadow ∧ (addCnt m off k).timers = m.timers ∧ (addCnt m off k).free = m.free ∧
    (addCnt m off k).factory = m.factory ∧ (addCnt m off k).mode = m.mode ∧ (addCnt m off k).clk = m.clk ∧
    (addCnt m off k).key = m.key ∧ (addCnt m off k).kpr = m.kpr ∧ (addCnt m off k).hlth = m.hlth ∧
    (addCnt m off k).img = m.img ∧ (addCnt m off k).net = m.net ∧ (addCnt m off k).td = m.td ∧ (addCnt m off k).pe = m.pe ∧
    (addCnt m off k).sv = m.sv ∧ (addCnt m off k).bsn = m.bsn ∧ (addCnt m off k).wad = m.wad ∧ (addCnt m off k).out = m.out ∧
    (addCnt m off k).rec_ = m.rec_ ∧ (addCnt m off k).dma = m.dma ∧ (addCnt m off k).mtr = m.mtr ∧
    (addCnt m off k).parts = m.parts ∧ (addCnt m off k).delayPlan = m.delayPlan ∧ (addCnt m off k).rung2 = m.rung2 ∧
    (addCnt m off k).portMap = m.portMap := by
  refine ⟨?_, ?_, ?_, ?_, ?_, ?_, ?_, ?_, ?_, ?_, ?_, ?_, ?_, ?_, ?_, ?_, ?_, ?_, ?_, ?_, ?_, ?_, ?_, ?_⟩ <;> (unfold addCnt; dsimp only; split <;> simp)

/-- A counter. -/
@[simp] theorem bump_frame (m : Mod) (off : Nat) :
    (bump m off).shadow = m.shadow ∧ (bump m off).timers = m.timers ∧ (bump m off).free = m.free ∧
    (bump m off).factory = m.factory ∧ (bump m off).mode = m.mode ∧ (bump m off).clk = m.clk ∧ (bump m off).key = m.key ∧
    (bump m off).kpr = m.kpr ∧ (bump m off).hlth = m.hlth ∧ (bump m off).img = m.img ∧ (bump m off).net = m.net ∧
    (bump m off).td = m.td ∧ (bump m off).pe = m.pe ∧ (bump m off).sv = m.sv ∧ (bump m off).bsn = m.bsn ∧
    (bump m off).wad = m.wad ∧ (bump m off).out = m.out ∧ (bump m off).rec_ = m.rec_ ∧ (bump m off).dma = m.dma ∧
    (bump m off).mtr = m.mtr ∧ (bump m off).parts = m.parts ∧ (bump m off).delayPlan = m.delayPlan ∧
    (bump m off).rung2 = m.rung2 ∧ (bump m off).portMap = m.portMap := by
  simp [bump]

/-- What leaves the module is noted, nothing else changes. -/
@[simp] theorem emit_frame (m : Mod) (x : Sent) :
    (emit m x).regs = m.regs ∧ (emit m x).shadow = m.shadow ∧ (emit m x).timers = m.timers ∧ (emit m x).free = m.free ∧
    (emit m x).factory = m.factory ∧ (emit m x).mode = m.mode ∧ (emit m x).clk = m.clk ∧ (emit m x).host = m.host ∧
    (emit m x).evr = m.evr ∧ (emit m x).key = m.key ∧ (emit m x).kpr = m.kpr ∧ (emit m x).hlth = m.hlth ∧
    (emit m x).img = m.img ∧ (emit m x).net = m.net ∧ (emit m x).td = m.td ∧ (emit m x).pe = m.pe ∧ (emit m x).sv = m.sv ∧
    (emit m x).bsn = m.bsn ∧ (emit m x).wad = m.wad ∧ (emit m x).out = m.out ∧ (emit m x).rec_ = m.rec_ ∧
    (emit m x).dma = m.dma ∧ (emit m x).mtr = m.mtr ∧ (emit m x).parts = m.parts ∧ (emit m x).delayPlan = m.delayPlan ∧
    (emit m x).rung2 = m.rung2 ∧ (emit m x).portMap = m.portMap :=
    ⟨rfl, rfl, rfl, rfl, rfl, rfl, rfl, rfl, rfl, rfl, rfl, rfl, rfl, rfl, rfl, rfl, rfl, rfl, rfl, rfl, rfl, rfl, rfl, rfl, rfl, rfl, rfl⟩

/-- An access error. -/
@[simp] theorem accErr_frame (m : Mod) (bit addr : Nat) :
    (accErr m bit addr).shadow = m.shadow ∧ (accErr m bit addr).timers = m.timers ∧ (accErr m bit addr).free = m.free ∧
    (accErr m bit addr).factory = m.factory ∧ (accErr m bit addr).mode = m.mode ∧ (accErr m bit addr).clk = m.clk ∧
    (accErr m bit addr).key = m.key ∧ (accErr m bit addr).kpr = m.kpr ∧ (accErr m bit addr).hlth = m.hlth ∧
    (accErr m bit addr).img = m.img ∧ (accErr m bit addr).net = m.net ∧ (accErr m bit addr).td = m.td ∧
    (accErr m bit addr).pe = m.pe ∧ (accErr m bit addr).sv = m.sv ∧ (accErr m bit addr).bsn = m.bsn ∧
    (accErr m bit addr).wad = m.wad ∧ (accErr m bit addr).out = m.out ∧ (accErr m bit addr).rec_ = m.rec_ ∧
    (accErr m bit addr).dma = m.dma ∧ (accErr m bit addr).mtr = m.mtr ∧ (accErr m bit addr).parts = m.parts ∧
    (accErr m bit addr).delayPlan = m.delayPlan ∧ (accErr m bit addr).rung2 = m.rung2 ∧
    (accErr m bit addr).portMap = m.portMap := by
  refine ⟨?_, ?_, ?_, ?_, ?_, ?_, ?_, ?_, ?_, ?_, ?_, ?_, ?_, ?_, ?_, ?_, ?_, ?_, ?_, ?_, ?_, ?_, ?_, ?_⟩ <;> (unfold accErr; dsimp only; split <;> simp)

/-- A gate closed: its state and its timer. -/
@[simp] theorem closeGate_frame (m : Mod) (blk : Nat) :
    (closeGate m blk).regs = m.regs ∧ (closeGate m blk).shadow = m.shadow ∧ (closeGate m blk).sent = m.sent ∧
    (closeGate m blk).free = m.free ∧ (closeGate m blk).factory = m.factory ∧ (closeGate m blk).mode = m.mode ∧
    (closeGate m blk).clk = m.clk ∧ (closeGate m blk).evr = m.evr ∧ (closeGate m blk).key = m.key ∧
    (closeGate m blk).kpr = m.kpr ∧ (closeGate m blk).hlth = m.hlth ∧ (closeGate m blk).img = m.img ∧
    (closeGate m blk).net = m.net ∧ (closeGate m blk).td = m.td ∧ (closeGate m blk).pe = m.pe ∧ (closeGate m blk).sv = m.sv ∧
    (closeGate m blk).bsn = m.bsn ∧ (closeGate m blk).wad = m.wad ∧ (closeGate m blk).out = m.out ∧
    (closeGate m blk).rec_ = m.rec_ ∧ (closeGate m blk).dma = m.dma ∧ (closeGate m blk).mtr = m.mtr ∧
    (closeGate m blk).parts = m.parts ∧ (closeGate m blk).delayPlan = m.delayPlan ∧ (closeGate m blk).rung2 = m.rung2 ∧
    (closeGate m blk).portMap = m.portMap :=
    ⟨rfl, rfl, rfl, rfl, rfl, rfl, rfl, rfl, rfl, rfl, rfl, rfl, rfl, rfl, rfl, rfl, rfl, rfl, rfl, rfl, rfl, rfl, rfl, rfl, rfl, rfl⟩

/-- A gate opened: its state and its timer. -/
@[simp] theorem openGate_frame (m : Mod) (blk : Nat) :
    (openGate m blk).regs = m.regs ∧ (openGate m blk).shadow = m.shadow ∧ (openGate m blk).sent = m.sent ∧
    (openGate m blk).free = m.free ∧ (openGate m blk).factory = m.factory ∧ (openGate m blk).mode = m.mode ∧
    (openGate m blk).clk = m.clk ∧ (openGate m blk).evr = m.evr ∧ (openGate m blk).key = m.key ∧
    (openGate m blk).kpr = m.kpr ∧ (openGate m blk).hlth = m.hlth ∧ (openGate m blk).img = m.img ∧
    (openGate m blk).net = m.net ∧ (openGate m blk).td = m.td ∧ (openGate m blk).pe = m.pe ∧ (openGate m blk).sv = m.sv ∧
    (openGate m blk).bsn = m.bsn ∧ (openGate m blk).wad = m.wad ∧ (openGate m blk).out = m.out ∧
    (openGate m blk).rec_ = m.rec_ ∧ (openGate m blk).dma = m.dma ∧ (openGate m blk).mtr = m.mtr ∧
    (openGate m blk).parts = m.parts ∧ (openGate m blk).delayPlan = m.delayPlan ∧ (openGate m blk).rung2 = m.rung2 ∧
    (openGate m blk).portMap = m.portMap :=
    ⟨rfl, rfl, rfl, rfl, rfl, rfl, rfl, rfl, rfl, rfl, rfl, rfl, rfl, rfl, rfl, rfl, rfl, rfl, rfl, rfl, rfl, rfl, rfl, rfl, rfl, rfl⟩

/-- A response of Keeper. -/
@[simp] theorem keeperReply_frame (m : Mod) (rq : KReq) (cmd : Nat) (r : KResp) :
    (keeperReply m rq cmd r).shadow = m.shadow ∧ (keeperReply m rq cmd r).timers = m.timers ∧
    (keeperReply m rq cmd r).free = m.free ∧ (keeperReply m rq cmd r).factory = m.factory ∧
    (keeperReply m rq cmd r).mode = m.mode ∧ (keeperReply m rq cmd r).clk = m.clk ∧ (keeperReply m rq cmd r).key = m.key ∧
    (keeperReply m rq cmd r).hlth = m.hlth ∧ (keeperReply m rq cmd r).img = m.img ∧ (keeperReply m rq cmd r).net = m.net ∧
    (keeperReply m rq cmd r).td = m.td ∧ (keeperReply m rq cmd r).pe = m.pe ∧ (keeperReply m rq cmd r).sv = m.sv ∧
    (keeperReply m rq cmd r).bsn = m.bsn ∧ (keeperReply m rq cmd r).wad = m.wad ∧ (keeperReply m rq cmd r).out = m.out ∧
    (keeperReply m rq cmd r).rec_ = m.rec_ ∧ (keeperReply m rq cmd r).dma = m.dma ∧ (keeperReply m rq cmd r).mtr = m.mtr ∧
    (keeperReply m rq cmd r).parts = m.parts ∧ (keeperReply m rq cmd r).delayPlan = m.delayPlan ∧
    (keeperReply m rq cmd r).rung2 = m.rung2 ∧ (keeperReply m rq cmd r).portMap = m.portMap := by
  refine ⟨?_, ?_, ?_, ?_, ?_, ?_, ?_, ?_, ?_, ?_, ?_, ?_, ?_, ?_, ?_, ?_, ?_, ?_, ?_, ?_, ?_, ?_, ?_⟩ <;> (unfold keeperReply; dsimp only; split <;> simp)

/-- A change of `hlth` only. -/
@[simp] theorem modHlth_frame (m : Mod) (f : Hlth → Hlth) :
    (modHlth m f).regs = m.regs ∧ (modHlth m f).shadow = m.shadow ∧ (modHlth m f).timers = m.timers ∧
    (modHlth m f).sent = m.sent ∧ (modHlth m f).free = m.free ∧ (modHlth m f).factory = m.factory ∧
    (modHlth m f).mode = m.mode ∧ (modHlth m f).clk = m.clk ∧ (modHlth m f).host = m.host ∧ (modHlth m f).evr = m.evr ∧
    (modHlth m f).key = m.key ∧ (modHlth m f).kpr = m.kpr ∧ (modHlth m f).img = m.img ∧ (modHlth m f).net = m.net ∧
    (modHlth m f).td = m.td ∧ (modHlth m f).pe = m.pe ∧ (modHlth m f).sv = m.sv ∧ (modHlth m f).bsn = m.bsn ∧
    (modHlth m f).wad = m.wad ∧ (modHlth m f).out = m.out ∧ (modHlth m f).rec_ = m.rec_ ∧ (modHlth m f).dma = m.dma ∧
    (modHlth m f).mtr = m.mtr ∧ (modHlth m f).parts = m.parts ∧ (modHlth m f).delayPlan = m.delayPlan ∧
    (modHlth m f).rung2 = m.rung2 ∧ (modHlth m f).portMap = m.portMap :=
    ⟨rfl, rfl, rfl, rfl, rfl, rfl, rfl, rfl, rfl, rfl, rfl, rfl, rfl, rfl, rfl, rfl, rfl, rfl, rfl, rfl, rfl, rfl, rfl, rfl, rfl, rfl, rfl⟩

/-- A change of `kpr` only. -/
@[simp] theorem modKpr_frame (m : Mod) (f : Kpr → Kpr) :
    (modKpr m f).regs = m.regs ∧ (modKpr m f).shadow = m.shadow ∧ (modKpr m f).timers = m.timers ∧
    (modKpr m f).sent = m.sent ∧ (modKpr m f).free = m.free ∧ (modKpr m f).factory = m.factory ∧ (modKpr m f).mode = m.mode ∧
    (modKpr m f).clk = m.clk ∧ (modKpr m f).host = m.host ∧ (modKpr m f).evr = m.evr ∧ (modKpr m f).key = m.key ∧
    (modKpr m f).hlth = m.hlth ∧ (modKpr m f).img = m.img ∧ (modKpr m f).net = m.net ∧ (modKpr m f).td = m.td ∧
    (modKpr m f).pe = m.pe ∧ (modKpr m f).sv = m.sv ∧ (modKpr m f).bsn = m.bsn ∧ (modKpr m f).wad = m.wad ∧
    (modKpr m f).out = m.out ∧ (modKpr m f).rec_ = m.rec_ ∧ (modKpr m f).dma = m.dma ∧ (modKpr m f).mtr = m.mtr ∧
    (modKpr m f).parts = m.parts ∧ (modKpr m f).delayPlan = m.delayPlan ∧ (modKpr m f).rung2 = m.rung2 ∧
    (modKpr m f).portMap = m.portMap :=
    ⟨rfl, rfl, rfl, rfl, rfl, rfl, rfl, rfl, rfl, rfl, rfl, rfl, rfl, rfl, rfl, rfl, rfl, rfl, rfl, rfl, rfl, rfl, rfl, rfl, rfl, rfl, rfl⟩

/-- A change of `img` only. -/
@[simp] theorem modImg_frame (m : Mod) (f : Imgs → Imgs) :
    (modImg m f).regs = m.regs ∧ (modImg m f).shadow = m.shadow ∧ (modImg m f).timers = m.timers ∧
    (modImg m f).sent = m.sent ∧ (modImg m f).free = m.free ∧ (modImg m f).factory = m.factory ∧ (modImg m f).mode = m.mode ∧
    (modImg m f).clk = m.clk ∧ (modImg m f).host = m.host ∧ (modImg m f).evr = m.evr ∧ (modImg m f).key = m.key ∧
    (modImg m f).kpr = m.kpr ∧ (modImg m f).hlth = m.hlth ∧ (modImg m f).net = m.net ∧ (modImg m f).td = m.td ∧
    (modImg m f).pe = m.pe ∧ (modImg m f).sv = m.sv ∧ (modImg m f).bsn = m.bsn ∧ (modImg m f).wad = m.wad ∧
    (modImg m f).out = m.out ∧ (modImg m f).rec_ = m.rec_ ∧ (modImg m f).dma = m.dma ∧ (modImg m f).mtr = m.mtr ∧
    (modImg m f).parts = m.parts ∧ (modImg m f).delayPlan = m.delayPlan ∧ (modImg m f).rung2 = m.rung2 ∧
    (modImg m f).portMap = m.portMap :=
    ⟨rfl, rfl, rfl, rfl, rfl, rfl, rfl, rfl, rfl, rfl, rfl, rfl, rfl, rfl, rfl, rfl, rfl, rfl, rfl, rfl, rfl, rfl, rfl, rfl, rfl, rfl, rfl⟩

/-- A change of `mtr` only. -/
@[simp] theorem modMtr_frame (m : Mod) (f : Mtr → Mtr) :
    (modMtr m f).regs = m.regs ∧ (modMtr m f).shadow = m.shadow ∧ (modMtr m f).timers = m.timers ∧
    (modMtr m f).sent = m.sent ∧ (modMtr m f).free = m.free ∧ (modMtr m f).factory = m.factory ∧ (modMtr m f).mode = m.mode ∧
    (modMtr m f).clk = m.clk ∧ (modMtr m f).host = m.host ∧ (modMtr m f).evr = m.evr ∧ (modMtr m f).key = m.key ∧
    (modMtr m f).kpr = m.kpr ∧ (modMtr m f).hlth = m.hlth ∧ (modMtr m f).img = m.img ∧ (modMtr m f).net = m.net ∧
    (modMtr m f).td = m.td ∧ (modMtr m f).pe = m.pe ∧ (modMtr m f).sv = m.sv ∧ (modMtr m f).bsn = m.bsn ∧
    (modMtr m f).wad = m.wad ∧ (modMtr m f).out = m.out ∧ (modMtr m f).rec_ = m.rec_ ∧ (modMtr m f).dma = m.dma ∧
    (modMtr m f).parts = m.parts ∧ (modMtr m f).delayPlan = m.delayPlan ∧ (modMtr m f).rung2 = m.rung2 ∧
    (modMtr m f).portMap = m.portMap :=
    ⟨rfl, rfl, rfl, rfl, rfl, rfl, rfl, rfl, rfl, rfl, rfl, rfl, rfl, rfl, rfl, rfl, rfl, rfl, rfl, rfl, rfl, rfl, rfl, rfl, rfl, rfl, rfl⟩

/-- A change of `rec_` only. -/
@[simp] theorem modRec_frame (m : Mod) (f : Rec → Rec) :
    (modRec m f).regs = m.regs ∧ (modRec m f).shadow = m.shadow ∧ (modRec m f).timers = m.timers ∧
    (modRec m f).sent = m.sent ∧ (modRec m f).free = m.free ∧ (modRec m f).factory = m.factory ∧ (modRec m f).mode = m.mode ∧
    (modRec m f).clk = m.clk ∧ (modRec m f).host = m.host ∧ (modRec m f).evr = m.evr ∧ (modRec m f).key = m.key ∧
    (modRec m f).kpr = m.kpr ∧ (modRec m f).hlth = m.hlth ∧ (modRec m f).img = m.img ∧ (modRec m f).net = m.net ∧
    (modRec m f).td = m.td ∧ (modRec m f).pe = m.pe ∧ (modRec m f).sv = m.sv ∧ (modRec m f).bsn = m.bsn ∧
    (modRec m f).wad = m.wad ∧ (modRec m f).out = m.out ∧ (modRec m f).dma = m.dma ∧ (modRec m f).mtr = m.mtr ∧
    (modRec m f).parts = m.parts ∧ (modRec m f).delayPlan = m.delayPlan ∧ (modRec m f).rung2 = m.rung2 ∧
    (modRec m f).portMap = m.portMap :=
    ⟨rfl, rfl, rfl, rfl, rfl, rfl, rfl, rfl, rfl, rfl, rfl, rfl, rfl, rfl, rfl, rfl, rfl, rfl, rfl, rfl, rfl, rfl, rfl, rfl, rfl, rfl, rfl⟩

/-- A change of `td` only. -/
@[simp] theorem modTd_frame (m : Mod) (f : Td → Td) :
    (modTd m f).regs = m.regs ∧ (modTd m f).shadow = m.shadow ∧ (modTd m f).timers = m.timers ∧ (modTd m f).sent = m.sent ∧
    (modTd m f).free = m.free ∧ (modTd m f).factory = m.factory ∧ (modTd m f).mode = m.mode ∧ (modTd m f).clk = m.clk ∧
    (modTd m f).host = m.host ∧ (modTd m f).evr = m.evr ∧ (modTd m f).key = m.key ∧ (modTd m f).kpr = m.kpr ∧
    (modTd m f).hlth = m.hlth ∧ (modTd m f).img = m.img ∧ (modTd m f).net = m.net ∧ (modTd m f).pe = m.pe ∧
    (modTd m f).sv = m.sv ∧ (modTd m f).bsn = m.bsn ∧ (modTd m f).wad = m.wad ∧ (modTd m f).out = m.out ∧
    (modTd m f).rec_ = m.rec_ ∧ (modTd m f).dma = m.dma ∧ (modTd m f).mtr = m.mtr ∧ (modTd m f).parts = m.parts ∧
    (modTd m f).delayPlan = m.delayPlan ∧ (modTd m f).rung2 = m.rung2 ∧ (modTd m f).portMap = m.portMap :=
    ⟨rfl, rfl, rfl, rfl, rfl, rfl, rfl, rfl, rfl, rfl, rfl, rfl, rfl, rfl, rfl, rfl, rfl, rfl, rfl, rfl, rfl, rfl, rfl, rfl, rfl, rfl, rfl⟩

/-- A change of `out` only. -/
@[simp] theorem modO_frame (m : Mod) (f : Out → Out) :
    (modO m f).regs = m.regs ∧ (modO m f).shadow = m.shadow ∧ (modO m f).timers = m.timers ∧ (modO m f).sent = m.sent ∧
    (modO m f).free = m.free ∧ (modO m f).factory = m.factory ∧ (modO m f).mode = m.mode ∧ (modO m f).clk = m.clk ∧
    (modO m f).host = m.host ∧ (modO m f).evr = m.evr ∧ (modO m f).key = m.key ∧ (modO m f).kpr = m.kpr ∧
    (modO m f).hlth = m.hlth ∧ (modO m f).img = m.img ∧ (modO m f).net = m.net ∧ (modO m f).td = m.td ∧
    (modO m f).pe = m.pe ∧ (modO m f).sv = m.sv ∧ (modO m f).bsn = m.bsn ∧ (modO m f).wad = m.wad ∧
    (modO m f).rec_ = m.rec_ ∧ (modO m f).dma = m.dma ∧ (modO m f).mtr = m.mtr ∧ (modO m f).parts = m.parts ∧
    (modO m f).delayPlan = m.delayPlan ∧ (modO m f).rung2 = m.rung2 ∧ (modO m f).portMap = m.portMap :=
    ⟨rfl, rfl, rfl, rfl, rfl, rfl, rfl, rfl, rfl, rfl, rfl, rfl, rfl, rfl, rfl, rfl, rfl, rfl, rfl, rfl, rfl, rfl, rfl, rfl, rfl, rfl, rfl⟩

/-- A change of `parts` only. -/
@[simp] theorem modPart_frame (m : Mod) (p : Nat) (f : Part → Part) :
    (modPart m p f).regs = m.regs ∧ (modPart m p f).shadow = m.shadow ∧ (modPart m p f).timers = m.timers ∧
    (modPart m p f).sent = m.sent ∧ (modPart m p f).free = m.free ∧ (modPart m p f).factory = m.factory ∧
    (modPart m p f).mode = m.mode ∧ (modPart m p f).clk = m.clk ∧ (modPart m p f).host = m.host ∧
    (modPart m p f).evr = m.evr ∧ (modPart m p f).key = m.key ∧ (modPart m p f).kpr = m.kpr ∧ (modPart m p f).hlth = m.hlth ∧
    (modPart m p f).img = m.img ∧ (modPart m p f).net = m.net ∧ (modPart m p f).td = m.td ∧ (modPart m p f).pe = m.pe ∧
    (modPart m p f).sv = m.sv ∧ (modPart m p f).bsn = m.bsn ∧ (modPart m p f).wad = m.wad ∧ (modPart m p f).out = m.out ∧
    (modPart m p f).rec_ = m.rec_ ∧ (modPart m p f).dma = m.dma ∧ (modPart m p f).mtr = m.mtr ∧
    (modPart m p f).delayPlan = m.delayPlan ∧ (modPart m p f).rung2 = m.rung2 ∧ (modPart m p f).portMap = m.portMap :=
    ⟨rfl, rfl, rfl, rfl, rfl, rfl, rfl, rfl, rfl, rfl, rfl, rfl, rfl, rfl, rfl, rfl, rfl, rfl, rfl, rfl, rfl, rfl, rfl, rfl, rfl, rfl, rfl⟩

/-- A change of `net` only. -/
@[simp] theorem modPort_frame (m : Mod) (p : Nat) (f : NetPort → NetPort) :
    (modPort m p f).regs = m.regs ∧ (modPort m p f).shadow = m.shadow ∧ (modPort m p f).timers = m.timers ∧
    (modPort m p f).sent = m.sent ∧ (modPort m p f).free = m.free ∧ (modPort m p f).factory = m.factory ∧
    (modPort m p f).mode = m.mode ∧ (modPort m p f).clk = m.clk ∧ (modPort m p f).host = m.host ∧
    (modPort m p f).evr = m.evr ∧ (modPort m p f).key = m.key ∧ (modPort m p f).kpr = m.kpr ∧ (modPort m p f).hlth = m.hlth ∧
    (modPort m p f).img = m.img ∧ (modPort m p f).td = m.td ∧ (modPort m p f).pe = m.pe ∧ (modPort m p f).sv = m.sv ∧
    (modPort m p f).bsn = m.bsn ∧ (modPort m p f).wad = m.wad ∧ (modPort m p f).out = m.out ∧ (modPort m p f).rec_ = m.rec_ ∧
    (modPort m p f).dma = m.dma ∧ (modPort m p f).mtr = m.mtr ∧ (modPort m p f).parts = m.parts ∧
    (modPort m p f).delayPlan = m.delayPlan ∧ (modPort m p f).rung2 = m.rung2 ∧ (modPort m p f).portMap = m.portMap :=
    ⟨rfl, rfl, rfl, rfl, rfl, rfl, rfl, rfl, rfl, rfl, rfl, rfl, rfl, rfl, rfl, rfl, rfl, rfl, rfl, rfl, rfl, rfl, rfl, rfl, rfl, rfl, rfl⟩

/-- A change of `net` only. -/
@[simp] theorem modPair_frame (m : Mod) (p : Nat) (f : NetPair → NetPair) :
    (modPair m p f).regs = m.regs ∧ (modPair m p f).shadow = m.shadow ∧ (modPair m p f).timers = m.timers ∧
    (modPair m p f).sent = m.sent ∧ (modPair m p f).free = m.free ∧ (modPair m p f).factory = m.factory ∧
    (modPair m p f).mode = m.mode ∧ (modPair m p f).clk = m.clk ∧ (modPair m p f).host = m.host ∧
    (modPair m p f).evr = m.evr ∧ (modPair m p f).key = m.key ∧ (modPair m p f).kpr = m.kpr ∧ (modPair m p f).hlth = m.hlth ∧
    (modPair m p f).img = m.img ∧ (modPair m p f).td = m.td ∧ (modPair m p f).pe = m.pe ∧ (modPair m p f).sv = m.sv ∧
    (modPair m p f).bsn = m.bsn ∧ (modPair m p f).wad = m.wad ∧ (modPair m p f).out = m.out ∧ (modPair m p f).rec_ = m.rec_ ∧
    (modPair m p f).dma = m.dma ∧ (modPair m p f).mtr = m.mtr ∧ (modPair m p f).parts = m.parts ∧
    (modPair m p f).delayPlan = m.delayPlan ∧ (modPair m p f).rung2 = m.rung2 ∧ (modPair m p f).portMap = m.portMap :=
    ⟨rfl, rfl, rfl, rfl, rfl, rfl, rfl, rfl, rfl, rfl, rfl, rfl, rfl, rfl, rfl, rfl, rfl, rfl, rfl, rfl, rfl, rfl, rfl, rfl, rfl, rfl, rfl⟩

/-- A change of `sv` only. -/
@[simp] theorem modStream_frame (m : Mod) (n : Nat) (f : SvStream → SvStream) :
    (modStream m n f).regs = m.regs ∧ (modStream m n f).shadow = m.shadow ∧ (modStream m n f).timers = m.timers ∧
    (modStream m n f).sent = m.sent ∧ (modStream m n f).free = m.free ∧ (modStream m n f).factory = m.factory ∧
    (modStream m n f).mode = m.mode ∧ (modStream m n f).clk = m.clk ∧ (modStream m n f).host = m.host ∧
    (modStream m n f).evr = m.evr ∧ (modStream m n f).key = m.key ∧ (modStream m n f).kpr = m.kpr ∧
    (modStream m n f).hlth = m.hlth ∧ (modStream m n f).img = m.img ∧ (modStream m n f).net = m.net ∧
    (modStream m n f).td = m.td ∧ (modStream m n f).pe = m.pe ∧ (modStream m n f).bsn = m.bsn ∧
    (modStream m n f).wad = m.wad ∧ (modStream m n f).out = m.out ∧ (modStream m n f).rec_ = m.rec_ ∧
    (modStream m n f).dma = m.dma ∧ (modStream m n f).mtr = m.mtr ∧ (modStream m n f).parts = m.parts ∧
    (modStream m n f).delayPlan = m.delayPlan ∧ (modStream m n f).rung2 = m.rung2 ∧ (modStream m n f).portMap = m.portMap :=
    ⟨rfl, rfl, rfl, rfl, rfl, rfl, rfl, rfl, rfl, rfl, rfl, rfl, rfl, rfl, rfl, rfl, rfl, rfl, rfl, rfl, rfl, rfl, rfl, rfl, rfl, rfl, rfl⟩

/-- A change of `sv` only. -/
@[simp] theorem modGroup_frame (m : Mod) (n : Nat) (f : GroupSt → GroupSt) :
    (modGroup m n f).regs = m.regs ∧ (modGroup m n f).shadow = m.shadow ∧ (modGroup m n f).timers = m.timers ∧
    (modGroup m n f).sent = m.sent ∧ (modGroup m n f).free = m.free ∧ (modGroup m n f).factory = m.factory ∧
    (modGroup m n f).mode = m.mode ∧ (modGroup m n f).clk = m.clk ∧ (modGroup m n f).host = m.host ∧
    (modGroup m n f).evr = m.evr ∧ (modGroup m n f).key = m.key ∧ (modGroup m n f).kpr = m.kpr ∧
    (modGroup m n f).hlth = m.hlth ∧ (modGroup m n f).img = m.img ∧ (modGroup m n f).net = m.net ∧
    (modGroup m n f).td = m.td ∧ (modGroup m n f).pe = m.pe ∧ (modGroup m n f).bsn = m.bsn ∧ (modGroup m n f).wad = m.wad ∧
    (modGroup m n f).out = m.out ∧ (modGroup m n f).rec_ = m.rec_ ∧ (modGroup m n f).dma = m.dma ∧
    (modGroup m n f).mtr = m.mtr ∧ (modGroup m n f).parts = m.parts ∧ (modGroup m n f).delayPlan = m.delayPlan ∧
    (modGroup m n f).rung2 = m.rung2 ∧ (modGroup m n f).portMap = m.portMap :=
    ⟨rfl, rfl, rfl, rfl, rfl, rfl, rfl, rfl, rfl, rfl, rfl, rfl, rfl, rfl, rfl, rfl, rfl, rfl, rfl, rfl, rfl, rfl, rfl, rfl, rfl, rfl, rfl⟩

/-- A change of `bsn` only. -/
@[simp] theorem modIn_frame (m : Mod) (n : Nat) (f : BsnIn → BsnIn) :
    (modIn m n f).regs = m.regs ∧ (modIn m n f).shadow = m.shadow ∧ (modIn m n f).timers = m.timers ∧
    (modIn m n f).sent = m.sent ∧ (modIn m n f).free = m.free ∧ (modIn m n f).factory = m.factory ∧
    (modIn m n f).mode = m.mode ∧ (modIn m n f).clk = m.clk ∧ (modIn m n f).host = m.host ∧ (modIn m n f).evr = m.evr ∧
    (modIn m n f).key = m.key ∧ (modIn m n f).kpr = m.kpr ∧ (modIn m n f).hlth = m.hlth ∧ (modIn m n f).img = m.img ∧
    (modIn m n f).net = m.net ∧ (modIn m n f).td = m.td ∧ (modIn m n f).pe = m.pe ∧ (modIn m n f).sv = m.sv ∧
    (modIn m n f).wad = m.wad ∧ (modIn m n f).out = m.out ∧ (modIn m n f).rec_ = m.rec_ ∧ (modIn m n f).dma = m.dma ∧
    (modIn m n f).mtr = m.mtr ∧ (modIn m n f).parts = m.parts ∧ (modIn m n f).delayPlan = m.delayPlan ∧
    (modIn m n f).rung2 = m.rung2 ∧ (modIn m n f).portMap = m.portMap :=
    ⟨rfl, rfl, rfl, rfl, rfl, rfl, rfl, rfl, rfl, rfl, rfl, rfl, rfl, rfl, rfl, rfl, rfl, rfl, rfl, rfl, rfl, rfl, rfl, rfl, rfl, rfl, rfl⟩

/-- A change of `bsn` only. -/
@[simp] theorem modOut_frame (m : Mod) (n : Nat) (f : BsnOut → BsnOut) :
    (modOut m n f).regs = m.regs ∧ (modOut m n f).shadow = m.shadow ∧ (modOut m n f).timers = m.timers ∧
    (modOut m n f).sent = m.sent ∧ (modOut m n f).free = m.free ∧ (modOut m n f).factory = m.factory ∧
    (modOut m n f).mode = m.mode ∧ (modOut m n f).clk = m.clk ∧ (modOut m n f).host = m.host ∧ (modOut m n f).evr = m.evr ∧
    (modOut m n f).key = m.key ∧ (modOut m n f).kpr = m.kpr ∧ (modOut m n f).hlth = m.hlth ∧ (modOut m n f).img = m.img ∧
    (modOut m n f).net = m.net ∧ (modOut m n f).td = m.td ∧ (modOut m n f).pe = m.pe ∧ (modOut m n f).sv = m.sv ∧
    (modOut m n f).wad = m.wad ∧ (modOut m n f).out = m.out ∧ (modOut m n f).rec_ = m.rec_ ∧ (modOut m n f).dma = m.dma ∧
    (modOut m n f).mtr = m.mtr ∧ (modOut m n f).parts = m.parts ∧ (modOut m n f).delayPlan = m.delayPlan ∧
    (modOut m n f).rung2 = m.rung2 ∧ (modOut m n f).portMap = m.portMap :=
    ⟨rfl, rfl, rfl, rfl, rfl, rfl, rfl, rfl, rfl, rfl, rfl, rfl, rfl, rfl, rfl, rfl, rfl, rfl, rfl, rfl, rfl, rfl, rfl, rfl, rfl, rfl, rfl⟩

/-- A change of `out` only. -/
@[simp] theorem modPub_frame (m : Mod) (n : Nat) (f : PubSt → PubSt) :
    (modPub m n f).regs = m.regs ∧ (modPub m n f).shadow = m.shadow ∧ (modPub m n f).timers = m.timers ∧
    (modPub m n f).sent = m.sent ∧ (modPub m n f).free = m.free ∧ (modPub m n f).factory = m.factory ∧
    (modPub m n f).mode = m.mode ∧ (modPub m n f).clk = m.clk ∧ (modPub m n f).host = m.host ∧ (modPub m n f).evr = m.evr ∧
    (modPub m n f).key = m.key ∧ (modPub m n f).kpr = m.kpr ∧ (modPub m n f).hlth = m.hlth ∧ (modPub m n f).img = m.img ∧
    (modPub m n f).net = m.net ∧ (modPub m n f).td = m.td ∧ (modPub m n f).pe = m.pe ∧ (modPub m n f).sv = m.sv ∧
    (modPub m n f).bsn = m.bsn ∧ (modPub m n f).wad = m.wad ∧ (modPub m n f).rec_ = m.rec_ ∧ (modPub m n f).dma = m.dma ∧
    (modPub m n f).mtr = m.mtr ∧ (modPub m n f).parts = m.parts ∧ (modPub m n f).delayPlan = m.delayPlan ∧
    (modPub m n f).rung2 = m.rung2 ∧ (modPub m n f).portMap = m.portMap :=
    ⟨rfl, rfl, rfl, rfl, rfl, rfl, rfl, rfl, rfl, rfl, rfl, rfl, rfl, rfl, rfl, rfl, rfl, rfl, rfl, rfl, rfl, rfl, rfl, rfl, rfl, rfl, rfl⟩

/-- A change of `out` only. -/
@[simp] theorem modGSub_frame (m : Mod) (n : Nat) (f : GSubSt → GSubSt) :
    (modGSub m n f).regs = m.regs ∧ (modGSub m n f).shadow = m.shadow ∧ (modGSub m n f).timers = m.timers ∧
    (modGSub m n f).sent = m.sent ∧ (modGSub m n f).free = m.free ∧ (modGSub m n f).factory = m.factory ∧
    (modGSub m n f).mode = m.mode ∧ (modGSub m n f).clk = m.clk ∧ (modGSub m n f).host = m.host ∧
    (modGSub m n f).evr = m.evr ∧ (modGSub m n f).key = m.key ∧ (modGSub m n f).kpr = m.kpr ∧ (modGSub m n f).hlth = m.hlth ∧
    (modGSub m n f).img = m.img ∧ (modGSub m n f).net = m.net ∧ (modGSub m n f).td = m.td ∧ (modGSub m n f).pe = m.pe ∧
    (modGSub m n f).sv = m.sv ∧ (modGSub m n f).bsn = m.bsn ∧ (modGSub m n f).wad = m.wad ∧ (modGSub m n f).rec_ = m.rec_ ∧
    (modGSub m n f).dma = m.dma ∧ (modGSub m n f).mtr = m.mtr ∧ (modGSub m n f).parts = m.parts ∧
    (modGSub m n f).delayPlan = m.delayPlan ∧ (modGSub m n f).rung2 = m.rung2 ∧ (modGSub m n f).portMap = m.portMap :=
    ⟨rfl, rfl, rfl, rfl, rfl, rfl, rfl, rfl, rfl, rfl, rfl, rfl, rfl, rfl, rfl, rfl, rfl, rfl, rfl, rfl, rfl, rfl, rfl, rfl, rfl, rfl, rfl⟩

/-- A change of `clk` only. -/
@[simp] theorem modPtpPort_frame (m : Mod) (n : Nat) (f : PtpPort → PtpPort) :
    (modPtpPort m n f).regs = m.regs ∧ (modPtpPort m n f).shadow = m.shadow ∧ (modPtpPort m n f).timers = m.timers ∧
    (modPtpPort m n f).sent = m.sent ∧ (modPtpPort m n f).free = m.free ∧ (modPtpPort m n f).factory = m.factory ∧
    (modPtpPort m n f).mode = m.mode ∧ (modPtpPort m n f).host = m.host ∧ (modPtpPort m n f).evr = m.evr ∧
    (modPtpPort m n f).key = m.key ∧ (modPtpPort m n f).kpr = m.kpr ∧ (modPtpPort m n f).hlth = m.hlth ∧
    (modPtpPort m n f).img = m.img ∧ (modPtpPort m n f).net = m.net ∧ (modPtpPort m n f).td = m.td ∧
    (modPtpPort m n f).pe = m.pe ∧ (modPtpPort m n f).sv = m.sv ∧ (modPtpPort m n f).bsn = m.bsn ∧
    (modPtpPort m n f).wad = m.wad ∧ (modPtpPort m n f).out = m.out ∧ (modPtpPort m n f).rec_ = m.rec_ ∧
    (modPtpPort m n f).dma = m.dma ∧ (modPtpPort m n f).mtr = m.mtr ∧ (modPtpPort m n f).parts = m.parts ∧
    (modPtpPort m n f).delayPlan = m.delayPlan ∧ (modPtpPort m n f).rung2 = m.rung2 ∧
    (modPtpPort m n f).portMap = m.portMap :=
    ⟨rfl, rfl, rfl, rfl, rfl, rfl, rfl, rfl, rfl, rfl, rfl, rfl, rfl, rfl, rfl, rfl, rfl, rfl, rfl, rfl, rfl, rfl, rfl, rfl, rfl, rfl, rfl⟩

/-- A change of `wad` only. -/
@[simp] theorem modAlarm_frame (m : Mod) (n : Nat) (f : AlarmSt → AlarmSt) :
    (modAlarm m n f).regs = m.regs ∧ (modAlarm m n f).shadow = m.shadow ∧ (modAlarm m n f).timers = m.timers ∧
    (modAlarm m n f).sent = m.sent ∧ (modAlarm m n f).free = m.free ∧ (modAlarm m n f).factory = m.factory ∧
    (modAlarm m n f).mode = m.mode ∧ (modAlarm m n f).clk = m.clk ∧ (modAlarm m n f).host = m.host ∧
    (modAlarm m n f).evr = m.evr ∧ (modAlarm m n f).key = m.key ∧ (modAlarm m n f).kpr = m.kpr ∧
    (modAlarm m n f).hlth = m.hlth ∧ (modAlarm m n f).img = m.img ∧ (modAlarm m n f).net = m.net ∧
    (modAlarm m n f).td = m.td ∧ (modAlarm m n f).pe = m.pe ∧ (modAlarm m n f).sv = m.sv ∧ (modAlarm m n f).bsn = m.bsn ∧
    (modAlarm m n f).out = m.out ∧ (modAlarm m n f).rec_ = m.rec_ ∧ (modAlarm m n f).dma = m.dma ∧
    (modAlarm m n f).mtr = m.mtr ∧ (modAlarm m n f).parts = m.parts ∧ (modAlarm m n f).delayPlan = m.delayPlan ∧
    (modAlarm m n f).rung2 = m.rung2 ∧ (modAlarm m n f).portMap = m.portMap :=
    ⟨rfl, rfl, rfl, rfl, rfl, rfl, rfl, rfl, rfl, rfl, rfl, rfl, rfl, rfl, rfl, rfl, rfl, rfl, rfl, rfl, rfl, rfl, rfl, rfl, rfl, rfl, rfl⟩

/-- A change of `dma` only. -/
@[simp] theorem modChan_frame (m : Mod) (n : Nat) (f : DmaChan → DmaChan) :
    (modChan m n f).regs = m.regs ∧ (modChan m n f).shadow = m.shadow ∧ (modChan m n f).timers = m.timers ∧
    (modChan m n f).sent = m.sent ∧ (modChan m n f).free = m.free ∧ (modChan m n f).factory = m.factory ∧
    (modChan m n f).mode = m.mode ∧ (modChan m n f).clk = m.clk ∧ (modChan m n f).host = m.host ∧
    (modChan m n f).evr = m.evr ∧ (modChan m n f).key = m.key ∧ (modChan m n f).kpr = m.kpr ∧ (modChan m n f).hlth = m.hlth ∧
    (modChan m n f).img = m.img ∧ (modChan m n f).net = m.net ∧ (modChan m n f).td = m.td ∧ (modChan m n f).pe = m.pe ∧
    (modChan m n f).sv = m.sv ∧ (modChan m n f).bsn = m.bsn ∧ (modChan m n f).wad = m.wad ∧ (modChan m n f).out = m.out ∧
    (modChan m n f).rec_ = m.rec_ ∧ (modChan m n f).mtr = m.mtr ∧ (modChan m n f).parts = m.parts ∧
    (modChan m n f).delayPlan = m.delayPlan ∧ (modChan m n f).rung2 = m.rung2 ∧ (modChan m n f).portMap = m.portMap :=
    ⟨rfl, rfl, rfl, rfl, rfl, rfl, rfl, rfl, rfl, rfl, rfl, rfl, rfl, rfl, rfl, rfl, rfl, rfl, rfl, rfl, rfl, rfl, rfl, rfl, rfl, rfl, rfl⟩

/-- A change of `dma` only. -/
@[simp] theorem modLane_frame (m : Mod) (n : Nat) (f : CmpLane → CmpLane) :
    (modLane m n f).regs = m.regs ∧ (modLane m n f).shadow = m.shadow ∧ (modLane m n f).timers = m.timers ∧
    (modLane m n f).sent = m.sent ∧ (modLane m n f).free = m.free ∧ (modLane m n f).factory = m.factory ∧
    (modLane m n f).mode = m.mode ∧ (modLane m n f).clk = m.clk ∧ (modLane m n f).host = m.host ∧
    (modLane m n f).evr = m.evr ∧ (modLane m n f).key = m.key ∧ (modLane m n f).kpr = m.kpr ∧ (modLane m n f).hlth = m.hlth ∧
    (modLane m n f).img = m.img ∧ (modLane m n f).net = m.net ∧ (modLane m n f).td = m.td ∧ (modLane m n f).pe = m.pe ∧
    (modLane m n f).sv = m.sv ∧ (modLane m n f).bsn = m.bsn ∧ (modLane m n f).wad = m.wad ∧ (modLane m n f).out = m.out ∧
    (modLane m n f).rec_ = m.rec_ ∧ (modLane m n f).mtr = m.mtr ∧ (modLane m n f).parts = m.parts ∧
    (modLane m n f).delayPlan = m.delayPlan ∧ (modLane m n f).rung2 = m.rung2 ∧ (modLane m n f).portMap = m.portMap :=
    ⟨rfl, rfl, rfl, rfl, rfl, rfl, rfl, rfl, rfl, rfl, rfl, rfl, rfl, rfl, rfl, rfl, rfl, rfl, rfl, rfl, rfl, rfl, rfl, rfl, rfl, rfl, rfl⟩

/-- A change of `rec_` only. -/
@[simp] theorem modDef_frame (m : Mod) (n : Nat) (f : DefSt → DefSt) :
    (modDef m n f).regs = m.regs ∧ (modDef m n f).shadow = m.shadow ∧ (modDef m n f).timers = m.timers ∧
    (modDef m n f).sent = m.sent ∧ (modDef m n f).free = m.free ∧ (modDef m n f).factory = m.factory ∧
    (modDef m n f).mode = m.mode ∧ (modDef m n f).clk = m.clk ∧ (modDef m n f).host = m.host ∧ (modDef m n f).evr = m.evr ∧
    (modDef m n f).key = m.key ∧ (modDef m n f).kpr = m.kpr ∧ (modDef m n f).hlth = m.hlth ∧ (modDef m n f).img = m.img ∧
    (modDef m n f).net = m.net ∧ (modDef m n f).td = m.td ∧ (modDef m n f).pe = m.pe ∧ (modDef m n f).sv = m.sv ∧
    (modDef m n f).bsn = m.bsn ∧ (modDef m n f).wad = m.wad ∧ (modDef m n f).out = m.out ∧ (modDef m n f).dma = m.dma ∧
    (modDef m n f).mtr = m.mtr ∧ (modDef m n f).parts = m.parts ∧ (modDef m n f).delayPlan = m.delayPlan ∧
    (modDef m n f).rung2 = m.rung2 ∧ (modDef m n f).portMap = m.portMap :=
    ⟨rfl, rfl, rfl, rfl, rfl, rfl, rfl, rfl, rfl, rfl, rfl, rfl, rfl, rfl, rfl, rfl, rfl, rfl, rfl, rfl, rfl, rfl, rfl, rfl, rfl, rfl, rfl⟩

/-- A change of `mtr` only. -/
@[simp] theorem modPt_frame (m : Mod) (n : Nat) (f : MtrPt → MtrPt) :
    (modPt m n f).regs = m.regs ∧ (modPt m n f).shadow = m.shadow ∧ (modPt m n f).timers = m.timers ∧
    (modPt m n f).sent = m.sent ∧ (modPt m n f).free = m.free ∧ (modPt m n f).factory = m.factory ∧
    (modPt m n f).mode = m.mode ∧ (modPt m n f).clk = m.clk ∧ (modPt m n f).host = m.host ∧ (modPt m n f).evr = m.evr ∧
    (modPt m n f).key = m.key ∧ (modPt m n f).kpr = m.kpr ∧ (modPt m n f).hlth = m.hlth ∧ (modPt m n f).img = m.img ∧
    (modPt m n f).net = m.net ∧ (modPt m n f).td = m.td ∧ (modPt m n f).pe = m.pe ∧ (modPt m n f).sv = m.sv ∧
    (modPt m n f).bsn = m.bsn ∧ (modPt m n f).wad = m.wad ∧ (modPt m n f).out = m.out ∧ (modPt m n f).rec_ = m.rec_ ∧
    (modPt m n f).dma = m.dma ∧ (modPt m n f).parts = m.parts ∧ (modPt m n f).delayPlan = m.delayPlan ∧
    (modPt m n f).rung2 = m.rung2 ∧ (modPt m n f).portMap = m.portMap :=
    ⟨rfl, rfl, rfl, rfl, rfl, rfl, rfl, rfl, rfl, rfl, rfl, rfl, rfl, rfl, rfl, rfl, rfl, rfl, rfl, rfl, rfl, rfl, rfl, rfl, rfl, rfl, rfl⟩

/-- A change of `mtr` only. -/
@[simp] theorem modPq_frame (m : Mod) (n : Nat) (f : PqSt → PqSt) :
    (modPq m n f).regs = m.regs ∧ (modPq m n f).shadow = m.shadow ∧ (modPq m n f).timers = m.timers ∧
    (modPq m n f).sent = m.sent ∧ (modPq m n f).free = m.free ∧ (modPq m n f).factory = m.factory ∧
    (modPq m n f).mode = m.mode ∧ (modPq m n f).clk = m.clk ∧ (modPq m n f).host = m.host ∧ (modPq m n f).evr = m.evr ∧
    (modPq m n f).key = m.key ∧ (modPq m n f).kpr = m.kpr ∧ (modPq m n f).hlth = m.hlth ∧ (modPq m n f).img = m.img ∧
    (modPq m n f).net = m.net ∧ (modPq m n f).td = m.td ∧ (modPq m n f).pe = m.pe ∧ (modPq m n f).sv = m.sv ∧
    (modPq m n f).bsn = m.bsn ∧ (modPq m n f).wad = m.wad ∧ (modPq m n f).out = m.out ∧ (modPq m n f).rec_ = m.rec_ ∧
    (modPq m n f).dma = m.dma ∧ (modPq m n f).parts = m.parts ∧ (modPq m n f).delayPlan = m.delayPlan ∧
    (modPq m n f).rung2 = m.rung2 ∧ (modPq m n f).portMap = m.portMap :=
    ⟨rfl, rfl, rfl, rfl, rfl, rfl, rfl, rfl, rfl, rfl, rfl, rfl, rfl, rfl, rfl, rfl, rfl, rfl, rfl, rfl, rfl, rfl, rfl, rfl, rfl, rfl, rfl⟩

/-- A change of `td` only. -/
@[simp] theorem modTask_frame (m : Mod) (n g : Nat) (f : Task → Task) :
    (modTask m n g f).regs = m.regs ∧ (modTask m n g f).shadow = m.shadow ∧ (modTask m n g f).timers = m.timers ∧
    (modTask m n g f).sent = m.sent ∧ (modTask m n g f).free = m.free ∧ (modTask m n g f).factory = m.factory ∧
    (modTask m n g f).mode = m.mode ∧ (modTask m n g f).clk = m.clk ∧ (modTask m n g f).host = m.host ∧
    (modTask m n g f).evr = m.evr ∧ (modTask m n g f).key = m.key ∧ (modTask m n g f).kpr = m.kpr ∧
    (modTask m n g f).hlth = m.hlth ∧ (modTask m n g f).img = m.img ∧ (modTask m n g f).net = m.net ∧
    (modTask m n g f).pe = m.pe ∧ (modTask m n g f).sv = m.sv ∧ (modTask m n g f).bsn = m.bsn ∧
    (modTask m n g f).wad = m.wad ∧ (modTask m n g f).out = m.out ∧ (modTask m n g f).rec_ = m.rec_ ∧
    (modTask m n g f).dma = m.dma ∧ (modTask m n g f).mtr = m.mtr ∧ (modTask m n g f).parts = m.parts ∧
    (modTask m n g f).delayPlan = m.delayPlan ∧ (modTask m n g f).rung2 = m.rung2 ∧ (modTask m n g f).portMap = m.portMap :=
    ⟨rfl, rfl, rfl, rfl, rfl, rfl, rfl, rfl, rfl, rfl, rfl, rfl, rfl, rfl, rfl, rfl, rfl, rfl, rfl, rfl, rfl, rfl, rfl, rfl, rfl, rfl, rfl⟩

/-- A change of `rec_` only. -/
@[simp] theorem modFile_frame (m : Mod) (n : Nat) (f : RecFile → RecFile) :
    (modFile m n f).regs = m.regs ∧ (modFile m n f).shadow = m.shadow ∧ (modFile m n f).timers = m.timers ∧
    (modFile m n f).sent = m.sent ∧ (modFile m n f).free = m.free ∧ (modFile m n f).factory = m.factory ∧
    (modFile m n f).mode = m.mode ∧ (modFile m n f).clk = m.clk ∧ (modFile m n f).host = m.host ∧
    (modFile m n f).evr = m.evr ∧ (modFile m n f).key = m.key ∧ (modFile m n f).kpr = m.kpr ∧ (modFile m n f).hlth = m.hlth ∧
    (modFile m n f).img = m.img ∧ (modFile m n f).net = m.net ∧ (modFile m n f).td = m.td ∧ (modFile m n f).pe = m.pe ∧
    (modFile m n f).sv = m.sv ∧ (modFile m n f).bsn = m.bsn ∧ (modFile m n f).wad = m.wad ∧ (modFile m n f).out = m.out ∧
    (modFile m n f).dma = m.dma ∧ (modFile m n f).mtr = m.mtr ∧ (modFile m n f).parts = m.parts ∧
    (modFile m n f).delayPlan = m.delayPlan ∧ (modFile m n f).rung2 = m.rung2 ∧ (modFile m n f).portMap = m.portMap :=
    ⟨rfl, rfl, rfl, rfl, rfl, rfl, rfl, rfl, rfl, rfl, rfl, rfl, rfl, rfl, rfl, rfl, rfl, rfl, rfl, rfl, rfl, rfl, rfl, rfl, rfl, rfl, rfl⟩

/-- A change of `out` only. -/
@[simp] theorem modCopy_frame (m : Mod) (n : Nat) (f : CopyIn → CopyIn) :
    (modCopy m n f).regs = m.regs ∧ (modCopy m n f).shadow = m.shadow ∧ (modCopy m n f).timers = m.timers ∧
    (modCopy m n f).sent = m.sent ∧ (modCopy m n f).free = m.free ∧ (modCopy m n f).factory = m.factory ∧
    (modCopy m n f).mode = m.mode ∧ (modCopy m n f).clk = m.clk ∧ (modCopy m n f).host = m.host ∧
    (modCopy m n f).evr = m.evr ∧ (modCopy m n f).key = m.key ∧ (modCopy m n f).kpr = m.kpr ∧ (modCopy m n f).hlth = m.hlth ∧
    (modCopy m n f).img = m.img ∧ (modCopy m n f).net = m.net ∧ (modCopy m n f).td = m.td ∧ (modCopy m n f).pe = m.pe ∧
    (modCopy m n f).sv = m.sv ∧ (modCopy m n f).bsn = m.bsn ∧ (modCopy m n f).wad = m.wad ∧ (modCopy m n f).rec_ = m.rec_ ∧
    (modCopy m n f).dma = m.dma ∧ (modCopy m n f).mtr = m.mtr ∧ (modCopy m n f).parts = m.parts ∧
    (modCopy m n f).delayPlan = m.delayPlan ∧ (modCopy m n f).rung2 = m.rung2 ∧ (modCopy m n f).portMap = m.portMap :=
    ⟨rfl, rfl, rfl, rfl, rfl, rfl, rfl, rfl, rfl, rfl, rfl, rfl, rfl, rfl, rfl, rfl, rfl, rfl, rfl, rfl, rfl, rfl, rfl, rfl, rfl, rfl, rfl⟩

/-- A change of `out` only. -/
@[simp] theorem modUnit_frame (m : Mod) (n : Nat) (f : RefUnit → RefUnit) :
    (modUnit m n f).regs = m.regs ∧ (modUnit m n f).shadow = m.shadow ∧ (modUnit m n f).timers = m.timers ∧
    (modUnit m n f).sent = m.sent ∧ (modUnit m n f).free = m.free ∧ (modUnit m n f).factory = m.factory ∧
    (modUnit m n f).mode = m.mode ∧ (modUnit m n f).clk = m.clk ∧ (modUnit m n f).host = m.host ∧
    (modUnit m n f).evr = m.evr ∧ (modUnit m n f).key = m.key ∧ (modUnit m n f).kpr = m.kpr ∧ (modUnit m n f).hlth = m.hlth ∧
    (modUnit m n f).img = m.img ∧ (modUnit m n f).net = m.net ∧ (modUnit m n f).td = m.td ∧ (modUnit m n f).pe = m.pe ∧
    (modUnit m n f).sv = m.sv ∧ (modUnit m n f).bsn = m.bsn ∧ (modUnit m n f).wad = m.wad ∧ (modUnit m n f).rec_ = m.rec_ ∧
    (modUnit m n f).dma = m.dma ∧ (modUnit m n f).mtr = m.mtr ∧ (modUnit m n f).parts = m.parts ∧
    (modUnit m n f).delayPlan = m.delayPlan ∧ (modUnit m n f).rung2 = m.rung2 ∧ (modUnit m n f).portMap = m.portMap :=
    ⟨rfl, rfl, rfl, rfl, rfl, rfl, rfl, rfl, rfl, rfl, rfl, rfl, rfl, rfl, rfl, rfl, rfl, rfl, rfl, rfl, rfl, rfl, rfl, rfl, rfl, rfl, rfl⟩

/-! ## The host block after an interrupt or an event: only the conditions noted change -/

theorem msixSend_host (m : Mod) (v : Nat) : (msixSend m v).host = m.host := by
  unfold msixSend; split <;> rfl

theorem recheck_host (m : Mod) (v : Nat) : (recheck m v).host = { m.host with cond := (recheck m v).host.cond } := by
  unfold recheck; dsimp only; split <;> simp

theorem orBits_host (m : Mod) (off mask : Nat) : (orBits m off mask).host = { m.host with cond := (orBits m off mask).host.cond } := by
  unfold orBits; dsimp only; split
  · rw [recheck_host]; rfl
  · rfl

theorem setFaultQuiet_host (m : Mod) (off bit : Nat) : (setFaultQuiet m off bit).host = { m.host with cond := (setFaultQuiet m off bit).host.cond } := by
  exact orBits_host _ _ _

theorem loseEvent_host (m : Mod) (e : Event) : (loseEvent m e).host = { m.host with cond := (loseEvent m e).host.cond } := by
  unfold loseEvent; dsimp only; rw [setFaultQuiet_host]; rfl

theorem pushEvent_host (m : Mod) (e : Event) : (pushEvent m e).host = { m.host with cond := (pushEvent m e).host.cond } := by
  unfold pushEvent; dsimp only; split
  · rfl
  · split
    · rw [loseEvent_host, loseEvent_host]
    · rw [loseEvent_host]

theorem raiseEvent_host (m : Mod) (src cls detail : Nat) (arg : Bytes) : (raiseEvent m src cls detail arg).host = { m.host with cond := (raiseEvent m src cls detail arg).host.cond } := by
  exact pushEvent_host _ _

theorem setFault_host (m : Mod) (off bit obj : Nat) (vals : List Nat) : (setFault m off bit obj vals).host = { m.host with cond := (setFault m off bit obj vals).host.cond } := by
  unfold setFault; rw [raiseEvent_host, setFaultQuiet_host]

theorem stateEvent_host (m : Mod) (src code old new obj : Nat) : (stateEvent m src code old new obj).host = { m.host with cond := (stateEvent m src code old new obj).host.cond } := by
  exact raiseEvent_host _ _ _ _ _

theorem class6_host (m : Mod) (detail : Nat) (arg : Bytes) : (class6 m detail arg).host = { m.host with cond := (class6 m detail arg).host.cond } := by
  exact raiseEvent_host _ _ _ _ _

theorem auditEvent_host (m : Mod) (src code result obj : Nat) (args : Bytes) : (auditEvent m src code result obj args).host = { m.host with cond := (auditEvent m src code result obj args).host.cond } := by
  exact raiseEvent_host _ _ _ _ _

theorem addCntO_host (m : Mod) (off obj k : Nat) : (addCntO m off obj k).host = { m.host with cond := (addCntO m off obj k).host.cond } := by
  unfold addCntO; dsimp only; split
  · rw [raiseEvent_host]; rfl
  · rfl

theorem bumpO_host (m : Mod) (off obj : Nat) : (bumpO m off obj).host = { m.host with cond := (bumpO m off obj).host.cond } := by
  exact addCntO_host _ _ _ _

theorem addCnt_host (m : Mod) (off k : Nat) : (addCnt m off k).host = { m.host with cond := (addCnt m off k).host.cond } := by
  unfold addCnt; dsimp only; split
  · rw [raiseEvent_host]; rfl
  · rfl

theorem bump_host (m : Mod) (off : Nat) : (bump m off).host = { m.host with cond := (bump m off).host.cond } := by
  exact addCnt_host _ _ _

/-! ## Outcomes -/

/-- An effect without supply is nothing. -/
theorem onSupply_off (f : Mod → Mod) (m : Mod) (h : m.hlth.power = .off) : onSupply f m = m := if_pos h

/-- An effect of a supplied module. -/
theorem onSupply_on (f : Mod → Mod) (m : Mod) (h : m.hlth.power ≠ .off) : onSupply f m = f m := if_neg h

/-- A command that only changes a supplied module. -/
theorem runM_on (s : State) (f : Mod → Mod) (h : s.m.hlth.power ≠ .off) : runM s f = .next { s with m := f s.m } := by
  rw [runM, runRaw, onSupply_on f s.m h]

/-- A command that changes a supplied module, with what follows. -/
theorem runS_on (s : State) (f : Mod → Mod) (h : s.m.hlth.power ≠ .off) : runS s f = .next (settleState s (f s.m)) := by
  rw [runS, if_neg h, runSupply]

/-- A command that changes a supplied module and its memories. -/
theorem runW_on (s : State) (f : Mod → Mod × List MemWrite) (h : s.m.hlth.power ≠ .off) :
    runW s f = .next { s with m := (f s.m).1, mem := memWrites s.mem (f s.m).2 } := if_neg h

end Sys2Proof.Machine
end

