-- ==== Sys2Proof/Laws/Regs.lean ====
section
/-!
SUPPORT. What a register reads after each of the shared operations. `off < 0x3F8000` leaves out the words of the PBA, which an
interrupt sent while its vector is masked changes.
-/
namespace Sys2Proof.Machine

/-! ## Set and read -/

theorem regO_setRegO (m : Mod) (a o b p : Nat) (v : Word) :
    regO (setRegO m a o v) b p = if regKey b p = regKey a o then v else regO m b p := by
  unfold regO setRegO
  split_ifs with h
  · simp [h]
  · exact cellGet_cellSet_ne _ _ _ h

@[simp] theorem reg_setReg_same (m : Mod) (a : Nat) (v : Word) : reg (setReg m a v) a = v := by
  simp [reg, setReg, regO_setRegO]

theorem reg_setReg_ne (m : Mod) {a b : Nat} (v : Word) (h : b ≠ a) : reg (setReg m a v) b = reg m b := by
  simp [reg, setReg, regO_setRegO, regKey, h]

theorem reg_setReg (m : Mod) (a b : Nat) (v : Word) : reg (setReg m a v) b = if b = a then v else reg m b := by
  split_ifs with h
  · subst h; simp
  · exact reg_setReg_ne m v h

/-- A register reads the same in two modules with the same registers. -/
theorem regO_congr {m n : Mod} (h : m.regs = n.regs) (a o : Nat) : regO m a o = regO n a o := by unfold regO; rw [h]

theorem reg_congr {m n : Mod} (h : m.regs = n.regs) (a : Nat) : reg m a = reg n a := regO_congr h a 0

/-! ## Interrupts -/

theorem vectorOf_lt {off v : Nat} (h : vectorOf off = some v) : v < 45 := by
  have := List.mem_of_find?_eq_some h
  simpa using this

theorem regO_setPba (m : Mod) (v : Nat) (b : Bool) {off : Nat} (obj : Nat) (hv : v < 45) (h : off < 0x3F8000) :
    regO (setPba m v b) off obj = regO m off obj := by
  unfold setPba setBits setReg
  rw [regO_setRegO, if_neg]
  unfold regKey pbaWord
  omega

theorem regO_msixSend (m : Mod) (v : Nat) {off : Nat} (obj : Nat) (hv : v < 45) (h : off < 0x3F8000) :
    regO (msixSend m v) off obj = regO m off obj := by
  unfold msixSend
  split
  · exact regO_setPba m v true obj hv h
  · exact regO_congr rfl _ _

theorem regO_recheck (m : Mod) (v : Nat) {off : Nat} (obj : Nat) (hv : v < 45) (h : off < 0x3F8000) :
    regO (recheck m v) off obj = regO m off obj := by
  unfold recheck
  dsimp only
  split
  · rw [regO_msixSend _ _ _ hv h]; exact regO_congr rfl _ _
  · exact regO_congr rfl _ _

theorem regO_orBits (m : Mod) (a mask : Nat) {off : Nat} (obj : Nat) (h : off < 0x3F8000) :
    regO (orBits m a mask) off obj = regO (setReg m a (reg m a ||| BitVec.ofNat 32 mask)) off obj := by
  unfold orBits
  dsimp only
  split
  · rename_i v hv; exact regO_recheck _ v obj (vectorOf_lt hv) h
  · rfl

theorem regO_setFaultQuiet (m : Mod) (a bit : Nat) {off : Nat} (obj : Nat) (h : off < 0x3F8000) :
    regO (setFaultQuiet m a bit) off obj = regO (setReg m a (reg m a ||| BitVec.ofNat 32 (2 ^ bit))) off obj :=
  regO_orBits m a _ obj h

/-! ## Events -/

theorem regO_loseEvent (m : Mod) (e : Event) {off : Nat} (obj : Nat) (h : eventFree off = true) :
    regO (loseEvent m e) off obj = regO m off obj := by
  have h1 : off < 0x3F8000 ∧ off ≠ Reg.EVR_LOST_CNT ∧ off ≠ Reg.EVR_FAULT := by
    simpa [eventFree, and_assoc] using h
  unfold loseEvent
  dsimp only
  rw [regO_setFaultQuiet _ _ _ _ h1.1, setReg, regO_setRegO, if_neg, setReg, regO_setRegO, if_neg]
  · exact regO_congr rfl _ _
  · intro hk
    unfold regKey at hk
    have : Reg.EVR_LOST_CNT < 0x400000 := by decide
    omega
  · intro hk
    unfold regKey at hk
    have : Reg.EVR_FAULT < 0x400000 := by decide
    omega

theorem regO_pushEvent (m : Mod) (e : Event) {off : Nat} (obj : Nat) (h : eventFree off = true) :
    regO (pushEvent m e) off obj = regO m off obj := by
  unfold pushEvent
  dsimp only
  split
  · exact regO_congr rfl _ _
  · split
    · rw [regO_loseEvent _ _ _ h, regO_loseEvent _ _ _ h]
    · exact regO_loseEvent _ _ _ h

theorem eventFree_lt {off : Nat} (h : eventFree off = true) : off < 0x3F8000 := by simp [eventFree] at h; exact h.1.1

theorem regO_raiseEvent (m : Mod) (src cls detail : Nat) (arg : Bytes) {off : Nat} (obj : Nat) (h : eventFree off = true) :
    regO (raiseEvent m src cls detail arg) off obj = regO m off obj := regO_pushEvent m _ obj h

theorem reg_raiseEvent (m : Mod) (src cls detail : Nat) (arg : Bytes) {off : Nat} (h : eventFree off = true) :
    reg (raiseEvent m src cls detail arg) off = reg m off := regO_raiseEvent m _ _ _ _ 0 h

theorem reg_stateEvent (m : Mod) (src code old new o : Nat) {off : Nat} (h : eventFree off = true) :
    reg (stateEvent m src code old new o) off = reg m off := reg_raiseEvent m _ _ _ _ h

theorem reg_orBits (m : Mod) (a mask : Nat) {off : Nat} (h : off < 0x3F8000) :
    reg (orBits m a mask) off = if off = a then reg m a ||| BitVec.ofNat 32 mask else reg m off := by
  rw [← reg_setReg]; exact regO_orBits m a mask 0 h

theorem reg_setFaultQuiet (m : Mod) (a bit : Nat) {off : Nat} (h : off < 0x3F8000) :
    reg (setFaultQuiet m a bit) off = if off = a then reg m a ||| BitVec.ofNat 32 (2 ^ bit) else reg m off :=
  reg_orBits m a _ h

theorem reg_setFault (m : Mod) (a bit o : Nat) (vals : List Nat) {off : Nat} (h : eventFree off = true) :
    reg (setFault m a bit o vals) off = if off = a then reg m a ||| BitVec.ofNat 32 (2 ^ bit) else reg m off := by
  rw [setFault, reg_raiseEvent _ _ _ _ _ h, reg_setFaultQuiet _ _ _ (eventFree_lt h)]

theorem regO_setFault (m : Mod) (a bit o : Nat) (vals : List Nat) {off obj : Nat} (h : eventFree off = true) :
    regO (setFault m a bit o vals) off obj = regO (setReg m a (reg m a ||| BitVec.ofNat 32 (2 ^ bit))) off obj := by
  rw [setFault, regO_raiseEvent _ _ _ _ _ _ h, regO_setFaultQuiet _ _ _ _ (eventFree_lt h)]

/-- A bit of a word or-ed with it reads 1. -/
theorem testBit_or_pow (v : Word) {bit : Nat} (h : bit < 32) : (v ||| BitVec.ofNat 32 (2 ^ bit)).toNat.testBit bit = true := by
  have hlt : 2 ^ bit < 2 ^ 32 := Nat.pow_lt_pow_right (by omega) h
  rw [BitVec.toNat_or, Nat.testBit_or, BitVec.toNat_ofNat, Nat.mod_eq_of_lt hlt, Nat.testBit_two_pow_self, Bool.or_true]

/-- The FAULT bit set reads 1. -/
theorem setFault_bit (m : Mod) (a : Nat) {bit : Nat} (o : Nat) (vals : List Nat) (h : eventFree a = true) (hb : bit < 32) :
    (reg (setFault m a bit o vals) a).toNat.testBit bit = true := by
  rw [reg_setFault m a bit o vals h, if_pos rfl]; exact testBit_or_pow _ hb

/-- The FAULT bit set without an event reads 1. -/
theorem setFaultQuiet_bit (m : Mod) (a : Nat) {bit : Nat} (h : a < 0x3F8000) (hb : bit < 32) :
    (reg (setFaultQuiet m a bit) a).toNat.testBit bit = true := by
  rw [reg_setFaultQuiet m a bit h, if_pos rfl]; exact testBit_or_pow _ hb

/-! ## Counters -/

theorem regO_addCntO (m : Mod) (a o k : Nat) {off obj : Nat} (h : eventFree off = true) :
    regO (addCntO m a o k) off obj = regO (setRegO m a o (stickyInc (regO m a o) k)) off obj := by
  unfold addCntO
  dsimp only
  split
  · exact regO_raiseEvent _ _ _ _ _ _ h
  · rfl

theorem reg_addCntO (m : Mod) (a o k : Nat) {off : Nat} (h : eventFree off = true) (ha : off ≠ a) (hk : a < 0x400000) :
    reg (addCntO m a o k) off = reg m off := by
  have := eventFree_lt h
  rw [reg, regO_addCntO m a o k h, regO_setRegO, if_neg (by unfold regKey; omega)]; rfl

/-- A counter of an object counts one. -/
theorem regO_bumpO_same (m : Mod) (a o : Nat) (h : eventFree a = true) :
    regO (bumpO m a o) a o = stickyInc (regO m a o) 1 := by
  rw [bumpO, regO_addCntO m a o 1 h, regO_setRegO, if_pos rfl]

theorem reg_addCnt (m : Mod) (a k : Nat) {off : Nat} (h : eventFree off = true) :
    reg (addCnt m a k) off = if off = a then stickyInc (reg m a) k else reg m off := by
  rw [← reg_setReg]
  unfold addCnt
  dsimp only
  split
  · exact reg_raiseEvent _ _ _ _ _ h
  · rfl

theorem reg_bump (m : Mod) (a : Nat) {off : Nat} (h : eventFree off = true) :
    reg (bump m a) off = if off = a then stickyInc (reg m a) 1 else reg m off := reg_addCnt m a 1 h

theorem regO_addCnt (m : Mod) (a k : Nat) {off obj : Nat} (h : eventFree off = true) :
    regO (addCnt m a k) off obj = regO (setReg m a (stickyInc (reg m a) k)) off obj := by
  unfold addCnt
  dsimp only
  split
  · exact regO_raiseEvent _ _ _ _ _ _ h
  · rfl

/-! ## What leaves the registers alone -/

@[simp] theorem reg_stopTimer (m : Mod) (k : TimerKind) (i off : Nat) : reg (stopTimer m k i) off = reg m off := rfl
@[simp] theorem reg_startTimer (m : Mod) (k : TimerKind) (i d off : Nat) : reg (startTimer m k i d) off = reg m off := rfl
@[simp] theorem reg_emit (m : Mod) (x : Sent) (off : Nat) : reg (emit m x) off = reg m off := rfl
@[simp] theorem reg_closeGate (m : Mod) (b off : Nat) : reg (closeGate m b) off = reg m off := rfl
@[simp] theorem reg_openGate (m : Mod) (b off : Nat) : reg (openGate m b) off = reg m off := rfl
@[simp] theorem reg_setShadow (m : Mod) (a : Nat) (v : Word) (off : Nat) : reg (setShadow m a v) off = reg m off := rfl

/-! ## Timers -/

theorem timerDue_startTimer (m : Mod) (k : TimerKind) (i d : Nat) :
    timerDue (startTimer m k i d) k i = some (m.clk.elapsed + d) := by
  simp [timerDue, startTimer, setTimerAt]

@[simp] theorem timerDue_stopTimer (m : Mod) (k : TimerKind) (i : Nat) : timerDue (stopTimer m k i) k i = none := by
  simp only [timerDue, stopTimer, Option.map_eq_none_iff, List.find?_eq_none, List.mem_filter]
  intro t ht
  have := ht.2
  simp at this ⊢; tauto

theorem timerDue_congr {m n : Mod} (h : m.timers = n.timers) (k : TimerKind) (i : Nat) : timerDue m k i = timerDue n k i := by
  unfold timerDue; rw [h]

/-- A timer whose instant has come: its command stops it and does what it is for. -/
theorem expire_due (m : Mod) (k : TimerKind) (i : Nat) (f : Mod → Mod) {d : Nat} (h : timerDue m k i = some d)
    (hd : d ≤ m.clk.elapsed) : expire m k i f = f (stopTimer m k i) := by
  unfold expire advanceTo; rw [h]; simp only [if_pos hd]

/-- A timer that does not run does nothing. -/
theorem expire_none (m : Mod) (k : TimerKind) (i : Nat) (f : Mod → Mod) (h : timerDue m k i = none) : expire m k i f = m := by
  unfold expire; rw [h]

/-! ## Host writes -/

theorem hostWrite_full (m : Mod) (off : Nat) (f : Mod → Mod) : hostWrite m off 15 f = f m := by
  simp [hostWrite, fullBe]

theorem guardedWrite_open (m : Mod) (off : Nat) (f : Mod → Mod) (h : gateOpen m (srcOf off) = true) :
    guardedWrite m off 15 f = f (closeGate m (srcOf off)) := by
  rw [guardedWrite, hostWrite_full]; exact if_pos h

theorem inRunning_up (m : Mod) (b : Nat) (f : Mod → Mod) (h : blockUp m b = true) : inRunning m b f = f m := if_pos h

end Sys2Proof.Machine
end

