-- ==== Sys2Proof/Laws/Settle.lean ====
section
/-!
SUPPORT. What follows a command: memories and queue.
-/
namespace Sys2Proof.Machine

@[simp] theorem settleState_pending (s : State) (m : Mod) : (settleState s m).pending = s.pending := rfl

/-- What follows a command leaves the memories, but for DRAM that the command lost. -/
theorem settleState_mem (s : State) (m : Mod) :
    (settleState s m).mem = s.mem ∨ (settleState s m).mem = { s.mem with dram := [] } := by
  unfold settleState settleMem
  dsimp only
  split
  · exact .inr rfl
  · exact .inl rfl

/-! ## A command on a supplied module -/

theorem powered_ne_off {s : State} (h : Powered s) : s.m.hlth.power ≠ .off := by rw [Powered.eq_1] at h; simp [h]

theorem runM_powered {s : State} (f : Mod → Mod) (h : Powered s) : runM s f = .next { s with m := f s.m } :=
  runM_on s f (powered_ne_off h)

theorem runS_powered {s : State} (f : Mod → Mod) (h : Powered s) : runS s f = .next (settleState s (f s.m)) :=
  runS_on s f (powered_ne_off h)

theorem runW_powered {s : State} (f : Mod → Mod × List MemWrite) (h : Powered s) :
    runW s f = .next { s with m := (f s.m).1, mem := memWrites s.mem (f s.m).2 } := runW_on s f (powered_ne_off h)

end Sys2Proof.Machine
end

