-- ==== Sys2Proof/Laws/Keeper.lean ====
section
/-!
SUPPORT. What a mailbox command of Keeper does when Keeper takes it: the audit event and the response, and nothing beside its own
effect.
-/
namespace Sys2Proof.Machine

/-- Two modules that agree on every other field are the same but for a response. -/
theorem sameButResponse_of {m u : Mod} (h : u.shadow = m.shadow ∧ u.timers = m.timers ∧ u.free = m.free ∧ u.factory = m.factory ∧
    u.mode = m.mode ∧ u.clk = m.clk ∧ u.key = m.key ∧ u.hlth = m.hlth ∧ u.img = m.img ∧ u.net = m.net ∧ u.td = m.td ∧
    u.pe = m.pe ∧ u.sv = m.sv ∧ u.bsn = m.bsn ∧ u.wad = m.wad ∧ u.out = m.out ∧ u.rec_ = m.rec_ ∧ u.dma = m.dma ∧
    u.mtr = m.mtr ∧ u.parts = m.parts ∧ u.delayPlan = m.delayPlan ∧ u.rung2 = m.rung2 ∧ u.portMap = m.portMap) :
    SameButResponse m u := by
  cases m; cases u; simp_all [SameButResponse]

theorem sameButResponse_keeperReply (m : Mod) (rq : KReq) (cmd : Nat) (r : KResp) :
    SameButResponse m (keeperReply m rq cmd r) := sameButResponse_of (by simp)

theorem sameButResponse_auditEvent (m : Mod) (src code result obj : Nat) (args : Bytes) :
    SameButResponse m (auditEvent m src code result obj args) := sameButResponse_of (by simp)

theorem SameButResponse.trans {a b c : Mod} (h : SameButResponse a b) (k : SameButResponse b c) : SameButResponse a c := by
  unfold SameButResponse at *; rw [k, h]

/-- The response is there. -/
theorem keeperReply_answers (m : Mod) (rq : KReq) (cmd : Nat) (r : KResp) : Answers (keeperReply m rq cmd r) rq cmd r := by
  unfold Answers keeperReply
  split_ifs with h
  · dsimp only
    refine ⟨?_, ?_, ?_, ?_, setFaultQuiet_bit _ _ (by decide) (by decide)⟩
    · rw [reg_setFaultQuiet _ _ _ (by decide), if_neg (by decide)]
      exact ((reg_congr rfl _).trans (reg_setReg_ne _ _ (by decide))).trans (reg_setReg_same _ _ _)
    · rw [reg_setFaultQuiet _ _ _ (by decide), if_neg (by decide)]
      exact (reg_congr rfl _).trans (reg_setReg_same _ _ _)
    · simp
    · simp
  · rfl

theorem keeperReply_answered (m : Mod) (rq : KReq) (cmd : Nat) (r : KResp) :
    Answered (keeperReply m rq cmd r) rq cmd r.result := ⟨r, rfl, keeperReply_answers m rq cmd r⟩

/-- Keeper takes a command: its own effect, the audit event, the response. -/
theorem keeperCmd_taken {m : Mod} {shed : Nat} (rq : KReq) (cmd obj : Nat) (args : Bytes) (run : Mod → Mod × KResp)
    (h : KeeperTakes m shed) : keeperCmd m rq cmd shed obj args run =
      keeperReply (auditEvent (run m).1 keeperSrc cmd (run m).2.result obj args) rq cmd (run m).2 := by
  simp [keeperCmd, h.1, h.2]

/-- A taken command answers with its own result, and beside its own effect only the response and the audit event change. -/
theorem keeperCmd_effect {m : Mod} {shed : Nat} (rq : KReq) (cmd obj : Nat) (args : Bytes) (run : Mod → Mod × KResp)
    (h : KeeperTakes m shed) :
    Answered (keeperCmd m rq cmd shed obj args run) rq cmd (run m).2.result ∧
      SameButResponse (run m).1 (keeperCmd m rq cmd shed obj args run) := by
  rw [keeperCmd_taken rq cmd obj args run h]
  exact ⟨keeperReply_answered _ _ _ _, (sameButResponse_auditEvent _ _ _ _ _ _).trans (sameButResponse_keeperReply _ _ _ _)⟩

/-- A taken command by what its own effect is. -/
theorem keeperCmd_result {m m1 : Mod} {r : KResp} {shed : Nat} {rq : KReq} {cmd obj : Nat} {args : Bytes}
    {run : Mod → Mod × KResp} (h : KeeperTakes m shed) (hr : run m = (m1, r)) :
    Answered (keeperCmd m rq cmd shed obj args run) rq cmd r.result ∧
      SameButResponse m1 (keeperCmd m rq cmd shed obj args run) := by
  have := keeperCmd_effect rq cmd obj args run h
  rwa [hr] at this

/-- A taken query answers what it asks for, and changes nothing else. -/
theorem keeperAsk_answers {m : Mod} {shed : Nat} {rq : KReq} {cmd obj : Nat} {args : Bytes} {ask : Mod → KResp}
    (h : KeeperTakes m shed) : Answers (keeperAsk m rq cmd shed obj args ask) rq cmd (ask m) ∧
      SameButResponse m (keeperAsk m rq cmd shed obj args ask) := by
  rw [keeperAsk, keeperCmd_taken rq cmd obj args _ h]
  exact ⟨keeperReply_answers _ _ _ _, (sameButResponse_auditEvent _ _ _ _ _ _).trans (sameButResponse_keeperReply _ _ _ _)⟩

/-- A command at a shed level that Keeper has reached. -/
theorem keeperCmd_shed {m : Mod} {shed : Nat} {rq : KReq} {cmd obj : Nat} {args : Bytes} {run : Mod → Mod × KResp}
    (h : m.kpr.ready = true) (h0 : shed ≠ 0) (hs : shed ≤ m.kpr.shed) : keeperCmd m rq cmd shed obj args run =
      keeperReply (bump m Reg.KPR_CNT_SHED) rq cmd (answer 0x0D) := by
  simp [keeperCmd, h, h0, hs]

/-- What a response leaves of Keeper's own state. -/
theorem keeperReply_kpr (m : Mod) (rq : KReq) (cmd : Nat) (r : KResp) :
    (keeperReply m rq cmd r).kpr = { m.kpr with busy := (keeperReply m rq cmd r).kpr.busy, rsp := (keeperReply m rq cmd r).kpr.rsp } := by
  unfold keeperReply; dsimp only; split <;> simp

/-- A command that also writes memory. -/
theorem keeperCmdMem_taken {m : Mod} {shed : Nat} (rq : KReq) (cmd obj : Nat) (args : Bytes)
    (run : Mod → Mod × KResp × List MemWrite) (h : KeeperTakes m shed) : keeperCmdMem m rq cmd shed obj args run =
      (keeperReply (auditEvent (run m).1 keeperSrc cmd (run m).2.1.result obj args) rq cmd (run m).2.1, (run m).2.2) := by
  simp [keeperCmdMem, h.1, h.2]

theorem regO_keeperReply (m : Mod) (rq : KReq) (cmd : Nat) (r : KResp) {off : Nat} (obj : Nat) (h : responseFree off = true) :
    regO (keeperReply m rq cmd r) off obj = regO m off obj := by
  have h' : eventFree off = true ∧ off ≠ Reg.KPR_RSP_INFO ∧ off ≠ Reg.KPR_RSP_TAG ∧ off ≠ Reg.KPR_CNT_CMD ∧ off ≠ Reg.KPR_FAULT := by
    simpa [responseFree, and_assoc] using h
  obtain ⟨h0, h1, h2, h3, h4⟩ := h'
  have hlt := eventFree_lt h0
  have key {a : Nat} (hn : off ≠ a) (ha : a < 0x400000) : regKey off obj ≠ regKey a 0 := by unfold regKey; omega
  have hb : regO (bump m Reg.KPR_CNT_CMD) off obj = regO m off obj := by
    rw [bump, regO_addCnt _ _ _ h0, setReg, regO_setRegO, if_neg (key h3 (by decide))]
  unfold keeperReply
  split_ifs
  · dsimp only
    rw [regO_setFaultQuiet _ _ _ _ hlt, setReg, regO_setRegO, if_neg (key h4 (by decide))]
    change regO (setReg (setReg (bump m Reg.KPR_CNT_CMD) _ _) _ _) off obj = _
    rw [setReg, regO_setRegO, if_neg (key h2 (by decide)), setReg, regO_setRegO, if_neg (key h1 (by decide)), hb]
  · exact (regO_congr rfl _ _).trans hb

theorem regO_keeperCmd {m : Mod} {shed : Nat} (rq : KReq) (cmd obj : Nat) (args : Bytes) (run : Mod → Mod × KResp)
    (h : KeeperTakes m shed) {off : Nat} (o : Nat) (hf : responseFree off = true) :
    regO (keeperCmd m rq cmd shed obj args run) off o = regO (run m).1 off o := by
  rw [keeperCmd_taken rq cmd obj args run h, regO_keeperReply _ _ _ _ _ hf]
  exact regO_raiseEvent _ _ _ _ _ _ (by simp [responseFree] at hf; exact hf.1.1.1.1)

end Sys2Proof.Machine
end

