-- ==== Sys2Proof/Laws/Core.lean ====
section
/-!
SUPPORT. Operations that leave the partitions, the images, the health unit, the rung-2 requests, metering and the keys as they were.
-/
namespace Sys2Proof.Machine

set_option linter.unusedTactic false
set_option linter.unreachableTactic false

/-- Two modules agree on what the operations below leave alone. -/
abbrev SameCore (n m : Mod) : Prop :=
  n.parts = m.parts ∧ n.img = m.img ∧ n.hlth = m.hlth ∧ n.rung2 = m.rung2 ∧ n.mtr = m.mtr ∧ n.key = m.key

/-- A fold over operations that leave them. -/
theorem foldl_core {α : Type} (f : Mod → α → Mod) (h : ∀ m x, SameCore (f m x) m) (l : List α) (m : Mod) :
    SameCore (l.foldl f m) m := by
  induction l generalizing m with
  | nil => exact ⟨rfl, rfl, rfl, rfl, rfl, rfl⟩
  | cons x l ih => simp only [SameCore, List.foldl_cons, ih, h, and_self]

/-- One operation after another. -/
theorem core_trans {a b c : Mod} (h : SameCore a b) (k : SameCore b c) : SameCore a c := by
  simp only [SameCore, h, k, and_self]

/-- The module itself. -/
theorem core_rfl (m : Mod) : SameCore m m := ⟨rfl, rfl, rfl, rfl, rfl, rfl⟩

@[simp] theorem pushCross_core (m : Mod) (c : Nat) (x : XTok) : SameCore (pushCross m c x) m := by
  unfold pushCross
  refine ⟨?_, ?_, ?_, ?_, ?_, ?_⟩ <;> (try dsimp only) <;> (repeat' split) <;> simp

@[simp] theorem queuePut_core (m : Mod) (p q : Nat) (it : QItem) : SameCore (queuePut m p q it) m := by
  unfold queuePut
  refine ⟨?_, ?_, ?_, ?_, ?_, ?_⟩ <;> (try dsimp only) <;> (repeat' split) <;> simp

@[simp] theorem queueModule_core (m : Mod) (p q : Nat) (it : QItem) : SameCore (queueModule m p q it) m := by
  unfold queueModule
  refine ⟨?_, ?_, ?_, ?_, ?_, ?_⟩ <;> (try dsimp only) <;> (repeat' split) <;> simp

@[simp] theorem takeSeq_core (m : Mod) (pr : Nat) : SameCore (takeSeq m pr).2 m := by
  unfold takeSeq
  refine ⟨?_, ?_, ?_, ?_, ?_, ?_⟩ <;> (try dsimp only) <;> (repeat' split) <;> simp

@[simp] theorem originEvent_core (m : Mod) (o : Origin) (cls detail : Nat) (arg : Bytes) :
    SameCore (originEvent m o cls detail arg) m := by
  unfold originEvent
  refine ⟨?_, ?_, ?_, ?_, ?_, ?_⟩ <;> (try dsimp only) <;> (repeat' split) <;> simp

@[simp] theorem streamGap_core (m : Mod) (n old new : Nat) : SameCore (streamGap m n old new) m := by
  unfold streamGap
  refine ⟨?_, ?_, ?_, ?_, ?_, ?_⟩ <;> (try dsimp only) <;> (repeat' split) <;> simp

@[simp] theorem outGap_core (m : Mod) (o first count : Nat) : SameCore (outGap m o first count) m := by
  unfold outGap
  refine ⟨?_, ?_, ?_, ?_, ?_, ?_⟩ <;> (try dsimp only) <;> (repeat' split) <;> simp

@[simp] theorem noteCopyAt_core (m : Mod) (tag : Nat) (r : CopyRec) : SameCore (noteCopyAt m tag r) m := by
  unfold noteCopyAt
  refine ⟨?_, ?_, ?_, ?_, ?_, ?_⟩ <;> (try dsimp only) <;> (repeat' split) <;> simp

@[simp] theorem noteCopy_core (m : Mod) (r : CopyRec) : SameCore (noteCopy m r) m := by
  unfold noteCopy
  refine ⟨?_, ?_, ?_, ?_, ?_, ?_⟩ <;> (try dsimp only) <;> (repeat' split) <;> simp

@[simp] theorem sendFrame_core (m : Mod) (mask q : Nat) (dst : Nat) (tags : List (Nat × Nat)) (pl : Payload) (bypass : Bool) :
    SameCore (sendFrame m mask q dst tags pl bypass) m := by
  unfold sendFrame
  exact foldl_core _ (fun m x => by refine ⟨?_, ?_, ?_, ?_, ?_, ?_⟩ <;> (try dsimp only) <;> (repeat' split) <;> simp) _ _

@[simp] theorem dropUnsigned_core (m : Mod) (ports : Nat) : SameCore (dropUnsigned m ports) m := by
  unfold dropUnsigned
  exact foldl_core _ (fun m x => by refine ⟨?_, ?_, ?_, ?_, ?_, ?_⟩ <;> (try dsimp only) <;> (repeat' split) <;> simp) _ _

@[simp] theorem sendUdp_core (m : Mod) (mask q dstIp sport dport : Nat) (tags : List (Nat × Nat)) (body : UdpBody) :
    SameCore (sendUdp m mask q dstIp sport dport tags body) m := by
  unfold sendUdp
  refine foldl_core _ (fun m x => ?_) _ _
  have one : ∀ (m : Mod) (p mask : Nat), ∀ n, n = (match resolve m p dstIp with
        | some mac => (ipPackets (((maskPorts mask).map fun p => (portCfg m p).mtu).foldl min (portCfg m p).mtu)
            (portCfg m p).ip dstIp sport dport body).foldl (fun m pl => sendFrame m mask q mac tags pl) m
        | none => setFault (bump m (Reg.MAC_PTX_NOARP p)) (Reg.MAC_PFAULT p) 6 p) → SameCore n m := by
    intro m p mask n hn
    subst hn
    split
    · exact foldl_core _ (fun m x => sendFrame_core _ _ _ _ _ _ _) _ _
    · simp [SameCore]
  dsimp only
  split
  · exact core_rfl _
  · split
    · exact one _ _ _ _ rfl
    · exact foldl_core _ (fun m x => one _ _ _ _ rfl) _ _

@[simp] theorem arpAsk_core (m : Mod) (p ip : Nat) : SameCore (arpAsk m p ip) m := by
  unfold arpAsk
  refine ⟨?_, ?_, ?_, ?_, ?_, ?_⟩ <;> (try dsimp only) <;> (repeat' split) <;> simp

@[simp] theorem noteLost_core (m : Mod) (r : CopyRec) : SameCore (noteLost m r) m := by
  unfold noteLost
  refine ⟨?_, ?_, ?_, ?_, ?_, ?_⟩ <;> (try dsimp only) <;> (repeat' split) <;> simp

@[simp] theorem watchRevert_core (m : Mod) : SameCore (watchRevert m) m := by
  unfold watchRevert
  refine ⟨?_, ?_, ?_, ?_, ?_, ?_⟩ <;> (try dsimp only) <;> (repeat' split) <;> simp

@[simp] theorem refSend_core (m : Mod) (type : Nat) (body : Bytes) : SameCore (refSend m type body) m := by
  unfold refSend
  refine ⟨?_, ?_, ?_, ?_, ?_, ?_⟩ <;> (try dsimp only) <;> (repeat' split) <;> simp

@[simp] theorem sendPub_core (m : Mod) (n : Nat) (c : PubCfg) : SameCore (sendPub m n c) m := by
  unfold sendPub
  refine ⟨?_, ?_, ?_, ?_, ?_, ?_⟩ <;> (try dsimp only) <;> (repeat' split) <;> simp

@[simp] theorem handOver_core (m : Mod) (n : Nat) (c : PubCfg) (dom tag : Nat) : SameCore (handOver m n c dom tag) m := by
  unfold handOver
  refine ⟨?_, ?_, ?_, ?_, ?_, ?_⟩ <;> (try dsimp only) <;> (repeat' split) <;> simp

@[simp] theorem fedSend_core (m : Mod) (body : Bytes) : SameCore (fedSend m body) m := by
  unfold fedSend
  refine ⟨?_, ?_, ?_, ?_, ?_, ?_⟩ <;> (try dsimp only) <;> (repeat' split) <;> simp

@[simp] theorem fedChange_core (m : Mod) (a : Nat) (c : AlarmCfg) (time : Nat) : SameCore (fedChange m a c time) m := by
  unfold fedChange
  refine ⟨?_, ?_, ?_, ?_, ?_, ?_⟩ <;> (try dsimp only) <;> (repeat' split) <;> simp

@[simp] theorem alarmFrame_core (m : Mod) (time : Nat) : SameCore (alarmFrame m time) m := by
  unfold alarmFrame
  refine ⟨?_, ?_, ?_, ?_, ?_, ?_⟩ <;> (try dsimp only) <;> (repeat' split) <;> simp

@[simp] theorem alarmEvent_core (m : Mod) (org : Origin) (a : Nat) (c : AlarmCfg) (code op1 : Nat) :
    SameCore (alarmEvent m org a c code op1) m := by
  unfold alarmEvent
  refine ⟨?_, ?_, ?_, ?_, ?_, ?_⟩ <;> (try dsimp only) <;> (repeat' split) <;> simp

@[simp] theorem evalAlarm_core (m : Mod) (org : Origin) (a : Nat) (c : AlarmCfg) (mv : AlarmMove) (q : Qual) (op1 : Nat) :
    SameCore (evalAlarm m org a c mv q op1).1 m := by
  unfold evalAlarm
  refine ⟨?_, ?_, ?_, ?_, ?_, ?_⟩ <;> (try dsimp only) <;> (repeat' split) <;> simp

@[simp] theorem raiseEpoch_core (m : Mod) : SameCore (raiseEpoch m) m := by
  unfold raiseEpoch
  refine ⟨?_, ?_, ?_, ?_, ?_, ?_⟩ <;> (try dsimp only) <;> (repeat' split) <;> simp

@[simp] theorem settleClaim_core (m : Mod) : SameCore (settleClaim m) m := by
  unfold settleClaim
  refine ⟨?_, ?_, ?_, ?_, ?_, ?_⟩ <;> (try dsimp only) <;> (repeat' split) <;> simp

@[simp] theorem setRole_core (m : Mod) (r : Role) : SameCore (setRole m r) m := by
  unfold setRole
  refine ⟨?_, ?_, ?_, ?_, ?_, ?_⟩ <;> (try dsimp only) <;> (repeat' split) <;> simp

@[simp] theorem dropStandby_core (m : Mod) : SameCore (dropStandby m) m := by
  unfold dropStandby
  refine ⟨?_, ?_, ?_, ?_, ?_, ?_⟩ <;> (try dsimp only) <;> (repeat' split) <;> simp

@[simp] theorem becomeActive_core (m : Mod) : SameCore (becomeActive m) m := by
  unfold becomeActive
  refine ⟨?_, ?_, ?_, ?_, ?_, ?_⟩ <;> (try dsimp only) <;> (repeat' split) <;> simp

@[simp] theorem becomeStandby_core (m : Mod) : SameCore (becomeStandby m) m := by
  unfold becomeStandby
  refine ⟨?_, ?_, ?_, ?_, ?_, ?_⟩ <;> (try dsimp only) <;> (repeat' split) <;> simp

@[simp] theorem takeRole_core (m : Mod) : SameCore (takeRole m) m := by
  unfold takeRole
  refine ⟨?_, ?_, ?_, ?_, ?_, ?_⟩ <;> (try dsimp only) <;> (repeat' split) <;> simp

@[simp] theorem testBoundary_core (m : Mod) (p : Nat) (tag : Option Nat) : SameCore (testBoundary m p tag) m := by
  unfold testBoundary
  refine ⟨?_, ?_, ?_, ?_, ?_, ?_⟩ <;> (try dsimp only) <;> (repeat' split) <;> simp

@[simp] theorem followTest_core (m : Mod) : SameCore (followTest m) m := by
  unfold followTest
  refine ⟨?_, ?_, ?_, ?_, ?_, ?_⟩ <;> (try dsimp only) <;> (repeat' split) <;> simp

@[simp] theorem endRevert_core (m : Mod) : SameCore (endRevert m) m := by
  unfold endRevert
  refine ⟨?_, ?_, ?_, ?_, ?_, ?_⟩ <;> (try dsimp only) <;> (repeat' split) <;> simp

@[simp] theorem towSend_core (m : Mod) (f : TowFrame) : SameCore (towSend m f) m := by
  unfold towSend
  refine ⟨?_, ?_, ?_, ?_, ?_, ?_⟩ <;> (try dsimp only) <;> (repeat' split) <;> simp

@[simp] theorem abandonRevert_core (m : Mod) : SameCore (abandonRevert m) m := by
  unfold abandonRevert
  refine ⟨?_, ?_, ?_, ?_, ?_, ?_⟩ <;> (try dsimp only) <;> (repeat' split) <;> simp

@[simp] theorem republish_core (m : Mod) (all : Bool) (tag : Nat) : SameCore (republish m all tag) m := by
  unfold republish
  exact foldl_core _ (fun m x => by refine ⟨?_, ?_, ?_, ?_, ?_, ?_⟩ <;> (try dsimp only) <;> (repeat' split) <;> simp) _ _

@[simp] theorem askTakeover_core (m : Mod) (reason : Nat) : SameCore (askTakeover m reason) m := by
  unfold askTakeover
  refine ⟨?_, ?_, ?_, ?_, ?_, ?_⟩ <;> (try dsimp only) <;> (repeat' split) <;> simp

@[simp] theorem leaveActive_core (m : Mod) (reason : Nat) : SameCore (leaveActive m reason) m := by
  unfold leaveActive
  refine ⟨?_, ?_, ?_, ?_, ?_, ?_⟩ <;> (try dsimp only) <;> (repeat' split) <;> simp

@[simp] theorem wadStart_core (m : Mod) (p : Nat) : SameCore (wadStart m p) m := by
  unfold wadStart
  refine ⟨?_, ?_, ?_, ?_, ?_, ?_⟩ <;> (try dsimp only) <;> (repeat' split) <;> simp

@[simp] theorem rearm_core (m : Mod) (d : Nat) : SameCore (rearm m d) m := by
  unfold rearm
  refine ⟨?_, ?_, ?_, ?_, ?_, ?_⟩ <;> (try dsimp only) <;> (repeat' split) <;> simp

@[simp] theorem recLive_core (m : Mod) (load : Bool) : SameCore (recLive m load) m := by
  unfold recLive
  exact foldl_core _ (fun m x => by refine ⟨?_, ?_, ?_, ?_, ?_, ?_⟩ <;> (try dsimp only) <;> (repeat' split) <;> simp) _ _

@[simp] theorem resumePubs_core (m : Mod) (p : Nat) : SameCore (resumePubs m p) m := by
  unfold resumePubs
  exact foldl_core _ (fun m x => by refine ⟨?_, ?_, ?_, ?_, ?_, ?_⟩ <;> (try dsimp only) <;> (repeat' split) <;> simp) _ _

@[simp] theorem resumeGroup_core (m : Mod) (p : Nat) : SameCore (resumeGroup m p) m := by
  unfold resumeGroup
  exact foldl_core _ (fun m x => by refine ⟨?_, ?_, ?_, ?_, ?_, ?_⟩ <;> (try dsimp only) <;> (repeat' split) <;> simp) _ _

@[simp] theorem askDests_core (m : Mod) (p : Nat) : SameCore (askDests m p) m := by
  unfold askDests
  exact foldl_core _ (fun m x => foldl_core _ (fun m y => by refine ⟨?_, ?_, ?_, ?_, ?_, ?_⟩ <;> (try dsimp only) <;> (repeat' split) <;> simp) _ _) _ _

@[simp] theorem publishAlarms_core (m : Mod) (before : List (Nat × Qual)) (changed : List Nat) (time : Nat) :
    SameCore (publishAlarms m before changed time) m := by
  unfold publishAlarms
  extract_lets after w m1 put m2 m3 m4
  have h1 : SameCore m1 m := foldl_core _ (fun m x => by refine ⟨?_, ?_, ?_, ?_, ?_, ?_⟩ <;> (try dsimp only) <;> (repeat' split) <;> simp) _ _
  have h3 : SameCore m3 m1 := by
    simp only [m3]
    split
    · exact core_rfl _
    · split
      · exact core_rfl _
      · exact core_trans (handOver_core _ _ _ _ _) ⟨rfl, rfl, rfl, rfl, rfl, rfl⟩
  have h4 : SameCore m4 m3 := alarmFrame_core _ _
  split
  · exact core_trans h3 h1
  · exact core_trans (foldl_core _ (fun m x => by refine ⟨?_, ?_, ?_, ?_, ?_, ?_⟩ <;> (try dsimp only) <;> (repeat' split) <;> simp) _ _) (core_trans h4 (core_trans h3 h1))

@[simp] theorem clearAlarm_core (r : Mod × List Nat) (x : Nat × AlarmCfg) : SameCore (clearAlarm r x).1 r.1 := by
  unfold clearAlarm
  refine ⟨?_, ?_, ?_, ?_, ?_, ?_⟩ <;> dsimp only <;> (repeat' split) <;> simp

theorem clearAlarms_core (l : List (Nat × AlarmCfg)) (r : Mod × List Nat) : SameCore (l.foldl clearAlarm r).1 r.1 := by
  induction l generalizing r with
  | nil => exact core_rfl _
  | cons x l ih => exact core_trans (ih _) (clearAlarm_core r x)

@[simp] theorem wadReload_core (m : Mod) (p : Nat) : SameCore (wadReload m p) m := by
  unfold wadReload
  refine core_trans (publishAlarms_core _ _ _ _) ?_
  have h := clearAlarms_core (clearedAlarms m p) (m, [])
  split
  · exact core_trans ⟨rfl, rfl, rfl, rfl, rfl, rfl⟩ h
  · exact h

@[simp] theorem restartStreams_core (m : Mod) (p : Nat) : SameCore (restartStreams m p) m := by
  unfold restartStreams
  extract_lets rate t i k0 fresh m1
  have h : SameCore m1 m := foldl_core (fun (m : Mod) (s : Nat × SubCfg) => modStream m s.1 fresh) (fun m x => ⟨rfl, rfl, rfl, rfl, rfl, rfl⟩) _ _
  exact core_trans ⟨rfl, rfl, rfl, rfl, rfl, rfl⟩ h

@[simp] theorem filterTok_core (m : Mod) (g sub : Nat) (r : Option (Nat × Nat)) (k : Nat) (v : Val) (q : Qual) (e : Option Nat) :
    SameCore (filterTok m g sub r k v q e) m := by
  unfold filterTok
  refine ⟨?_, ?_, ?_, ?_, ?_, ?_⟩ <;> (try dsimp only) <;> (repeat' split) <;> simp

/-- The fading records of a copy that stays behind. -/
@[simp] theorem reportDelays_core (m : Mod) (c : ChanCfg) (pal tag : Nat) : SameCore (reportDelays m c pal tag) m := by
  unfold reportDelays
  refine ⟨?_, ?_, ?_, ?_, ?_, ?_⟩ <;> (try dsimp only) <;> (repeat' split) <;> simp

@[simp] theorem beginSwitch_core (m : Mod) (g pal e : Nat) : SameCore (beginSwitch m g pal e) m := by
  unfold beginSwitch
  split
  · exact core_rfl _
  · dsimp only
    split
    · exact ⟨rfl, rfl, rfl, rfl, rfl, rfl⟩
    · exact core_trans (foldl_core _ (fun m x => reportDelays_core m _ _ _) _ _) ⟨rfl, rfl, rfl, rfl, rfl, rfl⟩

@[simp] theorem leaveCopy_core (m : Mod) (c : CopyIn) : SameCore (leaveCopy m c) m := by
  unfold leaveCopy
  exact foldl_core _ (fun m x => by refine ⟨?_, ?_, ?_, ?_, ?_, ?_⟩ <;> (repeat' split) <;> simp) _ _

@[simp] theorem takeover_core (m : Mod) : SameCore (takeover m) m := by
  unfold takeover
  split
  · exact core_rfl _
  · refine core_trans (republish_core _ _ _) (core_trans (foldl_core _ (fun m x => leaveCopy_core m x) _ _) ?_)
    refine core_trans ⟨rfl, rfl, rfl, rfl, rfl, rfl⟩ ?_
    refine ⟨?_, ?_, ?_, ?_, ?_, ?_⟩ <;> simp

@[simp] theorem isolatedStep_core (m : Mod) : SameCore (isolatedStep m) m := by
  unfold isolatedStep
  refine ⟨?_, ?_, ?_, ?_, ?_, ?_⟩ <;> (try dsimp only) <;> (repeat' split) <;> simp

@[simp] theorem decideRole_core (m : Mod) : SameCore (decideRole m) m := by
  unfold decideRole
  refine ⟨?_, ?_, ?_, ?_, ?_, ?_⟩ <;> (try dsimp only) <;> (repeat' split) <;> simp

@[simp] theorem protLive_core (m : Mod) : SameCore (protLive m) m := by
  unfold protLive
  refine ⟨?_, ?_, ?_, ?_, ?_, ?_⟩ <;> (try dsimp only) <;> (repeat' split) <;> simp

@[simp] theorem bsnGoLive_core (m : Mod) : SameCore (bsnGoLive m) m := by
  unfold bsnGoLive
  exact core_trans (foldl_core _ (fun m x => by refine ⟨?_, ?_, ?_, ?_, ?_, ?_⟩ <;> (try dsimp only) <;> (repeat' split) <;> simp) _ _) (foldl_core _ (fun m x => by refine ⟨?_, ?_, ?_, ?_, ?_, ?_⟩ <;> (try dsimp only) <;> (repeat' split) <;> simp) _ _)

@[simp] theorem concLive_core (m : Mod) (chg : List Nat) : SameCore (concLive m chg) m := by
  unfold concLive
  exact core_trans (foldl_core _ (fun m x => by refine ⟨?_, ?_, ?_, ?_, ?_, ?_⟩ <;> (try dsimp only) <;> (repeat' split) <;> simp) _ _) (bsnGoLive_core _)

@[simp] theorem fltHalt_core (m : Mod) (p : Nat) : SameCore (fltHalt m p) m := by
  unfold fltHalt
  extract_lets gs
  refine foldl_core _ (fun m x => ?_) _ _
  extract_lets m1
  have h : SameCore m1 m := ⟨rfl, rfl, rfl, rfl, rfl, rfl⟩
  exact core_trans ⟨rfl, rfl, rfl, rfl, rfl, rfl⟩ h

@[simp] theorem haltGap_core (m : Mod) (p : Nat) : SameCore (haltGap m p) m := by
  unfold haltGap
  refine ⟨?_, ?_, ?_, ?_, ?_, ?_⟩ <;> (try dsimp only) <;> (repeat' split) <;> simp

/-- What step 7 loads into the registers. -/
theorem loadRegs_core (m : Mod) (p : Nat) :
    (loadRegs m p).parts = m.parts ∧ (loadRegs m p).img = m.img ∧ (loadRegs m p).hlth = m.hlth ∧
      (loadRegs m p).rung2 = m.rung2 ∧ (loadRegs m p).key = m.key := by
  unfold loadRegs
  dsimp only
  have A := fun (f : Nat × Nat → Nat) (g : Nat × Nat → Word) (l : List (Nat × Nat)) (m : Mod) =>
    foldl_core (fun (m : Mod) (c : Nat × Nat) => setReg m (f c) (g c)) (fun m x => by simp [SameCore]) l m
  have B := fun (f : Nat → Nat) (g : Nat → Word) (l : List Nat) (m : Mod) =>
    foldl_core (fun (m : Mod) (c : Nat) => setReg m (f c) (g c)) (fun m x => by simp [SameCore]) l m
  refine ⟨?_, ?_, ?_, ?_, ?_⟩ <;> (repeat' split) <;> simp [B, mtrLoad]

end Sys2Proof.Machine
end

