-- ==== Sys2Proof/Laws/Bits.lean ====
section
/-!
SUPPORT. A set bit of a register through the shared operations, timers through the start of others, and folds that keep a value.
-/
namespace Sys2Proof.Machine

/-! ## Bits -/

theorem Bit_congr {m n : Mod} (h : m.regs = n.regs) {off b : Nat} (hb : Bit n off b) : Bit m off b := by
  unfold Bit at *; rw [reg_congr h]; exact hb

theorem Bit_raiseEvent {m : Mod} {src cls detail : Nat} {arg : Bytes} {off b : Nat} (hf : eventFree off = true)
    (h : Bit m off b) : Bit (raiseEvent m src cls detail arg) off b := by
  unfold Bit at *; rw [reg_raiseEvent _ _ _ _ _ hf]; exact h

/-- The FAULT bit set is set. -/
theorem Bit_setFault {m : Mod} {a b o : Nat} {v : List Nat} (hf : eventFree a = true) (hb : b < 32) :
    Bit (setFault m a b o v) a b := setFault_bit _ _ _ _ hf hb

/-- A bit stays when a FAULT bit is set. -/
theorem Bit_setFault_other {m : Mod} {a b o : Nat} {v : List Nat} {off k : Nat} (hf : eventFree off = true) (h : Bit m off k) :
    Bit (setFault m a b o v) off k := by
  unfold Bit at *; rw [reg_setFault _ _ _ _ _ hf]; split
  · rename_i e; subst e; rw [BitVec.toNat_or, Nat.testBit_or, h]; rfl
  · exact h

theorem Bit_bump {m : Mod} {a off b : Nat} (hf : eventFree off = true) (ha : off ≠ a) (h : Bit m off b) :
    Bit (bump m a) off b := by
  unfold Bit at *; rw [reg_bump _ _ hf, if_neg ha]; exact h

theorem Bit_bumpO {m : Mod} {a o off b : Nat} (hf : eventFree off = true) (ha : off ≠ a) (hk : a < 0x400000) (h : Bit m off b) :
    Bit (bumpO m a o) off b := by
  unfold Bit at *; unfold bumpO; rw [reg_addCntO _ _ _ _ hf ha hk]; exact h

theorem Bit_setReg_other {m : Mod} {a off b : Nat} {v : Word} (ha : off ≠ a) (h : Bit m off b) : Bit (setReg m a v) off b := by
  unfold Bit at *; rw [reg_setReg_ne _ _ ha]; exact h

@[simp] theorem Bit_startTimer {m : Mod} {k : TimerKind} {i d off b : Nat} : Bit (startTimer m k i d) off b ↔ Bit m off b := Iff.rfl
@[simp] theorem Bit_stopTimer {m : Mod} {k : TimerKind} {i off b : Nat} : Bit (stopTimer m k i) off b ↔ Bit m off b := Iff.rfl
@[simp] theorem Bit_emit {m : Mod} {x : Sent} {off b : Nat} : Bit (emit m x) off b ↔ Bit m off b := Iff.rfl
@[simp] theorem Bit_modHlth {m : Mod} {f : Hlth → Hlth} {off b : Nat} : Bit (modHlth m f) off b ↔ Bit m off b := Iff.rfl
@[simp] theorem Bit_modKpr {m : Mod} {f : Kpr → Kpr} {off b : Nat} : Bit (modKpr m f) off b ↔ Bit m off b := Iff.rfl
@[simp] theorem Bit_modPart {m : Mod} {p : Nat} {f : Part → Part} {off b : Nat} : Bit (modPart m p f) off b ↔ Bit m off b := Iff.rfl
@[simp] theorem Bit_modMtr {m : Mod} {f : Mtr → Mtr} {off b : Nat} : Bit (modMtr m f) off b ↔ Bit m off b := Iff.rfl
@[simp] theorem Bit_modO {m : Mod} {f : Out → Out} {off b : Nat} : Bit (modO m f) off b ↔ Bit m off b := Iff.rfl
@[simp] theorem Bit_modTd {m : Mod} {f : Td → Td} {off b : Nat} : Bit (modTd m f) off b ↔ Bit m off b := Iff.rfl

/-- A bit put to 1 reads 1. -/
theorem putBits_bit (v : Word) {b : Nat} (h : b < 32) : (putBits v b b 1).toNat.testBit b = true := by
  have hv := v.isLt
  unfold putBits bitsOf
  simp only [Nat.sub_self, Nat.zero_add, pow_one, BitVec.toNat_ofNat, show 1 % 2 = 1 from rfl, one_mul]
  rw [Nat.testBit_mod_two_pow, Nat.testBit_eq_decide_div_mod_eq]
  simp only [h, decide_true, Bool.true_and, decide_eq_true_eq]
  have e : v.toNat - v.toNat / 2 ^ b % 2 * 2 ^ b + 2 ^ b = v.toNat % 2 ^ b + 2 ^ b * (2 * (v.toNat / 2 ^ b / 2) + 1) := by
    have h1 := Nat.div_add_mod v.toNat (2 ^ b)
    have h2 := Nat.div_add_mod (v.toNat / 2 ^ b) 2
    have h3 : 2 ^ b * (v.toNat / 2 ^ b) = 2 ^ b * (2 * (v.toNat / 2 ^ b / 2)) + (v.toNat / 2 ^ b % 2) * 2 ^ b := by
      conv_lhs => rw [← h2]
      ring
    have h4 : 2 ^ b * (2 * (v.toNat / 2 ^ b / 2) + 1) = 2 ^ b * (2 * (v.toNat / 2 ^ b / 2)) + 2 ^ b := by ring
    omega
  rw [Nat.shiftRight_eq_div_pow, e, Nat.add_mul_div_left _ _ (Nat.two_pow_pos b), Nat.div_eq_of_lt (Nat.mod_lt _ (Nat.two_pow_pos b))]
  omega

theorem Bit_setBits {m : Mod} {off b : Nat} (h : b < 32) : Bit (setBits m off b b 1) off b := by
  unfold Bit setBits; rw [reg_setReg_same]; exact putBits_bit _ h

/-! ## Timers -/

/-- A timer whose instant has come stops, and its command does what it is for. -/
theorem expire_of_due {m : Mod} {k : TimerKind} {i : Nat} (h : Due m k i) (f : Mod → Mod) :
    expire m k i f = f (stopTimer m k i) := by
  obtain ⟨d, h1, h2⟩ := h; exact expire_due m k i f h1 h2

/-- A timer is as it was when one of another kind is started. -/
theorem timerDue_startTimer_ne (m : Mod) {k k' : TimerKind} {i i' d : Nat} (h : k ≠ k') :
    timerDue (startTimer m k i d) k' i' = timerDue m k' i' := by
  unfold timerDue startTimer setTimerAt stopTimer
  simp only [List.find?_cons]
  have : (k == k') = false := by simpa using h
  simp only [this, Bool.false_and]
  congr 1
  induction m.timers with
  | nil => rfl
  | cons t r ih =>
    simp only [List.filter_cons]
    split
    · simp only [List.find?_cons, ih]
    · rename_i hn
      simp at hn
      simp only [List.find?_cons, ih]
      have : (t.kind == k') = false := by rw [hn.1]; simpa using h
      simp [this]

/-! ## Folds and filters -/

/-- What every step of a fold keeps, the fold keeps. -/
theorem foldl_keep {α β γ : Type} (g : α → γ) (f : α → β → α) (h : ∀ a b, g (f a b) = g a) (l : List β) (a : α) :
    g (l.foldl f a) = g a := by
  induction l generalizing a with
  | nil => rfl
  | cons b l ih => rw [List.foldl_cons, ih, h]

/-- A key filtered out of a store reads as an unlisted one. -/
theorem cellGet_filter_out {α : Type} (d : Nat → α) (l : Cells α) (f : Nat × α → Bool) (k : Nat)
    (h : ∀ v, f (k, v) = false) : cellGet d (l.filter f) k = d k := by
  induction l with
  | nil => rfl
  | cons c r ih =>
    obtain ⟨j, w⟩ := c
    by_cases hf : f (j, w) = true
    · rw [List.filter_cons_of_pos hf, cellGet]
      split
      · rename_i e; subst e; rw [h] at hf; cases hf
      · split
        · exact ih
        · rfl
    · rw [List.filter_cons_of_neg hf]; exact ih

end Sys2Proof.Machine
end

