-- ==== Sys2Proof/Laws/Clock.lean ====
section
/-!
SUPPORT. The passing of time leaves the partitions and the images as they were.
-/
namespace Sys2Proof.Machine

/-- The partitions and the images of both modules agree. -/
theorem held_trans {a b c : Mod} (h : a.parts = b.parts ∧ a.img = b.img) (k : b.parts = c.parts ∧ b.img = c.img) :
    a.parts = c.parts ∧ a.img = c.img := ⟨h.1.trans k.1, h.2.trans k.2⟩

theorem setClkState_held (m : Mod) (st : ClkState) : (setClkState m st).parts = m.parts ∧ (setClkState m st).img = m.img := by
  unfold setClkState
  dsimp only
  generalize clkEnter m.clk (holdForm m) st = c
  split
  · exact ⟨rfl, rfl⟩
  · constructor <;> repeat' split
    all_goals simp only [stateEvent_frame, setFault_frame]

theorem setTimeAxis_held (m : Mod) (t : TimeMode) : (setTimeAxis m t).parts = m.parts ∧ (setTimeAxis m t).img = m.img := by
  unfold setTimeAxis
  split
  · exact ⟨rfl, rfl⟩
  · simp

theorem listenPorts_held (m : Mod) : (listenPorts m).parts = m.parts ∧ (listenPorts m).img = m.img := ⟨rfl, rfl⟩

theorem holdRate_held (m : Mod) : (holdRate m).parts = m.parts ∧ (holdRate m).img = m.img := ⟨rfl, rfl⟩

theorem enterTimeMode_held (m : Mod) (t : TimeMode) : (enterTimeMode m t).parts = m.parts ∧ (enterTimeMode m t).img = m.img := by
  have clk : ∀ (n : Mod) (c : Clk) (st : ClkState), (setClkState { n with clk := c } st).parts = n.parts ∧
      (setClkState { n with clk := c } st).img = n.img := fun n c st => setClkState_held _ st
  have axis : ∀ (n : Mod) (c : Clk) (u : TimeMode), (setTimeAxis { n with clk := c } u).parts = n.parts ∧
      (setTimeAxis { n with clk := c } u).img = n.img := fun n c st => setTimeAxis_held _ st
  unfold enterTimeMode
  split
  · exact ⟨rfl, rfl⟩
  · cases t <;> dsimp only
    · exact held_trans (setClkState_held _ _) (held_trans (listenPorts_held _) (axis m _ _))
    · exact held_trans (clk _ _ _) (held_trans (listenPorts_held _) (axis m _ _))
    · exact held_trans (setClkState_held _ _) (held_trans (listenPorts_held _) (axis m _ _))
    · split
      · refine held_trans (setClkState_held _ _) (held_trans (setTimeAxis_held _ _) ?_)
        split
        · exact holdRate_held _
        · exact ⟨rfl, rfl⟩
      · exact ⟨rfl, rfl⟩
    · exact held_trans (setClkState_held _ _) (axis m _ _)

theorem ppsEdge_held (m : Mod) : (ppsEdge m).parts = m.parts ∧ (ppsEdge m).img = m.img := by
  unfold ppsEdge
  split
  · exact held_trans (enterTimeMode_held _ _) ⟨rfl, rfl⟩
  · exact ⟨rfl, rfl⟩

theorem leapEdge_held (m : Mod) : (leapEdge m).parts = m.parts ∧ (leapEdge m).img = m.img := by
  unfold leapEdge
  generalize pendingLeap m = lp
  dsimp only
  generalize (if lp = 1 then utcOffset m + 1 else utcOffset m - 1) = new
  by_cases h : (lp = 1 ∨ lp = 2) ∧ ((m.clk.sec : Int) - new) % 86400 = 0
  · rw [if_pos h]
    simp only [setFault_frame, setReg_frame, and_self]
  · rw [if_neg h]
    exact ⟨rfl, rfl⟩

theorem addTicks_parts (m : Mod) (n : Nat) : (addTicks m n).parts = m.parts := by unfold addTicks; rfl
theorem addTicks_img (m : Mod) (n : Nat) : (addTicks m n).img = m.img := by unfold addTicks; rfl

theorem carryEdge_held (m : Mod) : (carryEdge m).parts = m.parts ∧ (carryEdge m).img = m.img := by
  unfold carryEdge
  generalize ticksToCarry m = n
  have h := held_trans (ppsEdge_held (leapEdge (addTicks m n))) (leapEdge_held (addTicks m n))
  rw [addTicks_parts, addTicks_img] at h
  exact h

theorem stepClock_held (m : Mod) (t : Nat) : (stepClock m t).parts = m.parts ∧ (stepClock m t).img = m.img := by
  unfold stepClock
  extract_lets d cross c m1 m2 m3 m4
  have a1 : m1.parts = m.parts ∧ m1.img = m.img := ⟨rfl, rfl⟩
  have a2 : m2.parts = m1.parts ∧ m2.img = m1.img := by simp only [m2, bump_frame, and_self]
  have a3 : m3.parts = m2.parts ∧ m3.img = m2.img := by simp only [m3, setFault_frame, and_self]
  clear_value m1 m2 m3 d
  have a4 : m4.parts = m3.parts ∧ m4.img = m3.img := by
    simp only [m4]
    split
    · exact leapEdge_held m3
    · exact ⟨rfl, rfl⟩
  have a := held_trans a4 (held_trans a3 (held_trans a2 a1))
  clear_value m4
  split
  · exact held_trans (ppsEdge_held m4) a
  · exact a

theorem withClk_held (m : Mod) (c : Clk) : ({ m with clk := c } : Mod).parts = m.parts ∧ ({ m with clk := c } : Mod).img = m.img :=
  ⟨rfl, rfl⟩

theorem settleExt_held (m : Mod) : (settleExt m).parts = m.parts ∧ (settleExt m).img = m.img := by
  unfold settleExt
  split
  · exact ⟨rfl, rfl⟩
  · exact setClkState_held m _

/-- A tick that takes a set of the counter. -/
theorem tickSet_held (u : Mod) (e : Nat) :
    (settleExt { u with clk := { u.clk with elapsed := e, hostSet := true } }).parts = u.parts ∧
      (settleExt { u with clk := { u.clk with elapsed := e, hostSet := true } }).img = u.img :=
  held_trans (settleExt_held _) (withClk_held u _)

theorem tick_held (m : Mod) : (tick m).parts = m.parts ∧ (tick m).img = m.img := by
  rw [tick.eq_1]
  have a := stepClock_held m
  have b : ∀ (t e : Nat), (settleExt { stepClock m t with clk := { (stepClock m t).clk with elapsed := e, hostSet := true } }).parts =
      m.parts ∧ _ = m.img := fun t e => held_trans (tickSet_held (stepClock m t) e) (a t)
  cases m.clk.pendStep with
  | some x => exact b _ _
  | none =>
    by_cases h : ticksToCarry m = 1
    · simp only [h, if_true]; exact carryEdge_held m
    · simp only [h, if_false]; exact ⟨addTicks_parts m 1, addTicks_img m 1⟩

theorem takeSet_held (m : Mod) : (takeSet m).parts = m.parts ∧ (takeSet m).img = m.img := by
  unfold takeSet
  split
  · exact tick_held m
  · exact ⟨rfl, rfl⟩

theorem toPps_held (m : Mod) : (toPps m).parts = m.parts ∧ (toPps m).img = m.img := by
  unfold toPps
  have a := takeSet_held m
  generalize takeSet m = u at a ⊢
  dsimp only
  split
  · exact held_trans (carryEdge_held u) a
  · exact a

theorem runTicks_held (k : Nat) (m : Mod) (n : Nat) : (runTicks k m n).parts = m.parts ∧ (runTicks k m n).img = m.img := by
  induction k generalizing m n with
  | zero => exact ⟨rfl, rfl⟩
  | succ k ih =>
    rw [runTicks]
    split
    · exact ⟨addTicks_parts m n, addTicks_img m n⟩
    · exact held_trans (ih _ _) (carryEdge_held m)

theorem runUntil_held (m : Mod) (d : Nat) : (runUntil m d).parts = m.parts ∧ (runUntil m d).img = m.img := by
  rw [runUntil.eq_1]
  generalize ticksFor (tickInc m) m.clk.slewLeft (d - m.clk.elapsed) = n
  have a : ∀ k, (runTicks k m n).parts = m.parts ∧ (runTicks k m n).img = m.img := fun k => runTicks_held k m n
  generalize runTicks = f at a ⊢
  exact a _

theorem advanceTo_held (m : Mod) (d : Nat) : (advanceTo m d).parts = m.parts ∧ (advanceTo m d).img = m.img := by
  rw [advanceTo.eq_1]
  split
  · exact ⟨rfl, rfl⟩
  · exact held_trans (runUntil_held (takeSet m) d) (takeSet_held m)

end Sys2Proof.Machine
end

