-- ==== Sys2Proof/Laws/Exec.lean ====
section
/-!
SUPPORT. Each arm of `exec`: the command's own meaning.
-/
namespace Sys2Proof.Machine

@[simp] theorem exec_holdOkChange (ok : Bool) (cv : Nat) (s : State) : exec (.holdOkChange ok cv) s = execHoldOkChange ok cv s := rfl
@[simp] theorem exec_pcieLinkTrained (gen : Nat) (width : Nat) (s : State) : exec (.pcieLinkTrained gen width) s = execPcieLinkTrained gen width s := rfl
@[simp] theorem exec_tamperDetected (cause : Nat) (s : State) : exec (.tamperDetected cause) s = execTamperDetected cause s := rfl
@[simp] theorem exec_battLowDetected (mv : Nat) (s : State) : exec (.battLowDetected mv) s = execBattLowDetected mv s := rfl
@[simp] theorem exec_thermalReading (plate : Int) (junctions : List Int) (s : State) : exec (.thermalReading plate junctions) s = execThermalReading plate junctions s := rfl
@[simp] theorem exec_imageStage (rq : KReq) (off : Nat) (len : Nat) (s : State) : exec (.imageStage rq off len) s = execImageStage rq off len s := rfl
@[simp] theorem exec_imageCommit (rq : KReq) (id : Nat) (s : State) : exec (.imageCommit rq id) s = execImageCommit rq id s := rfl
@[simp] theorem exec_imageDiscard (rq : KReq) (s : State) : exec (.imageDiscard rq) s = execImageDiscard rq s := rfl
@[simp] theorem exec_partitionStart (rq : KReq) (part : Nat) (s : State) : exec (.partitionStart rq part) s = execPartitionStart rq part s := rfl
@[simp] theorem exec_partitionHalt (rq : KReq) (part : Nat) (s : State) : exec (.partitionHalt rq part) s = execPartitionHalt rq part s := rfl
@[simp] theorem exec_partitionHaltPoint (part : Nat) (s : State) : exec (.partitionHaltPoint part) s = execPartitionHaltPoint part s := rfl
@[simp] theorem exec_partitionHalted (part : Nat) (s : State) : exec (.partitionHalted part) s = execPartitionHalted part s := rfl
@[simp] theorem exec_partitionLoadComplete (part : Nat) (ok : Bool) (s : State) : exec (.partitionLoadComplete part ok) s = execPartitionLoadComplete part ok s := rfl
@[simp] theorem exec_partitionGoLive (part : Nat) (s : State) : exec (.partitionGoLive part) s = execPartitionGoLive part s := rfl
@[simp] theorem exec_roleSet (rq : KReq) (role : Role) (s : State) : exec (.roleSet rq role) s = execRoleSet rq role s := rfl
@[simp] theorem exec_timeMode (rq : KReq) (mode : TimeMode) (s : State) : exec (.timeMode rq mode) s = execTimeMode rq mode s := rfl
@[simp] theorem exec_testMode (rq : KReq) (value : TestVal) (s : State) : exec (.testMode rq value) s = execTestMode rq value s := rfl
@[simp] theorem exec_compatSet (rq : KReq) (vz20 : Bool) (s : State) : exec (.compatSet rq vz20) s = execCompatSet rq vz20 s := rfl
@[simp] theorem exec_status (rq : KReq) (s : State) : exec (.status rq) s = execStatus rq s := rfl
@[simp] theorem exec_stats (rq : KReq) (block : Nat) (obj : Nat) (s : State) : exec (.stats rq block obj) s = execStats rq block obj s := rfl
@[simp] theorem exec_nameLookup (rq : KReq) (kind : Nat) (num : Nat) (s : State) : exec (.nameLookup rq kind num) s = execNameLookup rq kind num s := rfl
@[simp] theorem exec_fileRead (rq : KReq) (handle : Nat) (off : Nat) (len : Nat) (dst : Nat) (s : State) : exec (.fileRead rq handle off len dst) s = execFileRead rq handle off len dst s := rfl
@[simp] theorem exec_tdSnapshot (rq : KReq) (part : Nat) (s : State) : exec (.tdSnapshot rq part) s = execTdSnapshot rq part s := rfl
@[simp] theorem exec_recList (rq : KReq) (first : Nat) (count : Nat) (s : State) : exec (.recList rq first count) s = execRecList rq first count s := rfl
@[simp] theorem exec_recInfo (rq : KReq) (num : Nat) (s : State) : exec (.recInfo rq num) s = execRecInfo rq num s := rfl
@[simp] theorem exec_recExport (rq : KReq) (num : Nat) (format : Nat) (timeCode : Int) (off : Nat) (len : Nat) (s : State) : exec (.recExport rq num format timeCode off len) s = execRecExport rq num format timeCode off len s := rfl
@[simp] theorem exec_recDelete (rq : KReq) (num : Nat) (s : State) : exec (.recDelete rq num) s = execRecDelete rq num s := rfl
@[simp] theorem exec_mtrLogRead (rq : KReq) (first : Nat) (count : Nat) (off : Nat) (s : State) : exec (.mtrLogRead rq first count off) s = execMtrLogRead rq first count off s := rfl
@[simp] theorem exec_keyCommission (rq : KReq) (sig : Bytes) (s : State) : exec (.keyCommission rq sig) s = execKeyCommission rq sig s := rfl
@[simp] theorem exec_keyClose (rq : KReq) (s : State) : exec (.keyClose rq) s = execKeyClose rq s := rfl
@[simp] theorem exec_keyLoad (rq : KReq) (slot : Nat) (policy : Nat) (type : Nat) (kid : Nat) (mat : Bytes) (auth : Bytes) (backupOk : Bool) (s : State) : exec (.keyLoad rq slot policy type kid mat auth backupOk) s = execKeyLoad rq slot policy type kid mat auth backupOk s := rfl
@[simp] theorem exec_keyCommit (rq : KReq) (slot : Nat) (s : State) : exec (.keyCommit rq slot) s = execKeyCommit rq slot s := rfl
@[simp] theorem exec_keyErase (rq : KReq) (slot : Nat) (s : State) : exec (.keyErase rq slot) s = execKeyErase rq slot s := rfl
@[simp] theorem exec_keySignLog (rq : KReq) (slot : Nat) (first : Nat) (count : Nat) (s : State) : exec (.keySignLog rq slot first count) s = execKeySignLog rq slot first count s := rfl
@[simp] theorem exec_keyUnseal (rq : KReq) (kid : Nat) (mac : Bytes) (s : State) : exec (.keyUnseal rq kid mac) s = execKeyUnseal rq kid mac s := rfl
@[simp] theorem exec_selftestReq (rq : KReq) (mask : Nat) (s : State) : exec (.selftestReq rq mask) s = execSelftestReq rq mask s := rfl
@[simp] theorem exec_selftestFull (rq : KReq) (mask : Nat) (results : List FullTest) (s : State) : exec (.selftestFull rq mask results) s = execSelftestFull rq mask results s := rfl
@[simp] theorem exec_recover (rq : KReq) (rung : Nat) (part : Nat) (s : State) : exec (.recover rq rung part) s = execRecover rq rung part s := rfl
@[simp] theorem exec_healthReport (rq : KReq) (s : State) : exec (.healthReport rq) s = execHealthReport rq s := rfl
@[simp] theorem exec_hlthRecoverRung2 (part : Nat) (be : BitVec 4) (s : State) : exec (.hlthRecoverRung2 part be) s = execHlthRecoverRung2 part be s := rfl
@[simp] theorem exec_hlthRecoverRung3 (be : BitVec 4) (s : State) : exec (.hlthRecoverRung3 be) s = execHlthRecoverRung3 be s := rfl
@[simp] theorem exec_hlthRecoverRung4 (be : BitVec 4) (s : State) : exec (.hlthRecoverRung4 be) s = execHlthRecoverRung4 be s := rfl
@[simp] theorem exec_shedLevelUpdate (core0 : Nat) (core1 : Nat) (core2 : Nat) (core3 : Nat) (s : State) : exec (.shedLevelUpdate core0 core1 core2 core3) s = execShedLevelUpdate core0 core1 core2 core3 s := rfl
@[simp] theorem exec_scrubPass (word : ScrubWord) (find : ScrubFind) (s : State) : exec (.scrubPass word find) s = execScrubPass word find s := rfl
@[simp] theorem exec_residentSetRewrite (cluster : Nat) (engine : Nat) (part : Nat) (s : State) : exec (.residentSetRewrite cluster engine part) s = execResidentSetRewrite cluster engine part s := rfl
@[simp] theorem exec_paletteRewrite (group : Nat) (s : State) : exec (.paletteRewrite group) s = execPaletteRewrite group s := rfl
@[simp] theorem exec_clusterDrained (cluster : Nat) (s : State) : exec (.clusterDrained cluster) s = execClusterDrained cluster s := rfl
@[simp] theorem exec_clusterSelftestComplete (cluster : Nat) (pass : Bool) (flowOk : Bool) (ms : Nat) (s : State) : exec (.clusterSelftestComplete cluster pass flowOk ms) s = execClusterSelftestComplete cluster pass flowOk ms s := rfl
@[simp] theorem exec_ageingReading (clusters : List Int) (islands : List Int) (s : State) : exec (.ageingReading clusters islands) s = execAgeingReading clusters islands s := rfl
@[simp] theorem exec_heldTokenEntry (tmpl : Nat) (op : Nat) (s : State) : exec (.heldTokenEntry tmpl op) s = execHeldTokenEntry tmpl op s := rfl
@[simp] theorem exec_taskIssue (cluster : Nat) (s : State) : exec (.taskIssue cluster) s = execTaskIssue cluster s := rfl
@[simp] theorem exec_stealDecision (cluster : Nat) (s : State) : exec (.stealDecision cluster) s = execStealDecision cluster s := rfl
@[simp] theorem exec_taskRetire (tmpl : Nat) (tag : Nat) (s : State) : exec (.taskRetire tmpl tag) s = execTaskRetire tmpl tag s := rfl
@[simp] theorem exec_delayExpiry (list : Nat) (s : State) : exec (.delayExpiry list) s = execDelayExpiry list s := rfl
@[simp] theorem exec_taskFault (tmpl : Nat) (tag : Nat) (kind : TaskFaultKind) (s : State) : exec (.taskFault tmpl tag kind) s = execTaskFault tmpl tag kind s := rfl
@[simp] theorem exec_add (tmpl : Nat) (tag : Nat) (s : State) : exec (.add tmpl tag) s = execAdd tmpl tag s := rfl
@[simp] theorem exec_sub (tmpl : Nat) (tag : Nat) (s : State) : exec (.sub tmpl tag) s = execSub tmpl tag s := rfl
@[simp] theorem exec_mul (tmpl : Nat) (tag : Nat) (s : State) : exec (.mul tmpl tag) s = execMul tmpl tag s := rfl
@[simp] theorem exec_div (tmpl : Nat) (tag : Nat) (s : State) : exec (.div tmpl tag) s = execDiv tmpl tag s := rfl
@[simp] theorem exec_mac (tmpl : Nat) (tag : Nat) (s : State) : exec (.mac tmpl tag) s = execMac tmpl tag s := rfl
@[simp] theorem exec_absNeg (tmpl : Nat) (tag : Nat) (s : State) : exec (.absNeg tmpl tag) s = execAbsNeg tmpl tag s := rfl
@[simp] theorem exec_minmax (tmpl : Nat) (tag : Nat) (s : State) : exec (.minmax tmpl tag) s = execMinmax tmpl tag s := rfl
@[simp] theorem exec_sqrt (tmpl : Nat) (tag : Nat) (s : State) : exec (.sqrt tmpl tag) s = execSqrt tmpl tag s := rfl
@[simp] theorem exec_scale (tmpl : Nat) (tag : Nat) (s : State) : exec (.scale tmpl tag) s = execScale tmpl tag s := rfl
@[simp] theorem exec_convert (tmpl : Nat) (tag : Nat) (s : State) : exec (.convert tmpl tag) s = execConvert tmpl tag s := rfl
@[simp] theorem exec_select (tmpl : Nat) (tag : Nat) (s : State) : exec (.select tmpl tag) s = execSelect tmpl tag s := rfl
@[simp] theorem exec_limit (tmpl : Nat) (tag : Nat) (s : State) : exec (.limit tmpl tag) s = execLimit tmpl tag s := rfl
@[simp] theorem exec_intOp (tmpl : Nat) (tag : Nat) (s : State) : exec (.intOp tmpl tag) s = execIntOp tmpl tag s := rfl
@[simp] theorem exec_poly (tmpl : Nat) (tag : Nat) (s : State) : exec (.poly tmpl tag) s = execPoly tmpl tag s := rfl
@[simp] theorem exec_cpxMag (tmpl : Nat) (tag : Nat) (s : State) : exec (.cpxMag tmpl tag) s = execCpxMag tmpl tag s := rfl
@[simp] theorem exec_cpxAng (tmpl : Nat) (tag : Nat) (s : State) : exec (.cpxAng tmpl tag) s = execCpxAng tmpl tag s := rfl
@[simp] theorem exec_polar (tmpl : Nat) (tag : Nat) (s : State) : exec (.polar tmpl tag) s = execPolar tmpl tag s := rfl
@[simp] theorem exec_rotate (tmpl : Nat) (tag : Nat) (s : State) : exec (.rotate tmpl tag) s = execRotate tmpl tag s := rfl
@[simp] theorem exec_seqComp (tmpl : Nat) (tag : Nat) (s : State) : exec (.seqComp tmpl tag) s = execSeqComp tmpl tag s := rfl
@[simp] theorem exec_deltaPh (tmpl : Nat) (tag : Nat) (s : State) : exec (.deltaPh tmpl tag) s = execDeltaPh tmpl tag s := rfl
@[simp] theorem exec_power (tmpl : Nat) (tag : Nat) (s : State) : exec (.power tmpl tag) s = execPower tmpl tag s := rfl
@[simp] theorem exec_impedance (tmpl : Nat) (tag : Nat) (s : State) : exec (.impedance tmpl tag) s = execImpedance tmpl tag s := rfl
@[simp] theorem exec_loopImp (tmpl : Nat) (tag : Nat) (s : State) : exec (.loopImp tmpl tag) s = execLoopImp tmpl tag s := rfl
@[simp] theorem exec_angleDiff (tmpl : Nat) (tag : Nat) (s : State) : exec (.angleDiff tmpl tag) s = execAngleDiff tmpl tag s := rfl
@[simp] theorem exec_tsComp (tmpl : Nat) (tag : Nat) (s : State) : exec (.tsComp tmpl tag) s = execTsComp tmpl tag s := rfl
@[simp] theorem exec_freqEst (tmpl : Nat) (tag : Nat) (s : State) : exec (.freqEst tmpl tag) s = execFreqEst tmpl tag s := rfl
@[simp] theorem exec_mho (tmpl : Nat) (tag : Nat) (s : State) : exec (.mho tmpl tag) s = execMho tmpl tag s := rfl
@[simp] theorem exec_quad (tmpl : Nat) (tag : Nat) (s : State) : exec (.quad tmpl tag) s = execQuad tmpl tag s := rfl
@[simp] theorem exec_directional (tmpl : Nat) (tag : Nat) (s : State) : exec (.directional tmpl tag) s = execDirectional tmpl tag s := rfl
@[simp] theorem exec_idmt (tmpl : Nat) (tag : Nat) (s : State) : exec (.idmt tmpl tag) s = execIdmt tmpl tag s := rfl
@[simp] theorem exec_loadEnc (tmpl : Nat) (tag : Nat) (s : State) : exec (.loadEnc tmpl tag) s = execLoadEnc tmpl tag s := rfl
@[simp] theorem exec_pswing (tmpl : Nat) (tag : Nat) (s : State) : exec (.pswing tmpl tag) s = execPswing tmpl tag s := rfl
@[simp] theorem exec_diffBias (tmpl : Nat) (tag : Nat) (s : State) : exec (.diffBias tmpl tag) s = execDiffBias tmpl tag s := rfl
@[simp] theorem exec_diffBiasN (tmpl : Nat) (tag : Nat) (s : State) : exec (.diffBiasN tmpl tag) s = execDiffBiasN tmpl tag s := rfl
@[simp] theorem exec_harmRestr (tmpl : Nat) (tag : Nat) (s : State) : exec (.harmRestr tmpl tag) s = execHarmRestr tmpl tag s := rfl
@[simp] theorem exec_cmpOver (tmpl : Nat) (tag : Nat) (s : State) : exec (.cmpOver tmpl tag) s = execCmpOver tmpl tag s := rfl
@[simp] theorem exec_cmpUnder (tmpl : Nat) (tag : Nat) (s : State) : exec (.cmpUnder tmpl tag) s = execCmpUnder tmpl tag s := rfl
@[simp] theorem exec_cmpBand (tmpl : Nat) (tag : Nat) (s : State) : exec (.cmpBand tmpl tag) s = execCmpBand tmpl tag s := rfl
@[simp] theorem exec_cmpRate (tmpl : Nat) (tag : Nat) (s : State) : exec (.cmpRate tmpl tag) s = execCmpRate tmpl tag s := rfl
@[simp] theorem exec_cmpDelta (tmpl : Nat) (tag : Nat) (s : State) : exec (.cmpDelta tmpl tag) s = execCmpDelta tmpl tag s := rfl
@[simp] theorem exec_logic64 (tmpl : Nat) (tag : Nat) (s : State) : exec (.logic64 tmpl tag) s = execLogic64 tmpl tag s := rfl
@[simp] theorem exec_bitPack (tmpl : Nat) (tag : Nat) (s : State) : exec (.bitPack tmpl tag) s = execBitPack tmpl tag s := rfl
@[simp] theorem exec_bitExtract (tmpl : Nat) (tag : Nat) (s : State) : exec (.bitExtract tmpl tag) s = execBitExtract tmpl tag s := rfl
@[simp] theorem exec_edge (tmpl : Nat) (tag : Nat) (s : State) : exec (.edge tmpl tag) s = execEdge tmpl tag s := rfl
@[simp] theorem exec_timerOn (tmpl : Nat) (tag : Nat) (s : State) : exec (.timerOn tmpl tag) s = execTimerOn tmpl tag s := rfl
@[simp] theorem exec_timerOff (tmpl : Nat) (tag : Nat) (s : State) : exec (.timerOff tmpl tag) s = execTimerOff tmpl tag s := rfl
@[simp] theorem exec_pulse (tmpl : Nat) (tag : Nat) (s : State) : exec (.pulse tmpl tag) s = execPulse tmpl tag s := rfl
@[simp] theorem exec_latchSr (tmpl : Nat) (tag : Nat) (s : State) : exec (.latchSr tmpl tag) s = execLatchSr tmpl tag s := rfl
@[simp] theorem exec_countConsec (tmpl : Nat) (tag : Nat) (s : State) : exec (.countConsec tmpl tag) s = execCountConsec tmpl tag s := rfl
@[simp] theorem exec_countEvent (tmpl : Nat) (tag : Nat) (s : State) : exec (.countEvent tmpl tag) s = execCountEvent tmpl tag s := rfl
@[simp] theorem exec_timerInteg (tmpl : Nat) (tag : Nat) (s : State) : exec (.timerInteg tmpl tag) s = execTimerInteg tmpl tag s := rfl
@[simp] theorem exec_sampleHold (tmpl : Nat) (tag : Nat) (s : State) : exec (.sampleHold tmpl tag) s = execSampleHold tmpl tag s := rfl
@[simp] theorem exec_meanWin (tmpl : Nat) (tag : Nat) (s : State) : exec (.meanWin tmpl tag) s = execMeanWin tmpl tag s := rfl
@[simp] theorem exec_rmsWin (tmpl : Nat) (tag : Nat) (s : State) : exec (.rmsWin tmpl tag) s = execRmsWin tmpl tag s := rfl
@[simp] theorem exec_minmaxWin (tmpl : Nat) (tag : Nat) (s : State) : exec (.minmaxWin tmpl tag) s = execMinmaxWin tmpl tag s := rfl
@[simp] theorem exec_ewStat (tmpl : Nat) (tag : Nat) (s : State) : exec (.ewStat tmpl tag) s = execEwStat tmpl tag s := rfl
@[simp] theorem exec_corrEw (tmpl : Nat) (tag : Nat) (s : State) : exec (.corrEw tmpl tag) s = execCorrEw tmpl tag s := rfl
@[simp] theorem exec_spread (tmpl : Nat) (tag : Nat) (s : State) : exec (.spread tmpl tag) s = execSpread tmpl tag s := rfl
@[simp] theorem exec_integrate (tmpl : Nat) (tag : Nat) (s : State) : exec (.integrate tmpl tag) s = execIntegrate tmpl tag s := rfl
@[simp] theorem exec_modalAcc (tmpl : Nat) (tag : Nat) (s : State) : exec (.modalAcc tmpl tag) s = execModalAcc tmpl tag s := rfl
@[simp] theorem exec_modalFit (tmpl : Nat) (tag : Nat) (s : State) : exec (.modalFit tmpl tag) s = execModalFit tmpl tag s := rfl
@[simp] theorem exec_modalTrack (tmpl : Nat) (tag : Nat) (s : State) : exec (.modalTrack tmpl tag) s = execModalTrack tmpl tag s := rfl
@[simp] theorem exec_pgramAcc (tmpl : Nat) (tag : Nat) (s : State) : exec (.pgramAcc tmpl tag) s = execPgramAcc tmpl tag s := rfl
@[simp] theorem exec_pgramPeak (tmpl : Nat) (tag : Nat) (s : State) : exec (.pgramPeak tmpl tag) s = execPgramPeak tmpl tag s := rfl
@[simp] theorem exec_goosePub (tmpl : Nat) (tag : Nat) (s : State) : exec (.goosePub tmpl tag) s = execGoosePub tmpl tag s := rfl
@[simp] theorem exec_gooseStage (tmpl : Nat) (tag : Nat) (s : State) : exec (.gooseStage tmpl tag) s = execGooseStage tmpl tag s := rfl
@[simp] theorem exec_claim (tmpl : Nat) (tag : Nat) (s : State) : exec (.claim tmpl tag) s = execClaim tmpl tag s := rfl
@[simp] theorem exec_recTrigger (tmpl : Nat) (tag : Nat) (s : State) : exec (.recTrigger tmpl tag) s = execRecTrigger tmpl tag s := rfl
@[simp] theorem exec_alarm (tmpl : Nat) (tag : Nat) (s : State) : exec (.alarm tmpl tag) s = execAlarm tmpl tag s := rfl
@[simp] theorem exec_meterAcc (tmpl : Nat) (tag : Nat) (s : State) : exec (.meterAcc tmpl tag) s = execMeterAcc tmpl tag s := rfl
@[simp] theorem exec_pmuPub (tmpl : Nat) (tag : Nat) (s : State) : exec (.pmuPub tmpl tag) s = execPmuPub tmpl tag s := rfl
@[simp] theorem exec_eventWrite (tmpl : Nat) (tag : Nat) (s : State) : exec (.eventWrite tmpl tag) s = execEventWrite tmpl tag s := rfl
@[simp] theorem exec_settingsGroupRequest (v : Word) (be : BitVec 4) (s : State) : exec (.settingsGroupRequest v be) s = execSettingsGroupRequest v be s := rfl
@[simp] theorem exec_macFrameReceived (port : Nat) (frame : Frame) (s : State) : exec (.macFrameReceived port frame) s = execMacFrameReceived port frame s := rfl
@[simp] theorem exec_linkDown (port : Nat) (cut : Bool) (s : State) : exec (.linkDown port cut) s = execLinkDown port cut s := rfl
@[simp] theorem exec_linkUp (port : Nat) (speedOk : Bool) (s : State) : exec (.linkUp port speedOk) s = execLinkUp port speedOk s := rfl
@[simp] theorem exec_pauseExpiry (port : Nat) (s : State) : exec (.pauseExpiry port) s = execPauseExpiry port s := rfl
@[simp] theorem exec_frameTransmit (port : Nat) (s : State) : exec (.frameTransmit port) s = execFrameTransmit port s := rfl
@[simp] theorem exec_arpRefresh (port : Nat) (s : State) : exec (.arpRefresh port) s = execArpRefresh port s := rfl
@[simp] theorem exec_supervisionFrameTimer (pair : Nat) (s : State) : exec (.supervisionFrameTimer pair) s = execSupervisionFrameTimer pair s := rfl
@[simp] theorem exec_nodeForget (pair : Nat) (s : State) : exec (.nodeForget pair) s = execNodeForget pair s := rfl
@[simp] theorem exec_parserHoldRelease (port : Nat) (s : State) : exec (.parserHoldRelease port) s = execParserHoldRelease port s := rfl
@[simp] theorem exec_hostRxRingTail (ring : Nat) (v : Word) (be : BitVec 4) (s : State) : exec (.hostRxRingTail ring v be) s = execHostRxRingTail ring v be s := rfl
@[simp] theorem exec_hostTxRingTail (ring : Nat) (v : Word) (be : BitVec 4) (s : State) : exec (.hostTxRingTail ring v be) s = execHostTxRingTail ring v be s := rfl
@[simp] theorem exec_hostTxDescriptor (ring : Nat) (s : State) : exec (.hostTxDescriptor ring) s = execHostTxDescriptor ring s := rfl
@[simp] theorem exec_hostTxQueueTimeout (ring : Nat) (s : State) : exec (.hostTxQueueTimeout ring) s = execHostTxQueueTimeout ring s := rfl
@[simp] theorem exec_ringBaseSizeWrite (ring : Nat) (size : Bool) (v : Word) (be : BitVec 4) (s : State) : exec (.ringBaseSizeWrite ring size v be) s = execRingBaseSizeWrite ring size v be s := rfl
@[simp] theorem exec_m0FrameReceived (bytes : Bytes) (full : Bool) (s : State) : exec (.m0FrameReceived bytes full) s = execM0FrameReceived bytes full s := rfl
@[simp] theorem exec_svFrameReceived (port : Nat) (s : State) : exec (.svFrameReceived port) s = execSvFrameReceived port s := rfl
@[simp] theorem exec_svTagMissing (sub : Nat) (s : State) : exec (.svTagMissing sub) s = execSvTagMissing sub s := rfl
@[simp] theorem exec_svSlip (sub : Nat) (s : State) : exec (.svSlip sub) s = execSvSlip sub s := rfl
@[simp] theorem exec_svBlock (v : Word) (be : BitVec 4) (s : State) : exec (.svBlock v be) s = execSvBlock v be s := rfl
@[simp] theorem exec_pqEventTimeout (pq : Nat) (s : State) : exec (.pqEventTimeout pq) s = execPqEventTimeout pq s := rfl
@[simp] theorem exec_paletteFadeEnd (group : Nat) (s : State) : exec (.paletteFadeEnd group) s = execPaletteFadeEnd group s := rfl
@[simp] theorem exec_pmuFrameReceived (port : Nat) (s : State) : exec (.pmuFrameReceived port) s = execPmuFrameReceived port s := rfl
@[simp] theorem exec_pmuTcpFrame (input : Nat) (frame : PmuFrame) (s : State) : exec (.pmuTcpFrame input frame) s = execPmuTcpFrame input frame s := rfl
@[simp] theorem exec_pmuTcpReconnect (input : Nat) (ok : Bool) (s : State) : exec (.pmuTcpReconnect input ok) s = execPmuTcpReconnect input ok s := rfl
@[simp] theorem exec_pmuTcpDown (input : Nat) (s : State) : exec (.pmuTcpDown input) s = execPmuTcpDown input s := rfl
@[simp] theorem exec_pmuInputLost (input : Nat) (s : State) : exec (.pmuInputLost input) s = execPmuInputLost input s := rfl
@[simp] theorem exec_c37CommandFrame (port : Nat) (s : State) : exec (.c37CommandFrame port) s = execC37CommandFrame port s := rfl
@[simp] theorem exec_sluiceRelease (out : Nat) (s : State) : exec (.sluiceRelease out) s = execSluiceRelease out s := rfl
@[simp] theorem exec_sluiceReleaseResume (out : Nat) (s : State) : exec (.sluiceReleaseResume out) s = execSluiceReleaseResume out s := rfl
@[simp] theorem exec_configChangeFlagExpiry (out : Nat) (s : State) : exec (.configChangeFlagExpiry out) s = execConfigChangeFlagExpiry out s := rfl
@[simp] theorem exec_bsnInBlock (v : Word) (be : BitVec 4) (s : State) : exec (.bsnInBlock v be) s = execBsnInBlock v be s := rfl
@[simp] theorem exec_wadAlmAck (v : Word) (be : BitVec 4) (s : State) : exec (.wadAlmAck v be) s = execWadAlmAck v be s := rfl
@[simp] theorem exec_federationMessageReceived (port : Nat) (s : State) : exec (.federationMessageReceived port) s = execFederationMessageReceived port s := rfl
@[simp] theorem exec_federationRepeat (alarm : Nat) (s : State) : exec (.federationRepeat alarm) s = execFederationRepeat alarm s := rfl
@[simp] theorem exec_gooseFrameReceived (port : Nat) (s : State) : exec (.gooseFrameReceived port) s = execGooseFrameReceived port s := rfl
@[simp] theorem exec_gooseTalExpiry (sub : Nat) (s : State) : exec (.gooseTalExpiry sub) s = execGooseTalExpiry sub s := rfl
@[simp] theorem exec_gooseRetransmit (pub : Nat) (s : State) : exec (.gooseRetransmit pub) s = execGooseRetransmit pub s := rfl
@[simp] theorem exec_hello (crcOk : Bool) (data : HelloData) (s : State) : exec (.hello crcOk data) s = execHello crcOk data s := rfl
@[simp] theorem exec_heartbeat (crcOk : Bool) (data : HeartbeatData) (s : State) : exec (.heartbeat crcOk data) s = execHeartbeat crcOk data s := rfl
@[simp] theorem exec_digest (crcOk : Bool) (tag : Nat) (output : Nat) (state : Nat) (s : State) : exec (.digest crcOk tag output state) s = execDigest crcOk tag output state s := rfl
@[simp] theorem exec_copy (crcOk : Bool) (tag : Nat) (recs : List CopyRec) (s : State) : exec (.copy crcOk tag recs) s = execCopy crcOk tag recs s := rfl
@[simp] theorem exec_copyEnd (crcOk : Bool) (tag : Nat) (count : Nat) (bytes : Nat) (crc : Nat) (s : State) : exec (.copyEnd crcOk tag count bytes crc) s = execCopyEnd crcOk tag count bytes crc s := rfl
@[simp] theorem exec_sweep (crcOk : Bool) (recs : List CopyRec) (last : Bool) (s : State) : exec (.sweep crcOk recs last) s = execSweep crcOk recs last s := rfl
@[simp] theorem exec_fault (crcOk : Bool) (reason : Nat) (tag : Nat) (s : State) : exec (.fault crcOk reason tag) s = execFault crcOk reason tag s := rfl
@[simp] theorem exec_revertReq (crcOk : Bool) (tag : Nat) (s : State) : exec (.revertReq crcOk tag) s = execRevertReq crcOk tag s := rfl
@[simp] theorem exec_revertAck (crcOk : Bool) (tag : Nat) (s : State) : exec (.revertAck crcOk tag) s = execRevertAck crcOk tag s := rfl
@[simp] theorem exec_revertNak (crcOk : Bool) (tag : Nat) (s : State) : exec (.revertNak crcOk tag) s = execRevertNak crcOk tag s := rfl
@[simp] theorem exec_refereeStatus (port : Nat) (s : State) : exec (.refereeStatus port) s = execRefereeStatus port s := rfl
@[simp] theorem exec_report (port : Nat) (s : State) : exec (.report port) s = execReport port s := rfl
@[simp] theorem exec_takeoverReq (port : Nat) (s : State) : exec (.takeoverReq port) s = execTakeoverReq port s := rfl
@[simp] theorem exec_verdict (port : Nat) (s : State) : exec (.verdict port) s = execVerdict port s := rfl
@[simp] theorem exec_grant (port : Nat) (s : State) : exec (.grant port) s = execGrant port s := rfl
@[simp] theorem exec_refStatus (port : Nat) (s : State) : exec (.refStatus port) s = execRefStatus port s := rfl
@[simp] theorem exec_verdictWaitExpiry (tag : Nat) (s : State) : exec (.verdictWaitExpiry tag) s = execVerdictWaitExpiry tag s := rfl
@[simp] theorem exec_copyBoundMiss (tag : Nat) (s : State) : exec (.copyBoundMiss tag) s = execCopyBoundMiss tag s := rfl
@[simp] theorem exec_outUnitWrite (v : Word) (be : BitVec 4) (s : State) : exec (.outUnitWrite v be) s = execOutUnitWrite v be s := rfl
@[simp] theorem exec_outEpochSet (v : Word) (be : BitVec 4) (s : State) : exec (.outEpochSet v be) s = execOutEpochSet v be s := rfl
@[simp] theorem exec_ptpMessageReceived (port : Nat) (s : State) : exec (.ptpMessageReceived port) s = execPtpMessageReceived port s := rfl
@[simp] theorem exec_ptpMessageTimer (port : Nat) (kind : Nat) (s : State) : exec (.ptpMessageTimer port kind) s = execPtpMessageTimer port kind s := rfl
@[simp] theorem exec_ext1ppsEdge (tenOk : Bool) (s : State) : exec (.ext1ppsEdge tenOk) s = execExt1ppsEdge tenOk s := rfl
@[simp] theorem exec_extReferenceLost (ten : Bool) (s : State) : exec (.extReferenceLost ten) s = execExtReferenceLost ten s := rfl
@[simp] theorem exec_ptpSetCmd (v : Word) (be : BitVec 4) (s : State) : exec (.ptpSetCmd v be) s = execPtpSetCmd v be s := rfl
@[simp] theorem exec_ptpUtcWrite (v : Word) (be : BitVec 4) (s : State) : exec (.ptpUtcWrite v be) s = execPtpUtcWrite v be s := rfl
@[simp] theorem exec_ptpFreqWrite (v : Word) (be : BitVec 4) (s : State) : exec (.ptpFreqWrite v be) s = execPtpFreqWrite v be s := rfl
@[simp] theorem exec_ptpMboxSel (v : Word) (be : BitVec 4) (s : State) : exec (.ptpMboxSel v be) s = execPtpMboxSel v be s := rfl
@[simp] theorem exec_mtrMboxSel (v : Word) (be : BitVec 4) (s : State) : exec (.mtrMboxSel v be) s = execMtrMboxSel v be s := rfl
@[simp] theorem exec_evrMboxSel (v : Word) (be : BitVec 4) (s : State) : exec (.evrMboxSel v be) s = execEvrMboxSel v be s := rfl
@[simp] theorem exec_hostMboxSel (v : Word) (be : BitVec 4) (s : State) : exec (.hostMboxSel v be) s = execHostMboxSel v be s := rfl
@[simp] theorem exec_mboxData3Read (box : WideBox) (be : BitVec 4) (s : State) : exec (.mboxData3Read box be) s = execMboxData3Read box be s := rfl
@[simp] theorem exec_recManual (half : Nat) (v : Word) (be : BitVec 4) (s : State) : exec (.recManual half v be) s = execRecManual half v be s := rfl
@[simp] theorem exec_recArm (v : Word) (be : BitVec 4) (s : State) : exec (.recArm v be) s = execRecArm v be s := rfl
@[simp] theorem exec_recordClose (defn : Nat) (s : State) : exec (.recordClose defn) s = execRecordClose defn s := rfl
@[simp] theorem exec_holdOffExpiry (defn : Nat) (s : State) : exec (.holdOffExpiry defn) s = execHoldOffExpiry defn s := rfl
@[simp] theorem exec_recordCopy (num : Nat) (s : State) : exec (.recordCopy num) s = execRecordCopy num s := rfl
@[simp] theorem exec_recordMeasure (num : Nat) (s : State) : exec (.recordMeasure num) s = execRecordMeasure num s := rfl
@[simp] theorem exec_dmaChain (ch : Nat) (v : Word) (be : BitVec 4) (byKeeper : Bool) (s : State) : exec (.dmaChain ch v be byKeeper) s = execDmaChain ch v be byKeeper s := rfl
@[simp] theorem exec_dmaAbort (ch : Nat) (v : Word) (be : BitVec 4) (byKeeper : Bool) (s : State) : exec (.dmaAbort ch v be byKeeper) s = execDmaAbort ch v be byKeeper s := rfl
@[simp] theorem exec_dmaRetry (ch : Nat) (v : Word) (be : BitVec 4) (byKeeper : Bool) (s : State) : exec (.dmaRetry ch v be byKeeper) s = execDmaRetry ch v be byKeeper s := rfl
@[simp] theorem exec_dmaDescriptorComplete (ch : Nat) (meet : DmaMeet) (s : State) : exec (.dmaDescriptorComplete ch meet) s = execDmaDescriptorComplete ch meet s := rfl
@[simp] theorem exec_dmaTimeout (ch : Nat) (done : Nat) (s : State) : exec (.dmaTimeout ch done) s = execDmaTimeout ch done s := rfl
@[simp] theorem exec_cmpRingTail (lane : Nat) (v : Word) (be : BitVec 4) (byKeeper : Bool) (s : State) : exec (.cmpRingTail lane v be byKeeper) s = execCmpRingTail lane v be byKeeper s := rfl
@[simp] theorem exec_cmpJobComplete (lane : Nat) (meet : CmpMeet) (s : State) : exec (.cmpJobComplete lane meet) s = execCmpJobComplete lane meet s := rfl
@[simp] theorem exec_pulseStart (out : Nat) (s : State) : exec (.pulseStart out) s = execPulseStart out s := rfl
@[simp] theorem exec_pulseEnd (out : Nat) (s : State) : exec (.pulseEnd out) s = execPulseEnd out s := rfl
@[simp] theorem exec_mtrSaveCmd (v : Word) (be : BitVec 4) (s : State) : exec (.mtrSaveCmd v be) s = execMtrSaveCmd v be s := rfl
@[simp] theorem exec_saveVerify (ok : Bool) (s : State) : exec (.saveVerify ok) s = execSaveVerify ok s := rfl
@[simp] theorem exec_mtrClearTestSet (pt : Nat) (be : BitVec 4) (s : State) : exec (.mtrClearTestSet pt be) s = execMtrClearTestSet pt be s := rfl
@[simp] theorem exec_mtrClearServiceSet (pt : Nat) (be : BitVec 4) (s : State) : exec (.mtrClearServiceSet pt be) s = execMtrClearServiceSet pt be s := rfl
@[simp] theorem exec_mtrClearWrap (pt : Nat) (be : BitVec 4) (s : State) : exec (.mtrClearWrap pt be) s = execMtrClearWrap pt be s := rfl
@[simp] theorem exec_mtrClearOverLost (pt : Nat) (be : BitVec 4) (s : State) : exec (.mtrClearOverLost pt be) s = execMtrClearOverLost pt be s := rfl
@[simp] theorem exec_mtrLogAck (v : Word) (be : BitVec 4) (s : State) : exec (.mtrLogAck v be) s = execMtrLogAck v be s := rfl
@[simp] theorem exec_keySealCmd (v : Word) (be : BitVec 4) (s : State) : exec (.keySealCmd v be) s = execKeySealCmd v be s := rfl
@[simp] theorem exec_evrRdCmd (v : Word) (be : BitVec 4) (s : State) : exec (.evrRdCmd v be) s = execEvrRdCmd v be s := rfl
@[simp] theorem exec_graceExpiry (slot : Nat) (s : State) : exec (.graceExpiry slot) s = execGraceExpiry slot s := rfl
@[simp] theorem exec_tagBackgroundPass (slot : Nat) (s : State) : exec (.tagBackgroundPass slot) s = execTagBackgroundPass slot s := rfl
@[simp] theorem exec_keygateWrite (block : Nat) (v : Word) (be : BitVec 4) (s : State) : exec (.keygateWrite block v be) s = execKeygateWrite block v be s := rfl
@[simp] theorem exec_keygateRelock (block : Nat) (s : State) : exec (.keygateRelock block) s = execKeygateRelock block s := rfl
@[simp] theorem exec_hostStrobe (v : Word) (be : BitVec 4) (s : State) : exec (.hostStrobe v be) s = execHostStrobe v be s := rfl
@[simp] theorem exec_blockApplyPoint (block : Nat) (unit : Nat) (s : State) : exec (.blockApplyPoint block unit) s = execBlockApplyPoint block unit s := rfl
@[simp] theorem exec_hostSgrpWrite (num : Nat) (v : Word) (be : BitVec 4) (s : State) : exec (.hostSgrpWrite num v be) s = execHostSgrpWrite num v be s := rfl
@[simp] theorem exec_clearOnReadRead (addr : Nat) (be : BitVec 4) (s : State) : exec (.clearOnReadRead addr be) s = execClearOnReadRead addr be s := rfl
@[simp] theorem exec_reservedAccess (addr : Nat) (write : Bool) (s : State) : exec (.reservedAccess addr write) s = execReservedAccess addr write s := rfl
@[simp] theorem exec_registerWrite (addr : Nat) (v : Word) (be : BitVec 4) (s : State) : exec (.registerWrite addr v be) s = execRegisterWrite addr v be s := rfl
@[simp] theorem exec_msixVectorUnmask (vec : Nat) (s : State) : exec (.msixVectorUnmask vec) s = execMsixVectorUnmask vec s := rfl
@[simp] theorem exec_ringIntHoldoffExpiry (ring : Nat) (s : State) : exec (.ringIntHoldoffExpiry ring) s = execRingIntHoldoffExpiry ring s := rfl
@[simp] theorem exec_startStepComplete (outcome : StepOutcome) (s : State) : exec (.startStepComplete outcome) s = execStartStepComplete outcome s := rfl
@[simp] theorem exec_cycleBoundaryAtInstant (part : Nat) (s : State) : exec (.cycleBoundaryAtInstant part) s = execCycleBoundaryAtInstant part s := rfl
@[simp] theorem exec_dmaDescriptorFetch (ch : Nat) (s : State) : exec (.dmaDescriptorFetch ch) s = execDmaDescriptorFetch ch s := rfl
@[simp] theorem exec_foreignMasterRecordTimeout (port : Nat) (s : State) : exec (.foreignMasterRecordTimeout port) s = execForeignMasterRecordTimeout port s := rfl
@[simp] theorem exec_evrRdData15Read (be : BitVec 4) (s : State) : exec (.evrRdData15Read be) s = execEvrRdData15Read be s := rfl
@[simp] theorem exec_powerGood (s : State) : exec .powerGood s = execPowerGood s := rfl
@[simp] theorem exec_pfailNAssert (s : State) : exec .pfailNAssert s = execPfailNAssert s := rfl
@[simp] theorem exec_inputUndervoltage (s : State) : exec .inputUndervoltage s = execInputUndervoltage s := rfl
@[simp] theorem exec_holdLowCheck (s : State) : exec .holdLowCheck s = execHoldLowCheck s := rfl
@[simp] theorem exec_pcieReset (s : State) : exec .pcieReset s = execPcieReset s := rfl
@[simp] theorem exec_powerCycleTimeout (s : State) : exec .powerCycleTimeout s = execPowerCycleTimeout s := rfl
@[simp] theorem exec_watchdogExpiry (s : State) : exec .watchdogExpiry s = execWatchdogExpiry s := rfl
@[simp] theorem exec_keeperRestartComplete (s : State) : exec .keeperRestartComplete s = execKeeperRestartComplete s := rfl
@[simp] theorem exec_keeperReadyTimeout (s : State) : exec .keeperReadyTimeout s = execKeeperReadyTimeout s := rfl
@[simp] theorem exec_selftestRotationSlot (s : State) : exec .selftestRotationSlot s = execSelftestRotationSlot s := rfl
@[simp] theorem exec_tokenMatch (s : State) : exec .tokenMatch s = execTokenMatch s := rfl
@[simp] theorem exec_precedenceIntervalEnd (s : State) : exec .precedenceIntervalEnd s = execPrecedenceIntervalEnd s := rfl
@[simp] theorem exec_filterLaneSample (s : State) : exec .filterLaneSample s = execFilterLaneSample s := rfl
@[simp] theorem exec_paletteSwitchStart (s : State) : exec .paletteSwitchStart s = execPaletteSwitchStart s := rfl
@[simp] theorem exec_alarmStreamSecond (s : State) : exec .alarmStreamSecond s = execAlarmStreamSecond s := rfl
@[simp] theorem exec_helloTimer (s : State) : exec .helloTimer s = execHelloTimer s := rfl
@[simp] theorem exec_heartbeatTimer (s : State) : exec .heartbeatTimer s = execHeartbeatTimer s := rfl
@[simp] theorem exec_statusTimer (s : State) : exec .statusTimer s = execStatusTimer s := rfl
@[simp] theorem exec_refStatusTimer (s : State) : exec .refStatusTimer s = execRefStatusTimer s := rfl
@[simp] theorem exec_towpathLaneLockLoss (s : State) : exec .towpathLaneLockLoss s = execTowpathLaneLockLoss s := rfl
@[simp] theorem exec_towpathLost (s : State) : exec .towpathLost s = execTowpathLost s := rfl
@[simp] theorem exec_takeoverReqRetry (s : State) : exec .takeoverReqRetry s = execTakeoverReqRetry s := rfl
@[simp] theorem exec_startPeerWaitExpiry (s : State) : exec .startPeerWaitExpiry s = execStartPeerWaitExpiry s := rfl
@[simp] theorem exec_refereeAbsent (s : State) : exec .refereeAbsent s = execRefereeAbsent s := rfl
@[simp] theorem exec_hbWaitExpiry (s : State) : exec .hbWaitExpiry s = execHbWaitExpiry s := rfl
@[simp] theorem exec_takeoverIntervalEnd (s : State) : exec .takeoverIntervalEnd s = execTakeoverIntervalEnd s := rfl
@[simp] theorem exec_revertHoldExpiry (s : State) : exec .revertHoldExpiry s = execRevertHoldExpiry s := rfl
@[simp] theorem exec_referenceLost (s : State) : exec .referenceLost s = execReferenceLost s := rfl
@[simp] theorem exec_slewComplete (s : State) : exec .slewComplete s = execSlewComplete s := rfl
@[simp] theorem exec_ppsEdge (s : State) : exec .ppsEdge s = execPpsEdge s := rfl
@[simp] theorem exec_leapSecondApply (s : State) : exec .leapSecondApply s = execLeapSecondApply s := rfl
@[simp] theorem exec_comtradeExport (s : State) : exec .comtradeExport s = execComtradeExport s := rfl
@[simp] theorem exec_periodicSave (s : State) : exec .periodicSave s = execPeriodicSave s := rfl
@[simp] theorem exec_eventCommit (s : State) : exec .eventCommit s = execEventCommit s := rfl
@[simp] theorem exec_commissioningTimeout (s : State) : exec .commissioningTimeout s = execCommissioningTimeout s := rfl
@[simp] theorem exec_towpathLaneLockRegain (s : State) : exec .towpathLaneLockRegain s = execTowpathLaneLockRegain s := rfl
@[simp] theorem exec_testDrainReturnTimeout (s : State) : exec .testDrainReturnTimeout s = execTestDrainReturnTimeout s := rfl
@[simp] theorem exec_rung3StartStep9Timeout (s : State) : exec .rung3StartStep9Timeout s = execRung3StartStep9Timeout s := rfl
@[simp] theorem exec_clockSecondsRetain (s : State) : exec .clockSecondsRetain s = execClockSecondsRetain s := rfl

end Sys2Proof.Machine
end

