-- ==== Sys2Proof/Laws/Shape.lean ====
section
/-!
SUPPORT. The five shapes a command's outcome has, said once for every command.
-/
namespace Sys2Proof.Machine

/-- Every command is an effect on the supplied module, the same with what follows it at once, an effect on the supplied module
and its memories, or one of the two on a module supplied or not. -/
theorem exec_cases (i : Instr) (s : State) :
    (∃ f, exec i s = runM s f) ∨ (∃ f, exec i s = runS s f) ∨ (writesMemory i = true ∧ ∃ f, exec i s = runW s f) ∨
      ((i = .powerGood ∨ i = .saveVerify true ∨ i = .saveVerify false ∨ ∃ ok cv, i = .holdOkChange ok cv) ∧ ∃ f, exec i s = runRaw s f) ∨
      ((i = .pfailNAssert ∨ i = .inputUndervoltage ∨ ∃ c, i = .tamperDetected c) ∧ ∃ f, exec i s = runSupply s f) := by
  cases i with
  | holdOkChange x0 x1 => exact .inr (.inr (.inr (.inl ⟨.inr (.inr (.inr ⟨x0, x1, rfl⟩)), _, exec_holdOkChange x0 x1 s⟩)))
  | pcieLinkTrained x0 x1 => exact .inl ⟨_, exec_pcieLinkTrained x0 x1 s⟩
  | tamperDetected x0 => exact .inr (.inr (.inr (.inr ⟨.inr (.inr ⟨x0, rfl⟩), _, exec_tamperDetected x0 s⟩)))
  | battLowDetected x0 => exact .inl ⟨_, exec_battLowDetected x0 s⟩
  | thermalReading x0 x1 => exact .inr (.inl ⟨_, exec_thermalReading x0 x1 s⟩)
  | imageStage x0 x1 x2 => exact .inl ⟨_, exec_imageStage x0 x1 x2 s⟩
  | imageCommit x0 x1 => exact .inr (.inl ⟨_, exec_imageCommit x0 x1 s⟩)
  | imageDiscard x0 => exact .inl ⟨_, exec_imageDiscard x0 s⟩
  | partitionStart x0 x1 => exact .inr (.inl ⟨_, exec_partitionStart x0 x1 s⟩)
  | partitionHalt x0 x1 => exact .inr (.inl ⟨_, exec_partitionHalt x0 x1 s⟩)
  | partitionHaltPoint x0 => exact .inr (.inl ⟨_, exec_partitionHaltPoint x0 s⟩)
  | partitionHalted x0 => exact .inr (.inl ⟨_, exec_partitionHalted x0 s⟩)
  | partitionLoadComplete x0 x1 => exact .inr (.inl ⟨_, exec_partitionLoadComplete x0 x1 s⟩)
  | partitionGoLive x0 => exact .inr (.inl ⟨_, exec_partitionGoLive x0 s⟩)
  | roleSet x0 x1 => exact .inr (.inl ⟨_, exec_roleSet x0 x1 s⟩)
  | timeMode x0 x1 => exact .inr (.inl ⟨_, exec_timeMode x0 x1 s⟩)
  | testMode x0 x1 => exact .inr (.inl ⟨_, exec_testMode x0 x1 s⟩)
  | compatSet x0 x1 => exact .inl ⟨_, exec_compatSet x0 x1 s⟩
  | status x0 => exact .inl ⟨_, exec_status x0 s⟩
  | stats x0 x1 x2 => exact .inl ⟨_, exec_stats x0 x1 x2 s⟩
  | nameLookup x0 x1 x2 => exact .inl ⟨_, exec_nameLookup x0 x1 x2 s⟩
  | fileRead x0 x1 x2 x3 x4 => exact .inr (.inr (.inl ⟨rfl, _, exec_fileRead x0 x1 x2 x3 x4 s⟩))
  | tdSnapshot x0 x1 => exact .inl ⟨_, exec_tdSnapshot x0 x1 s⟩
  | recList x0 x1 x2 => exact .inl ⟨_, exec_recList x0 x1 x2 s⟩
  | recInfo x0 x1 => exact .inl ⟨_, exec_recInfo x0 x1 s⟩
  | recExport x0 x1 x2 x3 x4 x5 => exact .inl ⟨_, exec_recExport x0 x1 x2 x3 x4 x5 s⟩
  | recDelete x0 x1 => exact .inl ⟨_, exec_recDelete x0 x1 s⟩
  | mtrLogRead x0 x1 x2 x3 => exact .inr (.inr (.inl ⟨rfl, _, exec_mtrLogRead x0 x1 x2 x3 s⟩))
  | keyCommission x0 x1 => exact .inl ⟨_, exec_keyCommission x0 x1 s⟩
  | keyClose x0 => exact .inl ⟨_, exec_keyClose x0 s⟩
  | keyLoad x0 x1 x2 x3 x4 x5 x6 x7 => exact .inl ⟨_, exec_keyLoad x0 x1 x2 x3 x4 x5 x6 x7 s⟩
  | keyCommit x0 x1 => exact .inl ⟨_, exec_keyCommit x0 x1 s⟩
  | keyErase x0 x1 => exact .inl ⟨_, exec_keyErase x0 x1 s⟩
  | keySignLog x0 x1 x2 x3 => exact .inl ⟨_, exec_keySignLog x0 x1 x2 x3 s⟩
  | keyUnseal x0 x1 x2 => exact .inr (.inl ⟨_, exec_keyUnseal x0 x1 x2 s⟩)
  | selftestReq x0 x1 => exact .inr (.inl ⟨_, exec_selftestReq x0 x1 s⟩)
  | selftestFull x0 x1 x2 => exact .inr (.inl ⟨_, exec_selftestFull x0 x1 x2 s⟩)
  | recover x0 x1 x2 => exact .inr (.inl ⟨_, exec_recover x0 x1 x2 s⟩)
  | healthReport x0 => exact .inl ⟨_, exec_healthReport x0 s⟩
  | hlthRecoverRung2 x0 x1 => exact .inr (.inl ⟨_, exec_hlthRecoverRung2 x0 x1 s⟩)
  | hlthRecoverRung3 x0 => exact .inr (.inl ⟨_, exec_hlthRecoverRung3 x0 s⟩)
  | hlthRecoverRung4 x0 => exact .inr (.inl ⟨_, exec_hlthRecoverRung4 x0 s⟩)
  | shedLevelUpdate x0 x1 x2 x3 => exact .inr (.inl ⟨_, exec_shedLevelUpdate x0 x1 x2 x3 s⟩)
  | scrubPass x0 x1 => exact .inr (.inl ⟨_, exec_scrubPass x0 x1 s⟩)
  | residentSetRewrite x0 x1 x2 => exact .inr (.inl ⟨_, exec_residentSetRewrite x0 x1 x2 s⟩)
  | paletteRewrite x0 => exact .inr (.inl ⟨_, exec_paletteRewrite x0 s⟩)
  | clusterDrained x0 => exact .inr (.inl ⟨_, exec_clusterDrained x0 s⟩)
  | clusterSelftestComplete x0 x1 x2 x3 => exact .inr (.inl ⟨_, exec_clusterSelftestComplete x0 x1 x2 x3 s⟩)
  | ageingReading x0 x1 => exact .inr (.inl ⟨_, exec_ageingReading x0 x1 s⟩)
  | heldTokenEntry x0 x1 => exact .inr (.inl ⟨_, exec_heldTokenEntry x0 x1 s⟩)
  | taskIssue x0 => exact .inl ⟨_, exec_taskIssue x0 s⟩
  | stealDecision x0 => exact .inl ⟨_, exec_stealDecision x0 s⟩
  | taskRetire x0 x1 => exact .inr (.inl ⟨_, exec_taskRetire x0 x1 s⟩)
  | delayExpiry x0 => exact .inr (.inl ⟨_, exec_delayExpiry x0 s⟩)
  | taskFault x0 x1 x2 => exact .inr (.inl ⟨_, exec_taskFault x0 x1 x2 s⟩)
  | add x0 x1 => exact .inl ⟨_, exec_add x0 x1 s⟩
  | sub x0 x1 => exact .inl ⟨_, exec_sub x0 x1 s⟩
  | mul x0 x1 => exact .inl ⟨_, exec_mul x0 x1 s⟩
  | div x0 x1 => exact .inl ⟨_, exec_div x0 x1 s⟩
  | mac x0 x1 => exact .inl ⟨_, exec_mac x0 x1 s⟩
  | absNeg x0 x1 => exact .inl ⟨_, exec_absNeg x0 x1 s⟩
  | minmax x0 x1 => exact .inl ⟨_, exec_minmax x0 x1 s⟩
  | sqrt x0 x1 => exact .inl ⟨_, exec_sqrt x0 x1 s⟩
  | scale x0 x1 => exact .inl ⟨_, exec_scale x0 x1 s⟩
  | convert x0 x1 => exact .inl ⟨_, exec_convert x0 x1 s⟩
  | select x0 x1 => exact .inl ⟨_, exec_select x0 x1 s⟩
  | limit x0 x1 => exact .inl ⟨_, exec_limit x0 x1 s⟩
  | intOp x0 x1 => exact .inl ⟨_, exec_intOp x0 x1 s⟩
  | poly x0 x1 => exact .inl ⟨_, exec_poly x0 x1 s⟩
  | cpxMag x0 x1 => exact .inl ⟨_, exec_cpxMag x0 x1 s⟩
  | cpxAng x0 x1 => exact .inl ⟨_, exec_cpxAng x0 x1 s⟩
  | polar x0 x1 => exact .inl ⟨_, exec_polar x0 x1 s⟩
  | rotate x0 x1 => exact .inl ⟨_, exec_rotate x0 x1 s⟩
  | seqComp x0 x1 => exact .inl ⟨_, exec_seqComp x0 x1 s⟩
  | deltaPh x0 x1 => exact .inl ⟨_, exec_deltaPh x0 x1 s⟩
  | power x0 x1 => exact .inl ⟨_, exec_power x0 x1 s⟩
  | impedance x0 x1 => exact .inl ⟨_, exec_impedance x0 x1 s⟩
  | loopImp x0 x1 => exact .inl ⟨_, exec_loopImp x0 x1 s⟩
  | angleDiff x0 x1 => exact .inl ⟨_, exec_angleDiff x0 x1 s⟩
  | tsComp x0 x1 => exact .inl ⟨_, exec_tsComp x0 x1 s⟩
  | freqEst x0 x1 => exact .inl ⟨_, exec_freqEst x0 x1 s⟩
  | mho x0 x1 => exact .inl ⟨_, exec_mho x0 x1 s⟩
  | quad x0 x1 => exact .inl ⟨_, exec_quad x0 x1 s⟩
  | directional x0 x1 => exact .inl ⟨_, exec_directional x0 x1 s⟩
  | idmt x0 x1 => exact .inl ⟨_, exec_idmt x0 x1 s⟩
  | loadEnc x0 x1 => exact .inl ⟨_, exec_loadEnc x0 x1 s⟩
  | pswing x0 x1 => exact .inl ⟨_, exec_pswing x0 x1 s⟩
  | diffBias x0 x1 => exact .inl ⟨_, exec_diffBias x0 x1 s⟩
  | diffBiasN x0 x1 => exact .inl ⟨_, exec_diffBiasN x0 x1 s⟩
  | harmRestr x0 x1 => exact .inl ⟨_, exec_harmRestr x0 x1 s⟩
  | cmpOver x0 x1 => exact .inl ⟨_, exec_cmpOver x0 x1 s⟩
  | cmpUnder x0 x1 => exact .inl ⟨_, exec_cmpUnder x0 x1 s⟩
  | cmpBand x0 x1 => exact .inl ⟨_, exec_cmpBand x0 x1 s⟩
  | cmpRate x0 x1 => exact .inl ⟨_, exec_cmpRate x0 x1 s⟩
  | cmpDelta x0 x1 => exact .inl ⟨_, exec_cmpDelta x0 x1 s⟩
  | logic64 x0 x1 => exact .inl ⟨_, exec_logic64 x0 x1 s⟩
  | bitPack x0 x1 => exact .inl ⟨_, exec_bitPack x0 x1 s⟩
  | bitExtract x0 x1 => exact .inl ⟨_, exec_bitExtract x0 x1 s⟩
  | edge x0 x1 => exact .inl ⟨_, exec_edge x0 x1 s⟩
  | timerOn x0 x1 => exact .inl ⟨_, exec_timerOn x0 x1 s⟩
  | timerOff x0 x1 => exact .inl ⟨_, exec_timerOff x0 x1 s⟩
  | pulse x0 x1 => exact .inl ⟨_, exec_pulse x0 x1 s⟩
  | latchSr x0 x1 => exact .inl ⟨_, exec_latchSr x0 x1 s⟩
  | countConsec x0 x1 => exact .inl ⟨_, exec_countConsec x0 x1 s⟩
  | countEvent x0 x1 => exact .inl ⟨_, exec_countEvent x0 x1 s⟩
  | timerInteg x0 x1 => exact .inl ⟨_, exec_timerInteg x0 x1 s⟩
  | sampleHold x0 x1 => exact .inl ⟨_, exec_sampleHold x0 x1 s⟩
  | meanWin x0 x1 => exact .inl ⟨_, exec_meanWin x0 x1 s⟩
  | rmsWin x0 x1 => exact .inl ⟨_, exec_rmsWin x0 x1 s⟩
  | minmaxWin x0 x1 => exact .inl ⟨_, exec_minmaxWin x0 x1 s⟩
  | ewStat x0 x1 => exact .inl ⟨_, exec_ewStat x0 x1 s⟩
  | corrEw x0 x1 => exact .inl ⟨_, exec_corrEw x0 x1 s⟩
  | spread x0 x1 => exact .inl ⟨_, exec_spread x0 x1 s⟩
  | integrate x0 x1 => exact .inl ⟨_, exec_integrate x0 x1 s⟩
  | modalAcc x0 x1 => exact .inl ⟨_, exec_modalAcc x0 x1 s⟩
  | modalFit x0 x1 => exact .inl ⟨_, exec_modalFit x0 x1 s⟩
  | modalTrack x0 x1 => exact .inl ⟨_, exec_modalTrack x0 x1 s⟩
  | pgramAcc x0 x1 => exact .inl ⟨_, exec_pgramAcc x0 x1 s⟩
  | pgramPeak x0 x1 => exact .inl ⟨_, exec_pgramPeak x0 x1 s⟩
  | goosePub x0 x1 => exact .inl ⟨_, exec_goosePub x0 x1 s⟩
  | gooseStage x0 x1 => exact .inl ⟨_, exec_gooseStage x0 x1 s⟩
  | claim x0 x1 => exact .inl ⟨_, exec_claim x0 x1 s⟩
  | recTrigger x0 x1 => exact .inl ⟨_, exec_recTrigger x0 x1 s⟩
  | alarm x0 x1 => exact .inl ⟨_, exec_alarm x0 x1 s⟩
  | meterAcc x0 x1 => exact .inl ⟨_, exec_meterAcc x0 x1 s⟩
  | pmuPub x0 x1 => exact .inl ⟨_, exec_pmuPub x0 x1 s⟩
  | eventWrite x0 x1 => exact .inl ⟨_, exec_eventWrite x0 x1 s⟩
  | settingsGroupRequest x0 x1 => exact .inr (.inl ⟨_, exec_settingsGroupRequest x0 x1 s⟩)
  | macFrameReceived x0 x1 => exact .inr (.inr (.inl ⟨rfl, _, exec_macFrameReceived x0 x1 s⟩))
  | linkDown x0 x1 => exact .inl ⟨_, exec_linkDown x0 x1 s⟩
  | linkUp x0 x1 => exact .inl ⟨_, exec_linkUp x0 x1 s⟩
  | pauseExpiry x0 => exact .inl ⟨_, exec_pauseExpiry x0 s⟩
  | frameTransmit x0 => exact .inl ⟨_, exec_frameTransmit x0 s⟩
  | arpRefresh x0 => exact .inl ⟨_, exec_arpRefresh x0 s⟩
  | supervisionFrameTimer x0 => exact .inl ⟨_, exec_supervisionFrameTimer x0 s⟩
  | nodeForget x0 => exact .inl ⟨_, exec_nodeForget x0 s⟩
  | parserHoldRelease x0 => exact .inl ⟨_, exec_parserHoldRelease x0 s⟩
  | hostRxRingTail x0 x1 x2 => exact .inl ⟨_, exec_hostRxRingTail x0 x1 x2 s⟩
  | hostTxRingTail x0 x1 x2 => exact .inl ⟨_, exec_hostTxRingTail x0 x1 x2 s⟩
  | hostTxDescriptor x0 => exact .inr (.inr (.inl ⟨rfl, _, exec_hostTxDescriptor x0 s⟩))
  | hostTxQueueTimeout x0 => exact .inr (.inr (.inl ⟨rfl, _, exec_hostTxQueueTimeout x0 s⟩))
  | ringBaseSizeWrite x0 x1 x2 x3 => exact .inl ⟨_, exec_ringBaseSizeWrite x0 x1 x2 x3 s⟩
  | m0FrameReceived x0 x1 => exact .inl ⟨_, exec_m0FrameReceived x0 x1 s⟩
  | svFrameReceived x0 => exact .inr (.inl ⟨_, exec_svFrameReceived x0 s⟩)
  | svTagMissing x0 => exact .inr (.inl ⟨_, exec_svTagMissing x0 s⟩)
  | svSlip x0 => exact .inr (.inl ⟨_, exec_svSlip x0 s⟩)
  | svBlock x0 x1 => exact .inr (.inl ⟨_, exec_svBlock x0 x1 s⟩)
  | pqEventTimeout x0 => exact .inl ⟨_, exec_pqEventTimeout x0 s⟩
  | paletteFadeEnd x0 => exact .inr (.inl ⟨_, exec_paletteFadeEnd x0 s⟩)
  | pmuFrameReceived x0 => exact .inl ⟨_, exec_pmuFrameReceived x0 s⟩
  | pmuTcpFrame x0 x1 => exact .inl ⟨_, exec_pmuTcpFrame x0 x1 s⟩
  | pmuTcpReconnect x0 x1 => exact .inl ⟨_, exec_pmuTcpReconnect x0 x1 s⟩
  | pmuTcpDown x0 => exact .inl ⟨_, exec_pmuTcpDown x0 s⟩
  | pmuInputLost x0 => exact .inl ⟨_, exec_pmuInputLost x0 s⟩
  | c37CommandFrame x0 => exact .inl ⟨_, exec_c37CommandFrame x0 s⟩
  | sluiceRelease x0 => exact .inr (.inl ⟨_, exec_sluiceRelease x0 s⟩)
  | sluiceReleaseResume x0 => exact .inr (.inl ⟨_, exec_sluiceReleaseResume x0 s⟩)
  | configChangeFlagExpiry x0 => exact .inl ⟨_, exec_configChangeFlagExpiry x0 s⟩
  | bsnInBlock x0 x1 => exact .inl ⟨_, exec_bsnInBlock x0 x1 s⟩
  | wadAlmAck x0 x1 => exact .inl ⟨_, exec_wadAlmAck x0 x1 s⟩
  | federationMessageReceived x0 => exact .inl ⟨_, exec_federationMessageReceived x0 s⟩
  | federationRepeat x0 => exact .inl ⟨_, exec_federationRepeat x0 s⟩
  | gooseFrameReceived x0 => exact .inr (.inl ⟨_, exec_gooseFrameReceived x0 s⟩)
  | gooseTalExpiry x0 => exact .inl ⟨_, exec_gooseTalExpiry x0 s⟩
  | gooseRetransmit x0 => exact .inl ⟨_, exec_gooseRetransmit x0 s⟩
  | hello x0 x1 => exact .inr (.inl ⟨_, exec_hello x0 x1 s⟩)
  | heartbeat x0 x1 => exact .inr (.inl ⟨_, exec_heartbeat x0 x1 s⟩)
  | digest x0 x1 x2 x3 => exact .inr (.inl ⟨_, exec_digest x0 x1 x2 x3 s⟩)
  | copy x0 x1 x2 => exact .inr (.inl ⟨_, exec_copy x0 x1 x2 s⟩)
  | copyEnd x0 x1 x2 x3 x4 => exact .inr (.inl ⟨_, exec_copyEnd x0 x1 x2 x3 x4 s⟩)
  | sweep x0 x1 x2 => exact .inr (.inl ⟨_, exec_sweep x0 x1 x2 s⟩)
  | fault x0 x1 x2 => exact .inr (.inl ⟨_, exec_fault x0 x1 x2 s⟩)
  | revertReq x0 x1 => exact .inr (.inl ⟨_, exec_revertReq x0 x1 s⟩)
  | revertAck x0 x1 => exact .inr (.inl ⟨_, exec_revertAck x0 x1 s⟩)
  | revertNak x0 x1 => exact .inr (.inl ⟨_, exec_revertNak x0 x1 s⟩)
  | refereeStatus x0 => exact .inl ⟨_, exec_refereeStatus x0 s⟩
  | report x0 => exact .inl ⟨_, exec_report x0 s⟩
  | takeoverReq x0 => exact .inl ⟨_, exec_takeoverReq x0 s⟩
  | verdict x0 => exact .inr (.inl ⟨_, exec_verdict x0 s⟩)
  | grant x0 => exact .inr (.inl ⟨_, exec_grant x0 s⟩)
  | refStatus x0 => exact .inr (.inl ⟨_, exec_refStatus x0 s⟩)
  | verdictWaitExpiry x0 => exact .inr (.inl ⟨_, exec_verdictWaitExpiry x0 s⟩)
  | copyBoundMiss x0 => exact .inr (.inl ⟨_, exec_copyBoundMiss x0 s⟩)
  | outUnitWrite x0 x1 => exact .inl ⟨_, exec_outUnitWrite x0 x1 s⟩
  | outEpochSet x0 x1 => exact .inl ⟨_, exec_outEpochSet x0 x1 s⟩
  | ptpMessageReceived x0 => exact .inr (.inl ⟨_, exec_ptpMessageReceived x0 s⟩)
  | ptpMessageTimer x0 x1 => exact .inl ⟨_, exec_ptpMessageTimer x0 x1 s⟩
  | ext1ppsEdge x0 => exact .inr (.inl ⟨_, exec_ext1ppsEdge x0 s⟩)
  | extReferenceLost x0 => exact .inr (.inl ⟨_, exec_extReferenceLost x0 s⟩)
  | ptpSetCmd x0 x1 => exact .inr (.inl ⟨_, exec_ptpSetCmd x0 x1 s⟩)
  | ptpUtcWrite x0 x1 => exact .inr (.inl ⟨_, exec_ptpUtcWrite x0 x1 s⟩)
  | ptpFreqWrite x0 x1 => exact .inl ⟨_, exec_ptpFreqWrite x0 x1 s⟩
  | ptpMboxSel x0 x1 => exact .inl ⟨_, exec_ptpMboxSel x0 x1 s⟩
  | mtrMboxSel x0 x1 => exact .inl ⟨_, exec_mtrMboxSel x0 x1 s⟩
  | evrMboxSel x0 x1 => exact .inl ⟨_, exec_evrMboxSel x0 x1 s⟩
  | hostMboxSel x0 x1 => exact .inl ⟨_, exec_hostMboxSel x0 x1 s⟩
  | mboxData3Read x0 x1 => exact .inl ⟨_, exec_mboxData3Read x0 x1 s⟩
  | recManual x0 x1 x2 => exact .inl ⟨_, exec_recManual x0 x1 x2 s⟩
  | recArm x0 x1 => exact .inl ⟨_, exec_recArm x0 x1 s⟩
  | recordClose x0 => exact .inl ⟨_, exec_recordClose x0 s⟩
  | holdOffExpiry x0 => exact .inl ⟨_, exec_holdOffExpiry x0 s⟩
  | recordCopy x0 => exact .inl ⟨_, exec_recordCopy x0 s⟩
  | recordMeasure x0 => exact .inl ⟨_, exec_recordMeasure x0 s⟩
  | dmaChain x0 x1 x2 x3 => exact .inl ⟨_, exec_dmaChain x0 x1 x2 x3 s⟩
  | dmaAbort x0 x1 x2 x3 => exact .inl ⟨_, exec_dmaAbort x0 x1 x2 x3 s⟩
  | dmaRetry x0 x1 x2 x3 => exact .inl ⟨_, exec_dmaRetry x0 x1 x2 x3 s⟩
  | dmaDescriptorComplete x0 x1 => exact .inr (.inr (.inl ⟨rfl, _, exec_dmaDescriptorComplete x0 x1 s⟩))
  | dmaTimeout x0 x1 => exact .inr (.inr (.inl ⟨rfl, _, exec_dmaTimeout x0 x1 s⟩))
  | cmpRingTail x0 x1 x2 x3 => exact .inl ⟨_, exec_cmpRingTail x0 x1 x2 x3 s⟩
  | cmpJobComplete x0 x1 => exact .inr (.inr (.inl ⟨rfl, _, exec_cmpJobComplete x0 x1 s⟩))
  | pulseStart x0 => exact .inl ⟨_, exec_pulseStart x0 s⟩
  | pulseEnd x0 => exact .inl ⟨_, exec_pulseEnd x0 s⟩
  | mtrSaveCmd x0 x1 => exact .inl ⟨_, exec_mtrSaveCmd x0 x1 s⟩
  | saveVerify x0 => cases x0; exacts [.inr (.inr (.inr (.inl ⟨.inr (.inr (.inl rfl)), _, exec_saveVerify _ s⟩))), .inr (.inr (.inr (.inl ⟨.inr (.inl rfl), _, exec_saveVerify _ s⟩)))]
  | mtrClearTestSet x0 x1 => exact .inl ⟨_, exec_mtrClearTestSet x0 x1 s⟩
  | mtrClearServiceSet x0 x1 => exact .inl ⟨_, exec_mtrClearServiceSet x0 x1 s⟩
  | mtrClearWrap x0 x1 => exact .inl ⟨_, exec_mtrClearWrap x0 x1 s⟩
  | mtrClearOverLost x0 x1 => exact .inl ⟨_, exec_mtrClearOverLost x0 x1 s⟩
  | mtrLogAck x0 x1 => exact .inl ⟨_, exec_mtrLogAck x0 x1 s⟩
  | keySealCmd x0 x1 => exact .inr (.inl ⟨_, exec_keySealCmd x0 x1 s⟩)
  | evrRdCmd x0 x1 => exact .inl ⟨_, exec_evrRdCmd x0 x1 s⟩
  | graceExpiry x0 => exact .inl ⟨_, exec_graceExpiry x0 s⟩
  | tagBackgroundPass x0 => exact .inl ⟨_, exec_tagBackgroundPass x0 s⟩
  | keygateWrite x0 x1 x2 => exact .inl ⟨_, exec_keygateWrite x0 x1 x2 s⟩
  | keygateRelock x0 => exact .inl ⟨_, exec_keygateRelock x0 s⟩
  | hostStrobe x0 x1 => exact .inl ⟨_, exec_hostStrobe x0 x1 s⟩
  | blockApplyPoint x0 x1 => exact .inr (.inl ⟨_, exec_blockApplyPoint x0 x1 s⟩)
  | hostSgrpWrite x0 x1 x2 => exact .inl ⟨_, exec_hostSgrpWrite x0 x1 x2 s⟩
  | clearOnReadRead x0 x1 => exact .inl ⟨_, exec_clearOnReadRead x0 x1 s⟩
  | reservedAccess x0 x1 => exact .inl ⟨_, exec_reservedAccess x0 x1 s⟩
  | registerWrite x0 x1 x2 => exact .inr (.inl ⟨_, exec_registerWrite x0 x1 x2 s⟩)
  | msixVectorUnmask x0 => exact .inl ⟨_, exec_msixVectorUnmask x0 s⟩
  | ringIntHoldoffExpiry x0 => exact .inl ⟨_, exec_ringIntHoldoffExpiry x0 s⟩
  | startStepComplete x0 => exact .inr (.inl ⟨_, exec_startStepComplete x0 s⟩)
  | cycleBoundaryAtInstant x0 => exact .inr (.inl ⟨_, exec_cycleBoundaryAtInstant x0 s⟩)
  | dmaDescriptorFetch x0 => exact .inl ⟨_, exec_dmaDescriptorFetch x0 s⟩
  | foreignMasterRecordTimeout x0 => exact .inl ⟨_, exec_foreignMasterRecordTimeout x0 s⟩
  | evrRdData15Read x0 => exact .inl ⟨_, exec_evrRdData15Read x0 s⟩
  | powerGood => exact .inr (.inr (.inr (.inl ⟨.inl rfl, _, exec_powerGood s⟩)))
  | pfailNAssert => exact .inr (.inr (.inr (.inr ⟨.inl rfl, _, exec_pfailNAssert s⟩)))
  | inputUndervoltage => exact .inr (.inr (.inr (.inr ⟨.inr (.inl rfl), _, exec_inputUndervoltage s⟩)))
  | holdLowCheck => exact .inl ⟨_, exec_holdLowCheck s⟩
  | pcieReset => exact .inl ⟨_, exec_pcieReset s⟩
  | powerCycleTimeout => exact .inr (.inl ⟨_, exec_powerCycleTimeout s⟩)
  | watchdogExpiry => exact .inr (.inl ⟨_, exec_watchdogExpiry s⟩)
  | keeperRestartComplete => exact .inr (.inl ⟨_, exec_keeperRestartComplete s⟩)
  | keeperReadyTimeout => exact .inr (.inl ⟨_, exec_keeperReadyTimeout s⟩)
  | selftestRotationSlot => exact .inr (.inl ⟨_, exec_selftestRotationSlot s⟩)
  | tokenMatch => exact .inr (.inl ⟨_, exec_tokenMatch s⟩)
  | precedenceIntervalEnd => exact .inl ⟨_, exec_precedenceIntervalEnd s⟩
  | filterLaneSample => exact .inr (.inl ⟨_, exec_filterLaneSample s⟩)
  | paletteSwitchStart => exact .inr (.inl ⟨_, exec_paletteSwitchStart s⟩)
  | alarmStreamSecond => exact .inl ⟨_, exec_alarmStreamSecond s⟩
  | helloTimer => exact .inl ⟨_, exec_helloTimer s⟩
  | heartbeatTimer => exact .inl ⟨_, exec_heartbeatTimer s⟩
  | statusTimer => exact .inl ⟨_, exec_statusTimer s⟩
  | refStatusTimer => exact .inl ⟨_, exec_refStatusTimer s⟩
  | towpathLaneLockLoss => exact .inr (.inl ⟨_, exec_towpathLaneLockLoss s⟩)
  | towpathLost => exact .inr (.inl ⟨_, exec_towpathLost s⟩)
  | takeoverReqRetry => exact .inl ⟨_, exec_takeoverReqRetry s⟩
  | startPeerWaitExpiry => exact .inr (.inl ⟨_, exec_startPeerWaitExpiry s⟩)
  | refereeAbsent => exact .inr (.inl ⟨_, exec_refereeAbsent s⟩)
  | hbWaitExpiry => exact .inr (.inl ⟨_, exec_hbWaitExpiry s⟩)
  | takeoverIntervalEnd => exact .inr (.inl ⟨_, exec_takeoverIntervalEnd s⟩)
  | revertHoldExpiry => exact .inr (.inl ⟨_, exec_revertHoldExpiry s⟩)
  | referenceLost => exact .inr (.inl ⟨_, exec_referenceLost s⟩)
  | slewComplete => exact .inr (.inl ⟨_, exec_slewComplete s⟩)
  | ppsEdge => exact .inr (.inl ⟨_, exec_ppsEdge s⟩)
  | leapSecondApply => exact .inr (.inl ⟨_, exec_leapSecondApply s⟩)
  | comtradeExport => exact .inr (.inr (.inl ⟨rfl, _, exec_comtradeExport s⟩))
  | periodicSave => exact .inl ⟨_, exec_periodicSave s⟩
  | eventCommit => exact .inl ⟨_, exec_eventCommit s⟩
  | commissioningTimeout => exact .inl ⟨_, exec_commissioningTimeout s⟩
  | towpathLaneLockRegain => exact .inl ⟨_, exec_towpathLaneLockRegain s⟩
  | testDrainReturnTimeout => exact .inr (.inl ⟨_, exec_testDrainReturnTimeout s⟩)
  | rung3StartStep9Timeout => exact .inr (.inl ⟨_, exec_rung3StartStep9Timeout s⟩)
  | clockSecondsRetain => exact .inl ⟨_, exec_clockSecondsRetain s⟩

end Sys2Proof.Machine
end

