-- ==== Sys2Proof/WellFormed.lean ====
section
/-!
DEFINITION. Which terms of `Instr` name a command: every number lies in the range its rule gives the thing it numbers. No
command's meaning depends on it: a command out of range names nothing that is there.
-/
namespace Sys2Proof

/-- The number of a port, a MAC ring, a pulse output or an operand. -/
def isPort (n : Nat) : Bool := decide (n < 8)
/-- The number of a partition, a redundant pair, a delay list, a lane or a ring of one direction. -/
def isQuarter (n : Nat) : Bool := decide (n < 4)
/-- A number of 8 bits: a slot, a publication, a metering point. -/
def isByte (n : Nat) : Bool := decide (n < 256)
/-- The number of a cluster, an engine, a DMA channel or an apply unit. -/
def isSixteen (n : Nat) : Bool := decide (n < 16)
/-- The number of a register block. -/
def isBlock (n : Nat) : Bool := decide (n < 18)
/-- An MSI-X vector. -/
def isVector (n : Nat) : Bool := decide (n < 45)
/-- The number of a half of a 64-bit register. -/
def isHalf (n : Nat) : Bool := decide (n < 2)
/-- A 32-bit argument, tag or digest. -/
def isWord (n : Nat) : Bool := decide (n < 2 ^ 32)
/-- The number of a template. -/
def isTemplate (n : Nat) : Bool := decide (n < 2 ^ 14)
/-- The number of a subscription or an alarm. -/
def isNineBit (n : Nat) : Bool := decide (n < 512)
/-- The number of a phasor input. -/
def isInput (n : Nat) : Bool := decide (n < 8192)
/-- The number of a Basin output, a power-quality group or a record definition. -/
def isSixBit (n : Nat) : Bool := decide (n < 64)
/-- A BAR0 address. -/
def isAddr (n : Nat) : Bool := decide (n < 2 ^ 22)
/-- A tamper cause. -/
def isCause (n : Nat) : Bool := decide (n < 7)
/-- A cluster mask. -/
def isMask (n : Nat) : Bool := decide (n < 2 ^ 16)
/-- A 64-bit argument. -/
def isWide (n : Nat) : Bool := decide (n < 2 ^ 64)
/-- A utilisation in percent. -/
def isPercent (n : Nat) : Bool := decide (n < 101)
/-- The number of a ring of MAC or of a lane. -/
def isRing (n : Nat) : Bool := decide (n < 12)
/-- The number of a filter group. -/
def isGroup (n : Nat) : Bool := decide (n < 2 ^ 10)
/-- The number of a strobe-group register or a PTP interval. -/
def isThird (n : Nat) : Bool := decide (n < 3)
/-- A MAC address. -/
def isMac (n : Nat) : Bool := decide (n < 2 ^ 48)

/-- A command whose operands are in range. -/
def wellFormed (i : Instr) : Bool :=
  match i with
  | .holdOkChange _ _ => true
  | .pcieLinkTrained gen width => isByte gen && isByte width
  | .tamperDetected cause => isCause cause
  | .battLowDetected _ => true
  | .thermalReading _ _ => true
  | .imageStage _ off len => isWord off && isWord len
  | .imageCommit _ id => isWord id
  | .imageDiscard _ => true
  | .partitionStart _ part => isWord part
  | .partitionHalt _ part => isWord part
  | .partitionHaltPoint part => isQuarter part
  | .partitionHalted part => isQuarter part
  | .partitionLoadComplete part _ => isQuarter part
  | .partitionGoLive part => isQuarter part
  | .roleSet _ _ => true
  | .timeMode _ _ => true
  | .testMode _ _ => true
  | .compatSet _ _ => true
  | .status _ => true
  | .stats _ block obj => isWord block && isWord obj
  | .nameLookup _ kind num => isWord kind && isWide num
  | .fileRead _ handle off len dst => isWord handle && isWord off && isWord len && isWord dst
  | .tdSnapshot _ part => isWord part
  | .recList _ first count => isWide first && isWord count
  | .recInfo _ num => isWide num
  | .recExport _ num format _ off len => isWide num && isWord format && isWord off && isWord len
  | .recDelete _ num => isWide num
  | .mtrLogRead _ first count off => isWide first && isWord count && isWord off
  | .keyCommission _ _ => true
  | .keyClose _ => true
  | .keyLoad _ slot policy type kid _ _ _ => isWord slot && isWord policy && isWord type && isWord kid
  | .keyCommit _ slot => isWord slot
  | .keyErase _ slot => isWord slot
  | .keySignLog _ slot first count => isWord slot && isWide first && isWord count
  | .keyUnseal _ kid _ => isWord kid
  | .selftestReq _ mask => isWord mask
  | .selftestFull _ mask _ => isWord mask
  | .recover _ rung part => isWord rung && isWord part
  | .healthReport _ => true
  | .hlthRecoverRung2 part _ => isQuarter part
  | .hlthRecoverRung3 _ => true
  | .hlthRecoverRung4 _ => true
  | .shedLevelUpdate core0 core1 core2 core3 => isPercent core0 && isPercent core1 && isPercent core2 && isPercent core3
  | .scrubPass _ _ => true
  | .residentSetRewrite cluster engine part => isSixteen cluster && isSixteen engine && isQuarter part
  | .paletteRewrite group => isGroup group
  | .clusterDrained cluster => isSixteen cluster
  | .clusterSelftestComplete cluster _ _ _ => isSixteen cluster
  | .ageingReading _ _ => true
  | .heldTokenEntry tmpl op => isTemplate tmpl && isPort op
  | .taskIssue cluster => isSixteen cluster
  | .stealDecision cluster => isSixteen cluster
  | .taskRetire tmpl tag => isTemplate tmpl && isWord tag
  | .delayExpiry list => isQuarter list
  | .taskFault tmpl tag _ => isTemplate tmpl && isWord tag
  | .add tmpl tag => isTemplate tmpl && isWord tag
  | .sub tmpl tag => isTemplate tmpl && isWord tag
  | .mul tmpl tag => isTemplate tmpl && isWord tag
  | .div tmpl tag => isTemplate tmpl && isWord tag
  | .mac tmpl tag => isTemplate tmpl && isWord tag
  | .absNeg tmpl tag => isTemplate tmpl && isWord tag
  | .minmax tmpl tag => isTemplate tmpl && isWord tag
  | .sqrt tmpl tag => isTemplate tmpl && isWord tag
  | .scale tmpl tag => isTemplate tmpl && isWord tag
  | .convert tmpl tag => isTemplate tmpl && isWord tag
  | .select tmpl tag => isTemplate tmpl && isWord tag
  | .limit tmpl tag => isTemplate tmpl && isWord tag
  | .intOp tmpl tag => isTemplate tmpl && isWord tag
  | .poly tmpl tag => isTemplate tmpl && isWord tag
  | .cpxMag tmpl tag => isTemplate tmpl && isWord tag
  | .cpxAng tmpl tag => isTemplate tmpl && isWord tag
  | .polar tmpl tag => isTemplate tmpl && isWord tag
  | .rotate tmpl tag => isTemplate tmpl && isWord tag
  | .seqComp tmpl tag => isTemplate tmpl && isWord tag
  | .deltaPh tmpl tag => isTemplate tmpl && isWord tag
  | .power tmpl tag => isTemplate tmpl && isWord tag
  | .impedance tmpl tag => isTemplate tmpl && isWord tag
  | .loopImp tmpl tag => isTemplate tmpl && isWord tag
  | .angleDiff tmpl tag => isTemplate tmpl && isWord tag
  | .tsComp tmpl tag => isTemplate tmpl && isWord tag
  | .freqEst tmpl tag => isTemplate tmpl && isWord tag
  | .mho tmpl tag => isTemplate tmpl && isWord tag
  | .quad tmpl tag => isTemplate tmpl && isWord tag
  | .directional tmpl tag => isTemplate tmpl && isWord tag
  | .idmt tmpl tag => isTemplate tmpl && isWord tag
  | .loadEnc tmpl tag => isTemplate tmpl && isWord tag
  | .pswing tmpl tag => isTemplate tmpl && isWord tag
  | .diffBias tmpl tag => isTemplate tmpl && isWord tag
  | .diffBiasN tmpl tag => isTemplate tmpl && isWord tag
  | .harmRestr tmpl tag => isTemplate tmpl && isWord tag
  | .cmpOver tmpl tag => isTemplate tmpl && isWord tag
  | .cmpUnder tmpl tag => isTemplate tmpl && isWord tag
  | .cmpBand tmpl tag => isTemplate tmpl && isWord tag
  | .cmpRate tmpl tag => isTemplate tmpl && isWord tag
  | .cmpDelta tmpl tag => isTemplate tmpl && isWord tag
  | .logic64 tmpl tag => isTemplate tmpl && isWord tag
  | .bitPack tmpl tag => isTemplate tmpl && isWord tag
  | .bitExtract tmpl tag => isTemplate tmpl && isWord tag
  | .edge tmpl tag => isTemplate tmpl && isWord tag
  | .timerOn tmpl tag => isTemplate tmpl && isWord tag
  | .timerOff tmpl tag => isTemplate tmpl && isWord tag
  | .pulse tmpl tag => isTemplate tmpl && isWord tag
  | .latchSr tmpl tag => isTemplate tmpl && isWord tag
  | .countConsec tmpl tag => isTemplate tmpl && isWord tag
  | .countEvent tmpl tag => isTemplate tmpl && isWord tag
  | .timerInteg tmpl tag => isTemplate tmpl && isWord tag
  | .sampleHold tmpl tag => isTemplate tmpl && isWord tag
  | .meanWin tmpl tag => isTemplate tmpl && isWord tag
  | .rmsWin tmpl tag => isTemplate tmpl && isWord tag
  | .minmaxWin tmpl tag => isTemplate tmpl && isWord tag
  | .ewStat tmpl tag => isTemplate tmpl && isWord tag
  | .corrEw tmpl tag => isTemplate tmpl && isWord tag
  | .spread tmpl tag => isTemplate tmpl && isWord tag
  | .integrate tmpl tag => isTemplate tmpl && isWord tag
  | .modalAcc tmpl tag => isTemplate tmpl && isWord tag
  | .modalFit tmpl tag => isTemplate tmpl && isWord tag
  | .modalTrack tmpl tag => isTemplate tmpl && isWord tag
  | .pgramAcc tmpl tag => isTemplate tmpl && isWord tag
  | .pgramPeak tmpl tag => isTemplate tmpl && isWord tag
  | .goosePub tmpl tag => isTemplate tmpl && isWord tag
  | .gooseStage tmpl tag => isTemplate tmpl && isWord tag
  | .claim tmpl tag => isTemplate tmpl && isWord tag
  | .recTrigger tmpl tag => isTemplate tmpl && isWord tag
  | .alarm tmpl tag => isTemplate tmpl && isWord tag
  | .meterAcc tmpl tag => isTemplate tmpl && isWord tag
  | .pmuPub tmpl tag => isTemplate tmpl && isWord tag
  | .eventWrite tmpl tag => isTemplate tmpl && isWord tag
  | .settingsGroupRequest _ _ => true
  | .macFrameReceived port frame => isPort port && isMac frame.dst
  | .linkDown port _ => isPort port
  | .linkUp port _ => isPort port
  | .pauseExpiry port => isPort port
  | .frameTransmit port => isPort port
  | .arpRefresh port => isPort port
  | .supervisionFrameTimer pair => isQuarter pair
  | .nodeForget pair => isQuarter pair
  | .parserHoldRelease port => isPort port
  | .hostRxRingTail ring _ _ => isQuarter ring
  | .hostTxRingTail ring _ _ => isQuarter ring
  | .hostTxDescriptor ring => isQuarter ring
  | .hostTxQueueTimeout ring => isQuarter ring
  | .ringBaseSizeWrite ring _ _ _ => isRing ring
  | .m0FrameReceived _ _ => true
  | .svFrameReceived port => isPort port
  | .svTagMissing sub => isNineBit sub
  | .svSlip sub => isNineBit sub
  | .svBlock _ _ => true
  | .pqEventTimeout pq => isSixBit pq
  | .paletteFadeEnd group => isGroup group
  | .pmuFrameReceived port => isPort port
  | .pmuTcpFrame input _ => isInput input
  | .pmuTcpReconnect input _ => isInput input
  | .pmuTcpDown input => isInput input
  | .pmuInputLost input => isInput input
  | .c37CommandFrame port => isPort port
  | .sluiceRelease out => isSixBit out
  | .sluiceReleaseResume out => isSixBit out
  | .configChangeFlagExpiry out => isSixBit out
  | .bsnInBlock _ _ => true
  | .wadAlmAck _ _ => true
  | .federationMessageReceived port => isPort port
  | .federationRepeat alarm => isNineBit alarm
  | .gooseFrameReceived port => isPort port
  | .gooseTalExpiry sub => isNineBit sub
  | .gooseRetransmit pub => isByte pub
  | .hello _ _ => true
  | .heartbeat _ _ => true
  | .digest _ tag output state => isWord tag && isWord output && isWord state
  | .copy _ tag _ => isWord tag
  | .copyEnd _ tag count _ crc => isWord tag && isWord count && isWord crc
  | .sweep _ _ _ => true
  | .fault _ reason tag => isByte reason && isWord tag
  | .revertReq _ tag => isWord tag
  | .revertAck _ tag => isWord tag
  | .revertNak _ tag => isWord tag
  | .refereeStatus port => isPort port
  | .report port => isPort port
  | .takeoverReq port => isPort port
  | .verdict port => isPort port
  | .grant port => isPort port
  | .refStatus port => isPort port
  | .verdictWaitExpiry tag => isWord tag
  | .copyBoundMiss tag => isWord tag
  | .outUnitWrite _ _ => true
  | .outEpochSet _ _ => true
  | .ptpMessageReceived port => isPort port
  | .ptpMessageTimer port kind => isPort port && isThird kind
  | .ext1ppsEdge _ => true
  | .extReferenceLost _ => true
  | .ptpSetCmd _ _ => true
  | .ptpUtcWrite _ _ => true
  | .ptpFreqWrite _ _ => true
  | .ptpMboxSel _ _ => true
  | .mtrMboxSel _ _ => true
  | .evrMboxSel _ _ => true
  | .hostMboxSel _ _ => true
  | .mboxData3Read _ _ => true
  | .recManual half _ _ => isHalf half
  | .recArm _ _ => true
  | .recordClose defn => isSixBit defn
  | .holdOffExpiry defn => isSixBit defn
  | .recordCopy num => isWide num
  | .recordMeasure num => isWide num
  | .dmaChain ch _ _ _ => isSixteen ch
  | .dmaAbort ch _ _ _ => isSixteen ch
  | .dmaRetry ch _ _ _ => isSixteen ch
  | .dmaDescriptorComplete ch _ => isSixteen ch
  | .dmaTimeout ch _ => isSixteen ch
  | .cmpRingTail lane _ _ _ => isQuarter lane
  | .cmpJobComplete lane _ => isQuarter lane
  | .pulseStart out => isPort out
  | .pulseEnd out => isPort out
  | .mtrSaveCmd _ _ => true
  | .saveVerify _ => true
  | .mtrClearTestSet pt _ => isByte pt
  | .mtrClearServiceSet pt _ => isByte pt
  | .mtrClearWrap pt _ => isByte pt
  | .mtrClearOverLost pt _ => isByte pt
  | .mtrLogAck _ _ => true
  | .keySealCmd _ _ => true
  | .evrRdCmd _ _ => true
  | .graceExpiry slot => isByte slot
  | .tagBackgroundPass slot => isByte slot
  | .keygateWrite block _ _ => isBlock block
  | .keygateRelock block => isBlock block
  | .hostStrobe _ _ => true
  | .blockApplyPoint block unit => isBlock block && isSixteen unit
  | .hostSgrpWrite num _ _ => isThird num
  | .clearOnReadRead addr _ => isAddr addr
  | .reservedAccess addr _ => isAddr addr
  | .registerWrite addr _ _ => isAddr addr
  | .msixVectorUnmask vec => isVector vec
  | .ringIntHoldoffExpiry ring => isPort ring
  | .startStepComplete outcome => isMask outcome.failed
  | .cycleBoundaryAtInstant part => isQuarter part
  | .dmaDescriptorFetch ch => isSixteen ch
  | .foreignMasterRecordTimeout port => isPort port
  | .evrRdData15Read _ => true
  | .powerGood => true
  | .pfailNAssert => true
  | .inputUndervoltage => true
  | .holdLowCheck => true
  | .pcieReset => true
  | .powerCycleTimeout => true
  | .watchdogExpiry => true
  | .keeperRestartComplete => true
  | .keeperReadyTimeout => true
  | .selftestRotationSlot => true
  | .tokenMatch => true
  | .precedenceIntervalEnd => true
  | .filterLaneSample => true
  | .paletteSwitchStart => true
  | .alarmStreamSecond => true
  | .helloTimer => true
  | .heartbeatTimer => true
  | .statusTimer => true
  | .refStatusTimer => true
  | .towpathLaneLockLoss => true
  | .towpathLost => true
  | .takeoverReqRetry => true
  | .startPeerWaitExpiry => true
  | .refereeAbsent => true
  | .hbWaitExpiry => true
  | .takeoverIntervalEnd => true
  | .revertHoldExpiry => true
  | .referenceLost => true
  | .slewComplete => true
  | .ppsEdge => true
  | .leapSecondApply => true
  | .comtradeExport => true
  | .periodicSave => true
  | .eventCommit => true
  | .commissioningTimeout => true
  | .towpathLaneLockRegain => true
  | .testDrainReturnTimeout => true
  | .rung3StartStep9Timeout => true
  | .clockSecondsRetain => true

end Sys2Proof
end

