-- ==== Sys2Proof/Tests/Slice0.lean ====
section
/-!
SUPPORT. The model's own tests: ill-formed commands, a state and operands that meet the hypotheses of each statement (`wit_…`),
and single steps with their result (`test_…`).
-/
namespace Sys2Proof.Tests
open Sys2Proof Sys2Proof.Machine

-- one theorem at a time: theorems evaluated side by side would each hold a thread
set_option Elab.async false

/-! ## Commands out of range -/

/-- One ill-formed command for each check of `wellFormed`, which refuses it. -/
theorem test_ill_formed_refused :
    wellFormed (.linkDown 8 true) = false ∧ wellFormed (.partitionHalted 4) = false ∧ wellFormed (.graceExpiry 256) = false ∧
      wellFormed (.taskIssue 16) = false ∧ wellFormed (.keygateRelock 18) = false ∧ wellFormed (.msixVectorUnmask 45) = false ∧
      wellFormed (.recManual 2 0 15) = false ∧ wellFormed (.imageCommit ⟨0, true⟩ (2 ^ 32)) = false ∧
      wellFormed (.add (2 ^ 14) 0) = false ∧ wellFormed (.svSlip 512) = false ∧ wellFormed (.pmuInputLost 8192) = false ∧
      wellFormed (.recordClose 64) = false ∧ wellFormed (.reservedAccess (2 ^ 22) true) = false ∧
      wellFormed (.tamperDetected 7) = false ∧
      wellFormed (.startStepComplete { (default : StepOutcome) with failed := 2 ^ 16 }) = false ∧
      wellFormed (.recInfo ⟨0, true⟩ (2 ^ 64)) = false ∧ wellFormed (.shedLevelUpdate 101 0 0 0) = false ∧
      wellFormed (.ringBaseSizeWrite 12 false 0 15) = false ∧ wellFormed (.paletteFadeEnd 1024) = false ∧
      wellFormed (.ptpMessageTimer 0 3) = false ∧
      wellFormed (.macFrameReceived 0 { (default : Frame) with dst := 2 ^ 48 }) = false := by decide

/-- The greatest operands in range are well formed. -/
theorem test_well_formed :
    wellFormed (.linkDown 7 true) = true ∧ wellFormed (.add (2 ^ 14 - 1) (2 ^ 32 - 1)) = true ∧
      wellFormed (.shedLevelUpdate 100 100 100 100) = true ∧ wellFormed (.keygateRelock 17) = true := by decide

/-- The table gives no row any bits: no word spells a command. -/
theorem test_no_word_spells_a_command : decodeTableWord 16 0x1234 = none ∧ State.reset.withFetchWord 16 5 = State.reset := ⟨rfl, rfl⟩

/-! ## Small states -/

/-- A module in supply, its start complete, Keeper ready and every key gate just opened. -/
def up (m : Mod) : State :=
  { m := { m with
      hlth := { m.hlth with power := .on, stage := 15 }, kpr := { m.kpr with ready := true, kstate := 1 }
      evr := { m.evr with running := true }, host := { m.host with gates := (List.range 64).map fun b => (b, some 0) } } }

/-- A partition in a state with an image, and it alone. -/
def part (p : Nat) (st : PartState) (i : PartImage := {}) : Cells Part := [(p, { state := st, image := some i })]

/-- A running timer whose instant has come. -/
def due (k : TimerKind) (i : Nat) : List Timer := [⟨k, i, 0⟩]

/-! ## The queue, time and memory -/

theorem wit_StepRunsTheFrontCommand :
    ({ pending := [.frameTransmit 0, .precedenceIntervalEnd] } : State).pending = .frameTransmit 0 :: [.precedenceIntervalEnd] := rfl

theorem wit_EmptyQueueLetsTimePass :
    (up {}).pending = [] ∧ (up {}).m.hlth.power ≠ .off ∧ State.reset.pending = [] ∧ State.reset.m.hlth.power = .off := by decide

theorem wit_StepKeepsMemoryCanonical : MemoryCanonical State.reset ∧ step State.reset = .next State.reset := ⟨by decide, rfl⟩

theorem wit_OnlyTransfersWriteMemory : writesMemory .pcieReset = false ∧ exec .pcieReset State.reset = .next State.reset := ⟨rfl, rfl⟩

theorem wit_NoEffectWithoutSupply :
    State.reset.m.hlth.power = .off ∧ (Instr.pcieReset ≠ .powerGood) ∧ (Instr.pcieReset ≠ .pfailNAssert) ∧
      (Instr.pcieReset ≠ .inputUndervoltage) ∧ (∀ c, Instr.pcieReset ≠ .tamperDetected c) ∧
      (∀ ok cv, Instr.pcieReset ≠ .holdOkChange ok cv) ∧ (∀ ok, Instr.pcieReset ≠ .saveVerify ok) :=
  ⟨rfl, by decide, by decide, by decide, nofun, nofun, nofun⟩

theorem wit_NothingFollowsWhereNothingWaits : NothingWaits (up {}).m := by decide

/-! ## Keeper's mailbox -/

def record0 : RecFile :=
  { num := 0, def_ := 0, cfg := {}, rate := 4800, openAt := 0, openSec := 0, primary := ⟨2, 0, 0, 2, 0⟩, closed := some (0, 0) }

def keeperMod : Mod :=
  { rec_ := { recs := [record0] }, parts := part 0 .live { homeSet := 1, names := [(1, 0, [65]), (9, 2, [66])] } }

theorem wit_KeeperAnswersQueries :
    Powered (up keeperMod) ∧ KeeperTakes (up keeperMod).m 1 ∧ recFile (up keeperMod).m 0 = some record0 ∧
      (∃ p x, p < 4 ∧ (9, 2, x) ∈ (imageOf (up keeperMod).m p).names) ∧
      (∃ p x, p < 4 ∧ (1, 0, x) ∈ (imageOf (up keeperMod).m p).names) ∧
      (∀ p < 4, (partOf (up keeperMod).m p).state = .live ∨ (partOf (up keeperMod).m p).state = .loading →
        (imageOf (up keeperMod).m p).homeSet &&& 0xFFFE = 0) :=
  ⟨by decide, by decide, by decide, ⟨0, [66], by decide⟩, ⟨0, [65], by decide⟩, by decide⟩

theorem wit_KeeperTakesSettings :
    (let s := up { clk := { mode := .slave }, parts := part 0 .live }
     Powered s ∧ KeeperTakes s.m 0 ∧
      (TimeMode.holdover = .holdover → s.m.clk.pendMode.getD s.m.clk.mode = .slave ∨ s.m.clk.pendMode.getD s.m.clk.mode = .boundary) ∧
      activeTest s.m (roleLeft s.m) = none ∧ (roleCheck s.m (roleLeft s.m) .active).1 = 0) := by decide

theorem wit_KeeperStartsAndHaltsPartitions :
    (let s := up { parts := part 3 .halted }
     Powered s ∧ KeeperTakes s.m 0 ∧ (partOf s.m 3).state = .halted ∧ partBusy s.m 3 = false ∧ (partOf s.m 3).step = 0) ∧
    (let s := up { parts := part 3 .live }
     (partOf s.m 3).state = .live ∧ partBusy s.m 3 = false ∧ ¬(3 = 2 ∧ sealState s.m = .sealed)) ∧
    (let s := up { parts := part 2 .live, mode := { sealSt := .sealed } }
     (partOf s.m 2).state = .live ∧ partBusy s.m 2 = false ∧ sealState s.m = .sealed) := by decide

theorem wit_StatsClearsCounters :
    Powered (up {}) ∧ KeeperTakes (up {}).m 3 ∧ 0x11 < 0x12 ∧ (∃ x ∈ statRows 0x11 0, responseFree x.1 = true) := by decide +kernel

theorem wit_KeeperReadsAndWritesFiles :
    (let s := up { kpr := { files := [(1, ⟨0, [1, 2, 3]⟩)] }, mtr := { logNext := 1 }, parts := part 3 .halted, rec_ := { recs := [record0] } }
     Powered s ∧ KeeperTakes s.m 1 ∧ (2 ^ 32 - 3) + 3 ≤ 2 ^ 32 ∧ s.m.kpr.files.lookup 1 = some ⟨0, [1, 2, 3]⟩ ∧
      (2 ^ 32 - 64 * 4096) + 64 * 4096 ≤ 2 ^ 32 ∧ s.m.mtr.logFree ≤ 0 ∧ 0 < s.m.mtr.logNext ∧ (partOf s.m 3).state = .halted ∧
      11 < 16 ∧ 11 % 8 ≤ 3 ∧ recFile s.m 0 = some record0 ∧ record0.closed.isSome) := by decide

theorem wit_ShedCommandsAreRefused :
    (let s := up { kpr := { shed := 3 } }
     Powered s ∧ s.m.kpr.ready = true ∧ 1 ≤ s.m.kpr.shed ∧ 2 ≤ s.m.kpr.shed ∧ 3 ≤ s.m.kpr.shed) := by decide

/-! ## Key store, image and recovery commands -/

/-- A store with one slot, under a tag that holds. -/
def keyMod (i : Nat) (k : KeySlot) (m : Mod := {}) : Mod :=
  { m with key := { store := .provisioned, slots := [(i, { k with tag := slotTag { key := { store := .provisioned } } i k })] } }

def hmacSlot (policy : Nat) : KeySlot := { kid := 7, policy := policy, type := 1, state := .valid, cur := List.replicate 32 1 }

theorem tag_holds (i : Nat) (k : KeySlot) (m : Mod) : checkTag (up (keyMod i k m)).m i = (up (keyMod i k m)).m := by
  have h : keySlot (up (keyMod i k m)).m i = { k with tag := slotTag { key := { store := .provisioned } } i k } := by
    simp [keySlot, up, keyMod, tabGet, cellGet]
  have e : slotTag (up (keyMod i k m)).m i { k with tag := slotTag { key := { store := .provisioned } } i k } =
      slotTag { key := { store := .provisioned } } i k := rfl
  unfold checkTag
  rw [h]
  simp [e]

theorem wit_KeeperRunsKeyCommands :
    (Powered (up {}) ∧ KeeperTakes (up {}).m 0 ∧ (up {}).m.key.store = .zeroed) ∧
    ((up { key := { store := .provisioned } }).m.key.store = .provisioned ∧
      ∀ i < 256, validPolicy (up { key := { store := .provisioned } }).m 2 i = false) ∧
    (let s := up { key := { store := .commissioning } }
     s.m.key.store = .commissioning ∧ loadAuthOk s.m 255 1 3 9 (List.replicate 32 1) [] = true ∧ typeSuits 1 3 = true ∧
      materialOk 3 (List.replicate 32 1) = true ∧ (∀ j < 256, j ≠ 255 → (keySlot s.m j).state = .empty) ∧
      (keySlot s.m 255).state ≠ .pending ∧ s.m.key.store ≠ .zeroed) ∧
    (let s := up { key := { slots := [(255, { state := .pending, policy := 1, nxtPolicy := 1, nxt := List.replicate 32 1 })] } }
     (keySlot s.m 255).state = .pending ∧ isSealSlot s.m 255 = false ∧ 255 ∉ namedSlots s.m) ∧
    (validPolicy (up (keyMod 255 (hmacSlot 3))).m 3 255 = true) ∧
    (let s := up (keyMod 9 (hmacSlot 5) { mode := { sealSt := .sealed }, mtr := { sealSlot := some 9 } })
     (List.range 256).find? (fun i => sealSlotOk s.m i && (keySlot s.m i).kid == 7) = some 9 ∧ sealLogs s.m = true ∧
      s.m.mtr.sealSlot = some 9) := by decide +kernel

theorem wit_RecoveryRuns :
    (let s := up { parts := part 3 .live }
     Powered s ∧ gateOpen s.m (srcOf Reg.HLTH_RECOVER) = true ∧ s.m.hlth.pwrReq = false ∧ s.m.kpr.ready = true ∧
      KeeperTakes s.m 0 ∧ (partOf s.m 3).state = .live ∧ (partOf s.m 3).next = none ∧ (partOf s.m 3).starting = false ∧
      s.m.hlth.trigs = []) := by decide

/-! ## Power, start, health -/

theorem wit_PowerGoodStartsTheModule : State.reset.m.hlth.power = .off ∧ State.reset.m.hlth.thermal ≠ 3 := by decide

theorem wit_SupplyFailureStopsTheModule :
    (let s := up { mtr := { holdOk := true } }
     Powered s ∧ s.m.mtr.holdOk = true) ∧ (up {}).m.mtr.holdOk = false ∧ (up {}).m.mode.role ≠ .active := by decide

theorem wit_HoldBatteryAndTamper :
    (let s := up { mtr := { holdOk := true } }
     Powered s ∧ s.m.mtr.holdOk = true) ∧
    (let s := up { timers := due .holdLow 0 }
     Due s.m .holdLow 0 ∧ s.m.mtr.holdOk = false) ∧ 6 < 7 ∧ (up {}).m.factory.orderL = true := by decide

theorem wit_PcieLinkFollowsItsPins : Powered (up {}) ∧ 0x3FFFFC % 4 = 0 ∧ (3 < 4 ∨ 4 < 4) := by decide

theorem wit_ThermalReadingsAreNoted :
    (up {}).m.hlth.power ≠ .off ∧ thermalNext (up {}).m.hlth.thermal 700 [1100] = (up {}).m.hlth.thermal ∧
      thermalNext (up {}).m.hlth.thermal 701 [] = 1 ∧
      (let s := up { parts := part 3 .live }
       s.m.hlth.thermal < 2 ∧ thermalNext s.m.hlth.thermal 781 [] = 2 ∧ isLive s.m 3 = true ∧ partBusy s.m 3 = false ∧
        s.m.hlth.thermal < 3 ∧ thermalNext s.m.hlth.thermal 0 [1101] = 3) ∧
      (let s := up { hlth := { thermal := 3 } }
       s.m.hlth.thermal = 3 ∧ thermalNext s.m.hlth.thermal 650 [] ≠ 3) := by decide

theorem wit_KeeperRestartsAndResets :
    (Powered (up {}) ∧ (up {}).m.kpr.kstate ≠ 0 ∧ (up {}).m.hlth.wdogs = []) ∧
    (let s : State := { m := { hlth := { power := .on }, kpr := { kstate := 2 }, timers := due .keeperReady 0 } }
     Powered s ∧ s.m.kpr.kstate = 2 ∧ Due s.m .keeperReady 0) ∧
    Due (up { timers := due .powerCycle 0 }).m .powerCycle 0 ∧
    (let s := up { timers := due .startStep9 0 }
     Due s.m .startStep9 0 ∧ s.m.hlth.failedStarts = 0) := by decide

theorem wit_ShedLevelFollowsTheLoad :
    (let s := up { timers := due .shedSecond 0 }
     Powered s ∧ Due s.m .shedSecond 0 ∧ s.m.kpr.kstate = 1 ∧ 100 ≤ 100 ∧ 360 < 100 + 100 + 100 + 61 ∧ s.m.kpr.shed < 4 ∧
      280 ≤ 70 + 70 + 70 + 70 ∧ 100 + 100 + 100 + 60 ≤ 360 ∧ 70 + 70 + 70 + 69 < 280) := by decide

theorem wit_StartStepsFollowEachOther :
    ({ (default : StepOutcome) with ok := true }).ok = true ∧
      ∀ st ∈ [2, 3, 4, 5], (let s : State := { m := { hlth := { power := .on, stage := st } } }
        Powered s ∧ s.m.hlth.stage = st) := by decide

theorem wit_ScrubbingAndRewriting :
    (let s := up { td := { withdrawn := [16 * 15 + 15] }, sv := { groups := [(1023, { coefUe := true })] } }
     Powered s ∧ 3 < 4 ∧ s.m.rung2 = [] ∧ 16 * 15 + 15 ∈ s.m.td.withdrawn ∧ (groupSt s.m 1023).coefUe = true) := by decide

theorem wit_ClustersAreTestedInTurn :
    (let s := up { timers := due .rotation 0, regs := [(Reg.HLTH_CTRL, 1)] }
     Powered s ∧ Due s.m .rotation 0 ∧ s.m.kpr.kstate = 1 ∧ regBits s.m Reg.HLTH_CTRL 0 0 = 1 ∧ s.m.hlth.testing = none ∧
      (((List.range 16).filter (reg s.m Reg.HLTH_ST_QUEUE).toNat.testBit ++ (List.range 16).map fun k => (s.m.hlth.rot + k) % 16).find?
        fun c => clMode s.m c == .service && drainOk s.m c) = some 0) ∧
    (let s := up { pe := { clMode := [(15, .draining)] } }
     clMode s.m 15 = .draining ∧ s.m.td.tasks = []) ∧
    (let s := up { pe := { clMode := [(15, .testing)] }, hlth := { testing := some 15 } }
     15 < 16 ∧ s.m.hlth.testing = some 15 ∧ clMode s.m 15 = .testing ∧ s.m.hlth.retest = false) ∧
    (let s := up { timers := due .testDrain 0, hlth := { testing := some 15 } }
     Due s.m .testDrain 0 ∧ s.m.hlth.testing = some 15) := by decide +kernel

theorem wit_AgeingReadingsRaiseTheAlarm :
    (let s := up { regs := [(Reg.HLTH_CL_MARGIN 0, 0x0E000000)] }
     Powered s ∧ s.m.kpr.kstate = 1 ∧ 0 < 16 ∧ marginVolt s.m (Reg.HLTH_CL_MARGIN 0) = 14 ∧ ([499] : List Int).getD 0 0 < 500) := by
  decide

/-! ## Partitions -/

/-- Partition 3 Live, halting, with what follows. -/
def halting (a : AfterHalt) (m : Mod := {}) : State :=
  up { m with parts := [(3, { state := .live, image := some {}, stopped := true, next := some a })] }

def copy0 : Committed := ⟨{}, 1⟩

theorem wit_PartitionsStopAtTheirHaltPoint :
    (let s := up { parts := [(3, { state := .live, next := some .stay })] }
     Powered s ∧ 3 < 4 ∧ (partOf s.m 3).state = .live ∧ (partOf s.m 3).next.isSome = true ∧ (partOf s.m 3).stopped = false ∧
      testHolds s.m 3 = false) := by decide

theorem wit_DrainedPartitionsAreHalted :
    (∀ a ∈ [AfterHalt.stay, .load copy0, .reload, .absent], (let s := halting a { img := { copies := [(3, [copy0])] } }
      Powered s ∧ (partOf s.m 3).state = .live ∧ (partOf s.m 3).stopped = true ∧ drainedPart s.m 3 = true ∧
      (partOf s.m 3).next = some a ∧ tabGet s.m.img.copies 3 = [copy0] ∧ s.m.img.commit = none)) ∧
    (let c : Commit := ⟨true, [(1, some copy0), (3, some copy0)], none, false, false, []⟩
     let s := up { img := { commit := some c }
                   parts := [(1, { state := .live }), (3, { state := .live, stopped := true, next := some (.load copy0) })] }
     drainedPart s.m 3 = true ∧ s.m.img.commit = some c ∧ c.full = true ∧ c.begun = false ∧ c.waiting = false ∧ 3 ∈ c.scope ∧
      1 ∈ c.scope ∧ (partOf s.m 1).state = .live ∧ (partOf s.m 3).next = some (.load copy0)) := by decide

theorem wit_CommitSettled : CommitSettled (halting .stay).m := nofun

theorem wit_LoadsEndOrFallBack :
    (let s := up { parts := [(3, { state := .loading })] }
     Powered s ∧ (partOf s.m 3).state = .loading ∧ (partOf s.m 3).loaded = false ∧ (partOf s.m 3).older = []) ∧
    (let s := up { parts := [(3, { state := .loading, older := [copy0] })] }
     (partOf s.m 3).older = copy0 :: []) := by decide

theorem wit_ReadyPartitionsGoLive :
    (let s := up { parts := [(3, { state := .loading, loaded := true })] }
     Powered s ∧ 3 < 4 ∧ readyLive s.m 3 = true ∧ s.m.img.commit = none) ∧
    (let s := up { parts := [(0, { state := .halted, starting := true })] }
     readyLive s.m 0 = true) := by decide

theorem wit_BoundaryAtAnInstantAdvancesTheTag :
    (let s := up { parts := part 3 .live { rate := 50 } }
     Powered s ∧ (imageOf s.m 3).subs = [] ∧ (domainRate s.m 3).1 ≠ 0 ∧ (partOf s.m 3).state = .live ∧ (partOf s.m 3).next = none) := by
  decide

/-! ## The task dispatcher -/

def tmpl5 : Template :=
  { num := 5, prim := 0, level := 0, nOps := 2, sticky := 0, domain := 0, dests := [], flow := none, flowSeq := 0, ceil := 1
    delayMax := 0, groups := [[]] }

def task5 : Task :=
  { tmpl := 5, tag := 3, ops := [], state := .ready, cluster := 0, form := 0, readyAt := 0, engine := none, avoid := none
    retries := 0, late := false, result := none, log := none, committed := false, routes := [] }

/-- Protection Live with the template `t`, and what the dispatcher holds. -/
def running (t : Template) (d : Td) (m : Mod := {}) : State :=
  up { m with parts := part 0 .live { homeSet := 1, rate := 4800, templates := [(t.num, t)] }, td := d }

def token5 : XTok := ⟨⟨5, 0, 3, 0, .int 1, 0⟩, none, .async⟩

theorem wit_TokensFillTheirSlots :
    (let s := running tmpl5 { cross := [(5, [token5])], lastTag := [(0, some 3)] }
     Powered s ∧ template s.m 5 = some tmpl5 ∧ isLive s.m (tmplPart tmpl5) = true ∧ canEnter s.m tmpl5 token5.tok = true ∧
      completes s.m tmpl5 token5.tok = false ∧ token5.src = .async ∧ (partOf s.m (tmplPart tmpl5)).stopped = false ∧
      nextToken s.m = some (.tok 5 token5) ∧ isSticky tmpl5 0 = false ∧ tmplPart tmpl5 < 2 ∧
      (s.m.td.held.any fun y => y.tok.tmpl == tmpl5.num && y.tok.op == 0) = false) ∧
    (let s := running tmpl5 { held := [token5] }
     heldFirst s.m 5 0 = some token5 ∧ canEnter s.m tmpl5 token5.tok = true ∧ completes s.m tmpl5 token5.tok = false) := by decide

theorem wit_ClustersStartTasksInTurn :
    (let s := running tmpl5 { tasks := [task5] }
     Powered s ∧ clusterClosed s.m 0 = false ∧ findTask s.m 5 3 = some task5 ∧ firstTask s.m (ownTasks s.m 0) = some task5 ∧
      (engineFor s.m 0 task5).isSome = true) := by decide

theorem wit_RetiredTasksFreeTheirEntry :
    (let k := { task5 with state := .done, result := some ⟨.int 0, 0, false⟩ }
     let s := running tmpl5 { tasks := [k] }
     Powered s ∧ findTask s.m 5 3 = some k ∧ template s.m 5 = some tmpl5 ∧ mayRetire s.m tmpl5 k = true ∧ k.committed = false ∧
      k.result.isSome = true ∧ tmpl5.dests = [] ∧ tmpl5.prim < 64) := by decide

theorem wit_DelayEntriesExpire :
    (let t := { tmpl5 with sticky := 1 }
     let e : DelayEntry := { list := 3, target := 5, op := 0, tag := 1, etag := 2, val := .int 1, q := 0, cancel := false, due := 0, order := 0 }
     let s := running t { delays := [e] }
     Powered s ∧ nextDelay s.m 3 = some e ∧ e.due ≤ s.m.clk.elapsed ∧ nextToken s.m = some (.delay e) ∧
      template s.m e.target = some t) := by decide

theorem wit_FaultedTasksRunAgain :
    (∀ n ∈ [1, 2], (let k := { task5 with state := .executing, engine := some (0, 1), retries := n }
     let s := running tmpl5 { tasks := [k] }
     Powered s ∧ findTask s.m 5 3 = some k ∧ template s.m 5 = some tmpl5 ∧ k.state = .executing)) := by decide

/-! ## The primitive engines -/

def executing5 : Task := { task5 with state := .executing, engine := some (0, 1) }

theorem wit_TasksCompleteWithTheirResult :
    (taskDone (.add 5 3)).map (fun x => (x.1, x.2.1, x.2.2.1)) = some (5, 3, 0) ∧
    (let s := running tmpl5 { tasks := [executing5] }
     Powered s ∧ findTask s.m 5 3 = some executing5 ∧ template s.m 5 = some tmpl5 ∧ executing5.state = .executing ∧
      tmpl5.prim = 0 ∧ memFault s.m tmpl5 executing5 = none) ∧
    memFault (running tmpl5 { tasks := [executing5] } { pe := { mem := [(1, { bad := true })] } }).m tmpl5 executing5 =
      some .scratchEcc := by decide +kernel


def timerIn : PrimIn :=
  { params := [2], ops := [⟨.int 1, 0, none, 0⟩], dt := default, rate := (4800, 1), seg := {}, group := [], claim := 0 }

theorem wit_TimerOnOperatesAfterItsCount :
    timerIn.pNat 0 = 2 ∧ timerIn.hasOp 1 = false ∧ timerIn.oTrue 0 = true ∧ timerIn.st 0 = 0 := by decide +kernel

/-! ## Host interface -/

theorem wit_IgnoredAccessesAreNoted :
    Powered (up {}) ∧ (7 : BitVec 4) ≠ 0 ∧ (7 : BitVec 4) ≠ 15 ∧ gateOpen State.reset.m (srcOf Reg.PTP_UTC) = false := by decide

theorem wit_GatesAndStrobesWait :
    (Powered (up {}) ∧ blockUp (up {}).m 0x11 = true ∧ (0xC5A6 : Word) ≠ 0x0000C5A7 ∧
      Due (up { timers := due .keygate 17 }).m .keygate 17) ∧
    (let g := groupOf (up {}).m 9
     g < 8 ∧ 9 ∈ shadowBlocks ∧ 0 < applyUnits 9) ∧
    fltReady (up {}).m = true ∧ fltReady (up { parts := part 0 .live { groups := [(0, {})] } }).m = false ∧
    strobeStat (up {}).m = 0 ∧ (regRow? (Reg.HOST_SGRP 2)).isSome = true := by decide +kernel

theorem wit_RegistersReadAndWrite :
    (let a := Reg.PTP_INT_EN
     Powered (up {}) ∧ a % 4 = 0 ∧ (regRow? a).isSome = true ∧ blockUp (up {}).m (srcOf a) = true ∧ isReq a = false ∧
      isMsix a = false ∧ opWrite (up {}).m {} a 1 15 = none ∧ nth a (Reg.DMA_CH_CFG 0) 0x20 16 = none ∧
      (regRow? a).map (·.off) = some a ∧ a < 0x3F8000 ∧ gateOpen (up {}).m (srcOf a) = true) ∧
    (let a := Reg.OUT_CNT_TKO
     a % 4 = 0 ∧ (regRow? a).any (fun r => decide (r.rc ≠ 0)) = true ∧ blockUp (up {}).m (srcOf a) = true ∧ boxWord a = none) ∧
    (let s := up { parts := part 0 .live { templates := [(5, tmpl5)] } }
     1 ≤ groupCount s.m 0 ∧ (partOf s.m 0).state ≠ .absent ∧ s.m.mode.role ≠ .standby ∧ s.m.mode.role ≠ .referee ∧
      gateOpen s.m (srcOf Reg.PE_SGRP_REQ) = true ∧ blockUp s.m (srcOf Reg.PE_SGRP_REQ) = true) ∧
    Due (up { timers := due .ringHold 7 }).m .ringHold 7 ∧ tabGet (up {}).m.host.ringPend 7 = false := by decide +kernel

theorem wit_MailboxesLatchTheirValue :
    (∀ b ∈ [WideBox.ptp, .mtr, .evr, .host], blockUp (up {}).m (srcOf (boxSel b)) = true ∧ (regRow? (boxSel b)).isSome = true) ∧
    ptpMbox (up {}).m 255 = none ∧
    (getBox (up { host := { mboxHost := { valid := true } } }).m .host).valid = true ∧
    blockUp (up {}).m (srcOf (Reg.EVR_RD_DATA 15)) = true := by decide +kernel

/-! ## Sampled values, filters and GOOSE -/

def sub7 : SubCfg := { appid := 0x4000, ports := 1, w := 1 }

def frameOf (p : Payload) : Frame := { (default : Frame) with len := 100, payload := p }

def asdu7 : SvAsdu := { (default : SvAsdu) with smpCnt := 5, smpSynch := 2, chans := [(100, 0)] }

def svOf (l : List SvAsdu) : SvFrame := { (default : SvFrame) with appid := 0x4000, noAsdu := 1, asdus := l }

/-- Protection Live with one subscription, in the synchronised state at tag 4, and a frame in the parser of port 0. -/
def svState (c : Clk) (l : List RxItem) : State :=
  up { parts := part 0 .live { rate := 4800, subs := [(7, sub7)] }, clk := c, net := { ports := [(0, { parser := l })] }
       sv := { streams := [(7, { state := .sync, next := some 4 })] } }

def svItem (l : List SvAsdu) : RxItem := ⟨frameOf (.sv (svOf l)), 0, false⟩

theorem wit_SvTagsAreStoredOrDeclaredMissing :
    (let s := svState {} [svItem []]
     Powered s ∧ (tabGet s.m.net.ports 0).held = false ∧
      takeItem (tabGet s.m.net.ports 0).parser isSv = some (svItem [], []) ∧ svSubOf s.m 0 (svItem []).frame (svOf []) = some 7 ∧
      subCfg s.m 7 = some sub7 ∧ isLive s.m sub7.part = true ∧ svDecodes (svItem []).frame (svOf []) = false) ∧
    (let s := svState { state := .locked } [svItem [asdu7]]
     takeItem (tabGet s.m.net.ports 0).parser isSv = some (svItem [asdu7], []) ∧
      svSubOf s.m 0 (svItem [asdu7]).frame (svOf [asdu7]) = some 7 ∧ (5 : Int) = syncIndex sub7 asdu7.smpCnt (0 * (2 ^ 32 : Nat)) ∧
      svDecodes (svItem [asdu7]).frame (svOf [asdu7]) = true ∧ sub7.auth = false ∧ asdu7.confRev = sub7.confRev ∧
      asdu7.chans.length = sub7.nch ∧ rateOk s.m 7 sub7 (svOf [asdu7]) = true ∧ tabGet s.m.mode.partTest 0 ≠ .simulation ∧
      asduSynced s.m sub7 asdu7.smpSynch = true ∧ (stream s.m 7).state = .sync ∧ (stream s.m 7).synced = true ∧
      subD s.m sub7 = 1 ∧ (stream s.m 7).next = some 4 ∧ (4 : Int) < 5 ∧ (5 : Int) ≤ 4 + sub7.w ∧
      (0 : Int) ≤ (ixInstant s.m sub7 5 + usec sub7.h : Nat) ∧ (stream s.m 7).store ++ (stream s.m 7).done = []) ∧
    (let s := svState { sec := 1 } []
     (partOf s.m sub7.part).stopped = false ∧ (stream s.m 7).next = some 4 ∧ (stream s.m 7).store = [] ∧ subD s.m sub7 = 1 ∧
      (∀ p < 8, sub7.ports.testBit p = true → (netPort s.m p).held = false ∧ (netPort s.m p).parser = []) ∧
      ixInstant s.m sub7 4 + usec sub7.h ≤ localTime s.m.clk ∧ (stream s.m 7).missRun < sub7.holdMax) := by decide +kernel

def lane7 : LaneSample :=
  { sub := 7, tag := some 5, cnt := none, disc := false, vals := [(1, 0)], lost := false, sim := false, ix := 5, fill := false, unsync := false }

theorem wit_SlipsBlocksLanesAndPalettes :
    (∀ ins ∈ [true, false], (let s := up { sv := { streams := [(511, { slip := some (5, ins), high := some (4, 0) })] } }
      Powered s ∧ (stream s.m 511).slip = some (5, ins) ∧ (stream s.m 511).high = some (4, 0) ∧ (5 : Int) ≤ 4 + 1)) ∧
    (let s := up { parts := part 0 .live { subs := [(511, sub7)] } }
     blockUp s.m (srcOf Reg.SV_BLOCK) = true ∧ gateOpen s.m (srcOf Reg.SV_BLOCK) = true ∧ s.m.mode.role ≠ .standby ∧
      s.m.mode.role ≠ .referee ∧ subCfg s.m ((0x800001FF : Word).toNat % 512) = some sub7) ∧
    (let c : PqCfg := ⟨[], 0, 0, 0, 0, 0⟩
     let s := up { parts := part 2 .live { mtr := { pqs := [(63, c)] } }, timers := due .pqEvent 63
                   mtr := { pqs := [(63, { open_ := [(3, some ⟨0, 0, 0, false⟩)] })] } }
     Due s.m .pqEvent 63 ∧ (mtrCfg s.m).pqs.lookup 63 = some c ∧ 3 ∈ [1, 2, 3] ∧
      tabGet (pqSt s.m 63).open_ 3 = some ⟨0, 0, 0, false⟩) ∧
    (let s := up { parts := part 0 .live { subs := [(7, sub7)] }, sv := { lanes := [lane7] } }
     (fltPoint s.m).sv.lanes.find? (fun x => !laneHeld (fltPoint s.m) x.sub) = some lane7 ∧ subCfg (fltPoint s.m) lane7.sub = some sub7) ∧
    (let s := up { parts := part 0 .live { groups := [(1023, {})] }, sv := { groups := [(1023, { pending := some 2 })], queue := [1023] } }
     s.m.sv.queue = 1023 :: [] ∧ (groupSt s.m 1023).fade = none ∧ (groupSt s.m 1023).pending = some 2 ∧
      groupCfg s.m 1023 = some {}) ∧
    (let s := up { parts := part 0 .live { groups := [(1023, {})] }, sv := { groups := [(1023, { fade := some ⟨2, 1, true⟩ })] } }
     (groupSt s.m 1023).fade = some ⟨2, 1, true⟩ ∧ groupCfg s.m 1023 = some {} ∧ groupPassed s.m 1023 (tagAdd 2 0) = true) := by
  decide +kernel

def gsub9 : GSubCfg := { ports := 1, routes := [⟨0, 0, 5, 0⟩] }

def goose9 : GooseFrame := { (default : GooseFrame) with tal := 10, stNum := 1, vals := [.bool true] }

theorem wit_GooseFramesAndRetransmissions :
    (let it : RxItem := ⟨frameOf (.goose goose9), 0, false⟩
     let s := up { parts := part 0 .live { gsubs := [(9, gsub9)] }, net := { ports := [(0, { control := [it] })] } }
     Powered s ∧ (takeControl s.m 0 isGoose).map (·.1) = some it ∧ peerPub s.m it.frame goose9 = none ∧
      allGSubs s.m = [(9, gsub9)] ∧ gsub9.appid = goose9.appid ∧ gsub9.dst = it.frame.dst ∧ gsub9.gocbRef = goose9.gocbRef ∧
      gsub9.ports.testBit 0 = true ∧ isLive s.m gsub9.part = true ∧ gooseDecodes it.frame goose9 = true ∧ gsub9.auth = false ∧
      goose9.confRev = gsub9.confRev ∧ goose9.sim = false ∧ tabGet s.m.mode.partTest gsub9.part ≠ .simulation ∧
      gsub9.sgrp = false ∧ gsub9.routes.map (routedVal (gooseMembers goose9.vals)) = [some ⟨.int 1, 0⟩] ∧
      (gsubSt s.m 9).last = none ∧ (gsubSt s.m 9).earlier.contains goose9.stNum = false) ∧
    (let s := up { parts := part 0 .live { gsubs := [(511, gsub9)], pubs := [(255, {})] }
                   timers := due .gooseTal 511 ++ due .gooseRetransmit 255 }
     Due s.m .gooseTal 511 ∧ (allGSubs s.m).lookup 511 = some gsub9 ∧ Due s.m .gooseRetransmit 255 ∧ pubCfg s.m 255 = some {} ∧
      pubBlocked (unitTest s.m) {} = false) := by decide +kernel

/-! ## Ports and rings -/

theorem wit_PortsAndPairsSendAndForget :
    (let it : QItem := ⟨frameOf (.other 0), 100, none, 0⟩
     let s := up { net := { ports := [(7, { link := true, txq := [(6, [it])] })] }, timers := due .pause 7 ++ due .arp 7 }
     Powered s ∧ 7 < 8 ∧ (netPort s.m 7).link = true ∧ (netPort s.m 7).paused = false ∧ Due s.m .pause 7 ∧ Due s.m .arp 7 ∧
      ([7, 6, 5, 4, 3, 2, 1, 0].find? fun q => !(tabGet (netPort s.m 7).txq q).isEmpty) = some 6 ∧
      tabGet (netPort s.m 7).txq 6 = it :: [] ∧ (s.m.td.held.any fun x => x.src == .sv 7) = false ∧ s.m.sv.lanes = []) ∧
    (let s := up { portMap := { ports := [(7, { mode := 1 })] } }
     (netPort s.m 7).link = false ∧ (portCfg s.m 7).mode ≠ 0 ∧ regBits s.m (Reg.MAC_PCFG 7) 0 0 = 0) ∧
    (let s := up { portMap := { pairs := [(3, { mode := 2, forget := 0 })] }, timers := due .supervision 3
                   net := { pairs := [(3, { nodes := [⟨1, 0, [], [], []⟩] })] } }
     Due s.m .supervision 3 ∧ (tabGet s.m.portMap.pairs 3).mode ≠ 0 ∧
      ∃ e ∈ (tabGet s.m.net.pairs 3).nodes, e.seen + secs (tabGet s.m.portMap.pairs 3).forget ≤ s.m.clk.elapsed) := by decide +kernel

/-- Memory with bytes from an address on. -/
def memAt (a : Nat) (b : Bytes) : Mem := memWrites {} [toDram a b]

/-- A transmit ring 7 with one descriptor, owned as bit 31 of `own` says, and port 0 plain. -/
def txState (own : Nat) (q : List QItem) (w : List TxWait) : State :=
  { up { regs := [(ringTail 7, 1)], portMap := { ports := [(0, { mode := 1 })] }, net := { ports := [(0, { txq := [(6, q)] })], txWait := w }
         timers := due .hostTx 3 } with
    mem := memAt 0 (leBytes 4 0x1000 ++ leBytes 2 60 ++ [1, 6] ++ leBytes 4 0 ++ List.replicate 16 0 ++ leBytes 4 own) }

theorem wit_HostRingsAndReceivedFrames_rings :
    (let s := up { regs := [(ringHead 7, 1)] }
     Powered s ∧ blockUp s.m 0xA = true ∧ 3 < 4 ∧ 7 < 8 ∧ reg s.m (ringHead 6) = reg s.m (ringTail 6) ∧
      reg s.m (ringHead 7) ≠ reg s.m (ringTail 7)) ∧
    (∀ own ∈ [0, 2 ^ 31], (let s := txState own [] []
     tabGet s.m.net.stopped (4 + 3) = false ∧ 0 = (reg s.m (ringHead (4 + 3))).toNat ∧ 0 ≠ (reg s.m (ringTail (4 + 3))).toNat ∧
      dramNat s.mem (ringDesc s.m (4 + 3) 0 + 28) 4 = own)) ∧
    (let s := txState (2 ^ 31) [] []
     dramNat s.mem (ringDesc s.m 7 0 + 4) 2 = 60 ∧ dramNat s.mem (ringDesc s.m 7 0 + 6) 1 = 1 ∧
      dramNat s.mem (ringDesc s.m 7 0 + 7) 1 = 6 ∧ dramNat s.mem (ringDesc s.m 7 0 + 10) 2 = 0 ∧ hostTxPorts s.m 1 false = [0] ∧
      hostTxOk s.m 60 1 6 0 = true ∧ hostTxOk s.m 59 1 6 0 = false ∧ queueRoom s.m 0 6 64 = true ∧
      (s.m.net.txWait.any (·.ring == 3)) = false) ∧
    (let s := txState (2 ^ 31) [⟨default, 10000000, none, 0⟩] []
     queueRoom s.m 0 6 64 = false) ∧
    (let s := txState (2 ^ 31) [] [⟨3, 0⟩]
     Due s.m .hostTx 3 ∧ s.m.net.txWait.find? (·.ring == 3) = some ⟨3, 0⟩) := by decide +kernel

/-- A module whose port 7 is up, with a classification entry to ring 0. -/
def rxState (c : PortCfg) (m : Mem) : State :=
  { up { net := { ports := [(7, { link := true })] }, regs := [(ringTail 0, 1)]
         portMap := { ports := [(7, c)], classes := [⟨0xFFFF, 0xFFFF, 0, true, 255, 0⟩] } } with mem := m }

theorem wit_HostRingsAndReceivedFrames_frames :
    (let s := rxState { mode := 1 } (memAt 28 (leBytes 4 (2 ^ 31)))
     let f := frameOf (.other 0x88F7)
     Powered s ∧ 7 < 8 ∧ (netPort s.m 7).link = true ∧ frameErrs s.m 7 f = 0 ∧ f.tags.length < 2 ∧ f.red = none ∧
      (portCfg s.m 7).vlanFilter = false ∧ rxClass s.m 7 f = .host 0 ∧ ringDesc s.m 0 (reg s.m (ringHead 0)).toNat = 0 ∧
      tabGet s.m.net.stopped 0 = false ∧ reg s.m (ringHead 0) ≠ reg s.m (ringTail 0) ∧ 2 ^ 31 ≤ dramNat s.mem (0 + 28) 4) ∧
    (let s := rxState { mode := 1 } {}
     let f := frameOf (.ptp default)
     rxClass s.m 7 f = .control ∧ bufFill (netPort s.m 7).control + f.len ≤ 131072) ∧
    (let s := up { parts := part 0 .live { subs := [(7, { sub7 with ports := 128 })] } }
     let f := frameOf (.sv (svOf [asdu7]))
     rxClass s.m 7 f = .parser ∧ bufFill (netPort s.m 7).parser + f.len ≤ 2097152) ∧
    (let s := rxState { mode := 1, vlanFilter := true, vids := [1] } {}
     regBits s.m (Reg.MAC_PCFG 7) 3 3 = 0 ∧ frameErrs s.m 7 { frameOf (.other 0) with fcsBad := true } ≠ 0 ∧
      (portCfg s.m 7).vlanFilter = true ∧ frameVid { frameOf (.other 0) with tags := [(0, 2)] } ≠ 0 ∧
      (portCfg s.m 7).vids.contains (frameVid { frameOf (.other 0) with tags := [(0, 2)] }) = false ∧
      reg s.m (Reg.MAC_PRX_VLAN 7) ≠ BitVec.allOnes 32) ∧
    (let s : State := { up { regs := [(Reg.MAC_PCFG 7, 4)] } with mem := {} }
     frameErrs s.m 7 (frameOf (.pause 1)) = 0 ∧ 0 < 1 ∧ regBits s.m (Reg.MAC_PCFG 7) 2 2 = 1) := by decide +kernel

/-! ## Phasor concentration and alarms -/

/-- The concentration partition Live with an image. -/
def basin (i : PartImage) (m : Mod := {}) : State := up { m with parts := part 1 .live i }

def pmu0 : PmuFrame := { (default : PmuFrame) with kind := .data, version := 2, len := dataLen {} }

def udpItem (b : UdpBody) : RxItem := ⟨frameOf (.udp 0 0 0 0 b), 0, false⟩

theorem wit_PmuInputsAreTakenAndLost :
    (let c : InCfg := { ports := 1 }
     let s := basin { ins := [(8191, c)] } { net := { ports := [(0, { parser := [udpItem (.pmu pmu0)] })] } }
     Powered s ∧ isLive s.m 1 = true ∧ pmu0.kind = .data ∧ pmuFits c pmu0 = true ∧ (bsnIn s.m 8191).mis = false ∧
      (gridIndex c.rate (socToTai s.m c pmu0 (max 1 c.cfg.timeBase) 0).1 pmu0.fracsec (max 1 c.cfg.timeBase)).isSome = true ∧
      (netPort s.m 0).held = false ∧ takeItem (netPort s.m 0).parser isPmu = some (udpItem (.pmu pmu0), []) ∧
      inputOf s.m 0 0 0 0 pmu0 = some (8191, c) ∧ c.transport = 0) ∧
    (let c : InCfg := { transport := 1, ports := 1 }
     let s := basin { ins := [(8191, c)] } { bsn := { ins := [(8191, { tcp := true })] } }
     inCfg s.m 8191 = some c ∧ c.transport = 1 ∧ (bsnIn s.m 8191).tcp = true ∧ pmuFits c pmu0 = true ∧ (bsnIn s.m 8191).mis = false ∧
      (gridIndex c.rate (socToTai s.m c pmu0 (max 1 c.cfg.timeBase) (localTime s.m.clk)).1 pmu0.fracsec
        (max 1 c.cfg.timeBase)).isSome = true) ∧
    (let s := basin { ins := [(8191, {})] } { timers := due .tcpReconnect 8191 ++ due .inputLost 8191 ++ due .cfgChange 63
                                              bsn := { ins := [(8191, { tcp := true })] } }
     Due s.m .tcpReconnect 8191 ∧ (bsnIn s.m 8191).tcp = true ∧ Due s.m .inputLost 8191 ∧ Due s.m .cfgChange 63 ∧
      blockUp s.m (srcOf Reg.BSN_IN_BLOCK) = true ∧ gateOpen s.m (srcOf Reg.BSN_IN_BLOCK) = true ∧
      (inCfg s.m ((0x80001FFF : Word).toNat % 8192)).isSome = true) ∧
    (let oc : OutCfg := { cmdPort := 9, idcode := 3 }
     let it (cmd : Nat) : RxItem := ⟨frameOf (.udp 0 0 0 9 (.c37cmd 3 cmd false)), 0, false⟩
     ∀ cmd ∈ [1, 2, 5], (let s := basin { outs := [(63, oc)] } { net := { ports := [(7, { control := [it cmd] })] } }
      (takeControl s.m 7 isC37Cmd).map (·.1) = some (it cmd) ∧
       ((imageOf s.m 1).outs.filter fun x => x.2.cmdPort ≠ 0 ∧ x.2.cmdPort = 9 ∧ x.2.idcode = 3) = [(63, oc)] ∧
       (bsnOut s.m 63).txOff = false ∧ outCfg s.m 63 = some oc ∧ (wadCfg s.m).almCmd = 0)) := by decide +kernel

theorem wit_SetsAreReleasedInTurn :
    (let c : OutCfg := {}
     let s := basin { outs := [(63, c)] } { bsn := { outs := [(63, { next := some 1 })] }, clk := { sec := 1 } }
     Powered s ∧ outCfg s.m 63 = some c ∧ (bsnOut s.m 63).next = some 1 ∧ isLive s.m 1 = true ∧ (partOf s.m 1).stopped = false ∧
      setDue c 1 ≤ localTime s.m.clk) ∧
    (let c : OutCfg := { members := [3] }
     let s := basin { ins := [(3, {})], outs := [(63, c)] }
       { bsn := { outs := [(63, { next := some 0, sets := [{ ix := 0, stored := [(0, some {})] }] })] } }
     outCfg s.m 63 = some c ∧ (bsnOut s.m 63).next = some 0 ∧
      setComplete (pruneSets s.m 63 c) c (setOf (bsnOut (pruneSets s.m 63 c) 63) 0) = true) ∧
    (let x : XTok := { token5 with src := .sluice 63 }
     let s := running tmpl5 { held := [x] }
     s.m.td.held.find? (·.src == .sluice 63) = some x ∧ template s.m x.tok.tmpl = some tmpl5 ∧ tmpl5.num = x.tok.tmpl ∧
      heldFirst s.m tmpl5.num x.tok.op = some x ∧ isLive s.m (tmplPart tmpl5) = true ∧ (partOf s.m (tmplPart tmpl5)).stopped = false ∧
      canEnter s.m tmpl5 x.tok = true ∧ completes s.m tmpl5 x.tok = false) := by decide +kernel

def fedKey0 : KeySlot := { policy := 1, type := 1, state := .valid, cur := List.replicate 32 1 }

/-- A federation message of member 2 about its alarm 0, and its code. -/
def fedBytes : Bytes :=
  let b := leBytes 4 0x46414C4D ++ leBytes 4 0 ++ leBytes 2 2 ++ [0, 1] ++ leBytes 2 0 ++ leBytes 2 0 ++ leBytes 8 5 ++ List.replicate 16 0
  b ++ (hmac256 fedKey0.cur b).take 16

theorem wit_AlarmsAreAcknowledgedStreamedAndFederated :
    (∀ a ∈ [({ on := true } : AlarmSt), { latched := true }, {}],
     (let s := basin { wad := { alarms := [(511, {})] } } { wad := { alarms := [(511, a)] } }
      Powered s ∧ blockUp s.m (srcOf Reg.WAD_ALM_ACK) = true ∧ alarmCfg s.m ((0x1FF : Word).toNat % 512) = some {} ∧
       alarmSt s.m 511 = a)) ∧
    (let w : WadCfg := { almPorts := 2 ^ 7, almIp := 0xE0000001 }
     let s := basin { wad := w } { regs := [(Reg.WAD_CTRL, 4)] }
     let v := toPps s.m
     wadCfg v = w ∧ regBits v Reg.WAD_CTRL 2 2 = 1 ∧ v.bsn.almOff = false ∧ (partOf v 1).image.isSome = true ∧ 7 < 8 ∧
      146 ≤ (portCfg v 7).mtu ∧ (tabGet v.portMap.pairs (7 / 2)).mode = 0 ∧ (resolve v 7 w.almIp).isSome = true) ∧
    (let w : WadCfg := { fedPorts := 128, member := 1, alarms := [(511, { src := 2, origin := 2, remote := 0 })] }
     ∀ b ∈ [List.replicate 55 0, fedBytes],
      (let it := udpItem (.raw b)
       let s := basin { wad := w } { net := { ports := [(7, { control := [it] })] }, key := { slots := [(0, fedKey0)] } }
       (wadCfg s.m).fedPorts.testBit 7 = true ∧ (takeControl s.m 7 (isRawTo (wadCfg s.m).fedUdp)).map (·.1) = some it ∧
        reg s.m Reg.WAD_FED_CNT_DROP ≠ BitVec.allOnes 32 ∧ 2 ≠ (wadCfg s.m).member ∧
        slotLive (keySlot s.m (wadCfg s.m).fedKey) = true ∧ (keySlot s.m (wadCfg s.m).fedKey).cur ≠ [] ∧
        (wadCfg s.m).alarms.find? (fun x => x.2.src == 2 && x.2.origin == 2 && x.2.remote == 0) = some (511, ⟨2, 0, 0, false, false, 2, 0⟩) ∧
        (alarmCfg s.m 511).isSome = true ∧ tabGet s.m.wad.seqRx (2 * 512 + 0) = none)) ∧
    fedBytes.length = 56 ∧ leNat (fedBytes.take 4) = 0x46414C4D ∧ leNat ((fedBytes.drop 4).take 4) = 0 ∧
    leNat ((fedBytes.drop 8).take 2) = 2 ∧ leNat ((fedBytes.drop 12).take 2) = 0 ∧ leNat ((fedBytes.drop 16).take 8) = 5 ∧
    (hmac256 fedKey0.cur (fedBytes.take 40)).take 16 = fedBytes.drop 40 ∧
    (∀ r ∈ [0, 1], (let s := up { timers := due .fedRepeat 511, wad := { alarms := [(511, { repeats := r + 1 })] } }
      Due s.m .fedRepeat 511 ∧ (alarmSt s.m 511).repeats = r + 1)) := by decide +kernel

/-! ## The redundant pair and the Referee -/

/-- A module of a role with protection Live and both lanes of the Towpath in lock. -/
def pair (r : Role) (o : Out := {}) (m : Mod := {}) : State :=
  up { m with parts := part 0 .live { outHdr := { pairId := 1, refPorts := 128 } }, out := { o with lanes := 2 }
              mode := { m.mode with role := r }, key := { slots := [(0, fedKey0)] } }

def copyOf (tag : Nat) (held : Bool := false) : CopyIn := { tag := tag, recs := [.segment 1 5 [0, 0, 0, 0, 1, 0]], ended := true, held := held }

theorem wit_TowpathFramesAreTaken :
    (Powered (pair .active) ∧ (pair .active).m.out.lanes ≠ 0 ∧ reg (pair .active).m Reg.OUT_CNT_TPCRC ≠ BitVec.allOnes 32 ∧
      (pair .active { peer := some default }).m.out.peer = some default ∧ (pair .active).m.mode.role ≠ .standby) ∧
    (let s := pair .standby {} { mode := { syncSt := 2 } }
     s.m.mode.role = .standby ∧ s.m.mode.syncSt = 2 ∧ s.m.out.own.find? (·.1 == 7) = none ∧ s.m.out.copies = [] ∧
      isLive s.m 0 = true) ∧
    (let c : CopyIn := { tag := 7 }
     let s := pair .standby { copies := [c] } { mode := { syncSt := 2 } }
     s.m.out.copies = [c] ∧ c.tag = 7 ∧ c.clear = false ∧ c.recs.length = 0) ∧
    (let s := pair .standby
     s.m.mode.role = .standby ∧ s.m.mode.syncSt ≠ 2) ∧
    (let s := pair .active
     s.m.mode.role = .active ∧ s.m.img.commit = none ∧ s.m.out.tko = none ∧ s.m.out.open_ = []) ∧
    (pair .active { tko := some (1, 2) }).m.out.tko.isSome = true ∧ (pair .active { open_ := [3] }).m.out.open_ ≠ [] ∧
    (pair .standby { revReq := some (9, false) }).m.out.revReq = some (9, false) ∧
    (pair .active { revOut := some 9 }).m.out.revOut = some 9 := by decide

theorem wit_TowpathTimersAndTakeover_timers :
    (let s := pair .active { towUp := true } { timers := due .hello 0 ++ due .heartbeat 0 ++ due .towpath 0 }
     Powered s ∧ Due s.m .hello 0 ∧ s.m.out.lanes ≠ 0 ∧ Due s.m .heartbeat 0 ∧ Due s.m .towpath 0 ∧ s.m.out.towUp = true ∧
      s.m.mode.role ≠ .standby ∧ s.m.out.lanes = 1 + 1) ∧
    (let s := pair .standby { towUp := true, refPresent := true } { timers := due .towpath 0 ++ due .hbWait 0 }
     Due s.m .towpath 0 ∧ s.m.out.towUp = true ∧ s.m.mode.role = .standby ∧ s.m.out.deciding = false ∧ s.m.out.refPresent = true ∧
      Due s.m .hbWait 0) ∧
    (let s := up { out := { lanes := 1 } }
     s.m.out.lanes = 0 + 1 ∧ s.m.out.lanes < 2 ∧ (up {}).m.out.lanes = 0) ∧
    (let s := pair .standby { deciding := true, refPresent := true } { timers := due .takeoverRetry 0 ++ due .peerWait 0 }
     Due s.m .takeoverRetry 0 ∧ s.m.out.deciding = true ∧ s.m.out.towUp = false ∧ s.m.out.refPresent = true ∧
      Due s.m .peerWait 0 ∧ s.m.mode.role = .standby ∧ isLive s.m 0 = true) := by decide +kernel

theorem wit_TowpathTimersAndTakeover_takeover :
    (∀ r ∈ [true, false], (let s := pair .standby { refPresent := r } { timers := due .hbWait 0 }
     Due s.m .hbWait 0 ∧ s.m.mode.role = .standby ∧ s.m.out.towUp = false ∧ s.m.out.deciding = false ∧ s.m.out.refPresent = r ∧
      isLive s.m 0 = true)) ∧
    (let s := pair .standby { copies := [copyOf 7] } { timers := due .verdictWait 7 ++ due .copyBound 7, mode := { syncSt := 2 } }
     Due s.m .verdictWait 7 ∧ s.m.mode.role = .standby ∧ s.m.mode.syncSt = 2 ∧ s.m.out.revReq = none ∧ s.m.out.copies = [copyOf 7] ∧
      (copyOf 7).tag = 7 ∧ (copyOf 7).ended = true ∧ (copyOf 7).recs = [.segment 1 5 [0, 0, 0, 0, 1, 0]] ∧ Due s.m .copyBound 7 ∧
      (s.m.out.copies.any fun c => c.held && tagBefore c.tag 7) = false) ∧
    (let s := pair .active { tko := some (1, 3), lastTag := some 3 }
     s.m.out.tko = some (1, 3) ∧ s.m.out.lastTag = some 3 ∧ tagLe 3 3 = true) ∧
    (let p : HelloData := { (default : HelloData) with role := .active }
     let s := pair .standby { towUp := true, peer := some p, unit := 2 ^ 14 }
       { timers := due .revertHold 0, regs := [(Reg.OUT_CTRL, 1), (Reg.OUT_REVERT, 1)], mode := { syncSt := 2 } }
     Due s.m .revertHold 0 ∧ revertReady s.m = true ∧ s.m.out.lanes ≠ 0) := by decide +kernel

/-- A Referee message of unit 2 with its code. -/
def refBytes (type : Nat) (body : Bytes) : Bytes :=
  let b := leBytes 4 0x52505A4C ++ leBytes 2 1 ++ leBytes 2 2 ++ leBytes 1 type ++ leBytes 1 0 ++ leBytes 2 body.length ++ leBytes 4 0 ++
    leBytes 8 5 ++ body
  b ++ (hmac256 fedKey0.cur b).take 16

/-- A module that has a Referee message in the control buffer of port 7. -/
def refState (r : Role) (type : Nat) (body : Bytes) (o : Out := {}) : State :=
  pair r o { net := { ports := [(7, { control := [udpItem (.raw (refBytes type body))] })] } }

def zeros (n : Nat) : Bytes := List.replicate n 0

theorem wit_RefereeMessagesAndUnits_taken :
    (∀ x ∈ [(1, 16), (2, 60), (3, 12), (0x81, 12), (0x82, 16), (0x83, 16)],
      (refTake (refState .referee x.1 (zeros x.2)).m 7 x.1).1 = some (2, 5, zeros x.2)) := by decide +kernel

theorem wit_RefereeMessagesAndUnits_rules :
    (let s := refState .referee 3 (zeros 12)
     Powered s ∧ s.m.mode.role = .referee ∧ s.m.out.granted = none ∧ s.m.out.units = []) ∧
    (let b : Bytes := [7, 0, 0, 0, 2] ++ zeros 7
     bodyNat b 4 1 = 2 ∧ (refState .active 0x81 b { open_ := [7] }).m.out.open_.contains (bodyNat b 0 4) = true ∧
      ((refState .standby 0x81 b { copies := [copyOf 7 true] }).m.out.copies.any fun c => c.tag == bodyNat b 0 4 && c.held) = true ∧
      ((refState .standby 0x81 b).m.out.copies.any fun c => c.tag == bodyNat b 0 4 && c.held) = false ∧
      isLive (refState .standby 0x81 b).m 0 = true) ∧
    (∀ d ∈ [true, false], (let b : Bytes := [9] ++ zeros 7 ++ [1] ++ zeros 7
     let s := refState .standby 0x82 b { reqs := [9], deciding := d }
     s.m.mode.role = .standby ∧ s.m.out.reqs.contains (bodyNat b 0 8) = true ∧ s.m.out.deciding = d ∧ bodyNat b 8 1 = 1 ∧
      isLive s.m 0 = true)) ∧
    (let s := refState .active 0x83 (zeros 16)
     s.m.mode.role ≠ .referee ∧ s.m.mode.role ≠ .standby ∧ bodyNat (zeros 16) 8 8 = ((imageOf s.m 0).red.getD {}).id ∧
      bodyNat (zeros 8 ++ [1] ++ zeros 7) 8 8 ≠ ((imageOf s.m 0).red.getD {}).id) ∧
    (let s := pair .active {} { timers := due .refereeAbsent 0 ++ due .status 0 ++ due .refStatus 0 }
     Due s.m .refereeAbsent 0 ∧ Due s.m .status 0 ∧ Due s.m .refStatus 0 ∧ s.m.mode.role ≠ .referee ∧
      (outHdr s.m).refPorts ≠ 0 ∧ canSign s.m (outHdr s.m).refKey = true) ∧
    (let s := pair .standby { hbLost := true } { timers := due .refereeAbsent 0 }
     s.m.mode.role = .standby ∧ s.m.out.towUp = false ∧ s.m.out.deciding = false ∧ s.m.out.hbLost = true ∧ isLive s.m 0 = true) ∧
    (let s := up { parts := part 0 .halted }
     blockUp s.m (srcOf Reg.OUT_UNIT) = true ∧ gateOpen s.m (srcOf Reg.OUT_UNIT) = true ∧ s.m.mode.role ≠ .active ∧
      s.m.mode.role ≠ .standby ∧ (254 : Word).toNat % 256 ≠ 0 ∧ (254 : Word).toNat % 256 ≠ 255 ∧ (255 : Word).toNat % 256 = 255 ∧
      blockUp s.m (srcOf Reg.OUT_EPOCH_SET) = true ∧ gateOpen s.m (srcOf Reg.OUT_EPOCH_SET) = true ∧ s.m.mode.role = .standalone ∧
      (partOf s.m 0).state = .halted ∧ (0xFFFFFF : Word).toNat % 2 ^ 24 ≠ 0 ∧ (0x1000000 : Word).toNat % 2 ^ 24 = 0) := by decide +kernel

/-! ## The clock -/

/-- An Announce or Sync of another clock at port 7. -/
def ptpMsg (k : PtpKind) : PtpMsg :=
  { (default : PtpMsg) with kind := k, src := ⟨Config.clockIdentity + 1, 1⟩ }

/-- A module that has a PTP message in the control buffer of port 7, the port enabled. -/
def ptpState (k : PtpKind) (c : Clk := {}) : State :=
  up { regs := [(Reg.PTP_CTRL, 0), (Reg.PTP_PCFG 7, 1)], clk := { c with ports := [(7, { (tabGet c.ports 7) with state := .slave })] }
       net := { ports := [(7, { control := [⟨frameOf (.ptp (ptpMsg k)), 0, false⟩] })] } }

def parent1 : ForeignMaster := { (default : ForeignMaster) with src := ⟨Config.clockIdentity + 1, 1⟩ }

theorem wit_ClockFollowsItsReferences_message (k : PtpKind) (c : Clk) :
    Powered (ptpState k c) ∧
      (takeControl (ptpState k c).m 7 fun pl => match pl with | .ptp _ => true | _ => false).map (·.1.frame.payload) =
        some (.ptp (ptpMsg k)) ∧
      ptpEnabled (ptpState k c).m 7 = true ∧ (ptpPort (ptpState k c).m 7).state ≠ .disabled ∧
      (ptpMsg k).domain = ptpDomain (ptpState k c).m ∧ (ptpMsg k).src.clock ≠ Config.clockIdentity ∧ (ptpMsg k).udp = false :=
  ⟨rfl, rfl, rfl, nofun,
    (by decide : 0 = ptpDomain { regs := [(Reg.PTP_CTRL, 0), (Reg.PTP_PCFG 7, 1)] }), Nat.succ_ne_self _, rfl⟩

theorem wit_ClockFollowsItsReferences_announce :
    (ptpState .announce { mode := .slave }).m.clk.mode ≠ .freeRun ∧
      (ptpPort (ptpState .announce { mode := .slave }).m 7).foreigns = [] := by decide

theorem wit_ClockFollowsItsReferences_sync :
    let s := ptpState .sync { mode := .slave, state := .locked, parent := some parent1, slavePort := some 7 }
    fromParent s.m 7 (ptpMsg .sync) = true ∧ (ptpMsg .sync).twoStep = false ∧ s.m.clk.cmdHoldover = false ∧
      s.m.clk.mode ≠ .holdover ∧ regBits s.m Reg.PTP_CTRL 0 0 = 0 ∧ s.m.clk.state = .locked :=
  ⟨beq_self_eq_true (ptpMsg .sync).src, rfl, rfl, by decide, by decide, rfl⟩

theorem wit_ClockFollowsItsReferences_timers :
    (let s := up { regs := [(Reg.PTP_PCFG 7, 1)], clk := { ports := [(7, { state := .master })] }
                   timers := due .ptpMessage 28 ++ due .ptpMessage 29 }
     ptpEnabled s.m 7 = true ∧ (ptpPort s.m 7).state = .master ∧ Due s.m .ptpMessage (4 * 7) ∧ Due s.m .ptpMessage (4 * 7 + 1)) ∧
    (∀ f ∈ [0, 1], (let s := up { regs := [(Reg.PTP_CFG, BitVec.ofNat 32 f), (Reg.PTP_PCFG 7, 1)], timers := due .ptpMessage 30
                                  clk := { ports := [(7, { state := .slave })] } }
     ptpEnabled s.m 7 = true ∧ ptpProfile s.m = f ∧ (ptpPort s.m 7).state = .slave ∧ Due s.m .ptpMessage (4 * 7 + 2))) ∧
    (let s := up { clk := { elapsed := secs 100, ports := [(7, { foreigns := [default] })] }, timers := due .clockRetain 0 }
     (ptpPort s.m 7).foreigns = [default] ∧ (default : ForeignMaster).lastAt + announceTimeout s.m ≤ s.m.clk.elapsed ∧
      Due s.m .clockRetain 0) ∧
    (let s := up { clk := { elapsed := secs 100, mode := .slave, state := .locked, parent := some default, slavePort := some 7 } }
     s.m.clk.mode = .slave ∧ s.m.clk.state = .locked ∧ s.m.clk.parent = some default ∧ s.m.clk.slavePort = some 7 ∧
      s.m.clk.lastSyncAt + 3 * intvAt s.m 0 ≤ s.m.clk.elapsed) := by decide +kernel

theorem wit_ClockFollowsItsReferences_ticks :
    (let s := up { clk := { slewLeft := 1000 * nsUnit } }
     s.m.clk.slewLeft ≠ 0 ∧ s.m.clk.pendStep = none ∧ ceilDiv s.m.clk.slewLeft.natAbs slewTick < ticksToCarry s.m) ∧
    (let s := up { clk := { ns := 999999970 } }
     s.m.clk.slewLeft = 0 ∧ s.m.clk.pendStep = none ∧ s.m.clk.pendMode = none ∧ localFine s.m.clk < secs 1 ∧ 0 < tickInc s.m ∧
      tickInc s.m ≤ secs 1 ∧ s.m.clk.sec + 1 < 2 ^ 64 ∧ pendingLeap s.m = 0) ∧
    (let s := up { clk := { sec := 86399 + 1, ns := 999999970 }, regs := [(Reg.PTP_UTC, 0x10000)] }
     pendingLeap s.m = 1 ∧ leapSecond s.m = s.m.clk.sec + 1 ∧ secs 1 / 2 ≤ localFine s.m.clk) ∧
    (let s := up { clk := { sec := 1, mode := .slave, extCap := some (0, 0, 0) }, regs := [(Reg.PTP_CTRL, 4)] }
     regBits s.m Reg.PTP_CTRL 2 2 = 1 ∧ s.m.clk.extCap = some (0, 0, 0) ∧ s.m.clk.mode = .slave ∧
      ((localTime s.m.clk : Int) - (0 * secs 1 + 0 * nsUnit + 0 * 2 ^ 32 + secs 1 : Nat)).natAbs ≤ usec 1) ∧
    (let s := up { clk := { mode := .master, state := .locked }, regs := [(Reg.PTP_CTRL, 4)] }
     regBits s.m Reg.PTP_CTRL 2 2 = 1 ∧ s.m.clk.mode = .master ∧ s.m.clk.state = .locked) := by decide +kernel

theorem wit_ClockFollowsItsReferences_settings :
    (∀ st ∈ [ClkState.freeRun, .locked], (let s := up { clk := { state := st }, regs := [(Reg.PTP_SET_NS, 999999999)] }
     (s.m.clk.state = .freeRun ↔ st = .freeRun) ∧ blockUp s.m (srcOf Reg.PTP_SET_CMD) = true ∧
      gateOpen s.m (srcOf Reg.PTP_SET_CMD) = true ∧ (1 : Word).toNat % 2 = 1 ∧ (reg s.m Reg.PTP_SET_NS).toNat < 1000000000 ∧
      blockUp s.m (srcOf Reg.PTP_FREQ) = true ∧ gateOpen s.m (srcOf Reg.PTP_FREQ) = true)) ∧
    1000000000 ≤ (reg (up { regs := [(Reg.PTP_SET_NS, 1000000000)] }).m Reg.PTP_SET_NS).toNat ∧
    (let s := up { clk := { mode := .slave, parent := some { (default : ForeignMaster) with ann := { (default : AnnounceData) with utcValid := true } } } }
     blockUp s.m (srcOf Reg.PTP_UTC) = true ∧ gateOpen s.m (srcOf Reg.PTP_UTC) = true ∧
      ((s.m.clk.mode == .slave || s.m.clk.mode == .boundary) && s.m.clk.parent.any fun f => f.ann.utcValid) = true ∧
      (((up {}).m.clk.mode == .slave || (up {}).m.clk.mode == .boundary) && (up {}).m.clk.parent.any fun f => f.ann.utcValid) = false ∧
      bitsOf (0x20000 : Word).toNat 17 16 ≠ 3 ∧ bitsOf (0x30000 : Word).toNat 17 16 = 3) := by decide +kernel

/-! ## Recording -/

def file5 : RecFile := { num := 5, def_ := 63, cfg := {}, rate := 4800, openAt := 0, openSec := 0, primary := ⟨2, 63, 0, 2, 0⟩ }

/-- Recording Live with definition 63 and one record. -/
def recorder (r : RecFile) (c : Rec := {}) (m : Mod := {}) : State :=
  up { m with parts := part 3 .live { rec_ := { defs := [(63, {})] } }, rec_ := { c with recs := [r] } }

theorem wit_RecordsOpenCloseAndExport_open :
    (let s := recorder file5
     Powered s ∧ (63 = 32 * 1 + 31) ∧ blockUp s.m (srcOf (Reg.REC_MANUAL 1)) = true ∧ isLive s.m 3 = true ∧
      (recCfg s.m).defs.lookup 63 = some {} ∧ (defSt s.m 63).rec_ = none ∧ (defSt s.m 63).disarmed = false ∧
      (defSt s.m 63).hold = false) ∧
    (let s := recorder file5
     blockUp s.m (srcOf Reg.REC_ARM) = true ∧ gateOpen s.m (srcOf Reg.REC_ARM) = true ∧ isLive s.m 3 = true ∧
      ((recCfg s.m).defs.lookup 63).isSome = true ∧ (defSt s.m 63).rec_ = none) ∧
    (let r := { file5 with ref := some 7 }
     let s := recorder r { defs := [(63, { rec_ := some 5 })], srcs := [(7, { last := some 100 })] }
     openRec s.m 63 = some r ∧ r.def_ = 63 ∧ r.ref = some 7 ∧ (tabGet s.m.rec_.srcs 7).last = some 100 ∧ (recEnd r).1 ≤ 100) ∧
    Due (recorder file5 {} { timers := due .holdOff 63 }).m .holdOff 63 := by decide +kernel

theorem wit_RecordsOpenCloseAndExport_arm :
    (0x8000003F : Word).toNat % 64 = 63 ∧ (0x8000003F : Word).toNat.testBit 30 = false ∧ (0x4000003F : Word).toNat % 64 = 63 ∧
      (0x4000003F : Word).toNat.testBit 30 = true := ⟨rfl, rfl, rfl, rfl⟩

theorem wit_RecordsOpenCloseAndExport_files :
    (let r := { file5 with rows := [⟨7, 0, 0, false, 0, 0, 0, 0, 0, [1]⟩] }
     let s := recorder r { ring := [⟨7, 1, 0, false, 0, 0, 0, 0, 0, [2]⟩] }
     s.m.kpr.kstate = 1 ∧ s.m.rec_.recs = [r] ∧ r.lost = none ∧ r.rows ≠ [] ∧
      fileSize { r with rows := r.rows ++ (s.m.rec_.ring.drop (r.next - s.m.rec_.base)).filterMap (recPart r) } ≤ storeBytes) ∧
    (let r := { file5 with closed := some (0, 0) }
     let s := recorder r { exports := [⟨5, 0, 0, 0, 64, []⟩] }
     recFile s.m 5 = some r ∧ r.closed.isSome = true ∧ s.m.kpr.kstate = 1 ∧ s.m.rec_.exports = [⟨5, 0, 0, 0, 64, []⟩] ∧
      s.m.kpr.shed < 2) := by decide +kernel

/-! ## DMA and compression -/

/-- One descriptor at offset 0 of module memory: MODULE_VALID set, its other fields zero. -/
def mem1 (off : Nat) : Mem := { dram := [(off + 31, 0x80)] }

def desc1 (ctrl src dst : Nat) : DmaDesc := ⟨0, src, dst, 4, ctrl, 0, []⟩

theorem wit_ChannelsAndLanesRunTheirWork_channels :
    (∀ st ∈ [DmaState.idle, .running], (let s := up { dma := { chans := [(15, { state := st })] } }
     Powered s ∧ blockUp s.m (srcOf (Reg.DMA_CH_CHAIN 15)) = true ∧ (dmaChan s.m 15).queue.length < 4 ∧ (64 : Word).toNat % 32 = 0 ∧
      (dmaChan s.m 15).state = st ∧ (dmaChan s.m 15).queue = [] ∧ (dmaChan s.m 15).next = none ∧ (dmaChan s.m 15).fetched = [] ∧
      (dmaChan s.m 15).pend = none)) ∧
    (let s := up { dma := { chans := [(15, { state := .halted })] } }
     blockUp s.m (srcOf (Reg.DMA_CH_CMD 15)) = true ∧ (dmaChan s.m 15).state = .halted ∧ (1 : Word).toNat.testBit 0 = true ∧
      (2 : Word).toNat.testBit 0 = false ∧ (2 : Word).toNat.testBit 1 = true) ∧
    (let s : State := { up { dma := { chans := [(15, { state := .running, next := some 64 })] } } with mem := mem1 64 }
     (dmaChan s.m 15).next = some 64 ∧ (dmaChan s.m 15).state = .running ∧ (dmaChan s.m 15).fetched.length < 128 ∧
      (dmaChan s.m 15).pend = none ∧ 64 % 32 = 0 ∧ (dmaChan s.m 15).hops < (dmaChan s.m 15).hopMax ∧
      2 ^ 31 ≤ dramNat s.mem (64 + 28) 4) ∧
    (let d := desc1 0x10 4096 8192
     let s := up { dma := { chans := [(15, { state := .running, fetched := [d] })] } }
     (dmaChan s.m 15).fetched = [d] ∧ (dmaChan s.m 15).state = .running ∧ dmaCheck 15 d = 0 ∧ d.ctrl.testBit 10 = false ∧
      d.ctrl.testBit 11 = false ∧ d.hazards = [] ∧ d.ctrl % 8 ≠ 2 ∧ bitsOf d.ctrl 5 4 = 1) := by decide +kernel

theorem wit_ChannelsAndLanesRunTheirWork_lanes :
    (let s : State := { up {} with mem := mem1 32 }
     (2 : Nat) < 4 ∧ blockUp s.m (srcOf (Reg.CMP_L_TAIL 2)) = true ∧ (cmpLane s.m 2).job = none ∧ s.m.hlth.thermal < 2 ∧
      (reg s.m (Reg.CMP_L_HEAD 2)).toNat ≠ (1 : Word).toNat ∧
      0 = (reg s.m (Reg.CMP_L_BASE 2)).toNat + 64 * (reg s.m (Reg.CMP_L_HEAD 2)).toNat ∧ 2 ^ 31 ≤ dramNat s.mem (0 + 0x3C) 4) ∧
    (let j : CmpJob := { src := 4096, srcLen := 4, dst := 8192, dstLen := 64 }
     let s := up { dma := { lanes := [(3, { job := some j })] } }
     (cmpLane s.m 3).job = some j ∧ j.ctrl.testBit 13 = false ∧ cmpCheck 3 j = 0) := by decide +kernel

/-! ## Metering, events and keys -/

/-- A slot with the tag that the root key gives it. -/
def sealedSlot (p : Nat) (st : SlotState) : KeySlot :=
  let k : KeySlot := { policy := p, type := 1, state := st, cur := [1] }
  { k with tag := slotTag {} 255 k }

/-- Metering Live with a legal point 127 and a pulse output 3. -/
def meter (t : Mtr := {}) (m : Mod := {}) : State :=
  up { m with parts := part 2 .live { mtr := { points := [(127, ⟨true, 0, []⟩)], pulses := [(3, ⟨127, 0, false, 1, 1⟩)] } }, mtr := t }

theorem wit_MeteringEventsAndKeysAct_pulses :
    (let s := meter { credits := [(3, 2 ^ 32)] } { regs := [(Reg.MTR_CTRL, 8)], timers := due .pulseEnd 3 ++ due .periodicSave 0 }
     Powered s ∧ (mtrCfg s.m).pulses.lookup 3 = some ⟨127, 0, false, 1, 1⟩ ∧ (reg s.m Reg.MTR_CTRL).toNat.testBit 3 = true ∧
      2 ^ 32 ≤ tabGet s.m.mtr.credits 3 ∧ tabGet s.m.mtr.pulsing 3 = false ∧ s.m.mtr.saving = none ∧
      tabGet s.m.mtr.pulseAt 3 = none ∧ Due s.m .pulseEnd 3 ∧ Due s.m .periodicSave 0 ∧
      blockUp s.m (srcOf Reg.MTR_SAVE_CMD) = true ∧ (1 : Word).toNat % 2 = 1) := by decide +kernel

theorem wit_MeteringEventsAndKeysAct_points :
    (let c : MtrCopy := ⟨0, .periodic, 0, 0, 0, 0, 0, .unsealed, [], [], []⟩
     (meter { saving := some c }).m.mtr.saving = some c ∧ c.kind ≠ .lastGasp ∧ (meter { saving := some c }).m.mtr.waiting = none) ∧
    (∀ q ∈ [SealState.unsealed, .sealed],
      (let s := meter {} { mode := { sealSt := q }, factory := { ({} : Factory) with orderL := true } }
       blockUp s.m (srcOf Reg.MTR_PT_CMD) = true ∧ gateOpen s.m (srcOf Reg.MTR_PT_CMD) = true ∧ sealState s.m = q ∧
        ptLegal s.m 127 = true ∧ ptLegal s.m 0 = false)) ∧
    (let s := meter { logFree := 5, logNext := 6 }
     blockUp s.m (srcOf Reg.MTR_LOG_ACK) = true ∧ gateOpen s.m (srcOf Reg.MTR_LOG_ACK) = true ∧ s.m.mtr.logFree ≤ 5 ∧
      5 < s.m.mtr.logNext ∧ 5 < s.m.mtr.logFree + 2 ^ 32) := by decide +kernel

theorem sealedSlot_tag (m : Mod) (p : Nat) (st : SlotState) (h : m.key.root = ({} : Mod).key.root) :
    (sealedSlot p st).tag = slotTag m 255 (sealedSlot p st) := by
  simp only [sealedSlot, slotTag, tagKey, h]

def metered (k : KeySlot) : State :=
  meter {} { factory := { ({} : Factory) with orderL := true }, key := { slots := [(255, k)] } }

theorem metered_slot (k : KeySlot) : keySlot (metered k).m 255 = k := by
  simp only [metered, meter, up, keySlot, tabGet, cellGet, ↓reduceIte]

/-- A module with a sealable key in slot 255, and one with the same key under a tag that does not fit it. -/
def sealable : State := metered (sealedSlot 5 .valid)

def broken : State := metered { sealedSlot 5 .valid with tag := 0 :: (sealedSlot 5 .valid).tag }

theorem wit_MeteringEventsAndKeysAct_seal :
    (0x800000FF : Word).toNat % 256 = 255 ∧ (0x800000FF : Word).toNat.testBit 31 = true ∧
      blockUp sealable.m (srcOf Reg.KEY_SEAL_CMD) = true ∧ gateOpen sealable.m (srcOf Reg.KEY_SEAL_CMD) = true ∧
      sealState sealable.m = .unsealed ∧ sealSlotOk sealable.m 255 = true ∧
      (keySlot sealable.m 255).tag = slotTag sealable.m 255 (keySlot sealable.m 255) ∧ isLive sealable.m 2 = true :=
  ⟨rfl, rfl, by decide +kernel, by decide +kernel, by decide +kernel, by decide +kernel,
    by rw [sealable, metered_slot]; exact sealedSlot_tag _ _ _ rfl, by decide +kernel⟩

theorem wit_MeteringEventsAndKeysAct_events :
    (let s := up { evr := { queue := [default] }, timers := due .commissioning 0 ++ due .grace 255
                   key := { store := .commissioning, slots := [(255, { state := .grace })] } }
     s.m.evr.running = true ∧ s.m.evr.lostGap = 0 ∧ s.m.evr.queue = [default] ∧ s.m.evr.newest = none ∧
      blockUp s.m (srcOf Reg.EVR_RD_CMD) = true ∧ Due s.m .commissioning 0 ∧ s.m.key.store = .commissioning ∧ Due s.m .grace 255 ∧
      (keySlot s.m 255).state = .grace) := by decide +kernel

theorem wit_MeteringEventsAndKeysAct_tags :
    slotLive (keySlot sealable.m 255) = true ∧ (keySlot sealable.m 255).tag = slotTag sealable.m 255 (keySlot sealable.m 255) ∧
      slotLive (keySlot broken.m 255) = true ∧ (keySlot broken.m 255).tag ≠ slotTag broken.m 255 (keySlot broken.m 255) := by
  refine ⟨by decide +kernel, wit_MeteringEventsAndKeysAct_seal.2.2.2.2.2.2.1, by decide +kernel, ?_⟩
  rw [broken, metered_slot]
  exact fun h => List.cons_ne_self _ _ (h.trans (sealedSlot_tag _ 5 .valid rfl).symm)

/-! ## Transmit timestamps -/

theorem wit_TimestampQueuesKeepThirtyTwoEntries :
    (let m : Mod := { clk := { tsq := [(7, List.replicate 32 default)] } }
     (7 : Nat) < 8 ∧ 32 ≤ (tabGet m.clk.tsq 7).length ∧ reg m (Reg.PTP_PTSQ_DROP 7) ≠ BitVec.allOnes 32) ∧
    (let m : Mod := { clk := { tsq := [(7, List.replicate 31 default)] } }
     (tabGet m.clk.tsq 7).length < 32) ∧ (tabGet ({} : Mod).clk.tsq 7 = []) := by decide +kernel

/-! ## A structure image that passes -/

/-- A delay-list plan and a port map of zeros, and an entry of the section table. -/
def planSec : Bytes := ((List.range 4).map fun i => leBytes 8 i).flatten

def portSec : Bytes :=
  zeros 16 ++ ((List.range 4).map fun i => leBytes 2 i ++ leBytes 2 2000 ++ leBytes 2 10 ++ zeros 10).flatten ++
    ((List.range 8).map fun i => leBytes 4 i ++ leBytes 2 1522 ++ zeros 42).flatten

def secEntry (type off : Nat) (len dig : Nat) : Bytes := leBytes 2 type ++ leBytes 6 0xFF ++ leBytes 8 off ++
  leBytes 8 len ++ beBytes 32 dig ++ zeros 8

/-- Header, section table and sections of a full image without a partition. -/
def imgBody : Bytes :=
  let h := leBytes 4 0x4D495A50 ++ leBytes 2 2 ++ leBytes 2 256 ++ leBytes 1 1 ++ leBytes 1 0 ++ leBytes 1 3 ++ zeros 5 ++ leBytes 8 1040 ++
    leBytes 4 2 ++ leBytes 4 256 ++ zeros 40 ++ leBytes 16 9 ++ zeros 4 ++ leBytes 4 7 ++ leBytes 2 1 ++ zeros 158
  h ++ secEntry 6 384 32 73218487477215938535138792362720184853483993241164916231880171365744160264055 ++
   secEntry 15 448 464 110685467892071338612227831600740877082960901497355847055205773244135397023924 ++ planSec ++ zeros 32 ++ portSec

/-- The image with its signature block, and the public key that verifies it. -/
def img1 : Bytes := imgBody ++ leBytes 4 1 ++ leBytes 4 96 ++
  beBytes 48 11276031071952354069678563053777826443960154600274419873389126522047540789480171896306567946174389217978380905621197 ++
  beBytes 48 11276031071952354069678563053777826443960154600274419873389126522047540789480171896306567946174389217978380905621197 ++ zeros 24

def imgKey : Bytes := beBytes 48 27805822291903931347029206360668461392826186712353322454809225129392043866114343959585829776552594821412291047908458 ++
  beBytes 48 9181844025731620974414066776972794579821077488617123618803647744454212028510548291045698984876874149438727798025609

def imgSlot : KeySlot :=
  let k : KeySlot := { policy := 2, type := 1, state := .valid, kid := 7, cur := imgKey }
  { k with tag := slotTag {} 0 k }

def imgState : State := up { key := { slots := [(0, imgSlot)] }, img := { staged := some img1 } }

theorem img1_form :
    formOk img1 = true ∧ hTotal img1 = img1.length ∧ hTotal img1 ≤ 536870912 ∧
      (hTarget img1).testBit (if imgState.m.factory.orderL then 1 else 0) = true := by decide +kernel

theorem img1_digests : ((secTable img1).all fun s => sha256 (secBytes img1 s) == s.digest) = true := by decide +kernel

theorem img1_signed : sigOk img1 imgKey = true := by decide +kernel

theorem img1_slot :
    slotOfKid imgState.m (hKeyId img1) = some 0 ∧ (keySlot imgState.m 0).policy = 2 ∧ slotLive (keySlot imgState.m 0) = true ∧
      ((List.range 4).any fun p => (hMask img1).testBit p && decide (hVersion img1 < tabGet imgState.m.img.floors p)) = false := by
  decide +kernel

theorem imgState_slot : keySlot imgState.m 0 = imgSlot := by
  simp only [imgState, up, keySlot, tabGet, cellGet, ↓reduceIte]

theorem img1_tag : checkTag imgState.m 0 = imgState.m := by
  have h : (keySlot imgState.m 0).tag = slotTag imgState.m 0 (keySlot imgState.m 0) := by
    have hr : imgState.m.key.root = ({} : Mod).key.root := rfl
    rw [imgState_slot]
    simp only [imgSlot, slotTag, tagKey, hr]
  simp [checkTag, h]

theorem img1_verifies : verifyImage imgState.m img1 = (imgState.m, 0) := by
  obtain ⟨h1, h2, h3, h4⟩ := img1_form
  obtain ⟨s1, s2, s3, s4⟩ := img1_slot
  have hk : sigOk img1 (keySlot imgState.m 0).cur = true := by rw [imgState_slot]; exact img1_signed
  simp only [verifyImage, h1, h4, img1_digests, s1, s2, s3, s4, hk, img1_tag, ← h2, Bool.not_true, Bool.false_eq_true, ne_eq,
    not_true_eq_false, false_or, ↓reduceIte]
  simp [h3]

theorem img1_admitted :
    (rdPlan img1).any (fun pl => hdrAgrees imgState.m pl && (admission imgState.m (planUni imgState.m pl) (hTarget img1)).isEmpty) = true := by
  decide +kernel

theorem wit_KeeperStagesAndCommitsImages :
    Powered imgState ∧ KeeperTakes imgState.m 0 ∧ imgState.m.img.commit = none ∧ imgState.m.img.staged = some img1 ∧ 256 ≤ img1.length ∧
      hImageId img1 = 9 ∧ pairBusy imgState.m = false ∧ (judgeCommit imgState.m img1).2.2.isSome = true := by
  refine ⟨rfl, by decide +kernel, rfl, rfl, by decide +kernel, by decide +kernel, rfl, ?_⟩
  have hb : judgeCommit imgState.m img1 = judge imgState.m img1 := by
    have h : ((touched img1).contains 2 && sealState imgState.m == .sealed) = false ∧
        ((touched img1).contains 0 && (imgState.m.mode.role == .active || roleLeft imgState.m == .active)) = false ∧
        (touched img1).any (partBusy imgState.m) = false := by decide +kernel
    simp only [judgeCommit, h.1, h.2.1, h.2.2, Bool.false_eq_true, if_false]
  rw [hb]
  have ha := img1_admitted
  cases hp : rdPlan img1 with
  | none => rw [hp] at ha; cases ha
  | some pl =>
    rw [hp, Option.any_some, Bool.and_eq_true] at ha
    simp [judge, img1_verifies, hp, ha.1, ha.2]

/-! ## Single steps -/

/-- FIPS 180-4's example for SHA-256, and the check value of CRC-32C over the digits 1 to 9. -/
theorem test_sha256_abc :
    beNat (sha256 [0x61, 0x62, 0x63]) = 0xba7816bf8f01cfea414140de5dae2223b00361a396177a9cb410ff61f20015ad := by decide +kernel

theorem test_crc32c_check : crc32c (ascii "123456789") = 0xE3069283 := by decide +kernel

/-- Power good on a module without supply begins the start at step 2. -/
theorem test_power_good_starts :
    (match step { pending := [.powerGood] } with
     | .next t => decide (t.m.hlth.stage = 2 ∧ t.m.hlth.power = .on ∧ t.pending = [])
     | _ => false) = true := by decide +kernel

/-- A write outside the register space leaves the registers and is noted. -/
theorem test_unmapped_write_is_noted :
    (match exec (.reservedAccess 0x3FF000 true) (up {}) with
     | .next t => decide ((reg t.m Reg.HOST_ACCADDR).toNat = 0x3FF000 ∧ (reg t.m Reg.HOST_FAULT).toNat.testBit 0 = true)
     | _ => false) = true := by decide +kernel

end Sys2Proof.Tests
end

section
/-!
SUPPORT. Scope: a step runs the command at the front of the queue (R1, R57), and every command answers a next state and leaves the
queue as it was (R1, R10). Each of the five shapes an outcome has keeps the queue; `exec_cases` says that every command has one.
-/
namespace Sys2Proof.Machine

/-- The outcome of a command on `s` is a next state, whose queue is that of `s`. -/
def KeepsQueue (s : State) (o : Done) : Prop := ∃ t, o = .next t ∧ t.pending = s.pending

theorem runRaw_keepsQueue (s : State) (f : Mod → Mod) : KeepsQueue s (runRaw s f) := ⟨_, rfl, rfl⟩

theorem runM_keepsQueue (s : State) (f : Mod → Mod) : KeepsQueue s (runM s f) := runRaw_keepsQueue s (onSupply f)

theorem runSupply_keepsQueue (s : State) (f : Mod → Mod) : KeepsQueue s (runSupply s f) :=
  ⟨_, rfl, settleState_pending s (f s.m)⟩

/-- Without supply the state is the same, queue and all; with it the effect and what follows it leave the queue. -/
theorem runS_keepsQueue (s : State) (f : Mod → Mod) : KeepsQueue s (runS s f) := by
  unfold runS
  split
  · exact ⟨s, rfl, rfl⟩
  · exact runSupply_keepsQueue s f

/-- Without supply the state is the same; with it only the module and its memories take the effect. -/
theorem runW_keepsQueue (s : State) (f : Mod → Mod × List MemWrite) : KeepsQueue s (runW s f) := by
  unfold runW
  split
  · exact ⟨s, rfl, rfl⟩
  · exact ⟨_, rfl, rfl⟩

theorem exec_keepsQueue (i : Instr) (s : State) : KeepsQueue s (exec i s) := by
  obtain ⟨f, h⟩ | ⟨f, h⟩ | ⟨-, f, h⟩ | ⟨-, f, h⟩ | ⟨-, f, h⟩ := exec_cases i s <;> rw [h]
  · exact runM_keepsQueue s f
  · exact runS_keepsQueue s f
  · exact runW_keepsQueue s f
  · exact runRaw_keepsQueue s f
  · exact runSupply_keepsQueue s f

theorem step_of_pending_cons {s : State} {c : Instr} {rest : List Instr} (h : s.pending = c :: rest) :
    step s = exec c { s with pending := rest } := by
  rw [step, h]

/-- Settles O5: every command has one of the five shapes of `exec_cases`, and each of them keeps the queue. -/
theorem everyCommandCompletes : Obligations.EveryCommandCompletes := exec_keepsQueue

/-- Settles O1: the queue's first branch of `step`. -/
theorem stepRunsTheFrontCommand : Obligations.StepRunsTheFrontCommand := by
  intro c rest s hq
  exact step_of_pending_cons hq

end Sys2Proof.Machine
end

section
/-!
SUPPORT. Architecture: what a command and a step can do to the two memories (R33, R391, R414). `exec_mem` says it once for every
command: the memories stay, DRAM is lost as a whole, or a transfer writes bytes. Canonical form and the frame of memory follow.
-/
namespace Sys2Proof.Machine

/-! ## Memory after a command, by the shape of its outcome -/

theorem runRaw_mem {s t : State} {f : Mod → Mod} (h : runRaw s f = .next t) : t.mem = s.mem := by
  cases h; rfl

theorem runM_mem {s t : State} {f : Mod → Mod} (h : runM s f = .next t) : t.mem = s.mem := runRaw_mem h

/-- What follows an effect at once may lose DRAM as a whole (R510), and touches no single byte. -/
theorem runSupply_mem {s t : State} {f : Mod → Mod} (h : runSupply s f = .next t) :
    t.mem = s.mem ∨ t.mem = { s.mem with dram := [] } := by
  cases h
  exact settleState_mem s (f s.m)

theorem runS_mem {s t : State} {f : Mod → Mod} (h : runS s f = .next t) :
    t.mem = s.mem ∨ t.mem = { s.mem with dram := [] } := by
  unfold runS at h
  split at h
  · cases h; exact .inl rfl
  · exact runSupply_mem h

/-- A transfer does its writes in order; without supply it does none. -/
theorem runW_mem {s t : State} {f : Mod → Mod × List MemWrite} (h : runW s f = .next t) :
    ∃ ws, t.mem = memWrites s.mem ws := by
  unfold runW at h
  split at h
  · cases h; exact ⟨[], rfl⟩
  · cases h; exact ⟨(f s.m).2, rfl⟩

theorem exec_mem {i : Instr} {s t : State} (h : exec i s = .next t) :
    t.mem = s.mem ∨ t.mem = { s.mem with dram := [] } ∨ (writesMemory i = true ∧ ∃ ws, t.mem = memWrites s.mem ws) := by
  obtain ⟨f, hf⟩ | ⟨f, hf⟩ | ⟨hw, f, hf⟩ | ⟨-, f, hf⟩ | ⟨-, f, hf⟩ := exec_cases i s <;> rw [hf] at h
  · exact .inl (runM_mem h)
  · exact (runS_mem h).imp_right .inl
  · exact .inr (.inr ⟨hw, runW_mem h⟩)
  · exact .inl (runRaw_mem h)
  · exact (runSupply_mem h).imp_right .inl

/-! ## Canonical form -/

/-- Lost DRAM lists no byte, and host memory keeps its form. -/
theorem loseDram_wf {mem : Mem} (h : mem.wf = true) : ({ mem with dram := [] } : Mem).wf = true := by
  simp only [Mem.wf, Bool.and_eq_true] at h ⊢
  exact ⟨rfl, h.2⟩

theorem exec_keepsMemoryCanonical {i : Instr} {s t : State} (hs : MemoryCanonical s) (h : exec i s = .next t) :
    MemoryCanonical t := by
  obtain hm | hm | ⟨-, ws, hm⟩ := exec_mem h <;> rw [MemoryCanonical, hm]
  · exact hs
  · exact loseDram_wf hs
  · exact memWrites_wf ws s.mem hs

/-- On an empty queue time passes for the module alone (log 2). -/
theorem step_mem_of_pending_nil {s t : State} (hq : s.pending = []) (h : step s = .next t) : t.mem = s.mem := by
  rw [step, hq] at h
  dsimp only at h
  split at h
  · cases h; rfl
  · cases h; rfl

/-- Settles O3: an empty queue leaves the memories, and the front command keeps their form on the state with the queue's rest, whose
memories are the same. -/
theorem stepKeepsMemoryCanonical : Obligations.StepKeepsMemoryCanonical := by
  intro s t hs h
  cases hq : s.pending with
  | nil => rwa [MemoryCanonical, step_mem_of_pending_nil hq h]
  | cons c rest =>
    rw [step_of_pending_cons hq] at h
    exact exec_keepsMemoryCanonical (s := { s with pending := rest }) hs h

/-! ## The frame of memory -/

/-- Settles O6: without the writes of a transfer, `exec_mem` leaves only the memories as they were and the loss of DRAM, which does
not touch host memory. -/
theorem onlyTransfersWriteMemory : Obligations.OnlyTransfersWriteMemory := by
  intro i s t hw h
  obtain hm | hm | ⟨hw', -⟩ := exec_mem h
  · rw [hm]
    exact ⟨fun _ => rfl, .inl fun _ => rfl⟩
  · rw [hm]
    exact ⟨fun _ => rfl, .inr rfl⟩
  · rw [hw] at hw'
    cases hw'

/-! ## Memory at reset -/

/-- In empty memories every byte reads 0 (log 10). -/
theorem memByte_empty (toHost : Bool) (a : Nat) : memByte {} toHost a = 0 := by
  cases toHost <;> rfl

/-- Settles O4: memory is empty at reset (log 10). -/
theorem resetMemoryIsCanonical : Obligations.ResetMemoryIsCanonical :=
  ⟨rfl, fun a => ⟨memByte_empty true a, memByte_empty false a⟩⟩

end Sys2Proof.Machine
end

section
/-!
SUPPORT. What follows a command where nothing waits for it (R57, R59, R445): each part of `settle` leaves the module as it is.
-/
namespace Sys2Proof.Machine

theorem sealWatch_of_no_log (pre : Mod) {m : Mod} (h : sealLogs m = false) : sealWatch pre m = m := by
  rw [sealWatch, h]; rfl

theorem settleRung2_of_nil {m : Mod} (h : m.rung2 = []) : settleRung2 m = m := by
  rw [settleRung2, h, List.foldl_nil, ← h]

theorem commitResume_of_none {m : Mod} (h : m.img.commit = none) : commitResume m = m := by
  rw [commitResume, h]

theorem settleCommit_of_none {m : Mod} (h : m.img.commit = none) : settleCommit m = m := by
  rw [settleCommit, commitResume_of_none h, h]

theorem settleShed_of_none {m : Mod} (h : m.hlth.shedFor = none) : settleShed m = m := by
  rw [settleShed, h]

theorem settleClocks_of_nil {m : Mod} (h : m.hlth.pendClk = []) : settleClocks m = m := by
  rw [settleClocks, h, List.foldl_nil]

/-- Shed halts, and starts again, only partitions of its mask. -/
theorem settleThermal_of_no_mask {m : Mod} (h : m.hlth.shedMask = 0) : settleThermal m = m := by
  unfold settleThermal
  split_ifs <;> simp [h]

theorem settle_of_nothingWaits (pre : Mod) {m : Mod} (h : NothingWaits m) : settle pre m = m := by
  obtain ⟨hrung, hcommit, hshed, hclk, hmask, -, hseal⟩ := h
  rw [settle, sealWatch_of_no_log pre hseal, settleRung2_of_nil hrung, settleCommit_of_none hcommit, settleShed_of_none hshed,
    settleClocks_of_nil hclk, settleThermal_of_no_mask hmask]

/-- Settles O8: `settle` is the identity, and no DRAM loss is pending. -/
theorem nothingFollowsWhereNothingWaits : Obligations.NothingFollowsWhereNothingWaits := by
  intro s u h
  have hsettle := settle_of_nothingWaits s.m h
  obtain ⟨-, -, -, -, -, hwipe, -⟩ := h
  simp only [settleState, hsettle, settled, settleMem, hwipe, Bool.false_eq_true, if_false]

end Sys2Proof.Machine
end

section
/-!
SUPPORT. Partitions and images: what the operations of a commit, a halt, a load and a start leave of them (R57, R59 to R62, R112), and
what they make of the partition they act on.
-/
namespace Sys2Proof.Machine

/-- Two modules agree on the partitions and the images. -/
abbrev SameHeld (n m : Mod) : Prop := n.parts = m.parts ∧ n.img = m.img

theorem SameCore.held {n m : Mod} (h : SameCore n m) : SameHeld n m := ⟨h.1, h.2.1⟩

theorem SameButResponse.held {m u : Mod} (h : SameButResponse m u) : SameHeld u m := by
  rw [SameButResponse] at h
  rw [h]
  exact ⟨rfl, rfl⟩

theorem SameButResponse.td_eq {m u : Mod} (h : SameButResponse m u) : u.td = m.td := by
  rw [SameButResponse] at h
  rw [h]

theorem foldl_held {α : Type} {f : Mod → α → Mod} (h : ∀ m x, SameHeld (f m x) m) (l : List α) (m : Mod) :
    SameHeld (l.foldl f m) m :=
  List.foldlRecOn l f (motive := fun n => SameHeld n m) ⟨rfl, rfl⟩ fun n hn x _ => held_trans (h n x) hn

theorem partOf_congr {n m : Mod} (h : n.parts = m.parts) (p : Nat) : partOf n p = partOf m p := by
  rw [partOf, h, partOf]

theorem isLive_iff {m : Mod} {p : Nat} : isLive m p = true ↔ (partOf m p).state = .live := beq_iff_eq

/-! ## One partition changed -/

@[simp] theorem partOf_modPart_same (m : Mod) (p : Nat) (f : Part → Part) : partOf (modPart m p f) p = f (partOf m p) :=
  tabGet_tabMod_same m.parts p f

theorem partOf_modPart_ne (m : Mod) {p q : Nat} (f : Part → Part) (h : q ≠ p) : partOf (modPart m p f) q = partOf m q :=
  tabGet_tabMod_ne m.parts f h

@[simp] theorem setPart_img (m : Mod) (p : Nat) (st : PartState) : (setPart m p st).img = m.img := by
  unfold setPart
  dsimp only
  split <;> simp

@[simp] theorem partOf_setPart_same (m : Mod) (p : Nat) (st : PartState) :
    partOf (setPart m p st) p = { partOf m p with state := st } := by
  unfold setPart
  dsimp only
  split
  · rename_i h; rw [← h]
  · rw [partOf_congr (m := modPart m p fun s => { s with state := st }) (by simp), partOf_modPart_same]

theorem partOf_setPart_ne (m : Mod) {p q : Nat} (st : PartState) (h : q ≠ p) : partOf (setPart m p st) q = partOf m q := by
  unfold setPart
  dsimp only
  split
  · rfl
  · rw [partOf_congr (m := modPart m p fun s => { s with state := st }) (by simp), partOf_modPart_ne m _ h]

/-! ## Halts -/

theorem recClose_held (m : Mod) (r : RecFile) (reason : Nat) : SameHeld (recClose m r reason) m := by
  unfold recClose closeFile
  dsimp only
  constructor <;> (repeat' split) <;> simp

theorem recHalt_held (m : Mod) (p : Nat) : SameHeld (recHalt m p) m := by
  unfold recHalt
  extract_lets m1 hit
  have hclose : SameHeld m1 m := by
    unfold m1
    split
    · exact ⟨rfl, rfl⟩
    · exact foldl_held (f := fun n r => recClose (endAtLast n r) r 3) (fun n r => held_trans (recClose_held _ r 3) ⟨rfl, rfl⟩) _ m
  exact held_trans ⟨rfl, rfl⟩ hclose

theorem pqFinish_held (m : Mod) (pq : Nat) (c : PqCfg) (type at_n : Nat) (o : PqOpen) (incomplete : Bool) :
    SameHeld (pqFinish m pq c type at_n o incomplete) m := by
  unfold pqFinish
  constructor <;> simp

theorem pqIncomplete_held (m : Mod) (pq : Nat) (c : PqCfg) : SameHeld (pqIncomplete m pq c) m := by
  unfold pqIncomplete
  extract_lets m1
  have hends : SameHeld m1 m := by
    refine foldl_held (fun n type => ?_) _ m
    split
    · exact pqFinish_held ..
    · exact ⟨rfl, rfl⟩
  exact held_trans ⟨rfl, rfl⟩ hends

theorem mtrHalt_held (m : Mod) : SameHeld (mtrHalt m) m := by
  unfold mtrHalt
  extract_lets m1
  have hends : SameHeld m1 m := by
    refine foldl_held (fun n g => ?_) _ m
    exact pqIncomplete_held n g.1 g.2
  exact held_trans ⟨rfl, rfl⟩ hends

theorem bsnHalt_held (m : Mod) : SameHeld (bsnHalt m) m := by
  unfold bsnHalt
  refine foldl_held (fun n o => ?_) _ m
  split
  · exact held_trans (outGap_core ..).held ⟨rfl, rfl⟩
  · exact ⟨rfl, rfl⟩

theorem wadHalt_held (m : Mod) (p : Nat) : SameHeld (wadHalt m p) m := by
  unfold wadHalt
  refine held_trans (publishAlarms_core ..).held ?_
  refine List.foldlRecOn (motive := fun r : Mod × List Nat => SameHeld r.1 m) _ _ ⟨rfl, rfl⟩ fun r hr x _ => ?_
  exact held_trans (evalAlarm_core r.1 { wadOrigin with tag := (alarmSt r.1 x.1).tag } x.1 x.2 .hold 1 0).held hr

theorem stopPubs_held (l : List (Nat × PubCfg)) (m : Mod) :
    SameHeld (l.foldl (fun n x => stopTimer n .gooseRetransmit x.1) m) m :=
  foldl_held (f := fun n x => stopTimer n .gooseRetransmit x.1) (fun _ _ => ⟨rfl, rfl⟩) l m

/-! ## Loads -/

theorem clearForLoad_held (m : Mod) (p : Nat) : SameHeld (clearForLoad m p) m := ⟨rfl, rfl⟩

theorem dropBlocks_held (m : Mod) (p : Nat) : SameHeld (dropBlocks m p) m := by
  unfold dropBlocks
  dsimp only
  constructor <;> split_ifs <;> rfl

theorem cleared_held (m : Mod) (p : Nat) : SameHeld (dropBlocks (clearForLoad m p) p) m :=
  held_trans (dropBlocks_held _ p) (clearForLoad_held m p)

theorem beginLoad_img (m : Mod) (p : Nat) (c : Committed) (fresh : Bool) (older : List Committed) :
    (beginLoad m p c fresh older).img = m.img := by
  unfold beginLoad
  simp [(cleared_held m p).2]

theorem partOf_beginLoad_same (m : Mod) (p : Nat) (c : Committed) (fresh : Bool) (older : List Committed) :
    partOf (beginLoad m p c fresh older) p =
      { state := .loading, image := some c.img, step := 5, stopped := true, older := older, fresh := if fresh then some c else none } := by
  unfold beginLoad
  simp

theorem partOf_beginLoad_ne (m : Mod) {p q : Nat} (c : Committed) (fresh : Bool) (older : List Committed) (h : q ≠ p) :
    partOf (beginLoad m p c fresh older) q = partOf m q := by
  unfold beginLoad
  rw [partOf_setPart_ne _ _ h, partOf_modPart_ne _ _ h, partOf_congr (cleared_held m p).1]

theorem removePart_img (m : Mod) (p : Nat) : (removePart m p).img = m.img := by
  unfold removePart
  simp [(cleared_held m p).2]

theorem partOf_removePart (m : Mod) (p : Nat) : partOf (removePart m p) p = { state := .absent } := by
  unfold removePart
  simp

theorem partOf_dropPart (m : Mod) (p : Nat) : partOf (dropPart m p) p = { state := .absent } := partOf_removePart m p

theorem dropPart_commit (m : Mod) (p : Nat) : (dropPart m p).img.commit = m.img.commit := by
  rw [← removePart_img m p]; rfl

theorem dropPart_copies (m : Mod) (p : Nat) : tabGet (dropPart m p).img.copies p = [] := tabGet_tabSet_same ..

theorem loadRegs_held (m : Mod) (p : Nat) : SameHeld (loadRegs m p) m := by
  obtain ⟨hparts, himg, -⟩ := loadRegs_core m p
  exact ⟨hparts, himg⟩

/-! ## Commits under way -/

theorem commitResume_of_settled {m : Mod} (h : CommitSettled m) : commitResume m = m := by
  unfold commitResume
  split
  · rename_i c b hc hb
    rw [(h c hc).1]; rfl
  · rfl

/-- A commit that has neither to wait nor to replace common sections only ends. -/
theorem settleCommit_of_settled {m : Mod} (h : CommitSettled m) :
    (settleCommit m).parts = m.parts ∧ (settleCommit m).img.copies = m.img.copies := by
  rw [settleCommit, commitResume_of_settled h]
  split
  · exact ⟨rfl, rfl⟩
  · rename_i c hc
    obtain ⟨hwait, hfull⟩ := h c hc
    have hbegun : (c.full && !c.begun) = false := by obtain h | h := hfull <;> simp [h]
    rw [hwait, hbegun, if_neg Bool.false_ne_true, if_neg Bool.false_ne_true]
    split <;> exact ⟨rfl, rfl⟩

/-- A full commit that has not begun its loads waits for its Live partitions. -/
theorem settleCommit_of_live {m : Mod} {c : Commit} {q : Nat} (hc : m.img.commit = some c) (hfull : c.full = true)
    (hbegun : c.begun = false) (hwait : c.waiting = false) (hq : q ∈ c.scope) (hlive : isLive m q = true) : settleCommit m = m := by
  have hresume : commitResume m = m := by
    unfold commitResume
    split
    · rename_i c' b hc' hb
      cases hc.symm.trans hc'
      rw [hwait]; rfl
    · rfl
  have hany : c.scope.any (isLive m) = true := List.any_eq_true.2 ⟨q, hq, hlive⟩
  rw [settleCommit, hresume, hc]
  simp [hfull, hbegun, hwait, hany]

end Sys2Proof.Machine
end

section
/-!
SUPPORT. Structure images: the statements about halts, loads and starts of partitions (R57, R59, R60, R62, R112). Each operation's
effect on its partition is one lemma; what it does beside the partitions is in the frames above.
-/
namespace Sys2Proof.Machine

/-! ## The halt point (R59 step 2, R112) -/

theorem haltPoint_effect {m : Mod} {p : Nat} (hlive : (partOf m p).state = .live) (hnext : (partOf m p).next.isSome = true)
    (hrun : (partOf m p).stopped = false) (htest : testHolds m p = false) :
    partOf (haltPoint m p) p = { partOf m p with
      stopped := true, haltAt := m.clk.elapsed, step := min 2 (2 * (partOf m p).step) } ∧ (haltPoint m p).img = m.img := by
  have hgo : ¬((partOf m p).state ≠ .live ∨ (partOf m p).next.isNone = true ∨ (partOf m p).stopped = true ∨
      testHolds m p = true) := by
    simp [hlive, hrun, htest, Option.isSome_iff_ne_none.1 hnext]
  unfold haltPoint
  extract_lets s m1 m2 m3
  rw [if_neg hgo]
  have hrec : SameHeld m2 m1 := held_trans (recHalt_held ..) (fltHalt_core m1 p).held
  have hmtr : SameHeld m3 m1 := by
    unfold m3
    split
    · exact held_trans (mtrHalt_held m2) hrec
    · exact hrec
  have hall : SameHeld (if p = 0 then leaveActive m3 0 else m3) m1 := by
    split
    · exact held_trans (leaveActive_core m3 0).held hmtr
    · exact hmtr
  obtain ⟨hparts, himg⟩ := hall
  rw [partOf_congr hparts, himg]
  exact ⟨partOf_modPart_same .., rfl⟩

/-- Settles O29: the partition takes its halt, and what the other blocks do at a halt leaves partitions and images. -/
theorem partitionsStopAtTheirHaltPoint : Obligations.PartitionsStopAtTheirHaltPoint := by
  intro s p hp _ hlive hnext hrun htest
  exact ⟨(exec_partitionHaltPoint p s).trans (runS_powered _ hp), haltPoint_effect hlive hnext hrun htest⟩

/-! ## The end of a load (R59 step 5, R60) -/

theorem loadComplete_ok {m : Mod} {p : Nat} (hload : (partOf m p).state = .loading) (hopen : (partOf m p).loaded = false) :
    loadComplete m p true = loaded m p := by
  simp [loadComplete, hload, hopen]

theorem loadComplete_fault {m : Mod} {p : Nat} (hload : (partOf m p).state = .loading) (hopen : (partOf m p).loaded = false) :
    loadComplete m p false = loadFault m p := by
  simp [loadComplete, hload, hopen]

theorem loaded_effect (m : Mod) (p : Nat) :
    partOf (loaded m p) p = { partOf m p with loaded := true, step := 6 } ∧ (loaded m p).img = m.img := by
  unfold loaded
  obtain ⟨hparts, himg⟩ := loadRegs_held (modPart m p fun s => { s with loaded := true, step := 6 }) p
  rw [partOf_congr hparts, himg]
  exact ⟨partOf_modPart_same .., rfl⟩

theorem partOf_loadFault_nil {m : Mod} {p : Nat} (h : (partOf m p).older = []) :
    partOf (loadFault m p) p = { state := .absent } := by
  rw [loadFault, h]
  exact partOf_removePart ..

theorem partOf_loadFault_cons {m : Mod} {p : Nat} {c : Committed} {rest : List Committed} (h : (partOf m p).older = c :: rest) :
    partOf (loadFault m p) p = { state := .loading, image := some c.img, step := 5, stopped := true, older := rest } := by
  rw [loadFault, h]
  exact partOf_beginLoad_same ..

/-- Settles O31: a good load only notes that it has ended; a fault begins the load of the copy behind it, or leaves no image. -/
theorem loadsEndOrFallBack : Obligations.LoadsEndOrFallBack := by
  intro s p hp hload hopen
  have hexec (ok : Bool) : exec (.partitionLoadComplete p ok) s = .next (settleState s (loadComplete s.m p ok)) :=
    (exec_partitionLoadComplete p ok s).trans (runS_powered _ hp)
  refine ⟨⟨hexec true, ?_⟩, fun hnone => ⟨hexec false, ?_⟩, fun c rest hold => ⟨hexec false, ?_⟩⟩
  · rw [loadComplete_ok hload hopen]
    exact loaded_effect s.m p
  · rw [loadComplete_fault hload hopen]
    exact partOf_loadFault_nil hnone
  · rw [loadComplete_fault hload hopen]
    simp only [partOf_loadFault_cons hold, and_self]

/-! ## The end of a halt (R59 steps 3 and 4, R61, R62) -/

/-- What the blocks do when a partition is Halted, before what follows its halt. -/
theorem partHalted_eq {m : Mod} {p : Nat} (hlive : (partOf m p).state = .live) (hstop : (partOf m p).stopped = true)
    (hdrain : drainedPart m p = true) :
    ∃ n, partHalted m p = settleCommit (afterHalt n p) ∧ partOf n p = { partOf m p with state := .halted } ∧
      n.img = m.img ∧ ∀ q, q ≠ p → partOf n q = partOf m q := by
  have hgo : ¬((partOf m p).state ≠ .live ∨ (!(partOf m p).stopped) = true ∨ (!drainedPart m p) = true) := by
    simp [hlive, hstop, hdrain]
  unfold partHalted
  extract_lets s m1 m2 m3 m4 m5
  rw [if_neg hgo]
  have hgap : SameHeld m1 (setPart m p .halted) := (haltGap_core ..).held
  have hbsn : SameHeld m2 m1 := by
    unfold m2
    split
    · exact bsnHalt_held m1
    · exact ⟨rfl, rfl⟩
  have hpubs : SameHeld m4 m2 := held_trans (stopPubs_held _ m3) (wadHalt_held m2 p)
  have hclaim : SameHeld m5 m4 := by
    unfold m5
    split
    · exact (settleClaim_core m4).held
    · exact ⟨rfl, rfl⟩
  obtain ⟨hparts, himg⟩ := held_trans hclaim (held_trans hpubs (held_trans hbsn hgap))
  refine ⟨m5, rfl, ?_, himg.trans (setPart_img ..), fun q hq => ?_⟩
  · rw [partOf_congr hparts, partOf_setPart_same]
  · rw [partOf_congr hparts, partOf_setPart_ne _ _ hq]

theorem afterHalt_stay {m : Mod} {p : Nat} (h : (partOf m p).next = some .stay) :
    afterHalt m p = modPart m p fun s => { s with next := none, step := 0 } := by
  simp [afterHalt, h]

theorem afterHalt_reload {m : Mod} {p : Nat} {c : Committed} {rest : List Committed} (h : (partOf m p).next = some .reload)
    (hcopies : tabGet m.img.copies p = c :: rest) : afterHalt m p = beginLoad m p c false rest := by
  simp [afterHalt, h, hcopies, loadCommitted]

theorem afterHalt_absent {m : Mod} {p : Nat} (h : (partOf m p).next = some .absent) : afterHalt m p = dropPart m p := by
  simp [afterHalt, h]

theorem afterHalt_load {m : Mod} {p : Nat} {c : Committed} (h : (partOf m p).next = some (.load c)) (hs : CommitSettled m) :
    afterHalt m p = loadNew m p c := by
  cases hc : m.img.commit with
  | none => simp [afterHalt, h, hc]
  | some k =>
    obtain ⟨-, hfull | hbegun⟩ := hs k hc
    · simp [afterHalt, h, hc, hfull]
    · simp [afterHalt, h, hc, hbegun]

theorem afterHalt_load_of_full {m : Mod} {p : Nat} {x : Committed} {c : Commit} (h : (partOf m p).next = some (.load x))
    (hc : m.img.commit = some c) (hfull : c.full = true) (hbegun : c.begun = false) (hp : p ∈ c.scope) :
    afterHalt m p = modPart m p fun s => { s with next := none, step := 4 } := by
  simp [afterHalt, h, hc, hfull, hbegun, hp]

theorem CommitSettled.congr {m n : Mod} (h : CommitSettled m) (he : n.img.commit = m.img.commit) : CommitSettled n := by
  intro c hc
  exact h c (he ▸ hc)

/-- Where the commit is settled, the end of a halt leaves the partition as what followed the halt made it. -/
theorem partOf_settleCommit {m n : Mod} {p : Nat} {x : Part} (hs : CommitSettled m) (hc : n.img.commit = m.img.commit)
    (hx : partOf n p = x) : partOf (settleCommit n) p = x :=
  (partOf_congr (settleCommit_of_settled (hs.congr hc)).1 p).trans hx

/-- Settles O30: the partition is Halted, what follows its halt acts on it, and the commit then ends or waits. -/
theorem drainedPartitionsAreHalted : Obligations.DrainedPartitionsAreHalted := by
  intro s p hp _ hlive hstop hdrain
  have hexec : exec (.partitionHalted p) s = .next (settleState s (partHalted s.m p)) :=
    (exec_partitionHalted p s).trans (runS_powered _ hp)
  obtain ⟨n, heq, hpart, himg, hother⟩ := partHalted_eq hlive hstop hdrain
  have hnext : (partOf n p).next = (partOf s.m p).next := by rw [hpart]
  rw [heq] at hexec ⊢
  refine ⟨fun hs => ?_, fun c x q hc hfull hbegun hwait hpc hqc hq hqlive hx => ⟨hexec, ?_⟩⟩
  · have hn : CommitSettled n := hs.congr (congrArg Imgs.commit himg)
    refine ⟨fun hx => ⟨hexec, ?_⟩, fun c hx => ⟨hexec, ?_⟩, fun c rest hx hcopies => ⟨hexec, ?_⟩, fun hx => ⟨hexec, ?_⟩⟩ <;>
      rw [hx] at hnext
    · rw [afterHalt_stay hnext]
      refine ⟨partOf_settleCommit hn rfl (by rw [partOf_modPart_same, hpart]), fun hnone => ?_⟩
      rw [settleCommit_of_none (himg ▸ hnone)]
      exact himg
    · rw [afterHalt_load hnext hn, loadNew, ← himg]
      exact partOf_settleCommit hn (congrArg Imgs.commit (beginLoad_img ..)) (partOf_beginLoad_same ..)
    · rw [afterHalt_reload hnext (himg ▸ hcopies)]
      exact partOf_settleCommit hn (congrArg Imgs.commit (beginLoad_img ..)) (partOf_beginLoad_same ..)
    · have hdrop : CommitSettled (dropPart n p) := hn.congr (dropPart_commit n p)
      rw [afterHalt_absent hnext]
      refine ⟨partOf_settleCommit hn (dropPart_commit n p) (partOf_dropPart n p), ?_⟩
      rw [(settleCommit_of_settled hdrop).2]
      exact dropPart_copies n p
  · have hqrest : isLive (modPart n p fun s => { s with next := none, step := 4 }) q = true := by
      rw [isLive_iff, partOf_modPart_ne _ _ hq, hother q hq, hqlive]
    rw [afterHalt_load_of_full (hnext.trans hx) (himg ▸ hc) hfull hbegun hpc,
      settleCommit_of_live (c := c) (himg ▸ hc) hfull hbegun hwait hqc hqrest]
    exact ⟨by rw [partOf_modPart_same, hpart], himg⟩

/-! ## Going Live (R57, R59 step 6) -/

theorem freshSubs_held (m : Mod) (p : Nat) : SameHeld (freshSubs m p) m := by
  unfold freshSubs
  refine foldl_held (fun n x => ?_) _ m
  exact ⟨rfl, rfl⟩

theorem commitCommon_frame (m : Mod) (x : Common) :
    (commitCommon m x).parts = m.parts ∧ (commitCommon m x).img.commit = m.img.commit := by
  unfold commitCommon
  split <;> exact ⟨rfl, rfl⟩

/-- A new committed copy changes no partition, and the commit goes on. -/
theorem commitCopy_frame (m : Mod) (p : Nat) :
    (commitCopy m p).parts = m.parts ∧ (commitCopy m p).img.commit = m.img.commit := by
  unfold commitCopy
  split
  · exact ⟨rfl, rfl⟩
  · dsimp only
    split
    · exact commitCommon_frame ..
    · exact ⟨rfl, rfl⟩

/-- The partition becomes Live; what the other blocks do then leaves partitions and images, and the commit ends or goes on. -/
theorem goLive_eq {m : Mod} {p : Nat} (h : readyLive m p = true) :
    ∃ n, goLive m p = settleCommit n ∧ partOf n p = { state := .live, image := (partOf m p).image } ∧
      n.img.commit = m.img.commit := by
  unfold goLive
  extract_lets load chg m1 m2 m3 m4 m5 m6 m7
  rw [h, Bool.not_true, if_neg Bool.false_ne_true]
  obtain ⟨hparts1, hcommit1⟩ : m1.parts = m.parts ∧ m1.img.commit = m.img.commit := commitCopy_frame m p
  have hpart2 : partOf m2 p = { state := .live, image := (partOf m p).image } := by
    rw [partOf_setPart_same, partOf_modPart_same, partOf_congr hparts1]
  have hcommit2 : m2.img.commit = m.img.commit := (congrArg Imgs.commit (setPart_img ..)).trans hcommit1
  have h3 : SameHeld m3 m2 := by
    unfold m3
    split
    · exact held_trans (wadReload_core ..).held (resumeGroup_core ..).held
    · exact (wadStart_core ..).held
  have h4 : SameHeld m4 m3 := held_trans (askDests_core ..).held (restartStreams_core ..).held
  have h5 : SameHeld m5 m4 := by
    unfold m5
    split
    · exact (protLive_core ..).held
    · exact (testBoundary_core ..).held
  have h6 : SameHeld m6 m5 := by
    unfold m6
    split
    · exact (concLive_core ..).held
    · exact ⟨rfl, rfl⟩
  have h7 : SameHeld m7 m6 := by
    unfold m7
    split
    · exact (recLive_core ..).held
    · exact ⟨rfl, rfl⟩
  have hend : SameHeld (resumePubs (freshSubs m7 p) p) m7 := held_trans (resumePubs_core ..).held (freshSubs_held m7 p)
  obtain ⟨hparts, himg⟩ := held_trans hend (held_trans h7 (held_trans h6 (held_trans h5 (held_trans h4 h3))))
  exact ⟨_, rfl, (partOf_congr hparts p).trans hpart2, (congrArg Imgs.commit himg).trans hcommit2⟩

/-- Settles O32: the partition is Live with its image, and the commit then ends or goes on. -/
theorem readyPartitionsGoLive : Obligations.ReadyPartitionsGoLive := by
  intro s p hp _ hready hs
  obtain ⟨n, heq, hpart, hcommit⟩ := goLive_eq hready
  refine ⟨(exec_partitionGoLive p s).trans (runS_powered _ hp), ?_⟩
  rw [heq]
  exact partOf_settleCommit hs hcommit hpart

end Sys2Proof.Machine
end

section
/-!
SUPPORT. Structure images: Keeper's commands that start, halt, stage and commit (R57 to R63, R112, R487, R488). Each command is one
equation of what it runs; `keeperCmd_result` adds the response.
-/
namespace Sys2Proof.Machine

/-! ## PARTITION_START and PARTITION_HALT (R59, R112) -/

/-- PARTITION_START of a Halted partition that no operation holds. -/
theorem partStart_result {m : Mod} {rq : KReq} {p : Nat} (hk : KeeperTakes m 0) (hp : p < 4)
    (hhalt : (partOf m p).state = .halted) (hfree : partBusy m p = false) (hstep : (partOf m p).step = 0) :
    Answered (partStart m rq p) rq 0x0020 0 ∧
      SameButResponse (modPart (clearPart m p) p fun s => { s with starting := true }) (partStart m rq p) :=
  keeperCmd_result hk (r := answer 0) (by simp [hp.not_ge, hhalt, hfree, hstep])

/-- PARTITION_HALT of a Live partition that no operation holds. -/
theorem partHaltCmd_result {m : Mod} {rq : KReq} {p : Nat} (hk : KeeperTakes m 0) (hp : p < 4)
    (hlive : (partOf m p).state = .live) (hfree : partBusy m p = false) (hseal : ¬(p = 2 ∧ sealState m = .sealed)) :
    Answered (partHaltCmd m rq p) rq 0x0021 0 ∧
      SameButResponse (modPart m p fun s => { s with next := some .stay }) (partHaltCmd m rq p) :=
  keeperCmd_result hk (r := answer 0) (by simp [hp.not_ge, isLive_iff.2 hlive, hfree, hseal])

/-- PARTITION_HALT of the metering partition of a sealed module (R69 I7). -/
theorem partHaltCmd_sealed {m : Mod} {rq : KReq} {p : Nat} (hk : KeeperTakes m 0) (hp : p < 4)
    (hlive : (partOf m p).state = .live) (hfree : partBusy m p = false) (hseal : p = 2 ∧ sealState m = .sealed) :
    Answered (partHaltCmd m rq p) rq 0x0021 0x0A ∧ SameButResponse m (partHaltCmd m rq p) :=
  keeperCmd_result hk (r := answer 0x0A) (by
    rw [if_neg hp.not_ge, isLive_iff.2 hlive, hfree, if_pos hseal]
    rfl)

/-- Settles O11: the start clears the frozen tasks and marks the partition, the halt marks it, and the seal refuses. -/
theorem keeperStartsAndHaltsPartitions : Obligations.KeeperStartsAndHaltsPartitions := by
  intro s rq p hp hk hp4
  have hexec : exec (.partitionHalt rq p) s = .next (settleState s (partHaltCmd s.m rq p)) :=
    (exec_partitionHalt rq p s).trans (runS_powered _ hp)
  refine ⟨fun hhalt hfree hstep => ⟨(exec_partitionStart rq p s).trans (runS_powered _ hp), ?_⟩,
    fun hlive hfree hseal => ⟨hexec, ?_⟩, fun hlive hfree hseal => ⟨hexec, partHaltCmd_sealed hk hp4 hlive hfree hseal⟩⟩
  · obtain ⟨hans, hsame⟩ := partStart_result (rq := rq) hk hp4 hhalt hfree hstep
    exact ⟨hans, (partOf_congr hsame.held.1 p).trans (partOf_modPart_same ..), hsame.td_eq⟩
  · obtain ⟨hans, hsame⟩ := partHaltCmd_result (rq := rq) hk hp4 hlive hfree hseal
    exact ⟨hans, (partOf_congr hsame.held.1 p).trans (partOf_modPart_same ..), hsame.td_eq⟩

/-! ## The judgement of a container (R48, R51) -/

/-- Verification can find a key slot whose tag fails, and touches nothing of partitions, images and outputs. -/
theorem checkTag_frame (m : Mod) (i : Nat) : SameHeld (checkTag m i) m ∧ (checkTag m i).out = m.out := by
  unfold checkTag tagFail
  dsimp only
  split
  · refine ⟨⟨?_, ?_⟩, ?_⟩ <;> simp [setSlot]
  · exact ⟨⟨rfl, rfl⟩, rfl⟩

theorem verifyImage_frame (m : Mod) (b : Bytes) : SameHeld (verifyImage m b).1 m ∧ (verifyImage m b).1.out = m.out := by
  have hself : SameHeld m m ∧ m.out = m.out := ⟨⟨rfl, rfl⟩, rfl⟩
  unfold verifyImage
  generalize (if m.factory.orderL then 1 else 0) = target
  cases slotOfKid m (hKeyId b) with
  | none => split_ifs <;> exact hself
  | some i =>
    have htag := checkTag_frame m i
    dsimp only
    split_ifs
    exacts [hself, hself, hself, hself, hself, htag, htag, htag, htag]

theorem judge_fst (m : Mod) (b : Bytes) : (judge m b).1 = (verifyImage m b).1 := by
  unfold judge
  dsimp only
  split
  · rfl
  · split
    · rfl
    · split <;> rfl

/-- A container that passes is answered with RESULT 0: admission found no entry. -/
theorem judge_result {m : Mod} {b : Bytes} {pl : Plan} (h : (judge m b).2.2 = some pl) : (judge m b).2.1.result = 0 := by
  revert h
  unfold judge
  dsimp only
  split
  · exact nofun
  · split
    · exact nofun
    · split
      · exact nofun
      · dsimp only
        split
        · rename_i hempty
          rw [List.isEmpty_iff.1 hempty]
          exact fun _ => rfl
        · exact nofun

theorem judgeCommit_frame (m : Mod) (b : Bytes) : SameHeld (judgeCommit m b).1 m ∧ (judgeCommit m b).1.out = m.out := by
  have hself : SameHeld m m ∧ m.out = m.out := ⟨⟨rfl, rfl⟩, rfl⟩
  unfold judgeCommit
  dsimp only
  split_ifs
  · exact hself
  · exact hself
  · exact hself
  · rw [judge_fst]
    exact verifyImage_frame m b

theorem judgeCommit_result {m : Mod} {b : Bytes} {pl : Plan} (h : (judgeCommit m b).2.2 = some pl) :
    (judgeCommit m b).2.1.result = 0 := by
  revert h
  unfold judgeCommit
  dsimp only
  split_ifs
  · exact nofun
  · exact nofun
  · exact nofun
  · exact judge_result

/-! ## The beginning of a commit (R59 step 1, R62) -/

/-- What follows the halt of a partition that a commit touches. -/
def commitNext (imgs : Cells (Option Committed)) (p : Nat) : AfterHalt :=
  match tabGet imgs p with
  | some c => .load c
  | none => .absent

/-- The beginning of a commit for one partition: a Live one is to halt, another one's update loads at once. -/
def commitPart (full : Bool) (imgs : Cells (Option Committed)) (m : Mod) (p : Nat) : Mod :=
  if isLive m p then modPart m p fun s => { s with next := some (commitNext imgs p), step := 1 }
  else match full, tabGet imgs p with
    | false, some c => loadNew m p c
    | _, _ => m

/-- The images that a plan commits, by partition. -/
def planImgs (b : Bytes) (pl : Plan) : Cells (Option Committed) :=
  pl.parts.foldl (fun l x => tabSet l x.1 (some ⟨x.2, hVersion b⟩)) []

/-- The commit that a plan begins. -/
def planCommit (b : Bytes) (pl : Plan) : Commit :=
  { full := hKind b == 1, imgs := planImgs b pl, common := pl.common, waiting := false, begun := false }

theorem beginCommit_eq (m : Mod) (b : Bytes) (pl : Plan) :
    beginCommit m b pl = (touched b).foldl (commitPart (hKind b == 1) (planImgs b pl))
      (modImg m fun g => { g with result := 0, commit := some (planCommit b pl) }) := rfl

/-- A partition that is to halt at its next cycle boundary, at step 1 of R59. -/
def HaltsForCommit (m : Mod) (p : Nat) : Prop :=
  (partOf m p).next.isSome = true ∧ (partOf m p).step = 1 ∧ (partOf m p).state = .live

section
variable (full : Bool) (imgs : Cells (Option Committed))

theorem commitPart_of_live {m : Mod} {p : Nat} (h : isLive m p = true) : commitPart full imgs m p =
    modPart m p fun s => { s with next := some (commitNext imgs p), step := 1 } := if_pos h

theorem commitPart_img (m : Mod) (p : Nat) : (commitPart full imgs m p).img = m.img := by
  unfold commitPart
  split
  · rfl
  · split
    · exact beginLoad_img ..
    · rfl

theorem partOf_commitPart_ne (m : Mod) {p q : Nat} (h : q ≠ p) : partOf (commitPart full imgs m p) q = partOf m q := by
  unfold commitPart
  split
  · exact partOf_modPart_ne _ _ h
  · split
    · exact partOf_beginLoad_ne _ _ _ _ h
    · rfl

theorem commitPart_halts {m : Mod} {p : Nat} (h : isLive m p = true) : HaltsForCommit (commitPart full imgs m p) p := by
  rw [commitPart_of_live full imgs h, HaltsForCommit, partOf_modPart_same]
  exact ⟨rfl, rfl, isLive_iff.1 h⟩

theorem commitPart_keeps_halting {m : Mod} {p : Nat} (h : HaltsForCommit m p) (q : Nat) :
    HaltsForCommit (commitPart full imgs m q) p := by
  by_cases hq : p = q
  · subst hq
    exact commitPart_halts full imgs (isLive_iff.2 h.2.2)
  · rwa [HaltsForCommit, partOf_commitPart_ne full imgs m hq]

theorem foldl_commitPart_img (l : List Nat) (m : Mod) : (l.foldl (commitPart full imgs) m).img = m.img :=
  foldl_keep Mod.img _ (commitPart_img full imgs) l m

/-- Each Live partition that the commit touches is to halt. -/
theorem foldl_commitPart_halts {l : List Nat} {p : Nat} (hp : p ∈ l) {m : Mod} (h : isLive m p = true) :
    HaltsForCommit (l.foldl (commitPart full imgs) m) p := by
  induction l generalizing m with
  | nil => cases hp
  | cons q l ih =>
    rw [List.foldl_cons]
    by_cases hq : p = q
    · subst hq
      exact List.foldlRecOn l _ (motive := fun n => HaltsForCommit n p) (commitPart_halts full imgs h) fun n hn r _ =>
        commitPart_keeps_halting full imgs hn r
    · refine ih (List.mem_of_ne_of_mem hq hp) ?_
      rwa [isLive, partOf_commitPart_ne full imgs m hq]

end

theorem beginCommit_img (m : Mod) (b : Bytes) (pl : Plan) :
    (beginCommit m b pl).img = { m.img with result := 0, commit := some (planCommit b pl) } := by
  rw [beginCommit_eq, foldl_commitPart_img]
  rfl

theorem beginCommit_halts {m : Mod} {b : Bytes} {p : Nat} (pl : Plan) (hp : p ∈ touched b) (h : isLive m p = true) :
    HaltsForCommit (beginCommit m b pl) p := by
  rw [beginCommit_eq]
  exact foldl_commitPart_halts _ _ hp h

/-! ## IMAGE_STAGE and IMAGE_COMMIT (R58, R59) -/

theorem imageStage_result {m : Mod} (mem : Mem) (rq : KReq) {off len : Nat} (hk : KeeperTakes m 0) (hc : m.img.commit = none)
    (hlen : off + len ≤ 2 ^ 32) : (∃ result, Answered (imageStage m mem rq off len) rq 0x0010 result) ∧
      (imageStage m mem rq off len).img = { m.img with staged := some (dramRead mem off len) } := by
  let judged := judge (modImg m fun g => { g with staged := some (dramRead mem off len) }) (dramRead mem off len)
  have hrun : Answered (imageStage m mem rq off len) rq 0x0010 judged.2.1.result ∧
      SameButResponse judged.1 (imageStage m mem rq off len) :=
    keeperCmd_result hk (by rw [if_neg hlen.not_gt, hc]; rfl)
  obtain ⟨hans, hsame⟩ := hrun
  refine ⟨⟨_, hans⟩, ?_⟩
  rw [hsame.held.2, judge_fst, (verifyImage_frame _ _).1.2]
  rfl

/-- The commit of a plan that passed: it begins, or waits for the end of a takeover or a revert (R63). -/
def startCommit (m : Mod) (b : Bytes) (pl : Plan) : Mod :=
  if pairBusy m then
    modImg m fun g => { g with commit := some { full := hKind b == 1, imgs := [], common := none, waiting := true, begun := false } }
  else beginCommit m b pl

theorem imageCommit_result {m : Mod} (rq : KReq) {id : Nat} {b : Bytes} {pl : Plan} (hk : KeeperTakes m 0)
    (hc : m.img.commit = none) (hstaged : m.img.staged = some b) (hlen : 256 ≤ b.length) (hid : hImageId b = id)
    (hplan : (judgeCommit m b).2.2 = some pl) :
    Answered (imageCommit m rq id) rq 0x0011 (judgeCommit m b).2.1.result ∧
      SameButResponse (startCommit (modImg (judgeCommit m b).1 fun g => { g with result := (judgeCommit m b).2.1.result }) b pl)
        (imageCommit m rq id) :=
  keeperCmd_result hk (by
    simp only [hstaged, hlen.not_gt, hid, hc, hplan, ne_eq, not_true_eq_false, or_false, Option.isSome_none, Bool.false_eq_true,
      if_false]
    unfold startCommit
    split <;> rfl)

theorem startCommit_img (m : Mod) (b : Bytes) (pl : Plan) (h : m.img.result = 0) :
    (startCommit m b pl).img.result = 0 ∧
      ∃ c, (startCommit m b pl).img.commit = some c ∧ c.waiting = pairBusy m ∧ c.full = (hKind b == 1) := by
  unfold startCommit
  split
  · rename_i hbusy
    exact ⟨h, _, rfl, hbusy.symm, rfl⟩
  · rename_i hbusy
    rw [beginCommit_img]
    exact ⟨rfl, _, rfl, (Bool.eq_false_iff.2 hbusy).symm, rfl⟩

theorem startCommit_halts {m : Mod} {b : Bytes} {p : Nat} (pl : Plan) (hbusy : pairBusy m = false) (hp : p ∈ touched b)
    (h : isLive m p = true) : HaltsForCommit (startCommit m b pl) p := by
  rw [startCommit, hbusy, if_neg Bool.false_ne_true]
  exact beginCommit_halts pl hp h

/-- Settles O16: staging keeps the bytes before it judges them; a commit that passes has RESULT 0 and begins or waits. -/
theorem keeperStagesAndCommitsImages : Obligations.KeeperStagesAndCommitsImages := by
  intro s rq hp hk hc
  refine ⟨fun off len hlen => ⟨(exec_imageStage rq off len s).trans (runM_powered _ hp), imageStage_result s.mem rq hk hc hlen⟩,
    fun b id pl hstaged hlen hid hplan => ⟨(exec_imageCommit rq id s).trans (runS_powered _ hp), ?_⟩⟩
  obtain ⟨hans, hsame⟩ := imageCommit_result rq hk hc hstaged hlen hid hplan
  obtain ⟨⟨hparts, -⟩, hout⟩ := judgeCommit_frame s.m b
  rw [judgeCommit_result hplan] at hsame
  set n := modImg (judgeCommit s.m b).1 fun g => { g with result := 0 } with hn
  have hlive (p : Nat) : isLive n p = isLive s.m p := congrArg (fun x => Part.state x == .live) (partOf_congr hparts p)
  have hbusy : pairBusy n = pairBusy s.m := by simp [pairBusy, hn, hout]
  obtain ⟨hres, c, hcommit, hwait, hfull⟩ := startCommit_img n b pl rfl
  have himg := hsame.held.2
  refine ⟨hans, himg ▸ hres, ⟨c, himg ▸ hcommit, hwait.trans hbusy, hfull⟩, fun hfree p hpt hpl => ?_⟩
  rw [partOf_congr hsame.held.1]
  exact startCommit_halts pl (hbusy.trans hfree) hpt ((hlive p).trans hpl)

end Sys2Proof.Machine
end

section
/-!
SUPPORT. Tasks of the dispatcher (R88 to R97, R103, R104, R140): what the shared operations leave of them, and what an issue, a steal,
a completion, a retire and a fault make of the task they name.
-/
namespace Sys2Proof.Machine

/-! ## The task of a template and a tag -/

theorem findTask_congr {n m : Mod} (h : n.td.tasks = m.td.tasks) (tn tag : Nat) : findTask n tn tag = findTask m tn tag := by
  rw [findTask, h, findTask]

theorem template_congr {n m : Mod} (h : n.parts = m.parts) (tn : Nat) : template n tn = template m tn := by
  simp only [template, imageOf, partOf_congr h]

theorem findTask_name {m : Mod} {tn tag : Nat} {k : Task} (h : findTask m tn tag = some k) : k.tmpl = tn ∧ k.tag = tag := by
  simpa using List.find?_some h

/-- A change of every task that keeps their names. -/
theorem findTask_of_map {n m : Mod} {g : Task → Task} (hn : n.td.tasks = m.td.tasks.map g)
    (hg : ∀ k, (g k).tmpl = k.tmpl ∧ (g k).tag = k.tag) (tn tag : Nat) : findTask n tn tag = (findTask m tn tag).map g := by
  have hname : (fun k : Task => k.tmpl == tn && k.tag == tag) ∘ g = fun k => k.tmpl == tn && k.tag == tag :=
    funext fun k => by simp only [Function.comp, hg]
  rw [findTask, hn, List.find?_map, hname, findTask]

theorem findTask_modTask {f : Task → Task} (hf : ∀ k, (f k).tmpl = k.tmpl ∧ (f k).tag = k.tag) (m : Mod) (tn tag a b : Nat) :
    findTask (modTask m tn tag f) a b = (findTask m a b).map fun k => if k.tmpl = tn ∧ k.tag = tag then f k else k :=
  findTask_of_map rfl (fun k => by split; exacts [hf k, ⟨rfl, rfl⟩]) a b

theorem findTask_modTask_same {f : Task → Task} (hf : ∀ k, (f k).tmpl = k.tmpl ∧ (f k).tag = k.tag) {m : Mod} {tn tag : Nat}
    {k : Task} (h : findTask m tn tag = some k) : findTask (modTask m tn tag f) tn tag = some (f k) := by
  rw [findTask_modTask hf, h, Option.map_some, if_pos (findTask_name h)]

theorem findTask_modTask_ne {f : Task → Task} (hf : ∀ k, (f k).tmpl = k.tmpl ∧ (f k).tag = k.tag) (m : Mod) {tn tag a b : Nat}
    (hne : a ≠ tn ∨ b ≠ tag) : findTask (modTask m tn tag f) a b = findTask m a b := by
  rw [findTask_modTask hf]
  cases h : findTask m a b with
  | none => rfl
  | some k =>
    obtain ⟨ha, hb⟩ := findTask_name h
    rw [Option.map_some, if_neg (by rw [ha, hb]; tauto)]

/-! ## Issue and steal (R90, R103, R104) -/

theorem startOn_tasks (m : Mod) (k : Task) (c e : Nat) : (startOn m k c e).td.tasks =
    (modTask m k.tmpl k.tag fun k => { k with state := .executing, engine := some (c, e), cluster := c }).td.tasks := by
  unfold startOn
  dsimp only
  split
  · split <;> rfl
  · rfl

/-- The task executes on the engine it is started on. -/
theorem findTask_startOn {m : Mod} {k : Task} (c e : Nat) (h : findTask m k.tmpl k.tag = some k) :
    findTask (startOn m k c e) k.tmpl k.tag = some { k with state := .executing, engine := some (c, e), cluster := c } := by
  rw [findTask_congr (startOn_tasks m k c e)]
  exact findTask_modTask_same (by exact fun _ => ⟨rfl, rfl⟩) h

theorem taskIssue_first {m : Mod} {c e : Nat} {k : Task} (hopen : clusterClosed m c = false)
    (hfirst : firstTask m (ownTasks m c) = some k) (he : engineFor m c k = some e) : taskIssue m c = startOn m k c e := by
  rw [taskIssue, hopen, if_neg Bool.false_ne_true, hfirst]
  simp only [startFirst, he]

theorem stealDecision_pick {m : Mod} {c e : Nat} {k : Task} (hopen : clusterClosed m c = false)
    (hthief : (regBits m Reg.TD_CTRL 15 0).testBit c = true) (hpick : stealPick m c = some (e, k)) :
    stealDecision m c = if victimIssues m k then m else startOn m k c e := by
  simp [stealDecision, hopen, hthief, hpick]

theorem precedenceEnd_eq (m : Mod) : ∃ due, precedenceEnd m = modTd (advanceTo m due) fun d => { d with precCount := 0 } := ⟨_, rfl⟩

theorem precedenceEnd_effect (m : Mod) : (precedenceEnd m).td.precCount = 0 ∧ (precedenceEnd m).parts = m.parts := by
  obtain ⟨due, h⟩ := precedenceEnd_eq m
  rw [h]
  exact ⟨rfl, (advanceTo_held m due).1⟩

/-- Settles O35: the task chosen starts on its engine, and the interval's end leaves the partitions. -/
theorem clustersStartTasksInTurn : Obligations.ClustersStartTasksInTurn := by
  intro s c e k hp hopen hk
  have hsteal := exec_stealDecision c s |>.trans (runM_powered _ hp)
  refine ⟨fun hfirst he => ⟨(exec_taskIssue c s).trans (runM_powered _ hp), ?_⟩, fun hthief hpick =>
    ⟨fun hfree => ⟨hsteal, ?_⟩, fun hwins => ⟨hsteal, ?_⟩⟩,
    (exec_precedenceIntervalEnd s).trans (runM_powered _ hp), precedenceEnd_effect s.m⟩
  · rw [taskIssue_first hopen hfirst he]
    exact findTask_startOn c e hk
  · rw [stealDecision_pick hopen hthief hpick, hfree]
    exact findTask_startOn c e hk
  · rw [stealDecision_pick hopen hthief hpick, if_pos hwins]

end Sys2Proof.Machine
end

section
/-!
SUPPORT. Completion of a task on its engine (R91, R95, R121, R124, R140).
-/
namespace Sys2Proof.Machine

/-- A completion command completes its task with the primitive of its row. -/
theorem exec_taskDone {i : Instr} {tn tag code : Nat} {f : Nat → PrimIn → Raw} (h : taskDone i = some (tn, tag, code, f)) (s : State) :
    exec i s = runM s fun m => complete code f m tn tag := by
  cases i <;> cases h <;> rfl

section
variable {m : Mod} {k : Task} {t : Template} {tn tag code : Nat} (f : Nat → PrimIn → Raw)
  (hk : findTask m tn tag = some k) (ht : template m tn = some t) (hexec : k.state = .executing) (hprim : t.prim = code)
include hk ht hexec hprim

theorem complete_good (hmem : memFault m t k = none) : ∃ r g,
    finish (hasState code) (taskInput m t k) (fun j => (readVal ((k.ops.getD j default).val)).2) (f tag (taskInput m t k)) = (r, g) ∧
      complete code f m tn tag = modTask m tn tag fun x => { x with
        state := .done, result := some { r with q := if k.late then qOr r.q qLate else r.q }
        log := if t.flow.isSome ∧ hasState code then some g else none } := by
  refine ⟨_, _, Prod.mk.eta.symm, ?_⟩
  obtain ⟨-, htag⟩ := findTask_name hk
  rw [complete, hk, ht]
  simp only [hexec, hprim, hmem, htag, ne_eq, not_true_eq_false, or_self, if_false]

theorem complete_bad {kind : TaskFaultKind} (hmem : memFault m t k = some kind) :
    complete code f m tn tag = taskFault m tn tag kind := by
  rw [complete, hk, ht]
  simp only [hexec, hprim, hmem, ne_eq, not_true_eq_false, or_self, if_false]

end

/-- Settles O39: the task of that name takes the result and the log, or faults. -/
theorem tasksCompleteWithTheirResult : Obligations.TasksCompleteWithTheirResult := by
  intro s i tn tag code f k t hp hdone hk ht hexec hprim
  have hrun : exec i s = .next { s with m := complete code f s.m tn tag } := (exec_taskDone hdone s).trans (runM_powered _ hp)
  refine ⟨fun hmem => ⟨hrun, ?_⟩, fun kind hmem => ⟨hrun, complete_bad f hk ht hexec hprim hmem⟩⟩
  obtain ⟨r, g, hfin, heq⟩ := complete_good f hk ht hexec hprim hmem
  rw [heq]
  exact ⟨⟨r, g, hfin, findTask_modTask_same (by exact fun _ => ⟨rfl, rfl⟩) hk⟩,
    fun a b hne => findTask_modTask_ne (by exact fun _ => ⟨rfl, rfl⟩) s.m hne, _, rfl⟩

end Sys2Proof.Machine
end

section
/-!
SUPPORT. Task faults (R96, R97, R124): a fault notes itself, then the task runs again or its flow or template is quarantined.
-/
namespace Sys2Proof.Machine

/-- Two modules agree on the tasks and on the partitions, so on every template. -/
abbrev SameTasks (n m : Mod) : Prop := n.td.tasks = m.td.tasks ∧ n.parts = m.parts

theorem tasks_trans {a b c : Mod} (h : SameTasks a b) (k : SameTasks b c) : SameTasks a c := ⟨h.1.trans k.1, h.2.trans k.2⟩

theorem bumpEcc_tasks (m : Mod) (off : Nat) (ue : Bool) : SameTasks (bumpEcc m off ue) m := by
  unfold bumpEcc
  generalize (if ue then 0 else 16) = lo
  dsimp only
  split
  · exact ⟨rfl, rfl⟩
  · split <;> constructor <;> simp

theorem faultMem_tasks (m : Mod) (t : Template) (k : Task) (kind : TaskFaultKind) : SameTasks (faultMem m t k kind) m := by
  have hmark (m : Mod) (f : Nat) : SameTasks (markFlow m f) m := by
    unfold markFlow
    split <;> exact ⟨rfl, rfl⟩
  unfold faultMem
  dsimp only
  split
  · split
    · exact tasks_trans (hmark _ _) (bumpEcc_tasks ..)
    · exact bumpEcc_tasks ..
  · exact bumpEcc_tasks ..
  · exact bumpEcc_tasks ..
  · exact ⟨rfl, rfl⟩

/-- What every fault of a task leaves: its flag, the overrun count and what the faulting memory leaves. -/
def faultNoted (m : Mod) (t : Template) (k : Task) (kind : TaskFaultKind) : Mod :=
  let m := setFault m Reg.PE_FAULT (faultBit kind) t.num
  faultMem (if kind = .overrun then bump m Reg.PE_OVERRUN_CNT else m) t k kind

theorem faultNoted_tasks (m : Mod) (t : Template) (k : Task) (kind : TaskFaultKind) : SameTasks (faultNoted m t k kind) m := by
  refine tasks_trans (faultMem_tasks ..) ?_
  split <;> constructor <;> simp

/-- What a fault leaves before the task runs again: the retry counts and the flow is free. -/
def retryNoted (m : Mod) (t : Template) : Mod :=
  let m := setFault (bump m Reg.TD_RETRY_CNT) Reg.TD_FAULT 0 t.num
  match t.flow with
  | some f => modTd m fun d => { d with flows := tabMod d.flows f fun s => { s with busy := none } }
  | none => m

theorem retryNoted_tasks (m : Mod) (t : Template) : SameTasks (retryNoted m t) m := by
  unfold retryNoted
  split <;> constructor <;> simp [modTd]

section
variable {m : Mod} {tn tag : Nat} {k : Task} {t : Template} (kind : TaskFaultKind) (hk : findTask m tn tag = some k)
  (ht : template m tn = some t) (hexec : k.state = .executing)
include hk ht hexec

theorem taskFault_retry (hr : k.retries < 2) : ∃ (at_ : Nat) (c : Task → Nat), taskFault m tn tag kind =
    modTask (retryNoted (faultNoted m t k kind) t) tn tag fun x => { x with
      state := .ready, engine := none, avoid := x.engine, retries := x.retries + 1, result := none, log := none
      readyAt := at_, cluster := c x } := by
  refine ⟨(retryNoted (faultNoted m t k kind) t).clk.elapsed, fun x => if t.flow.isSome then x.cluster else
    chooseCluster (retryNoted (faultNoted m t k kind) t) t x.form, ?_⟩
  rw [taskFault, hk, ht]
  dsimp only
  rw [if_neg (not_not.2 hexec), if_neg hr.not_ge]
  rfl

theorem taskFault_quarantine (hr : ¬ k.retries < 2) :
    taskFault m tn tag kind = quarAsk (quarantine (faultNoted m t k kind) t tag) (tmplPart t) := by
  rw [taskFault, hk, ht]
  dsimp only
  rw [if_neg (not_not.2 hexec), if_pos (Nat.le_of_not_lt hr)]
  rfl

end

/-! ## Quarantine (R97) -/

theorem quarAsk_td (m : Mod) (p : Nat) : (quarAsk m p).td = m.td := by
  unfold quarAsk askRung2
  split
  · split <;> rfl
  · split
    · split <;> rfl
    · rfl

/-- A quarantine changes each task by itself, and keeps its name. -/
theorem quarantine_tasks (m : Mod) (t : Template) (tag : Nat) : ∃ g : Task → Task,
    (quarantine m t tag).td.tasks = m.td.tasks.map g ∧ (∀ x, (g x).tmpl = x.tmpl ∧ (g x).tag = x.tag) ∧
      ∀ x, x.state ≠ .done → template m x.tmpl = some t →
        g x = { x with state := .done, engine := none, result := some (quarResult t), log := none, quar := true } := by
  unfold quarantine
  extract_lets m1 hit zero stop m2 m3 m4
  have h1 : SameTasks m1 m := by
    unfold m1
    split <;> exact ⟨rfl, rfl⟩
  refine ⟨stop, ?_, fun x => ?_, fun x hx ht => ?_⟩
  · have h4 : m4.td.tasks = m.td.tasks.map stop := by
      rw [← h1.1]
      simp [m4, m3, m2, modTd]
    split <;> exact h4
  · unfold stop
    split <;> exact ⟨rfl, rfl⟩
  · have ht1 : template m1 x.tmpl = some t := (template_congr h1.2 _).trans ht
    simp [stop, hit, zero, ht1, hx]

/-- Settles O38: the fault notes itself and leaves the tasks; then the task is ready again, or ends with its quarantine. -/
theorem faultedTasksRunAgain : Obligations.FaultedTasksRunAgain := by
  intro s tn tag kind k t hp hk ht _ hexec
  refine ⟨(exec_taskFault tn tag kind s).trans (runS_powered _ hp), ?_⟩
  have hnoted := faultNoted_tasks s.m t k kind
  split_ifs with hr
  · obtain ⟨at_, c, heq⟩ := taskFault_retry kind hk ht hexec hr
    have hk' : findTask (retryNoted (faultNoted s.m t k kind) t) tn tag = some k :=
      (findTask_congr (tasks_trans (retryNoted_tasks _ t) hnoted).1 tn tag).trans hk
    rw [heq]
    exact ⟨_, findTask_modTask_same (by exact fun _ => ⟨rfl, rfl⟩) hk', rfl, rfl, rfl, rfl⟩
  · obtain ⟨g, htasks, hname, hstop⟩ := quarantine_tasks (faultNoted s.m t k kind) t tag
    have htmpl : template (faultNoted s.m t k kind) k.tmpl = some t := by
      rw [template_congr hnoted.2, (findTask_name hk).1, ht]
    have hg := hstop k (by rw [hexec]; decide) htmpl
    rw [taskFault_quarantine kind hk ht hexec hr]
    refine ⟨g k, ?_, by rw [hg]; exact ⟨rfl, rfl, rfl⟩⟩
    rw [findTask_congr (congrArg Td.tasks (quarAsk_td _ _)), findTask_of_map htasks hname, findTask_congr hnoted.1, hk, Option.map_some]

end Sys2Proof.Machine
end

section
/-!
SUPPORT. Retire of a task without a routing (R91, R94, R95, R140).
-/
namespace Sys2Proof.Machine

/-! ## The action at retire -/

theorem noteVector_td (m : Mod) (t : Template) (k : Task) : (noteVector m t k).td = m.td := by
  unfold noteVector
  split
  · rfl
  · split
    · refine foldl_keep Mod.td _ (fun n x => ?_) _ m
      split <;> rfl
    · rfl

/-- A primitive below 64 has no action of its own at retire (R141). -/
theorem actHook_td (m : Mod) {t : Template} (k : Task) (h : t.prim < 64) : (actHook m t k).td = m.td := by
  unfold actHook
  dsimp only
  split
  case h_9 => exact noteVector_td m t k
  all_goals omega

/-! ## Commit: the write log, the flow and the task -/

theorem commitLog_tasks (m : Mod) (t : Template) (k : Task) : (commitLog m t k).td.tasks = m.td.tasks := by
  unfold commitLog
  split
  · dsimp only
    split <;> rfl
  · rfl

/-- The log of a task is committed to the segment of its template. -/
theorem commitLog_segs {m : Mod} {t : Template} {k : Task} {f : Nat} {g : Seg} (hf : t.flow = some f) (hg : k.log = some g) :
    tabGet (tabGet (commitLog m t k).td.flows f).segs t.num = g := by
  unfold commitLog
  rw [hf, hg]
  dsimp only
  split <;> simp [modTd, noteCopyAt]

theorem claimFlow_tasks (m : Mod) (t : Template) (tag : Nat) : (claimFlow m t tag).td.tasks = m.td.tasks := by
  unfold claimFlow
  split <;> rfl

theorem claimFlow_segs (m : Mod) {t : Template} (tag : Nat) {f : Nat} (hf : t.flow = some f) :
    (tabGet (claimFlow m t tag).td.flows f).segs = (tabGet m.td.flows f).segs := by
  simp [claimFlow, hf, modTd]

theorem findTask_commitTask {m : Mod} {t : Template} {k : Task} (h : findTask m t.num k.tag = some k) (res : Option Result) :
    findTask (commitTask m t { k with result := res }) t.num k.tag =
      some { k with committed := true, routes := List.range t.dests.length, result := res } := by
  refine findTask_modTask_same (by exact fun _ => ⟨rfl, rfl⟩) ?_
  rw [findTask_congr (claimFlow_tasks ..), findTask_congr (commitLog_tasks ..), h]

theorem commitTask_segs {m : Mod} {t : Template} {k : Task} {f : Nat} {g : Seg} (hf : t.flow = some f) (hg : k.log = some g) :
    tabGet (tabGet (commitTask m t k).td.flows f).segs t.num = g :=
  (congrArg (fun l => tabGet l t.num) (claimFlow_segs (commitLog m t k) k.tag hf)).trans (commitLog_segs hf hg)

/-! ## The entry freed -/

theorem findTask_freeEntry (m : Mod) (t : Template) (tag : Nat) : findTask (freeEntry m t tag) t.num tag = none := by
  have htasks : (freeEntry m t tag).td.tasks = m.td.tasks.filter fun k => !(k.tmpl == t.num && k.tag == tag) := by
    unfold freeEntry
    dsimp only
    split <;> rfl
  rw [findTask, htasks, List.find?_eq_none]
  intro k hk
  simpa only [Bool.not_eq_true', Bool.not_eq_true] using (List.mem_filter.1 hk).2

theorem freeEntry_flow (m : Mod) {t : Template} (tag : Nat) {f : Nat} (hf : t.flow = some f) :
    (tabGet (freeEntry m t tag).td.flows f).busy = none ∧
      (tabGet (freeEntry m t tag).td.flows f).segs = (tabGet m.td.flows f).segs := by
  simp [freeEntry, hf, modTd]

/-- A committed task without a routing to place frees its entry. -/
theorem placeFirst_of_no_routes {m : Mod} {t : Template} {tag : Nat} {k : Task} (hk : findTask m t.num tag = some k)
    (hr : k.routes = []) : placeFirst m t tag = freeEntry m t tag := by
  have hplace : placeRoutes m t k true = m := by
    unfold placeRoutes
    rw [hr]
    split <;> rfl
  simp only [placeFirst, hk, hplace, freePlaced, hr, List.isEmpty_nil, if_true]

/-- Settles O36: the task commits, its action leaves the dispatcher, and with no routing its entry is freed at once. -/
theorem retiredTasksFreeTheirEntry : Obligations.RetiredTasksFreeTheirEntry := by
  intro s tn tag k t hp hk ht hnum hmay hfresh _ hdests hprim
  refine ⟨(exec_taskRetire tn tag s).trans (runS_powered _ hp), ?_⟩
  subst hnum
  obtain ⟨-, rfl⟩ := findTask_name hk
  obtain ⟨res, hres⟩ : ∃ res, retiring s.m t k = { k with result := res } := by
    unfold retiring
    split <;> exact ⟨_, rfl⟩
  set c := commitTask s.m t { k with result := res } with hc
  have hact : (hooks.act c t { k with result := res }).td = c.td := actHook_td c _ hprim
  have hfree : taskRetire hooks s.m t.num k.tag = freeEntry (hooks.act c t { k with result := res }) t k.tag := by
    rw [taskRetire, hk, ht]
    simp only [hmay, hfresh, hres, Bool.not_true, Bool.false_eq_true, if_false]
    refine placeFirst_of_no_routes ((findTask_congr (congrArg Td.tasks hact) _ _).trans (findTask_commitTask hk res)) ?_
    rw [hdests]
    rfl
  rw [hfree]
  refine ⟨findTask_freeEntry _ t k.tag, fun f hf => ?_⟩
  obtain ⟨hbusy, hsegs⟩ := freeEntry_flow (hooks.act c t { k with result := res }) k.tag hf
  refine ⟨hbusy, fun g hg => ?_⟩
  rw [hsegs, hact]
  exact commitTask_segs hf hg

end Sys2Proof.Machine
end

section
/-!
SUPPORT. The expiry of a delay entry (R87, R98, R100, R101): which entry the match stage takes, and what its delivery leaves.
-/
namespace Sys2Proof.Machine

theorem advanceTo_of_le {m : Mod} {due : Nat} (h : due ≤ m.clk.elapsed) : advanceTo m due = m := if_pos h

/-! ## The entry that is delivered (R83, R101) -/

theorem nextDelay_list {m : Mod} {l : Nat} {e : DelayEntry} (h : nextDelay m l = some e) : e.list = l := by
  unfold nextDelay at h
  split at h
  · cases h
  · rename_i x xs hl
    have hall : ∀ y ∈ x :: xs, y.list = l := by
      intro y hy
      rw [← hl, List.mem_filter] at hy
      simp only [Bool.and_eq_true, beq_iff_eq] at hy
      exact hy.2.1
    rw [← Option.some.inj h]
    refine List.foldlRecOn xs _ (motive := fun b : DelayEntry => b.list = l) (hall x List.mem_cons_self) fun b hb y hy => ?_
    split
    · exact hall y (List.mem_cons_of_mem x hy)
    · exact hb

/-- A delay entry that the match stage takes is the first due one. -/
theorem dueDelay_of_nextToken {m : Mod} {e : DelayEntry} (h : nextToken m = some (.delay e)) : dueDelay m = some e := by
  have hmem : Arrival.delay e ∈ heads m := by
    unfold nextToken at h
    dsimp only at h
    split at h
    · exact List.mem_of_find?_eq_some h
    · exact List.mem_of_head? h
  have hcross (c : Nat) : crossHead m c ≠ some (.delay e) := by
    unfold crossHead
    cases (tabGet m.td.cross c).find? fun x => !producerHeld m x <;> simp
  simpa [heads, (hcross _).symm] using hmem

/-- Whether the next entry of a list is due, and which. -/
def dueOf (m : Mod) (l : Nat) : Option DelayEntry := (nextDelay m l).filter fun e => decide (e.due ≤ m.clk.elapsed)

/-- The first due entry stands in a list below which no entry is due. -/
theorem dueOf_below {m : Mod} {l : Nat} {e : DelayEntry} (hnext : nextDelay m l = some e) (hdue : dueDelay m = some e) {j : Nat}
    (hj : j < l) : dueOf m j = none := by
  rw [dueDelay, List.head?_filterMap, List.findSome?_eq_some_iff] at hdue
  obtain ⟨l1, a, l2, hrange, ha, hnone⟩ := hdue
  obtain rfl : l = a := (nextDelay_list hnext).symm.trans (nextDelay_list (Option.filter_eq_some_iff.1 ha).1)
  have hlt : l < 4 := List.mem_range.1 (hrange ▸ by simp)
  have hmem : j ∈ l1 ++ l :: l2 := hrange ▸ List.mem_range.2 (hj.trans hlt)
  have hsorted : (l1 ++ l :: l2).Pairwise (· < ·) := hrange ▸ List.pairwise_lt_range
  have hafter : ∀ x ∈ l2, l < x := (List.pairwise_cons.1 (List.pairwise_append.1 hsorted).2.1).1
  rcases List.mem_append.1 hmem with h | h
  · exact hnone j h
  · rcases List.mem_cons.1 h with h | h
    · omega
    · have := hafter j h; omega

/-- Nothing due in a list: nothing is delivered from it. -/
theorem deliverDue_of_none {m : Mod} {j : Nat} (h : dueOf m j = none) : deliverDue m j = m := by
  refine List.foldl_fixed' (fun _ => ?_) m.td.delays
  split
  · rename_i e he
    rw [dueOf, he] at h
    exact if_neg (by simpa using h)
  · rfl

/-- The entry's turn. What the match stage takes next stays an unknown function, which the kernel is not to compute. -/
theorem delayExpiry_due {m : Mod} {l : Nat} {e : DelayEntry} (hnext : nextDelay m l = some e) (hdue : e.due ≤ m.clk.elapsed)
    (htok : nextToken m = some (.delay e)) : delayExpiry m l = deliverDelay m e := by
  have hlower : (List.range l).foldl deliverDue m = m :=
    List.foldlRecOn _ _ (motive := fun n => n = m) rfl fun n hn j hj => by
      rw [hn]
      exact deliverDue_of_none (dueOf_below hnext (dueDelay_of_nextToken htok) (List.mem_range.1 hj))
  obtain ⟨taken, htaken⟩ : ∃ f, f = nextToken := ⟨_, rfl⟩
  rw [← htaken] at htok
  rw [delayExpiry, hnext, ← htaken]
  dsimp only
  rw [advanceTo_of_le hdue, htok]
  dsimp only
  rw [hlower]

/-! ## The delivery (R85, R87, R98) -/

/-- The newest value of a sticky slot is `v`. -/
def Newest (st : Cells (List StickyVal)) (key : Nat) (v : StickyVal) : Prop := (tabGet st key).head? = some v

/-- The late marks that a task spends leave the newest value of a slot, where it bears none. -/
theorem newest_clearLate {m : Mod} {key : Nat} {v : StickyVal} (hv : v.late = false) (h : Newest m.td.sticky key v) (t : Template)
    (tag : Nat) : Newest (clearLate m t tag).td.sticky key v := by
  refine List.foldlRecOn _ _ (motive := fun st => Newest st key v) h fun st hst k _ => ?_
  split
  · by_cases hkey : key = slotKey t.num k
    · subst hkey
      have hspent : { v with late := false } = v := by rw [← hv]
      rw [Newest, tabGet_tabMod_same, List.head?_map, hst]
      simp [hspent]
    · rwa [Newest, tabGet_tabMod_ne _ _ hkey]
  · exact hst

/-- A held task that becomes ready spends late marks; the other changes of the holds are of tasks alone. -/
theorem settleHolds_keeps (m : Mod) (tn : Nat) : (settleHolds m tn).td.delays = m.td.delays ∧
    ∀ key v, v.late = false → Newest m.td.sticky key v → Newest (settleHolds m tn).td.sticky key v := by
  unfold settleHolds
  split
  · exact ⟨rfl, fun _ _ _ h => h⟩
  · rename_i t _
    constructor
    · refine foldl_keep (fun n : Mod => n.td.delays) _ (fun n k => ?_) _ m
      dsimp only
      split <;> rfl
    · intro key v hv h
      refine List.foldlRecOn _ _ (motive := fun n : Mod => Newest n.td.sticky key v) h fun n hn k _ => ?_
      dsimp only
      split
      · exact hn
      · exact newest_clearLate hv hn t k.tag
      · exact hn

theorem copyDelay_keeps (m : Mod) (e : DelayEntry) (live : Bool) :
    (copyDelay m e live).td.delays = m.td.delays ∧ (copyDelay m e live).parts = m.parts := by
  unfold copyDelay
  split
  · split <;> exact ⟨rfl, rfl⟩
  · exact ⟨rfl, rfl⟩

/-- A delivered entry leaves its list; one that is no cancellation is the newest value of its target's slot. -/
theorem deliverDelay_effect {m : Mod} {e : DelayEntry} {t : Template} (ht : template m e.target = some t) :
    (deliverDelay m e).td.delays = m.td.delays.erase e ∧
      (e.cancel = false → Newest (deliverDelay m e).td.sticky (slotKey t.num e.op) ⟨e.etag, e.val, e.q, false⟩) := by
  set n := copyDelay (modTd m fun d => { d with delays := d.delays.erase e }) e false with hn
  obtain ⟨hdelays, hparts⟩ : n.td.delays = m.td.delays.erase e ∧ n.parts = m.parts := copyDelay_keeps _ e false
  have heq : deliverDelay m e =
      settleHolds (if e.cancel then n else putStickyAs n t e.op e.etag e.val e.q false) t.num := by
    rw [deliverDelay, ← hn]
    rw [(template_congr hparts _).trans ht]
  rw [heq]
  constructor
  · rw [(settleHolds_keeps _ _).1, ← hdelays]
    split <;> rfl
  · intro hc
    refine (settleHolds_keeps _ _).2 _ _ rfl ?_
    rw [hc, if_neg Bool.false_ne_true]
    simp [Newest, putStickyAs, modTd, stickyPut]

/-- Settles O37: no lower list has a due entry, so the entry is the one delivered. -/
theorem delayEntriesExpire : Obligations.DelayEntriesExpire := by
  intro s l e t hp hnext hdue htok ht
  refine ⟨(exec_delayExpiry l s).trans (runS_powered _ hp), ?_⟩
  rw [delayExpiry_due hnext hdue htok]
  exact deliverDelay_effect ht

end Sys2Proof.Machine
end

section
/-!
SUPPORT. Keeper's file commands (R114, R385, R446, R488): the bytes that a read copies, and the files and exports that a command keeps.
-/
namespace Sys2Proof.Machine

/-- Keeper that takes the commands of shed level 1 takes every command. -/
theorem keeperTakes_every {m : Mod} (shed : Nat) (h : KeeperTakes m 1) : KeeperTakes m shed := by
  obtain ⟨hready, hshed⟩ := h
  exact ⟨hready, by omega⟩

/-! ## Bytes written to module DRAM -/

theorem memByte_toDram_inside (mem : Mem) (a : Nat) (b : Bytes) {i : Nat} (h : i < b.length) :
    memByte (memWrites mem [toDram a b]) false (a + i) = b[i] := cellGet_writeBytes_inside b mem.dram a i h

theorem memByte_toDram_outside (mem : Mem) {a x : Nat} (b : Bytes) (h : x < a ∨ a + b.length ≤ x) :
    memByte (memWrites mem [toDram a b]) false x = memByte mem false x := cellGet_writeBytes_outside b mem.dram a x h

/-- No bytes are no write. -/
theorem memWrites_toDram_unless_empty (mem : Mem) (a : Nat) (b : Bytes) :
    memWrites mem (if b.isEmpty then [] else [toDram a b]) = memWrites mem [toDram a b] := by
  cases b <;> rfl

/-! ## Reads into module DRAM (R446, R488) -/

/-- A taken command that only answers and writes memory. -/
theorem keeperCmdMem_answers {m : Mod} {shed : Nat} {rq : KReq} {cmd obj : Nat} {args : Bytes}
    {run : Mod → Mod × KResp × List MemWrite} {r : KResp} {ws : List MemWrite} (h : KeeperTakes m shed) (hr : run m = (m, r, ws)) :
    (keeperCmdMem m rq cmd shed obj args run).2 = ws ∧ Answers (keeperCmdMem m rq cmd shed obj args run).1 rq cmd r ∧
      SameButResponse m (keeperCmdMem m rq cmd shed obj args run).1 := by
  rw [keeperCmdMem_taken rq cmd obj args run h, hr]
  exact ⟨rfl, keeperReply_answers _ _ _ _, (sameButResponse_auditEvent _ _ _ _ _ _).trans (sameButResponse_keeperReply _ _ _ _)⟩

theorem fileRead_result {m : Mod} (rq : KReq) {handle off len dst : Nat} {f : KFile} (hk : KeeperTakes m 1) (hdst : dst + len ≤ 2 ^ 32)
    (hf : m.kpr.files.lookup handle = some f) :
    (fileRead m rq handle off len dst).2 =
        (if ((f.data.drop off).take len).isEmpty then [] else [toDram dst ((f.data.drop off).take len)]) ∧
      Answers (fileRead m rq handle off len dst).1 rq 0x0004 { result := 0, data := leBytes 4 ((f.data.drop off).take len).length } ∧
      SameButResponse m (fileRead m rq handle off len dst).1 :=
  keeperCmdMem_answers hk (by simp only [hdst.not_gt, hf, if_false])

/-- The bytes of `n` log entries from a SEQ on. -/
def logBytes (m : Mod) (first n : Nat) : Bytes :=
  ((List.range n).map fun k => tabGet m.mtr.log ((first + k) % 65536)).flatten

theorem mtrLogRead_result {m : Mod} (rq : KReq) {first count off : Nat} (hk : KeeperTakes m 0) (hcount : count ≤ 4096)
    (hoff : off + 64 * count ≤ 2 ^ 32) (hfirst : m.mtr.logFree ≤ first) (hlast : first < m.mtr.logNext) :
    (mtrLogRead m rq first count off).2 = [toDram off (logBytes m first (min count (m.mtr.logNext - first)))] ∧
      Answers (mtrLogRead m rq first count off).1 rq 0x0060
        { result := 0, data := leBytes 4 (min count (m.mtr.logNext - first)) } ∧
      SameButResponse m (mtrLogRead m rq first count off).1 :=
  keeperCmdMem_answers hk (by
    simp only [hcount.not_gt, hoff.not_gt, hfirst.not_gt, hlast.not_ge, or_self, if_false]
    rfl)

/-! ## Snapshots, exports and deletions (R114, R385, R488) -/

section
variable {m m1 : Mod} {r : KResp} {shed : Nat} {rq : KReq} {cmd obj : Nat} {args : Bytes} {run : Mod → Mod × KResp}
  (h : KeeperTakes m shed) (hr : run m = (m1, r))
include h hr

/-- A taken command answers `r`, and its own effect stays. -/
theorem keeperCmd_answers : Answers (keeperCmd m rq cmd shed obj args run) rq cmd r ∧
    SameButResponse m1 (keeperCmd m rq cmd shed obj args run) := by
  rw [keeperCmd_taken rq cmd obj args run h, hr]
  exact ⟨keeperReply_answers _ _ _ _, (sameButResponse_auditEvent _ _ _ _ _ _).trans (sameButResponse_keeperReply _ _ _ _)⟩

/-- The answer leaves the files. -/
theorem keeperCmd_files : (keeperCmd m rq cmd shed obj args run).kpr.files = m1.kpr.files ∧
    (keeperCmd m rq cmd shed obj args run).kpr.nextHandle = m1.kpr.nextHandle := by
  rw [keeperCmd_taken rq cmd obj args run h, hr, keeperReply_kpr]
  simp

end

theorem SameButResponse.rec_eq {m u : Mod} (h : SameButResponse m u) : u.rec_ = m.rec_ := by
  rw [SameButResponse] at h
  rw [h]

section
variable {m : Mod} (rq : KReq) {p : Nat} (hk : KeeperTakes m 1) (hp : p < 4) (hhalt : (partOf m p).state = .halted)
include hk hp hhalt

theorem tdSnapshot_result :
    Answers (tdSnapshot m rq p) rq 0x0040
        { result := 0, data := leBytes 4 m.kpr.nextHandle ++ leBytes 8 (snapFile m p).length } ∧
      SameButResponse (newFile m 1 (snapFile m p)).2 (tdSnapshot m rq p) :=
  keeperCmd_answers hk (by
    simp only [hp.not_ge, hhalt, ne_eq, not_true_eq_false, if_false]
    rfl)

theorem tdSnapshot_files : (tdSnapshot m rq p).kpr.files = (newFile m 1 (snapFile m p)).2.kpr.files ∧
    (tdSnapshot m rq p).kpr.nextHandle = m.kpr.nextHandle + 1 :=
  keeperCmd_files hk (m1 := (newFile m 1 (snapFile m p)).2) (by
    simp only [hp.not_ge, hhalt, ne_eq, not_true_eq_false, if_false]
    rfl)

end

/-- The module once a REC_EXPORT job of `files` files is queued. -/
def queuedExport (m : Mod) (n format : Nat) (tc : Int) (off len files : Nat) : Mod :=
  modRec (reserveFiles m files).2 fun c => { c with exports := c.exports ++ [⟨n, format, tc, off, len, (reserveFiles m files).1⟩] }

theorem recExport_result {m : Mod} (rq : KReq) {n format : Nat} (tc : Int) (off len : Nat) {r : RecFile} (hk : KeeperTakes m 2)
    (hformat : format < 16) (htype : format % 8 ≤ 3) (hr : recFile m n = some r) :
    Answers (recExport m rq n format tc off len) rq 0x0052
        { result := 0
          data := (((reserveFiles m (exportOf m r format tc).length).1.zip (exportOf m r format tc)).map fun x =>
            leBytes 4 x.1 ++ leBytes 8 x.2.length).flatten.take 4080 } ∧
      SameButResponse (queuedExport m n format tc off len (exportOf m r format tc).length) (recExport m rq n format tc off len) :=
  keeperCmd_answers hk (by
    simp only [hformat.not_ge, htype.not_gt, or_self, hr, if_false]
    rfl)

theorem recDelete_result {m : Mod} (rq : KReq) {n : Nat} {r : RecFile} (hk : KeeperTakes m 1) (hr : recFile m n = some r)
    (hclosed : r.closed.isSome) : Answered (recDelete m rq n) rq 0x0053 0 ∧
      SameButResponse (modRec m fun c => { c with recs := c.recs.filter fun x => x.num ≠ n }) (recDelete m rq n) :=
  keeperCmd_result (r := answer 0) hk (by simp [hr, Option.isSome_iff_ne_none.1 hclosed])

/-- Settles O13: each command answers, and beside its answer writes its bytes or keeps its file, its job or the other records. -/
theorem keeperReadsAndWritesFiles : Obligations.KeeperReadsAndWritesFiles := by
  intro s rq hp hk
  refine ⟨fun handle off len dst f hdst hf => ?_, fun first count off hcount hoff hfirst hlast => ?_, fun p hp4 hhalt => ?_,
    fun n format tc off len r hformat htype hr => ?_, fun n r hr hclosed => ?_⟩
  · obtain ⟨hws, hans⟩ := fileRead_result rq hk hdst hf
    refine ⟨_, ⟨(exec_fileRead rq handle off len dst s).trans (runW_powered _ hp), hans⟩, fun k h => ?_, fun a ha => ?_⟩
    · rw [hws, memWrites_toDram_unless_empty]
      exact memByte_toDram_inside s.mem dst _ h
    · rw [hws, memWrites_toDram_unless_empty]
      refine memByte_toDram_outside s.mem _ (ha.imp_right fun h => ?_)
      exact (Nat.add_le_add_left (List.length_take_le ..) dst).trans h
  · obtain ⟨hws, hans⟩ := mtrLogRead_result rq (keeperTakes_every 0 hk) hcount hoff hfirst hlast
    refine ⟨_, _, rfl, ⟨(exec_mtrLogRead rq first count off s).trans (runW_powered _ hp), hans⟩, fun k h => ?_, fun a ha => ?_⟩
    · rw [hws]
      exact memByte_toDram_inside s.mem off _ h
    · rw [hws]
      exact memByte_toDram_outside s.mem _ ha
  · obtain ⟨hans, hsame⟩ := tdSnapshot_result rq hk hp4 hhalt
    obtain ⟨hfiles, hhandle⟩ := tdSnapshot_files rq hk hp4 hhalt
    refine ⟨(exec_tdSnapshot rq p s).trans (runM_powered _ hp), hans, ?_, hhandle, hsame.td_eq, hsame.held.1⟩
    rw [hfiles]
    exact tabGet_tabSet_same ..
  · obtain ⟨hans, hsame⟩ := recExport_result rq tc off len (keeperTakes_every 2 hk) hformat htype hr
    refine ⟨(exec_recExport rq n format tc off len s).trans (runM_powered _ hp), _, ?_, ?_, hans⟩
    · simp [reserveFiles]
    · rw [hsame.rec_eq]
      rfl
  · obtain ⟨hans, hsame⟩ := recDelete_result rq hk hr hclosed
    refine ⟨(exec_recDelete rq n s).trans (runM_powered _ hp), hans, ?_, ?_⟩
    · simp [recFile, hsame.rec_eq, modRec]
    · rw [hsame.rec_eq]
      rfl

end Sys2Proof.Machine
end

section
/-!
SUPPORT. What the module's own frames leave of it (R27, R347 to R349, R355): what a place in a queue and a sequence number keep, every frame
keeps.
-/
namespace Sys2Proof.Machine

/-! ## Frames and datagrams -/

section
variable {P : Mod → Prop} {m : Mod}

theorem sendFrame_keeps (hqueue : ∀ n p q it, p < 8 → P n → P (queueModule n p q it)) (hseq : ∀ n pr, P n → P (takeSeq n pr).2) (hm : P m)
    (mask q dst : Nat) (tags : List (Nat × Nat)) (pl : Payload) (bypass : Bool) : P (sendFrame m mask q dst tags pl bypass) := by
  refine List.foldlRecOn _ _ (motive := P) hm fun n hn pr hpr => ?_
  have ha : 2 * pr < 8 := by have := List.mem_range.1 hpr; omega
  have hb : 2 * pr + 1 < 8 := by omega
  dsimp only
  split
  · exact hn
  · split
    · have hfirst : P (if mask.testBit (2 * pr) then queueModule n (2 * pr) q
          ⟨⟨dst, (portCfg n (2 * pr)).mac, tags, Config.wireLen pl, false, false, none, pl, Config.wireBytes pl⟩,
            Config.wireLen pl + redBytes none, none, 0⟩ else n) := by
        split
        · exact hqueue _ _ _ _ ha hn
        · exact hn
      split
      · exact hqueue _ _ _ _ hb hfirst
      · exact hfirst
    · exact hqueue _ _ _ _ hb (hqueue _ _ _ _ ha (hseq n pr hn))

theorem sendUdp_keeps (hsend : ∀ n mask q dst tags pl, P n → P (sendFrame n mask q dst tags pl))
    (hlost : ∀ n p, P n → P (setFault (bump n (Reg.MAC_PTX_NOARP p)) (Reg.MAC_PFAULT p) 6 p)) (hm : P m)
    (mask q dstIp sport dport : Nat) (tags : List (Nat × Nat)) (body : UdpBody) :
    P (sendUdp m mask q dstIp sport dport tags body) := by
  have hone (n : Mod) (p mask : Nat) (hn : P n) : P (match resolve n p dstIp with
      | some mac => (ipPackets (((maskPorts mask).map fun p => (portCfg n p).mtu).foldl min (portCfg n p).mtu)
          (portCfg n p).ip dstIp sport dport body).foldl (fun n pl => sendFrame n mask q mac tags pl) n
      | none => setFault (bump n (Reg.MAC_PTX_NOARP p)) (Reg.MAC_PFAULT p) 6 p) := by
    split
    · exact List.foldlRecOn _ _ (motive := P) hn fun _ h pl _ => hsend _ _ _ _ _ pl h
    · exact hlost n p hn
  refine List.foldlRecOn _ _ (motive := P) hm fun n hn pr _ => ?_
  dsimp only
  split
  · exact hn
  · split
    · exact hone n _ _ hn
    · exact List.foldlRecOn _ _ (motive := P) hn fun _ h p _ => hone _ p _ h

end

/-! ## The Basin, the clock and the dispatcher -/

/-- Two modules agree on the Basin and on the local clock. -/
abbrev SameBasin (n m : Mod) : Prop := n.bsn = m.bsn ∧ n.clk = m.clk

theorem basin_trans {a b c : Mod} (h : SameBasin a b) (k : SameBasin b c) : SameBasin a c := ⟨h.1.trans k.1, h.2.trans k.2⟩

theorem queueModule_basin (m : Mod) (p q : Nat) (it : QItem) : SameBasin (queueModule m p q it) m := by
  unfold queueModule queuePut
  split <;> constructor <;> simp

@[simp] theorem sendFrame_basin (m : Mod) (mask q dst : Nat) (tags : List (Nat × Nat)) (pl : Payload) (bypass : Bool) :
    SameBasin (sendFrame m mask q dst tags pl bypass) m :=
  sendFrame_keeps (P := fun n => SameBasin n m) (fun _ _ _ _ _ hn => basin_trans (queueModule_basin ..) hn)
    (fun _ _ hn => basin_trans ⟨rfl, rfl⟩ hn) ⟨rfl, rfl⟩ ..

@[simp] theorem sendUdp_basin (m : Mod) (mask q dstIp sport dport : Nat) (tags : List (Nat × Nat)) (body : UdpBody) :
    SameBasin (sendUdp m mask q dstIp sport dport tags body) m :=
  sendUdp_keeps (P := fun n => SameBasin n m) (fun _ _ _ _ _ _ hn => basin_trans (sendFrame_basin ..) hn)
    (fun n p hn => basin_trans (by simp [SameBasin]) hn) ⟨rfl, rfl⟩ ..

end Sys2Proof.Machine
end

section
/-!
SUPPORT. The release of a set of the Sluice (R107, R210, R214, R215): after the output has noted the release, neither its areas, its
alarms, its tokens nor its frame touch the Basin.
-/
namespace Sys2Proof.Machine

/-! ## What leaves the Basin -/

@[simp] theorem dropUnsigned_bsn (m : Mod) (ports : Nat) : (dropUnsigned m ports).bsn = m.bsn :=
  foldl_keep Mod.bsn _ (fun _ _ => by simp) _ m

@[simp] theorem sendPub_bsn (m : Mod) (n : Nat) (c : PubCfg) : (sendPub m n c).bsn = m.bsn := by
  unfold sendPub
  dsimp only
  split
  · simp
  · split <;> simp

@[simp] theorem handOver_bsn (m : Mod) (n : Nat) (c : PubCfg) (dom tag : Nat) : (handOver m n c dom tag).bsn = m.bsn := by
  unfold handOver streamGap
  split
  · rfl
  · dsimp only
    split
    · rfl
    · split <;> split <;> simp

@[simp] theorem fedSend_bsn (m : Mod) (body : Bytes) : (fedSend m body).bsn = m.bsn := by
  unfold fedSend
  dsimp only
  split <;> simp

@[simp] theorem fedChange_bsn (m : Mod) (a : Nat) (c : AlarmCfg) (time : Nat) : (fedChange m a c time).bsn = m.bsn := by
  simp [fedChange]

@[simp] theorem alarmFrame_bsn (m : Mod) (time : Nat) : (alarmFrame m time).bsn = m.bsn := by
  unfold alarmFrame
  dsimp only
  split <;> simp

@[simp] theorem pushCross_bsn (m : Mod) (c : Nat) (x : XTok) : (pushCross m c x).bsn = m.bsn := rfl

theorem publishAlarms_bsn (m : Mod) (before : List (Nat × Qual)) (changed : List Nat) (time : Nat) :
    (publishAlarms m before changed time).bsn = m.bsn := by
  unfold publishAlarms
  extract_lets after w m1 put m2 m3 m4
  have h1 : m1.bsn = m.bsn := foldl_keep Mod.bsn _ (fun n x => by dsimp only; split <;> rfl) _ m
  have h3 : m3.bsn = m.bsn := by
    unfold m3
    split
    · exact h1
    · split
      · exact h1
      · exact (handOver_bsn ..).trans h1
  split
  · exact h3
  · refine (foldl_keep Mod.bsn _ (fun n a => ?_) _ m4).trans ((alarmFrame_bsn ..).trans h3)
    split
    · split <;> simp
    · rfl

theorem originEvent_bsn (m : Mod) (o : Origin) (cls detail : Nat) (arg : Bytes) : (originEvent m o cls detail arg).bsn = m.bsn := by
  simp [originEvent]

theorem evalAlarm_bsn (m : Mod) (org : Origin) (a : Nat) (c : AlarmCfg) (mv : AlarmMove) (q : Qual) (op1 : Nat) :
    (evalAlarm m org a c mv q op1).1.bsn = m.bsn := by
  unfold evalAlarm
  extract_lets s1 s2 up down val s3 m1 m2 m3 changed
  have h2 : m2.bsn = m.bsn := by
    unfold m2
    split <;> simp [m1]
  have h3 : m3.bsn = m.bsn := by
    unfold m3
    split <;> simp [h2]
  dsimp only
  split
  · exact (originEvent_bsn ..).trans h3
  · exact h3

theorem noteArea_bsn (m : Mod) (a : Nat) (c : AreaCfg) (ms : List Member) : (noteArea m a c ms).bsn = m.bsn := by
  unfold noteArea
  dsimp only
  split <;> split <;> split <;> simp

theorem wadEvaluate_bsn (m : Mod) (o : Nat) (oc : OutCfg) (k : Int) (ms : List Member) : (wadEvaluate m o oc k ms).bsn = m.bsn := by
  unfold wadEvaluate
  extract_lets w areas m1 before org crits
  have h1 : m1.bsn = m.bsn := foldl_keep Mod.bsn _ (fun n x => noteArea_bsn n x.1 x.2 ms) areas m
  split
  rename_i n _ hn
  have h2 : n.bsn = m1.bsn := by
    rw [show n = (n, _).1 from rfl, ← hn]
    refine foldl_keep (fun x : Mod × List Nat => x.1.bsn) _ (fun x c => ?_) crits (m1, [])
    dsimp only
    split
    · rfl
    · exact evalAlarm_bsn ..
  exact (publishAlarms_bsn ..).trans (h2.trans h1)

theorem releaseTokens_bsn (m : Mod) (o : Nat) (c : OutCfg) (k : Int) (ms : List Member) : (releaseTokens m o c k ms).bsn = m.bsn := by
  unfold releaseTokens
  extract_lets one
  exact foldl_keep Mod.bsn _ (fun n i => foldl_keep Mod.bsn (fun n r => one n i r) (fun _ _ => rfl) _ n) _ m

theorem noteTag_bsn (m : Mod) (d t : Nat) : (noteTag m d t).bsn = m.bsn := by
  unfold noteTag
  extract_lets newer
  split <;> rfl

/-! ## The release (R210, R214, R215) -/

/-- Each step of a fold adds one entry to a list. -/
theorem length_foldl_of_step {α β γ : Type} (g : α → List γ) (f : α → β → α) (h : ∀ a b, (g (f a b)).length = (g a).length + 1)
    (l : List β) (a : α) : (g (l.foldl f a)).length = (g a).length + l.length := by
  induction l generalizing a with
  | nil => rfl
  | cons b l ih => rw [List.foldl_cons, ih, h, List.length_cons]; omega

/-- The output has noted the release of set `k`: the set that follows it, its tag and its members. -/
def NotedRelease (m : Mod) (o : Nat) (c : OutCfg) (k : Int) : Prop :=
  (bsnOut m o).next = some (k + 1) ∧ (bsnOut m o).lastTag = ixTag k ∧ (bsnOut m o).prev.length = c.members.length

theorem NotedRelease.congr {m n : Mod} {o : Nat} {c : OutCfg} {k : Int} (h : NotedRelease m o c k) (hn : n.bsn = m.bsn) :
    NotedRelease n o c k := by
  rwa [NotedRelease, bsnOut, hn]

theorem releaseSet_noted (m : Mod) (o : Nat) (c : OutCfg) (k : Int) (complete : Bool) :
    NotedRelease (releaseSet m o c k complete) o c k := by
  unfold releaseSet
  extract_lets s held
  split
  rename_i n ms runs hfold
  have hms : ms.length = c.members.length := by
    have := length_foldl_of_step (fun r : Mod × List Member × List Nat => r.2.1) (fun r x => ((releaseMember r.1 o c s x.2 x.1).1,
      r.2.1 ++ [(releaseMember r.1 o c s x.2 x.1).2.1], r.2.2 ++ [(releaseMember r.1 o c s x.2 x.1).2.2]))
      (fun _ _ => List.length_append) (c.members.zip (List.range c.members.length)) (m, [], [])
    simpa [hfold] using this
  extract_lets m1 m2 m3 m4 m5 m6
  have h1 : NotedRelease m1 o c k := by
    simp only [NotedRelease, bsnOut, m1, modOut, tabGet_tabMod_same]
    split <;> exact ⟨rfl, rfl, hms⟩
  have h6 : NotedRelease m6 o c k := by
    refine h1.congr ?_
    simp [m6, m5, m4, m3, m2, releaseTokens_bsn, wadEvaluate_bsn, noteTag_bsn]
  split
  · exact h6
  · split
    · obtain ⟨hnext, htag, hprev⟩ := h6
      refine ⟨?_, ?_, ?_⟩ <;> simpa [bsnOut, modOut]
    · exact h6.congr (sendUdp_basin ..).1

theorem advanceLocal_of_le {m : Mod} {t : Nat} (h : t ≤ localTime m.clk) : advanceLocal m t = m :=
  advanceTo_of_le (by rw [Nat.sub_eq_zero_of_le h, Nat.add_zero])

/-- A set that is complete, or whose deadline has come, is released at once. -/
theorem sluiceRelease_due {m : Mod} {o : Nat} {c : OutCfg} {k : Int} (h : Hooks) (hc : outCfg m o = some c)
    (hk : (bsnOut m o).next = some k) (hlive : isLive m 1 = true) (hrun : (partOf m 1).stopped = false)
    (hdue : setComplete (pruneSets m o c) c (setOf (bsnOut (pruneSets m o c) o) k) = true ∨ setDue c k ≤ localTime m.clk) :
    sluiceRelease h m o = h.cyc (releaseSet (pruneSets m o c) o c k
      (setComplete (pruneSets m o c) c (setOf (bsnOut (pruneSets m o c) o) k))) 1 (ixTag k) := by
  have hwait : advanceLocal (pruneSets m o c) (setDue c k) = pruneSets m o c ∨
      setComplete (pruneSets m o c) c (setOf (bsnOut (pruneSets m o c) o) k) = true :=
    hdue.symm.imp_left fun hle => advanceLocal_of_le hle
  unfold sluiceRelease
  rw [hc, hk]
  dsimp only
  rw [hlive, hrun, Bool.not_true, Bool.or_false, if_neg Bool.false_ne_true]
  generalize setComplete (pruneSets m o c) c (setOf (bsnOut (pruneSets m o c) o) k) = complete at hwait ⊢
  rcases hwait with hwait | rfl
  · rw [hwait, ite_self]
  · rw [if_pos rfl]

/-! ## A token held at the Sluice (R107, R214) -/

/-- A token that completes no set fills its slot and forms no task. -/
theorem enterMatched_open {m : Mod} {t : Template} {x : XTok} (h : completes m t x.tok = false) :
    enterMatched m t x = modTd m fun d => { d with slots := tabSet d.slots (slotKey t.num x.tok.op) (some x) } := by
  rw [enterMatched, h]
  exact if_neg Bool.false_ne_true

theorem sluiceResume_enters {m : Mod} {o : Nat} {x : XTok} {t : Template} (hx : m.td.held.find? (·.src == .sluice o) = some x)
    (ht : template m x.tok.tmpl = some t) (hfirst : heldFirst m x.tok.tmpl x.tok.op = some x) (hlive : isLive m (tmplPart t) = true)
    (hrun : (partOf m (tmplPart t)).stopped = false) (henter : canEnter m t x.tok = true) (hopen : completes m t x.tok = false) :
    sluiceResume m o = modTd m fun d => { d with held := d.held.erase x, slots := tabSet d.slots (slotKey t.num x.tok.op) (some x) } := by
  have hsrc : x.src = .sluice o := by simpa using List.find?_some hx
  have hfill := enterMatched_open (m := modTd m fun d => { d with held := d.held.erase x }) (t := t) (x := x) hopen
  simp only [sluiceResume, hx, heldEntry, ht, hfirst, hlive, hrun, henter, Bool.not_false, Bool.or_true, Bool.and_self, if_true,
    releaseProducer, hsrc, hfill]
  rfl

/-- Settles O51: the output notes the release, and the held token enters its slot. -/
theorem setsAreReleasedInTurn : Obligations.SetsAreReleasedInTurn := by
  intro s o hp
  refine ⟨fun c k hc hk hlive hrun hdue => ⟨(exec_sluiceRelease o s).trans (runS_powered _ hp), sluiceRelease_due hooks hc hk hlive hrun hdue,
    releaseSet_noted ..⟩, fun x t hx ht hnum hfirst hlive hrun henter hopen => ⟨(exec_sluiceReleaseResume o s).trans (runS_powered _ hp), ?_⟩⟩
  rw [sluiceResume_enters hx ht (hnum ▸ hfirst) hlive hrun henter hopen]
  exact ⟨tabGet_tabSet_same .., rfl⟩

end Sys2Proof.Machine
end

section
/-!
SUPPORT. Links, transmit queues, redundant pairs and M0 (R27, R341, R347 to R350, R354, R355, R359): what the module's own frames leave of
a port and of a pair, and what has left the module.
-/
namespace Sys2Proof.Machine

/-! ## What left the module stays noted -/

/-- Nothing that left `m` is forgotten in `n`. -/
abbrev KeepsSent (m n : Mod) : Prop := m.sent <:+ n.sent

theorem KeepsSent.of_sent {m n u : Mod} (k : KeepsSent n u) (h : n.sent = m.sent) : KeepsSent m u := by
  rwa [KeepsSent, ← h]

theorem msixSend_keepsSent (m : Mod) (v : Nat) : KeepsSent m (msixSend m v) := by
  unfold msixSend
  split
  · simp [KeepsSent, setPba]
  · exact List.suffix_cons ..

theorem recheck_keepsSent (m : Mod) (v : Nat) : KeepsSent m (recheck m v) := by
  unfold recheck
  dsimp only
  split
  · exact (msixSend_keepsSent ..).of_sent rfl
  · exact List.suffix_refl _

theorem setFaultQuiet_keepsSent (m : Mod) (off bit : Nat) : KeepsSent m (setFaultQuiet m off bit) := by
  unfold setFaultQuiet orBits
  dsimp only
  split
  · exact (recheck_keepsSent ..).of_sent rfl
  · exact List.suffix_refl _

theorem loseEvent_keepsSent (m : Mod) (e : Event) : KeepsSent m (loseEvent m e) := by
  unfold loseEvent
  exact (setFaultQuiet_keepsSent ..).of_sent rfl

theorem raiseEvent_keepsSent (m : Mod) (src cls detail : Nat) (arg : Bytes) : KeepsSent m (raiseEvent m src cls detail arg) := by
  unfold raiseEvent pushEvent
  dsimp only
  split
  · exact List.suffix_refl _
  · split
    · exact (loseEvent_keepsSent ..).trans (loseEvent_keepsSent ..)
    · exact loseEvent_keepsSent ..

theorem setFault_keepsSent (m : Mod) (off bit obj : Nat) (vals : List Nat) : KeepsSent m (setFault m off bit obj vals) :=
  (setFaultQuiet_keepsSent ..).trans (raiseEvent_keepsSent ..)

theorem bump_keepsSent (m : Mod) (off : Nat) : KeepsSent m (bump m off) := by
  unfold bump addCnt
  dsimp only
  split
  · exact (raiseEvent_keepsSent ..).of_sent rfl
  · exact List.suffix_refl _

theorem queueModule_keepsSent (m : Mod) (p q : Nat) (it : QItem) : KeepsSent m (queueModule m p q it) := by
  unfold queueModule
  split
  · exact List.suffix_refl _
  · exact (bump_keepsSent ..).trans (setFault_keepsSent ..)

theorem ptpSentAt_keepsSent (m : Mod) (p : Nat) (msg : PtpMsg) (ts : Int) : KeepsSent m (ptpSentAt m p msg ts) := by
  unfold ptpSentAt
  split
  · split
    · exact queueModule_keepsSent ..
    · exact List.suffix_refl _
  · split
    · exact queueModule_keepsSent ..
    · exact List.suffix_refl _
  all_goals exact List.suffix_refl _

theorem tsqAdd_keepsSent (m : Mod) (p : Nat) (e : TsqEntry) : KeepsSent m (tsqAdd m p e) := by
  unfold tsqAdd
  dsimp only
  split
  · exact (bump_keepsSent ..).trans (setFault_keepsSent ..)
  · split
    · exact (setFaultQuiet_keepsSent ..).of_sent rfl
    · exact List.suffix_refl _

@[simp] theorem tsqAdd_net (m : Mod) (p : Nat) (e : TsqEntry) : (tsqAdd m p e).net = m.net := by
  unfold tsqAdd
  dsimp only
  split
  · simp
  · split <;> simp

/-! ## Ports and pairs -/

@[simp] theorem netPair_modPair_same (m : Mod) (pr : Nat) (f : NetPair → NetPair) :
    tabGet (modPair m pr f).net.pairs pr = f (tabGet m.net.pairs pr) :=
  tabGet_tabMod_same ..

@[simp] theorem netPort_modPort_same (m : Mod) (p : Nat) (f : NetPort → NetPort) : netPort (modPort m p f) p = f (netPort m p) :=
  tabGet_tabMod_same ..

theorem netPort_congr {m n : Mod} (h : n.net = m.net) (p : Nat) : netPort n p = netPort m p := by rw [netPort, h, netPort]

theorem link_queueModule (m : Mod) (p q : Nat) (it : QItem) (j : Nat) : (netPort (queueModule m p q it) j).link = (netPort m j).link := by
  unfold queueModule
  split
  · by_cases h : j = p
    · subst h
      simp [queuePut]
    · rw [queuePut, netPort, modPort, tabGet_tabMod_ne _ _ h, netPort]
  · rw [netPort_congr (m := m) (by simp)]

theorem pairs_queueModule (m : Mod) (p q : Nat) (it : QItem) : (queueModule m p q it).net.pairs = m.net.pairs := by
  unfold queueModule
  split
  · rfl
  · simp

theorem eventFree_MAC_PFAULT {p : Nat} (hp : p < 8) : eventFree (Reg.MAC_PFAULT p) = true := by
  simp [eventFree, Reg.MAC_PFAULT, Reg.EVR_LOST_CNT, Reg.EVR_FAULT]
  omega

/-- A discarded frame leaves the other fault flags of a port (R349). -/
theorem Bit_queueModule {m : Mod} {p b j q : Nat} {it : QItem} (hp : p < 8) (h : Bit m (Reg.MAC_PFAULT p) b) :
    Bit (queueModule m j q it) (Reg.MAC_PFAULT p) b := by
  unfold queueModule
  split
  · exact h
  · exact Bit_setFault_other (eventFree_MAC_PFAULT hp) (Bit_bump (eventFree_MAC_PFAULT hp) (by unfold Reg.MAC_PFAULT Reg.MAC_PTX_DROP; omega) h)

/-- A port's link is up, with the flag that says so. -/
def LinkShown (m : Mod) (p : Nat) : Prop := (netPort m p).link = true ∧ Bit m (Reg.MAC_PFAULT p) 2

theorem sendFrame_linkShown {m : Mod} {p : Nat} (hp : p < 8) (h : LinkShown m p) (mask q dst : Nat) (tags : List (Nat × Nat))
    (pl : Payload) (bypass : Bool) : LinkShown (sendFrame m mask q dst tags pl bypass) p :=
  sendFrame_keeps (P := fun n => LinkShown n p)
    (fun n j q it _ hn => ⟨(link_queueModule n j q it p).trans hn.1, Bit_queueModule hp hn.2⟩) (fun _ _ hn => hn) h ..

/-- A frame takes sequence numbers of its own, not those of the supervision frames (R354, R355). -/
theorem supSeq_sendFrame (m : Mod) (pr mask q dst : Nat) (tags : List (Nat × Nat)) (pl : Payload) (bypass : Bool) :
    (tabGet (sendFrame m mask q dst tags pl bypass).net.pairs pr).supSeq = (tabGet m.net.pairs pr).supSeq := by
  refine sendFrame_keeps (P := fun n => (tabGet n.net.pairs pr).supSeq = (tabGet m.net.pairs pr).supSeq)
    (fun n p q it _ hn => by rw [pairs_queueModule, hn]) (fun n j hn => hn ▸ ?_) rfl ..
  simp only [takeSeq, modPair]
  by_cases h : pr = j
  · subst h
    rw [tabGet_tabMod_same]
  · rw [tabGet_tabMod_ne _ _ h]

@[simp] theorem netPort_bump (m : Mod) (off p : Nat) : netPort (bump m off) p = netPort m p := netPort_congr (by simp) p

@[simp] theorem netPort_setFault (m : Mod) (off bit obj : Nat) (vals : List Nat) (p : Nat) :
    netPort (setFault m off bit obj vals) p = netPort m p := netPort_congr (by simp) p

/-! ## Links (R341, R347) -/

theorem linkDown_whole {m : Mod} {p : Nat} (hp : p < 8) (hlink : (netPort m p).link = true) :
    (netPort (linkDown m p false) p).link = false ∧ Bit (linkDown m p false) (Reg.MAC_PFAULT p) 1 ∧
      (netPort (linkDown m p false) p).txq = (netPort m p).txq := by
  unfold linkDown
  rw [hlink, Bool.not_true, if_neg Bool.false_ne_true]
  dsimp only
  rw [if_neg Bool.false_ne_true, netPort_setFault, netPort_modPort_same]
  exact ⟨rfl, Bit_setFault (eventFree_MAC_PFAULT hp) (by decide), rfl⟩

theorem linkUp_shown {m : Mod} {p : Nat} (hp : p < 8) (hlink : (netPort m p).link = false) (hmode : (portCfg m p).mode ≠ 0)
    (hpcfg : regBits m (Reg.MAC_PCFG p) 0 0 = 0) : LinkShown (linkUp portGroups m p true) p := by
  unfold linkUp
  dsimp only
  rw [if_neg (by simp [hlink, hmode, hpcfg]), if_neg (by simp)]
  refine List.foldlRecOn _ _ (motive := fun n => LinkShown n p) ⟨?_, Bit_setFault (eventFree_MAC_PFAULT hp) (by decide)⟩
    fun n hn g _ => sendFrame_linkShown hp hn ..
  rw [netPort_setFault, netPort_modPort_same]

/-! ## The frame that leaves (R324, R326, R348) -/

/-- The frame at the head of the queue left the port, at most its message stamped, and nothing that left before it is forgotten. -/
def FrameLeft (m u : Mod) (p : Nat) (it : QItem) : Prop :=
  ∃ f, .frame p f :: m.sent <:+ u.sent ∧ { f with payload := it.frame.payload } = it.frame ∧ (it.ptp ≠ 2 → f = it.frame)

theorem frameTransmit_left {m : Mod} {p q : Nat} {it : QItem} {rest : List QItem} (hlink : (netPort m p).link = true)
    (hpaused : (netPort m p).paused = false)
    (hq : ([7, 6, 5, 4, 3, 2, 1, 0].find? fun q => !(tabGet (netPort m p).txq q).isEmpty) = some q)
    (hhead : tabGet (netPort m p).txq q = it :: rest) :
    ∃ n, KeepsSent m n ∧ FrameLeft n (frameTransmit m p) p it ∧
      (it.ptp = 0 → tabGet (netPort (frameTransmit m p) p).txq q = rest) := by
  unfold frameTransmit
  dsimp only
  rw [hq]
  dsimp only
  rw [hhead, hlink, hpaused, if_neg (by decide)]
  dsimp only
  generalize hn : bump (modPort m p fun st => { st with txq := tabSet st.txq q rest }) (Reg.MAC_PTX_OK p) = n
  have hsent : KeepsSent m n := hn ▸ (bump_keepsSent ..).of_sent rfl
  have hport : tabGet (netPort n p).txq q = rest := by
    rw [← hn, netPort_bump, netPort_modPort_same, tabGet_tabSet_same]
  refine ⟨n, hsent, ?_⟩
  split
  case h_1 hptp => exact ⟨⟨it.frame, ptpSentAt_keepsSent (emit n (.frame p it.frame)) .., rfl, fun _ => rfl⟩, by simp [hptp]⟩
  case h_2 hptp => exact ⟨⟨_, List.suffix_refl _, rfl, fun h => absurd hptp h⟩, by simp [hptp]⟩
  case h_3 =>
    split
    · refine ⟨⟨it.frame, tsqAdd_keepsSent (emit n (.frame p it.frame)) .., rfl, fun _ => rfl⟩, fun _ => ?_⟩
      rw [netPort_congr (tsqAdd_net ..)]
      exact hport
    · exact ⟨⟨it.frame, List.suffix_refl _, rfl, fun _ => rfl⟩, fun _ => hport⟩

/-! ## The timers of a port and of a pair (R347, R350, R354) -/

theorem arpAsk_clk (m : Mod) (p ip : Nat) : (arpAsk m p ip).clk = m.clk := (sendFrame_basin ..).2

theorem arpRefresh_due {m : Mod} {p : Nat} (h : Due m .arp p) :
    arpRefresh m p = startTimer (((netPort m p).arp.filter (·.mac.isNone)).foldl (fun m e => arpAsk m p e.ip) (stopTimer m .arp p))
      .arp p (secs 60) := by
  have hport : netPort (stopTimer m .arp p) p = netPort m p := rfl
  rw [arpRefresh, expire_of_due h, hport]

theorem timerDue_arpRefresh {m : Mod} {p : Nat} (h : Due m .arp p) :
    timerDue (arpRefresh m p) .arp p = some (m.clk.elapsed + secs 60) := by
  have hclk : (stopTimer m .arp p).clk = m.clk := rfl
  rw [arpRefresh_due h, timerDue_startTimer,
    foldl_keep Mod.clk (fun m (e : ArpEntry) => arpAsk m p e.ip) fun n e => arpAsk_clk n p e.ip, hclk]

theorem parserHoldRelease_reads {m : Mod} {p : Nat} (hheld : (m.td.held.any fun x => x.src == .sv p) = false)
    (hlanes : ∀ x ∈ m.sv.lanes, (subCfg m x.sub).any (fun c => c.ports.testBit p) = true → laneFull m x.sub = false) :
    (netPort (parserHoldRelease m p) p).held = false := by
  have hnone : (m.sv.lanes.any fun x => (subCfg m x.sub).any (fun c => c.ports.testBit p) && laneFull m x.sub) = false := by
    simpa using hlanes
  unfold parserHoldRelease
  dsimp only
  rw [hheld, hnone, Bool.or_false, if_neg Bool.false_ne_true]
  exact congrArg NetPort.held (netPort_modPort_same ..)

theorem supervisionTimer_due {m : Mod} {pr : Nat} (h : Due m .supervision pr) (hmode : (tabGet m.portMap.pairs pr).mode ≠ 0) :
    supervisionTimer m pr = startTimer (sendFrame (modPair (stopTimer m .supervision pr) pr fun x =>
        { x with supSeq := ((tabGet m.net.pairs pr).supSeq + 1) % 65536 })
      (4 ^ pr) 6 (0x01154E000100 + (tabGet m.portMap.pairs pr).supOctet) []
      (.supervision (portCfg m (2 * pr)).mac (tabGet m.net.pairs pr).supSeq))
      .supervision pr (msec (tabGet m.portMap.pairs pr).supIntv) :=
  (expire_of_due h _).trans (if_neg hmode)

theorem supervisionTimer_next {m : Mod} {pr : Nat} (h : Due m .supervision pr) (hmode : (tabGet m.portMap.pairs pr).mode ≠ 0) :
    (tabGet (supervisionTimer m pr).net.pairs pr).supSeq = ((tabGet m.net.pairs pr).supSeq + 1) % 65536 ∧
      timerDue (supervisionTimer m pr) .supervision pr = some (m.clk.elapsed + msec (tabGet m.portMap.pairs pr).supIntv) := by
  rw [supervisionTimer_due h hmode]
  constructor
  · exact (supSeq_sendFrame ..).trans (by rw [netPair_modPair_same])
  · rw [timerDue_startTimer, (sendFrame_basin ..).2]
    rfl

/-! ## Nodes not seen (R354) -/

theorem foldl_min_le {α : Type} (g : α → Nat) (l : List α) (b : Nat) :
    l.foldl (fun a x => min a (g x)) b ≤ b ∧ ∀ x ∈ l, l.foldl (fun a x => min a (g x)) b ≤ g x := by
  induction l generalizing b with
  | nil => simp
  | cons y l ih =>
    obtain ⟨hb, hl⟩ := ih (min b (g y))
    exact ⟨hb.trans (min_le_left ..), List.forall_mem_cons.2 ⟨hb.trans (min_le_right ..), hl⟩⟩

theorem nodeForget_nodes {m : Mod} {pr : Nat} {e : NodeEntry} (he : e ∈ (tabGet m.net.pairs pr).nodes)
    (hdue : e.seen + secs (tabGet m.portMap.pairs pr).forget ≤ m.clk.elapsed) :
    (tabGet (nodeForget m pr).net.pairs pr).nodes = (tabGet m.net.pairs pr).nodes.filter fun n =>
      decide (m.clk.elapsed < n.seen + secs (tabGet m.portMap.pairs pr).forget) := by
  unfold nodeForget
  dsimp only
  split
  case h_1 hnil => simp [hnil] at he
  case h_2 a l hcons =>
    have hold : l.foldl (fun a x => min a x.seen) a.seen ≤ e.seen := by
      obtain ⟨ha, hl⟩ := foldl_min_le (fun x : NodeEntry => x.seen) l a.seen
      rcases List.mem_cons.1 (hcons ▸ he) with rfl | hmem
      · exact ha
      · exact hl e hmem
    rw [advanceTo_of_le (by omega), netPair_modPair_same]

/-- Settles O45, clause by clause of its words. -/
theorem portsAndPairsSendAndForget : Obligations.PortsAndPairsSendAndForget := by
  refine ⟨fun s p hp hp8 => ⟨?_, ?_, ?_, ?_, ?_, ?_⟩, fun s hp => ⟨?_, ?_, ?_, ?_⟩⟩
  · exact fun hlink => ⟨(exec_linkDown p false s).trans (runM_powered _ hp), linkDown_whole hp8 hlink⟩
  · exact fun hlink hmode hpcfg => ⟨(exec_linkUp p true s).trans (runM_powered _ hp), linkUp_shown hp8 hlink hmode hpcfg⟩
  · refine fun hdue => ⟨(exec_pauseExpiry p s).trans (runM_powered _ hp), ?_⟩
    rw [pauseExpiry, expire_of_due hdue]
    exact ⟨congrArg NetPort.paused (netPort_modPort_same ..), timerDue_stopTimer ..⟩
  · intro q it rest hlink hpaused hq hhead
    obtain ⟨n, ⟨b, hb⟩, ⟨f, ⟨a, ha⟩, hsame, hframe⟩, hrest⟩ := frameTransmit_left hlink hpaused hq hhead
    exact ⟨(exec_frameTransmit p s).trans (runM_powered _ hp), ⟨a, b, f, by rw [hb, ha], hsame, hframe⟩, hrest⟩
  · exact fun hdue => ⟨(exec_arpRefresh p s).trans (runM_powered _ hp), timerDue_arpRefresh hdue, arpRefresh_due hdue⟩
  · exact fun hheld hlanes => ⟨(exec_parserHoldRelease p s).trans (runM_powered _ hp), parserHoldRelease_reads hheld hlanes⟩
  · intro pr hdue hmode
    obtain ⟨hseq, htimer⟩ := supervisionTimer_next hdue hmode
    exact ⟨(exec_supervisionFrameTimer pr s).trans (runM_powered _ hp), hseq, htimer, supervisionTimer_due hdue hmode⟩
  · exact fun pr ⟨e, he, hdue⟩ => ⟨(exec_nodeForget pr s).trans (runM_powered _ hp), nodeForget_nodes he hdue⟩
  · exact fun b => ⟨(exec_m0FrameReceived b false s).trans (runM_powered _ hp), by simp [m0Frame, hp]⟩
  · exact fun b => ⟨(exec_m0FrameReceived b true s).trans (runM_powered _ hp), by simp [m0Frame, hp]⟩

end Sys2Proof.Machine
end

section
/-!
SUPPORT. TIMER_ON over consecutive tags of its flow (R139, R147).
-/
namespace Sys2Proof.Machine

/-- What TIMER_ON gives at a tag whose committed segment is `g`. -/
abbrev timerOnAt (x : PrimIn) (nan : Nat → Bool) (g : Seg) : Result × Seg :=
  finish true { x with seg := g } nan (primTimerOn { x with seg := g })

section
variable {x : PrimIn} {nan : Nat → Bool}

theorem primTimerOn_of_true (hreset : x.hasOp 1 = false) (htrue : x.oTrue 0 = true) :
    primTimerOn x =
      { rawB (decide (x.pNat 0 ≤ min (x.st 0 + 1) (x.pNat 0))) with a := [min (x.st 0 + 1) (x.pNat 0)] } := by
  simp only [primTimerOn, hreset, htrue, Bool.false_and, Bool.false_eq_true, if_false, if_true]

/-- A true operand without a reset counts one, up to the count of the template. -/
theorem timerOnAt_count (hreset : x.hasOp 1 = false) (htrue : x.oTrue 0 = true) (g : Seg) :
    (timerOnAt x nan g).2.a.getD 0 0 = min (g.a.getD 0 0 + 1) (x.pNat 0) :=
  congrArg (fun r : Raw => r.a.getD 0 0) (primTimerOn_of_true (x := { x with seg := g }) hreset htrue)

/-- The result is 1 where the count reaches that of the template. -/
theorem timerOnAt_val (hreset : x.hasOp 1 = false) (htrue : x.oTrue 0 = true) (g : Seg) :
    (timerOnAt x nan g).1.val = .int (if x.pNat 0 ≤ g.a.getD 0 0 + 1 then 1 else 0) := by
  refine (congrArg Raw.val (primTimerOn_of_true (x := { x with seg := g }) hreset htrue)).trans ?_
  change Val.int (BitVec.ofInt 32 (if decide (x.pNat 0 ≤ min (g.a.getD 0 0 + 1) (x.pNat 0)) = true then 1 else 0)) = _
  simp only [decide_eq_true_eq, le_min_iff, le_refl, and_true]
  split <;> rfl

theorem timerOnAt_iterate_count (hreset : x.hasOp 1 = false) (htrue : x.oTrue 0 = true) (hempty : x.st 0 = 0) (k : Nat) :
    ((fun g => (timerOnAt x nan g).2)^[k] x.seg).a.getD 0 0 = min k (x.pNat 0) := by
  induction k with
  | zero => exact hempty.trans (Nat.zero_min _).symm
  | succ k ih =>
    rw [Function.iterate_succ_apply', timerOnAt_count hreset htrue, ih]
    omega

end

/-- Settles O40: the count after k tags is k up to n, so the result turns 1 at the n-th. -/
theorem timerOnOperatesAfterItsCount : Obligations.TimerOnOperatesAfterItsCount := by
  intro x n k nan hn hreset htrue hempty
  have hiff : n ≤ min k n + 1 ↔ n ≤ k + 1 := by omega
  refine (timerOnAt_val hreset htrue _).trans ?_
  simp only [timerOnAt_iterate_count hreset htrue hempty, hn, hiff]

end Sys2Proof.Machine
end

section
/-!
SUPPORT. Memory errors and rewrites (R124, R197, R499, R500): what a set bit and the parts of the module keep through the operations
that a scrub pass and a rewrite are made of.
-/
namespace Sys2Proof.Machine

/-! ## A set bit stays -/

/-- An ECC count: nothing while its half is full, else the half counts, with the event of its saturation. -/
theorem bumpEcc_cases (m : Mod) (a : Nat) (ue : Bool) : bumpEcc m a ue = m ∨ ∃ hi lo x,
    bumpEcc m a ue = setBits m a hi lo x ∨ ∃ arg, bumpEcc m a ue = raiseEvent (setBits m a hi lo x) (srcOf a) 1 0 arg := by
  unfold bumpEcc
  generalize (if ue then 0 else 16) = lo
  dsimp only
  split
  · exact .inl rfl
  · split
    · exact .inr ⟨_, _, _, .inr ⟨_, rfl⟩⟩
    · exact .inr ⟨_, _, _, .inl rfl⟩

theorem Bit_bumpEcc {m : Mod} {a off b : Nat} {ue : Bool} (hfree : eventFree off = true) (hne : off ≠ a) (h : Bit m off b) :
    Bit (bumpEcc m a ue) off b := by
  rcases bumpEcc_cases m a ue with he | ⟨hi, lo, x, he | ⟨arg, he⟩⟩ <;> rw [he]
  · exact h
  · exact Bit_setReg_other hne h
  · exact Bit_raiseEvent hfree (Bit_setReg_other hne h)

@[simp] theorem markFlow_regs (m : Mod) (f : Nat) : (markFlow m f).regs = m.regs := by
  unfold markFlow
  split <;> rfl

/-! ## Rung 2 and rewrites -/

@[simp] theorem askRung2_frame (m : Mod) (p trigger : Nat) :
    (askRung2 m p trigger).regs = m.regs ∧ (askRung2 m p trigger).td = m.td ∧ (askRung2 m p trigger).sv = m.sv := by
  unfold askRung2
  split <;> exact ⟨rfl, rfl, rfl⟩

theorem askRung2_of_none {m : Mod} (h : m.rung2 = []) (p trigger : Nat) : (askRung2 m p trigger).rung2 = [(p, trigger)] := by
  simp [askRung2, h]

/-- A rewrite is noted with HLTH_FAULT.REWRITE; tasks, engines and filters stay (R500). -/
theorem noteRewrite_effect (m : Mod) (obj p : Nat) :
    Bit (noteRewrite m obj p) Reg.HLTH_FAULT 6 ∧ (noteRewrite m obj p).td = m.td ∧ (noteRewrite m obj p).sv = m.sv := by
  unfold noteRewrite
  dsimp only
  split
  · exact ⟨Bit_congr (askRung2_frame ..).1 (Bit_setFault (by decide) (by decide)), by simp, by simp⟩
  · exact ⟨Bit_setFault (by decide) (by decide), by simp, by simp⟩

@[simp] theorem groupSt_modGroup_same (m : Mod) (g : Nat) (f : GroupSt → GroupSt) : groupSt (modGroup m g f) g = f (groupSt m g) :=
  tabGet_tabMod_same ..

theorem groupSt_congr {n m : Mod} (h : n.sv = m.sv) (g : Nat) : groupSt n g = groupSt m g := by rw [groupSt, h, groupSt]

/-! ## Scrubbed words -/

theorem scrubPass_flowState_bad (m : Mod) (c f : Nat) :
    Bit (scrubPass m (.flowState c f) .bad) Reg.PE_FAULT 1 ∧ Bit (scrubPass m (.flowState c f) .bad) Reg.HLTH_FAULT 7 := by
  have hecc : Reg.HLTH_FAULT ≠ Reg.PE_CL_ECC (c % 16) := by unfold Reg.HLTH_FAULT Reg.PE_CL_ECC; omega
  exact ⟨Bit_congr (markFlow_regs ..) (Bit_setFault (by decide) (by decide)), Bit_congr (markFlow_regs ..)
    (Bit_setFault_other (by decide) (Bit_bumpEcc (by decide) hecc (Bit_setFault (by decide) (by decide))))⟩

/-- A row of the capture ring that the pass found bad reads as a gap. -/
theorem scrubPass_ringRow_gap {m : Mod} {i : Nat} {x : CapRow} (h : (scrubPass m (.ringRow i) .bad).rec_.ring[i]? = some x) :
    x.gap = true := by
  simp only [scrubPass, modRec, List.getElem?_mapIdx, if_true, Option.map_eq_some_iff] at h
  obtain ⟨_, -, rfl⟩ := h
  rfl

theorem scrubPass_store_bad {m : Mod} {p : Nat} (hp : p < 4) (h : m.rung2 = []) :
    Bit (scrubPass m (.store p) .bad) Reg.HLTH_FAULT 7 ∧ Bit (scrubPass m (.store p) .bad) Reg.TD_FAULT 4 ∧
      (scrubPass m (.store p) .bad).rung2 = [(p, 2)] := by
  refine ⟨Bit_congr (askRung2_frame ..).1 (Bit_setFault_other (by decide) (Bit_setFault (by decide) (by decide))),
    Bit_congr (askRung2_frame ..).1 (Bit_setFault (by decide) (by decide)), ?_⟩
  exact (askRung2_of_none (by simp [h]) ..).trans (by rw [Nat.mod_eq_of_lt hp])

/-! ## Rewrites -/

theorem residentRewrite_effect {m : Mod} {c e p : Nat} (h : 16 * c + e ∈ m.td.withdrawn) :
    Bit (residentRewrite m c e p) Reg.HLTH_FAULT 6 ∧ 16 * c + e ∉ (residentRewrite m c e p).td.withdrawn := by
  have hbranch : residentRewrite m c e p =
      noteRewrite (modTd m fun d => { d with withdrawn := d.withdrawn.filter (· ≠ 16 * c + e) }) (16 * c + e) p := by
    simp [residentRewrite, h]
  obtain ⟨hbit, htd, -⟩ := noteRewrite_effect
    (modTd m fun d => { d with withdrawn := d.withdrawn.filter (· ≠ 16 * c + e) }) (16 * c + e) p
  rw [hbranch, htd]
  exact ⟨hbit, by simp [modTd]⟩

theorem paletteRewrite_effect {m : Mod} {g : Nat} (h : (groupSt m g).coefUe = true) :
    Bit (paletteRewrite m g) Reg.HLTH_FAULT 6 ∧ (groupSt (paletteRewrite m g) g).coefUe = false := by
  have hbranch : paletteRewrite m g = noteRewrite (palRewrite m g) (1024 + g) (groupPart m g) := by simp [paletteRewrite, h]
  obtain ⟨hbit, -, hsv⟩ := noteRewrite_effect (palRewrite m g) (1024 + g) (groupPart m g)
  rw [hbranch]
  exact ⟨hbit, by rw [groupSt_congr hsv, palRewrite, groupSt_modGroup_same]⟩

/-- Settles O26, word by word of its text. -/
theorem scrubbingAndRewriting : Obligations.ScrubbingAndRewriting := by
  intro s hp
  have hscrub (w : ScrubWord) (f : ScrubFind) : exec (.scrubPass w f) s = .next (settleState s (scrubPass s.m w f)) :=
    (exec_scrubPass w f s).trans (runS_powered _ hp)
  refine ⟨?_, ?_, ?_, ?_, ?_, ?_, ?_, ?_, ?_⟩
  · exact fun w => ⟨hscrub w .clean, rfl⟩
  · exact fun c f => ⟨hscrub .., Bit_setFault (by decide) (by decide)⟩
  · exact fun c f => ⟨hscrub .., scrubPass_flowState_bad s.m c f⟩
  · exact fun g => ⟨hscrub .., Bit_setFault (by decide) (by decide), congrArg GroupSt.coefUe (groupSt_modGroup_same ..)⟩
  · exact fun i => ⟨hscrub .., Bit_setFault (by decide) (by decide), fun _ hx => scrubPass_ringRow_gap hx⟩
  · exact ⟨hscrub .., Bit_setFault (by decide) (by decide)⟩
  · exact fun p hp4 hnone => ⟨hscrub .., scrubPass_store_bad hp4 hnone⟩
  · exact fun c e p hw => ⟨(exec_residentSetRewrite c e p s).trans (runS_powered _ hp), residentRewrite_effect hw⟩
  · exact fun g hue => ⟨(exec_paletteRewrite g s).trans (runS_powered _ hp), paletteRewrite_effect hue⟩

end Sys2Proof.Machine
end

section
/-!
SUPPORT. Interrupt conditions evaluated again, key gates and writes by a register's row (R525, R531, R535, R537): what each leaves.
-/
namespace Sys2Proof.Machine

/-! ## Conditions evaluated again -/

theorem vectorsOf_lt {off v : Nat} (h : v ∈ vectorsOf off) : v < 45 := by
  unfold vectorsOf at h
  split at h
  · simp at h; omega
  · split at h
    · simp at h; omega
    · exact vectorOf_lt (Option.mem_toList.1 h)

theorem regO_recheckAll (m : Mod) (a : Nat) {off : Nat} (obj : Nat) (h : off < 0x3F8000) :
    regO (recheckAll m a) off obj = regO m off obj :=
  List.foldlRecOn (vectorsOf a) recheck (motive := fun n => regO n off obj = regO m off obj) rfl
    fun n hn v hv => (regO_recheck n v obj (vectorsOf_lt hv) h).trans hn

theorem reg_recheckAll (m : Mod) (a : Nat) {off : Nat} (h : off < 0x3F8000) : reg (recheckAll m a) off = reg m off :=
  regO_recheckAll m a 0 h

@[simp] theorem recheckAll_shadow (m : Mod) (a : Nat) : (recheckAll m a).shadow = m.shadow :=
  foldl_keep Mod.shadow recheck (by simp) (vectorsOf a) m

/-! ## Key gates -/

/-- Two modules agree on what decides whether a gate is open. -/
abbrev SameGates (n m : Mod) : Prop := n.host.gates = m.host.gates ∧ n.clk = m.clk

theorem gateOpen_congr {n m : Mod} (h : SameGates n m) (b : Nat) : gateOpen n b = gateOpen m b := by
  rw [gateOpen, h.1, h.2, gateOpen]

@[simp] theorem gateOpen_closeGate (m : Mod) (b : Nat) : gateOpen (closeGate m b) b = false := by
  simp [gateOpen, closeGate, stopTimer]

theorem recheckAll_gates (m : Mod) (a : Nat) : SameGates (recheckAll m a) m :=
  ⟨foldl_keep (fun n : Mod => n.host.gates) recheck (fun n v => by rw [recheck_host]) (vectorsOf a) m,
    foldl_keep Mod.clk recheck (by simp) (vectorsOf a) m⟩

/-! ## A write by a register's row -/

section
variable (m : Mod) {r : RegRow} (v : Word)

theorem reg_plainWrite (hwo : r.wo = false) (hlow : r.off < 0x3F8000) : reg (plainWrite m r v) r.off =
    (v &&& BitVec.ofNat 32 r.live) ||| (reg m r.off &&& ~~~(BitVec.ofNat 32 r.live)) := by
  unfold plainWrite
  dsimp only
  rw [reg_recheckAll _ _ hlow]
  have hshadow (n : Mod) (w : Word) : reg (if r.shadow = 0 then n else setShadow n r.off w) r.off = reg n r.off := by split <;> rfl
  rw [hshadow]
  by_cases hlive : r.live = 0
  · rw [if_pos (.inl hlive), hlive, BitVec.and_zero, BitVec.zero_or, BitVec.not_zero, BitVec.and_allOnes]
  · simp [hlive, hwo]

theorem shadowReg_plainWrite (hsh : r.shadow ≠ 0) : shadowReg (plainWrite m r v) r.off =
    (v &&& BitVec.ofNat 32 r.shadow) ||| (shadowReg m r.off &&& ~~~(BitVec.ofNat 32 r.shadow)) := by
  unfold plainWrite shadowReg
  dsimp only
  rw [recheckAll_shadow, if_neg hsh]
  refine (cellGet_cellSet_same ..).trans ?_
  split <;> rfl

theorem plainWrite_gates : SameGates (plainWrite m r v) m := by
  unfold plainWrite
  dsimp only
  refine ⟨(recheckAll_gates ..).1.trans ?_, (recheckAll_gates ..).2.trans ?_⟩ <;> (split <;> split <;> rfl)

end

/-- A whole write of a register without an operation of its own, in a block that runs, goes by the register's row, through its gate
where it has one. -/
theorem hostRegWrite_plain {m : Mod} {mem : Mem} {a : Nat} {v : Word} {r : RegRow} (halign : a % 4 = 0) (hrow : regRow? a = some r)
    (hup : blockUp m (srcOf a) = true) (hreq : isReq a = false) (hmsix : isMsix a = false) (hop : opWrite m mem a v 15 = none)
    (hchan : nth a (Reg.DMA_CH_CFG 0) 0x20 16 = none) (hgate : r.guarded = true → gateOpen m (srcOf a) = true) :
    hostRegWrite m mem a v 15 = plainWrite (if r.guarded then closeGate m (srcOf a) else m) r v := by
  have ha : a / 4 * 4 = a := by omega
  simp only [hostRegWrite, ha, implemented, hrow, hup, hreq, hmsix, hop, Option.isSome_some, Bool.true_or, Bool.not_true,
    Bool.false_eq_true, if_false, if_neg (show (15 : BitVec 4) ≠ 0 by decide)]
  by_cases hg : r.guarded = true
  · rw [if_pos hg, if_pos hg, guardedWrite_open _ _ _ (hgate hg)]
  · rw [if_neg hg, if_neg hg, hostWrite_full, hchan]

end Sys2Proof.Machine
end

section
/-!
SUPPORT. Reads that clear, group requests, vectors unmasked and hold-offs (R145, R529, R537, R538).
-/
namespace Sys2Proof.Machine

/-! ## Reads that clear (R529) -/

theorem lanes_full (v : Word) : lanes 15 v = v := by
  have hfold : lanes 15 v = 0#32 ||| (v &&& 0xFF) ||| (v &&& 0xFF00) ||| (v &&& 0xFF0000) ||| (v &&& 0xFF000000) := rfl
  have hall : (0xFF : Word) ||| 0xFF00 ||| 0xFF0000 ||| 0xFF000000 = BitVec.allOnes 32 := by decide
  rw [hfold, BitVec.zero_or, ← BitVec.and_or_distrib_left, ← BitVec.and_or_distrib_left, ← BitVec.and_or_distrib_left, hall,
    BitVec.and_allOnes]

/-- The clear-on-read bits of the shown object read 0 afterwards. -/
theorem clearRc_clears {m : Mod} {a : Nat} {r : RegRow} (hrow : regRow? a = some r) (hrc : r.rc ≠ 0) (hlow : a < 0x3F8000) :
    regO (clearRc m a) a (selObj m a) &&& BitVec.ofNat 32 r.rc = 0 := by
  simp only [clearRc, hrow, if_neg hrc]
  rw [regO_recheckAll _ _ _ hlow, regO_setRegO, if_pos rfl, BitVec.and_assoc, BitVec.and_comm (~~~_), BitVec.and_not_self]
  exact BitVec.and_zero

theorem hostRead_data {m : Mod} {a : Nat} (halign : a % 4 = 0) (himpl : implemented a = true) (hup : blockUp m (srcOf a) = true)
    (hbox : boxWord a = none) (hrd : a ≠ Reg.EVR_RD_DATA 15) : hostRead m a 15 =
      { clearRc m a with host := { (clearRc m a).host with latched := .data (readValue m a) } } := by
  have ha : a / 4 * 4 = a := by omega
  simp only [hostRead, ha, himpl, hup, hbox, if_neg hrd, lanes_full, Bool.not_true, Bool.false_eq_true, if_false,
    if_neg (show (15 : BitVec 4) ≠ 0 by decide)]

/-! ## Group requests (R145) -/

/-- The change of group of one domain that an accepted request notes, with its record for the state copy. -/
def requestGroup (g : Nat) (m : Mod) (d : Nat) : Mod :=
  noteCopy (addGroup m d (tagAdd (latestTag m d) 3) g) (.group d (tagAdd (latestTag m d) 3) g)

/-- What decides the latest tag of every domain is the same in both modules. -/
abbrev SameTags (n m : Mod) : Prop := n.td.lastTag = m.td.lastTag ∧ n.parts = m.parts ∧ n.clk = m.clk

theorem latestTag_congr {n m : Mod} (h : SameTags n m) (d : Nat) : latestTag n d = latestTag m d := by
  obtain ⟨htag, hparts, hclk⟩ := h
  simp only [latestTag, domainRate, imageOf, partOf_congr hparts, htag, hclk]

/-- Group `g` is noted for domain `d` three tags after its latest. -/
def Requested (m : Mod) (g d : Nat) : Prop := (tagAdd (latestTag m d) 3, g) ∈ tabGet m.pe.pend d

theorem requestGroup_same (m : Mod) (g d : Nat) : Requested (requestGroup g m d) g d := by
  have htag : latestTag (requestGroup g m d) d = latestTag m d := latestTag_congr ⟨rfl, rfl, rfl⟩ d
  unfold Requested
  rw [htag]
  simp [requestGroup, addGroup, noteCopy, noteCopyAt, modTd]

theorem requestGroup_keeps {m : Mod} {g d : Nat} (h : Requested m g d) (e : Nat) : Requested (requestGroup g m e) g d := by
  by_cases he : d = e
  · exact he ▸ requestGroup_same m g d
  · have htag : latestTag (requestGroup g m e) d = latestTag m d := latestTag_congr ⟨rfl, rfl, rfl⟩ d
    have hpend : tabGet (requestGroup g m e).pe.pend d = tabGet m.pe.pend d := tabGet_tabSet_ne _ _ he
    unfold Requested
    rw [htag, hpend]
    exact h

theorem foldl_requestGroup {l : List Nat} {g d : Nat} (hd : d ∈ l) (m : Mod) : Requested (l.foldl (requestGroup g) m) g d := by
  induction l generalizing m with
  | nil => cases hd
  | cons e l ih =>
    rcases List.mem_cons.1 hd with rfl | hd
    · exact List.foldlRecOn l _ (motive := fun n => Requested n g d) (requestGroup_same m g d) fun n hn e _ => requestGroup_keeps hn e
    · exact ih hd _

/-- The requests of a partition's domains change nothing but the groups that wait, the groups in force and the copy records. -/
theorem foldl_requestGroup_frame (l : List Nat) (g : Nat) (m : Mod) :
    (l.foldl (requestGroup g) m).regs = m.regs ∧ (l.foldl (requestGroup g) m).pe.kept = m.pe.kept ∧
      SameGates (l.foldl (requestGroup g) m) m ∧ SameTags (l.foldl (requestGroup g) m) m := by
  have keeps {γ : Type} (f : Mod → γ) (h : ∀ n d, f (requestGroup g n d) = f n) : f (l.foldl (requestGroup g) m) = f m :=
    foldl_keep f _ h l m
  have hclk := keeps Mod.clk fun _ _ => rfl
  exact ⟨keeps Mod.regs fun _ _ => rfl, keeps (·.pe.kept) fun _ _ => rfl, ⟨keeps (·.host.gates) fun _ _ => rfl, hclk⟩,
    keeps (·.td.lastTag) fun _ _ => rfl, keeps Mod.parts fun _ _ => rfl, hclk⟩

/-- A request for a group that the partition has, in a unit that is neither Standby nor Referee, is kept and noted. -/
theorem groupRequest_accepted {m : Mod} {p g : Nat} (hpos : 1 ≤ g) (hcount : g ≤ groupCount m p)
    (hpart : (partOf m p).state ≠ .absent) (hstandby : m.mode.role ≠ .standby) (hreferee : m.mode.role ≠ .referee) :
    reg (groupRequest m p g) Reg.PE_SGRP_REQ = BitVec.ofNat 32 (p * 256 + g) ∧ tabGet (groupRequest m p g).pe.kept p = some g ∧
      (∀ d ∈ partDomains m p, (tagAdd (latestTag m d) 3, g) ∈ tabGet (groupRequest m p g).pe.pend d) ∧
      SameGates (groupRequest m p g) m := by
  have haccept : ¬(g = 0 ∨ groupCount m p < g ∨ (partOf m p).state = .absent ∨ m.mode.role = .standby ∨
      m.mode.role = .referee) := by
    simp only [hpart, hstandby, hreferee, or_false]
    omega
  unfold groupRequest
  rw [if_neg haccept]
  set n := setReg m Reg.PE_SGRP_REQ (BitVec.ofNat 32 (p * 256 + g))
  set u := keepGroup { n with pe := { n.pe with refused := n.pe.refused &&& (15 - 2 ^ p) } } p g
  obtain ⟨hregs, hkept, hgates, htags⟩ := foldl_requestGroup_frame (partDomains u p) g u
  refine ⟨(reg_congr hregs _).trans (reg_setReg_same ..), (congrArg (tabGet · p) hkept).trans (tabGet_tabSet_same ..), ?_, hgates⟩
  intro d hd
  have hreq := foldl_requestGroup (g := g) (l := partDomains u p) hd u
  rwa [Requested, latestTag_congr htags] at hreq

/-- The fields of PE_SGRP_REQ. -/
theorem sgrpReq_fields {p g : Nat} (hp : p < 4) (hg : g < 16) :
    bitsOf (BitVec.ofNat 32 (p * 256 + g)).toNat 9 8 = p ∧ bitsOf (BitVec.ofNat 32 (p * 256 + g)).toNat 3 0 = g := by
  simp only [bitsOf, BitVec.toNat_ofNat, Nat.shiftRight_eq_div_pow]
  omega

/-! ## Vectors unmasked (R537) -/

/-- A bit put to 0 reads 0. -/
theorem putBits_clear (v : Word) {b : Nat} (h : b < 32) : (putBits v b b 0).toNat.testBit b = false := by
  unfold putBits bitsOf
  simp only [Nat.sub_self, Nat.zero_add, pow_one, Nat.zero_mod, Nat.zero_mul, Nat.add_zero, BitVec.toNat_ofNat,
    Nat.shiftRight_eq_div_pow]
  rw [Nat.testBit_mod_two_pow, Nat.testBit_eq_decide_div_mod_eq, Nat.mul_comm, Nat.sub_mul_div]
  simp only [h, decide_true, Bool.true_and, decide_eq_false_iff_not]
  omega

theorem pbaBit_setPba_false (m : Mod) (v : Nat) : pbaBit (setPba m v false) v = false := by
  unfold pbaBit setPba setBits
  rw [reg_setReg_same]
  exact putBits_clear _ (Nat.mod_lt _ (by decide))

theorem msixSend_unmasked {m : Mod} {v : Nat} (hmask : msixMasked m v = false) (hup : m.host.linkUp = true) :
    ∃ a d, msixSend m v = { m with sent := .msix v a d :: m.sent } := by
  refine ⟨_, _, if_neg ?_⟩
  simp [hmask, hup]

/-- The vector's mask cleared, and its pending message taken from the PBA and sent. -/
theorem msixUnmask_of_pending {m : Mod} {v : Nat} (hv : v < 64) (hpend : pbaBit m v = true) :
    msixUnmask m v = msixSend (setPba (setReg m (msixEntry v + 12) 0) v false) v := by
  have hvec : (msixEntry v + 12 - 0x3F0000) / 16 = v := by unfold msixEntry; omega
  have hword : (msixEntry v + 12) % 16 = 12 := by unfold msixEntry; omega
  have hpba : pbaWord v ≠ msixEntry v + 12 := by unfold pbaWord msixEntry; omega
  have hpend' : pbaBit (setReg m (msixEntry v + 12) 0) v = true := by rwa [pbaBit, reg_setReg_ne _ _ hpba]
  rw [msixUnmask, msixWrite, hostWrite_full, hvec, hword]
  exact if_pos ⟨rfl, hpend'⟩

theorem msixUnmask_pending {m : Mod} {v : Nat} (hv : v < 64) (hpend : pbaBit m v = true) (hup : m.host.linkUp = true) :
    pbaBit (msixUnmask m v) v = false ∧ msixMasked (msixUnmask m v) v = false ∧
      ∃ a d, (msixUnmask m v).sent = .msix v a d :: m.sent := by
  rw [msixUnmask_of_pending hv hpend]
  set n := setPba (setReg m (msixEntry v + 12) 0) v false
  have hpba : msixEntry v + 12 ≠ pbaWord v := by unfold pbaWord msixEntry; omega
  have hmask : msixMasked n v = false := by
    have hctrl : reg n (msixEntry v + 12) = 0 := (reg_setReg_ne _ _ hpba).trans (reg_setReg_same ..)
    rw [msixMasked, hctrl]
    rfl
  obtain ⟨a, d, hsend⟩ := msixSend_unmasked (v := v) hmask hup
  rw [hsend]
  exact ⟨pbaBit_setPba_false .., hmask, a, d, rfl⟩

/-! ## Hold-offs (R538) -/

theorem ringHoldExpiry_quiet {m : Mod} {r : Nat} (hdue : Due m .ringHold r) (hpend : tabGet m.host.ringPend r = false) :
    tabGet (ringHoldExpiry m r).host.ringHold r = false ∧ (ringHoldExpiry m r).sent = m.sent := by
  have hquiet : tabGet (stopTimer m .ringHold r).host.ringPend r = false := hpend
  rw [ringHoldExpiry, expire_of_due hdue]
  simp only [hquiet, Bool.false_eq_true, if_false]
  exact ⟨tabGet_tabSet_same .., rfl⟩

/-- Settles O43, clause by clause of its words. -/
theorem registersReadAndWrite : Obligations.RegistersReadAndWrite := by
  intro s hp
  refine ⟨?_, ?_, ?_, ?_, ?_⟩
  · intro a v r halign hrow hup hreq hmsix hop hchan hoff hlow hgate
    refine ⟨(exec_registerWrite a v 15 s).trans (runS_powered _ hp), ?_⟩
    rw [hostRegWrite_plain halign hrow hup hreq hmsix hop hchan hgate]
    subst hoff
    set n := if r.guarded then closeGate s.m (srcOf r.off) else s.m with hn
    have hregs : n.regs = s.m.regs := by rw [hn]; split <;> rfl
    have hshadow : n.shadow = s.m.shadow := by rw [hn]; split <;> rfl
    refine ⟨fun hwo => ?_, fun hsh => ?_, fun hguard => ?_⟩
    · rw [reg_plainWrite n v hwo hlow, reg_congr hregs]
    · rw [shadowReg_plainWrite n v hsh, shadowReg, hshadow, shadowReg]
    · rw [gateOpen_congr (plainWrite_gates n v), hn, if_pos hguard, gateOpen_closeGate]
  · intro a r halign hrow hup hbox hrc hlow hrd
    refine ⟨(exec_clearOnReadRead a 15 s).trans (runM_powered _ hp), ?_⟩
    rw [hostRead_data halign (by simp [implemented, hrow]) hup hbox hrd]
    exact ⟨rfl, clearRc_clears hrow hrc hlow⟩
  · rintro p g v hp4 hpos hcount hg16 hpart hstandby hreferee rfl hgate hup
    refine ⟨(exec_settingsGroupRequest _ 15 s).trans ((runS_powered _ hp).trans (by rw [inRunning_up _ _ _ hup])), ?_⟩
    obtain ⟨hpf, hgf⟩ := sgrpReq_fields hp4 hg16
    rw [sgrpReq, guardedWrite_open _ _ _ hgate, hpf, hgf]
    obtain ⟨hreg, hkept, hreq, hgates⟩ :=
      groupRequest_accepted (m := closeGate s.m (srcOf Reg.PE_SGRP_REQ)) (p := p) hpos hcount hpart hstandby hreferee
    exact ⟨hreg, hkept, hreq, (gateOpen_congr hgates _).trans (gateOpen_closeGate ..)⟩
  · exact fun v hv hpend hup => ⟨(exec_msixVectorUnmask v s).trans (runM_powered _ hp), msixUnmask_pending hv hpend hup⟩
  · exact fun r hdue hpend => ⟨(exec_ringIntHoldoffExpiry r s).trans (runM_powered _ hp), ringHoldExpiry_quiet hdue hpend⟩

end Sys2Proof.Machine
end

section
/-!
SUPPORT. Slips and blocks of a subscription, and the timeout of power-quality events (R162, R172, R431): what each leaves.
-/
namespace Sys2Proof.Machine

/-! ## Slips (R162) -/

@[simp] theorem stream_modStream_same (m : Mod) (n : Nat) (f : SvStream → SvStream) : stream (modStream m n f) n = f (stream m n) :=
  tabGet_tabMod_same ..

theorem stream_congr {m n : Mod} (h : n.sv = m.sv) (k : Nat) : stream n k = stream m k := by rw [stream, h, stream]

theorem slipTaken_stream (m : Mod) (n : Nat) : stream (slipTaken m n) n = { stream m n with slip := none, deltas := [] } :=
  (stream_congr (m := modStream m n fun st => { st with slip := none, deltas := [] }) (by simp [slipTaken]) n).trans
    (stream_modStream_same ..)

/-- A slip whose tag the stream has come to: an inserted tag is passed over, a discard waits for its sample. -/
theorem svSlip_due {m : Mod} {n cnt : Nat} {k h : Int} {ins : Bool} (hslip : (stream m n).slip = some (k, ins))
    (hhigh : (stream m n).high = some (h, cnt)) (hk : k ≤ h + 1) :
    svSlip m n = modStream (slipTaken m n) n fun st =>
      if ins then { st with high := some (h + 1, cnt) } else { st with drop := some (h + 1) } := by
  simp only [svSlip, hslip, hhigh, if_pos hk]

/-! ## Blocks (R172) -/

theorem svBlock_taken {m : Mod} {v : Word} {c : SubCfg} (hstandby : m.mode.role ≠ .standby) (hreferee : m.mode.role ≠ .referee)
    (hc : subCfg m (v.toNat % 512) = some c) :
    svBlock m v = noteCopy (addBlock (setReg m Reg.SV_BLOCK (v &&& 0x800001FF)) (v.toNat % 512) c
      (tagAdd (latestTag m c.part) 8) (v.toNat.testBit 31))
      (.svBlock (v.toNat % 512) (tagAdd (latestTag m c.part) 8) (v.toNat.testBit 31)) := by
  simp only [svBlock, hstandby, hreferee, or_self, if_false, hc]

/-- Of the blocks kept, the latest is the one just added. -/
theorem addBlock_latest (m : Mod) (n : Nat) (c : SubCfg) (tag : Nat) (b : Bool) :
    (stream (addBlock m n c tag b) n).blocks.getLast? = some ((tagIndex m c.part tag : Int), b) := by
  rw [addBlock, stream_modStream_same]
  simp only [List.getLast?_drop, List.length_append, List.length_singleton, List.getLast?_append, List.getLast?_singleton, Option.some_or]
  exact if_neg (by omega)

/-! ## Timeout of an event (R431) -/

@[simp] theorem pqSt_modPq_same (m : Mod) (n : Nat) (f : PqSt → PqSt) : pqSt (modPq m n f) n = f (pqSt m n) := tabGet_tabMod_same ..

theorem pqSt_congr {m n : Mod} (h : n.mtr = m.mtr) (k : Nat) : pqSt n k = pqSt m k := by rw [pqSt, h, pqSt]

/-- No event of type `ty` is open. -/
def PqClosed (m : Mod) (pq ty : Nat) : Prop := tabGet (pqSt m pq).open_ ty = none

section
variable (m : Mod) (pq : Nat) (c : PqCfg) (type at_n : Nat) (o : PqOpen) (incomplete : Bool)

theorem pqFinish_open : (pqSt (pqFinish m pq c type at_n o incomplete) pq).open_ = tabSet (pqSt m pq).open_ type none := by
  unfold pqFinish
  extract_lets dur m1 e
  rw [pqSt_congr (m := m1) (by simp), pqSt_modPq_same]

theorem pqFinish_closes : PqClosed (pqFinish m pq c type at_n o incomplete) pq type := by
  rw [PqClosed, pqFinish_open, tabGet_tabSet_same]

theorem pqFinish_keeps_closed {ty : Nat} (h : PqClosed m pq ty) : PqClosed (pqFinish m pq c type at_n o incomplete) pq ty := by
  by_cases he : ty = type
  · exact he ▸ pqFinish_closes ..
  · rw [PqClosed, pqFinish_open, tabGet_tabSet_ne _ _ he]
    exact h

end

/-- An event of one type, if one is open, ends as incomplete. -/
def pqEndOpen (pq : Nat) (c : PqCfg) (m : Mod) (type : Nat) : Mod :=
  match tabGet (pqSt m pq).open_ type with
  | some o => pqFinish m pq c type (max o.startN (pqSt m pq).lastN) o true
  | none => m

theorem pqIncomplete_eq (m : Mod) (pq : Nat) (c : PqCfg) :
    pqIncomplete m pq c = stopTimer ([1, 2, 3].foldl (pqEndOpen pq c) m) .pqEvent pq := rfl

theorem pqEndOpen_closes (pq : Nat) (c : PqCfg) (m : Mod) (type : Nat) : PqClosed (pqEndOpen pq c m type) pq type := by
  unfold pqEndOpen
  split
  · exact pqFinish_closes ..
  · assumption

theorem pqEndOpen_keeps_closed {pq : Nat} {c : PqCfg} {m : Mod} {ty : Nat} (h : PqClosed m pq ty) (type : Nat) :
    PqClosed (pqEndOpen pq c m type) pq ty := by
  unfold pqEndOpen
  split
  · exact pqFinish_keeps_closed _ _ _ _ _ _ _ h
  · exact h

theorem foldl_pqEndOpen_closes {l : List Nat} {ty : Nat} (hty : ty ∈ l) (pq : Nat) (c : PqCfg) (m : Mod) :
    PqClosed (l.foldl (pqEndOpen pq c) m) pq ty := by
  induction l generalizing m with
  | nil => cases hty
  | cons t l ih =>
    rcases List.mem_cons.1 hty with rfl | hty
    · exact List.foldlRecOn l _ (motive := fun n => PqClosed n pq ty) (pqEndOpen_closes ..) fun n hn t _ => pqEndOpen_keeps_closed hn t
    · exact ih hty _

theorem pqIncomplete_closes {ty : Nat} (hty : ty ∈ [1, 2, 3]) (pq : Nat) (c : PqCfg) (m : Mod) : PqClosed (pqIncomplete m pq c) pq ty :=
  foldl_pqEndOpen_closes hty pq c m

theorem pqTimeout_due {m : Mod} {pq : Nat} {c : PqCfg} (hdue : Due m .pqEvent pq) (hc : (mtrCfg m).pqs.lookup pq = some c) :
    pqTimeout m pq = pqIncomplete (stopTimer m .pqEvent pq) pq c := by
  rw [pqTimeout, expire_of_due hdue]
  have hcfg : (mtrCfg (stopTimer m .pqEvent pq)).pqs.lookup pq = some c := hc
  simp only [hcfg]

end Sys2Proof.Machine
end

section
/-!
SUPPORT. Recording and power quality take what the filter array gives (R366, R372, R429): they leave the SV parser and the array.
-/
namespace Sys2Proof.Machine

/-! ## Rows of the capture ring -/

@[simp] theorem ringTrim_sv (n : Nat) (m : Mod) : (ringTrim n m).sv = m.sv := by
  induction n generalizing m with
  | zero => rfl
  | succ n ih =>
    unfold ringTrim
    split
    · rfl
    · split
      · rfl
      · exact ih _

@[simp] theorem ringPut_sv (m : Mod) (x : CapRow) : (ringPut m x).sv = m.sv := ringTrim_sv ..

@[simp] theorem capture_sv (m : Mod) (x : CapRow) (allBad isStream : Bool) (instant : Int → Nat) :
    (capture m x allBad isStream instant).sv = m.sv := by
  unfold capture
  extract_lets s m1 run m2
  have h1 : m1.sv = m.sv := by
    unfold m1
    split
    · split
      · exact ringPut_sv ..
      · rfl
    · rfl
  split
  · exact (ringPut_sv ..).trans h1
  · split
    · exact (ringPut_sv ..).trans h1
    · exact h1

/-! ## Triggers -/

@[simp] theorem recClose_sv (m : Mod) (r : RecFile) (reason : Nat) : (recClose m r reason).sv = m.sv := by
  unfold recClose closeFile
  dsimp only
  split <;> split <;> simp

@[simp] theorem closeIfDue_sv (m : Mod) (d : Nat) : (closeIfDue m d).sv = m.sv := by
  unfold closeIfDue
  split
  · rfl
  · rw [apply_ite Mod.sv, recClose_sv, ite_self]

@[simp] theorem countHold_sv (m : Mod) (d : Nat) : (countHold m d).sv = m.sv := by
  unfold countHold
  dsimp only
  split <;> simp

@[simp] theorem listTrigger_sv (m : Mod) (d : Nat) (r : RecFile) (t : Trigger) : (listTrigger m d r t).sv = m.sv := by
  unfold listTrigger
  dsimp only
  split
  · split <;> simp
  · simp

@[simp] theorem recOpen_sv (m : Mod) (d : Nat) (c : RecDef) (t : Trigger) : (recOpen m d c t).sv = m.sv := by
  simp [recOpen]

@[simp] theorem rearm_sv (m : Mod) (d : Nat) : (rearm m d).sv = m.sv := rfl

@[simp] theorem trigger_sv (m : Mod) (d : Nat) (t : Trigger) : (trigger m d t).sv = m.sv := by
  unfold trigger
  extract_lets m1 s m2
  have h1 : m1.sv = m.sv := closeIfDue_sv m d
  have h2 : m2.sv = m.sv := (countHold_sv ..).trans h1
  split
  · exact (countHold_sv ..).trans h1
  · split
    · extract_lets m2 m3
      have h2 : m2.sv = m.sv := (listTrigger_sv ..).trans h1
      have h3 : m3.sv = m.sv := by
        unfold m3
        split <;> exact h2
      split <;> exact h3
    · split
      · exact (countHold_sv ..).trans h1
      · split
        · split
          · exact (rearm_sv ..).trans h2
          · exact h2
        · exact (recOpen_sv ..).trans h1

@[simp] theorem levelEval_sv (m : Mod) (n : Nat) (c : LvlCfg) (rate : Nat) (ix : Int) (v : Nat) : (levelEval m n c rate ix v).sv = m.sv := by
  unfold levelEval
  extract_lets s w beyond back put
  split
  · exact foldl_keep Mod.sv _ (fun n d => by split <;> simp) _ _
  · split <;> rfl

@[simp] theorem recSample_sv (m : Mod) (x : LaneSample) (fresh : List Nat) : (recSample m x fresh).sv = m.sv := by
  unfold recSample
  split
  · rfl
  · split
    · rfl
    · extract_lets chans val vs inst m1
      have h1 : m1.sv = m.sv := by
        unfold m1
        split
        · rfl
        · exact capture_sv ..
      refine (foldl_keep Mod.sv _ (fun n l => ?_) _ m1).trans h1
      dsimp only
      (repeat' split) <;> simp

/-! ## Power quality -/

@[simp] theorem pqFinish_sv (m : Mod) (pq : Nat) (c : PqCfg) (type at_n : Nat) (o : PqOpen) (incomplete : Bool) :
    (pqFinish m pq c type at_n o incomplete).sv = m.sv := by
  simp [pqFinish]

@[simp] theorem pqRefresh_sv (m : Mod) (pq : Nat) (c : PqCfg) (t : Nat) : (pqRefresh m pq c t).sv = m.sv := by
  unfold pqRefresh
  extract_lets all ok us n mark flag open0 m1 m2 m3 m4
  have hflag (n : Mod) : (flag n).sv = n.sv := foldl_keep Mod.sv _ (fun n ty => by split <;> rfl) _ n
  have h3 : m3.sv = m.sv := by
    refine (foldl_keep Mod.sv _ (fun n ty => ?_) _ m2).trans (hflag m)
    split
    · simp
    · rfl
  have h4 : m4.sv = m.sv := by
    refine (foldl_keep Mod.sv _ (fun n ty => ?_) _ m3).trans h3
    split
    · split
      · exact pqFinish_sv ..
      · rfl
    · rfl
  split
  · split <;> exact hflag m
  · exact h4

@[simp] theorem pqSample_sv (m : Mod) (x : LaneSample) (fresh : List Nat) : (pqSample m x fresh).sv = m.sv := by
  unfold pqSample
  split
  · rfl
  · split
    · rfl
    · extract_lets t
      refine foldl_keep Mod.sv _ (fun n g => ?_) _ m
      extract_lets mine m1
      split
      · rfl
      · split
        · exact (pqRefresh_sv ..).trans rfl
        · rfl

end Sys2Proof.Machine
end

section
/-!
SUPPORT. One sample of the filter array (R173 to R183): its lane's count and its channels' histories grow, and what the array then
emits leaves them.
-/
namespace Sys2Proof.Machine

/-- Two modules agree on the lanes, on their counts and on the channels' histories. -/
abbrev SameFilter (n m : Mod) : Prop := n.sv.lanes = m.sv.lanes ∧ n.sv.laneSt = m.sv.laneSt ∧ n.sv.chans = m.sv.chans

theorem SameFilter.of_sv {n m : Mod} (h : n.sv = m.sv) : SameFilter n m := by rw [SameFilter, h]; exact ⟨rfl, rfl, rfl⟩

theorem SameFilter.trans {a b c : Mod} (h : SameFilter a b) (k : SameFilter b c) : SameFilter a c :=
  ⟨h.1.trans k.1, h.2.1.trans k.2.1, h.2.2.trans k.2.2⟩

theorem foldl_filter {α : Type} {f : Mod → α → Mod} (h : ∀ m x, SameFilter (f m x) m) (l : List α) (m : Mod) :
    SameFilter (l.foldl f m) m :=
  List.foldlRecOn l f (motive := fun n => SameFilter n m) (.of_sv rfl) fun n hn x _ => (h n x).trans hn

/-! ## Tokens and reports -/

@[simp] theorem filterTok_sv (m : Mod) (g s : Nat) (r : Option (Nat × Nat)) (tag : Nat) (v : Val) (q : Qual) (etag : Option Nat) :
    (filterTok m g s r tag v q etag).sv = m.sv := by
  unfold filterTok
  split <;> rfl

@[simp] theorem phasorTok_sv (m : Mod) (g s : Nat) (r : Option (Nat × Nat)) (tag : Nat) (z : Cpx) (q : Qual) :
    (phasorTok m g s r tag z q).sv = m.sv := filterTok_sv ..

@[simp] theorem reportDelays_sv (m : Mod) (ch : ChanCfg) (pal e : Nat) : (reportDelays m ch pal e).sv = m.sv := by
  unfold reportDelays
  dsimp only
  split
  · simp
  · rfl

theorem reportPart_filter (m : Mod) (p tag : Nat) : SameFilter (reportPart m p tag) m := by
  unfold reportPart
  split
  · exact .of_sv rfl
  · exact (foldl_filter (fun n ch => .of_sv (reportDelays_sv ..)) _ _).trans ⟨rfl, rfl, rfl⟩

@[simp] theorem chanEmit_sv (m : Mod) (n : Nat) (ch : ChanCfg) (rate age tag : Nat) (lost : Bool) :
    (chanEmit m n ch rate age tag lost).sv = m.sv := by
  unfold chanEmit
  split
  · rfl
  · extract_lets st gs nh m1 f m2
    have h1 : m1.sv = m.sv := by
      unfold m1
      split
      · rfl
      · exact phasorTok_sv ..
    have h2 : m2.sv = m.sv := by
      unfold m2
      split
      · exact h1
      · exact (phasorTok_sv ..).trans h1
    exact (filterTok_sv ..).trans h2

theorem emitFreq_filter (m : Mod) (gn : Nat) (g : GroupCfg) (first : ChanCfg) (rate tag : Nat) (p : Cpx) (q : Qual) :
    SameFilter (emitFreq m gn g first rate tag p q) m := by
  unfold emitFreq
  exact SameFilter.trans (.of_sv ((filterTok_sv ..).trans (filterTok_sv ..))) ⟨rfl, rfl, rfl⟩

theorem groupEmit_filter (m : Mod) (gn rate age tag : Nat) (lost : Bool) : SameFilter (groupEmit m gn rate age tag lost) m := by
  unfold groupEmit
  split
  · split
    · exact .of_sv rfl
    · exact emitFreq_filter ..
  · exact .of_sv rfl

theorem settleSwitch_filter (m : Mod) (g : Nat) : SameFilter (settleSwitch m g) m := by
  unfold settleSwitch
  split
  · split <;> exact ⟨rfl, rfl, rfl⟩
  · exact .of_sv rfl

/-! ## One channel -/

section
variable (m : Mod) (n : Nat) (ch : ChanCfg) (rate age cnt : Nat) (x : LaneSample)

/-- A channel that takes a sample changes nothing but the channels. -/
theorem chanTake_frame : (chanTake m n ch rate age cnt x).1.parts = m.parts ∧
    (chanTake m n ch rate age cnt x).1.sv.lanes = m.sv.lanes ∧ (chanTake m n ch rate age cnt x).1.sv.laneSt = m.sv.laneSt := by
  unfold chanTake
  split
  · exact ⟨rfl, rfl, rfl⟩
  · dsimp only
    split <;> exact ⟨rfl, rfl, rfl⟩

theorem chanTake_other {j : Nat} (h : j ≠ n) : tabGet (chanTake m n ch rate age cnt x).1.sv.chans j = tabGet m.sv.chans j := by
  unfold chanTake
  split
  · rfl
  · dsimp only
    split <;> exact tabGet_tabSet_ne _ _ h

theorem chanTake_hist {g : GroupCfg} (hg : groupCfg m ch.group = some g) :
    (tabGet (chanTake m n ch rate age cnt x).1.sv.chans n).hist =
      (x.vals.getD ch.idx (0, 1) :: (tabGet m.sv.chans n).hist).take (histLen g rate) := by
  unfold chanTake
  simp only [hg]
  split <;> exact congrArg ChanSt.hist (tabGet_tabSet_same ..)

end

/-! ## The channels of a subscription -/

theorem groupCfg_congr {n m : Mod} (h : n.parts = m.parts) (g : Nat) : groupCfg n g = groupCfg m g := by
  simp only [groupCfg, imageOf, partOf_congr h]

section
variable (rate age cnt : Nat) (x : LaneSample)

/-- The next channel takes the sample; the channels whose RMS it refreshed are noted. -/
def takeNext (a : Mod × List Nat) (ch : Nat × ChanCfg) : Mod × List Nat :=
  ((chanTake a.1 ch.1 ch.2 rate age cnt x).1, if (chanTake a.1 ch.1 ch.2 rate age cnt x).2 then a.2 ++ [ch.1] else a.2)

theorem foldl_takeNext_frame (l : List (Nat × ChanCfg)) (a : Mod × List Nat) :
    (l.foldl (takeNext rate age cnt x) a).1.parts = a.1.parts ∧ (l.foldl (takeNext rate age cnt x) a).1.sv.lanes = a.1.sv.lanes ∧
      (l.foldl (takeNext rate age cnt x) a).1.sv.laneSt = a.1.sv.laneSt :=
  have keeps {γ : Type} (f : Mod → γ) (h : ∀ m n ch, f (chanTake m n ch rate age cnt x).1 = f m) :
      f (l.foldl (takeNext rate age cnt x) a).1 = f a.1 :=
    foldl_keep (fun a => f a.1) _ (fun a ch => h a.1 ch.1 ch.2) l a
  ⟨keeps Mod.parts fun m n ch => (chanTake_frame m n ch ..).1, keeps (·.sv.lanes) fun m n ch => (chanTake_frame m n ch ..).2.1,
    keeps (·.sv.laneSt) fun m n ch => (chanTake_frame m n ch ..).2.2⟩

theorem foldl_takeNext_other {l : List (Nat × ChanCfg)} {j : Nat} (h : j ∉ l.map (·.1)) (a : Mod × List Nat) :
    tabGet (l.foldl (takeNext rate age cnt x) a).1.sv.chans j = tabGet a.1.sv.chans j := by
  induction l generalizing a with
  | nil => rfl
  | cons ch l ih =>
    obtain ⟨hne, hrest⟩ := not_or.1 (List.mem_cons.not.1 h)
    exact (ih hrest _).trans (chanTake_other _ _ _ _ _ _ _ hne)

/-- Each channel of a list in which it stands once has the sample at the head of its history. -/
theorem foldl_takeNext_hist {l : List (Nat × ChanCfg)} (hl : (l.map (·.1)).Nodup) {n : Nat} {ch : ChanCfg} (hmem : (n, ch) ∈ l)
    {g : GroupCfg} (a : Mod × List Nat) (hg : groupCfg a.1 ch.group = some g) :
    (tabGet (l.foldl (takeNext rate age cnt x) a).1.sv.chans n).hist =
      (x.vals.getD ch.idx (0, 1) :: (tabGet a.1.sv.chans n).hist).take (histLen g rate) := by
  induction l generalizing a with
  | nil => cases hmem
  | cons c l ih =>
    obtain ⟨hout, hrest⟩ := List.nodup_cons.1 hl
    rcases List.mem_cons.1 hmem with rfl | hmem
    · rw [List.foldl_cons, foldl_takeNext_other _ _ _ _ hout]
      exact chanTake_hist _ _ _ _ _ _ _ hg
    · have hne : n ≠ c.1 := fun h => hout (List.mem_map.2 ⟨_, hmem, h⟩)
      have hcfg : groupCfg (takeNext rate age cnt x a c).1 ch.group = some g :=
        (groupCfg_congr (chanTake_frame ..).1 _).trans hg
      rw [List.foldl_cons, ih hrest hmem _ hcfg]
      rw [takeNext, chanTake_other _ _ _ _ _ _ _ hne]

end

/-! ## The sample -/

/-- Samples of a stream since its start or its latest discontinuity, with this one. -/
def sampleAge (m : Mod) (x : LaneSample) : Nat := if x.disc then 1 else (tabGet m.sv.laneSt x.sub).age + 1

/-- The count of sample `x` within its second. -/
def sampleCount (m : Mod) (x : LaneSample) (rate : Nat) : Nat := match x.cnt with
  | some n => n
  | none => if x.disc || (tabGet m.sv.laneSt x.sub).age == 0 then 0 else ((tabGet m.sv.laneSt x.sub).cnt + 1) % rate

/-- Sample `x` leaves the lanes and counts in its own, before a channel takes it. -/
def laneCounted (m : Mod) (x : LaneSample) (rate : Nat) : Mod :=
  { m with sv := { m.sv with
      lanes := m.sv.lanes.erase x
      laneSt := tabSet m.sv.laneSt x.sub { age := sampleAge m x, cnt := sampleCount m x rate } } }

/-- Every channel of the stream has taken sample `x`; with the channels whose RMS it refreshed. -/
def sampleTaken (m : Mod) (x : LaneSample) (rate : Nat) : Mod × List Nat :=
  (subChans m x.sub).foldl (takeNext rate (sampleAge m x) (sampleCount m x rate) x) (laneCounted m x rate, [])

/-- What the array gives at a master tag (R181, R183, R189). -/
def tagGiven (chans : List (Nat × ChanCfg)) (x : LaneSample) (c : SubCfg) (age : Nat) (m : Mod) (tag : Nat) : Mod :=
  let m := if isLive m c.part then reportPart m c.part tag else m
  let gs := subGroups m x.sub
  let m := if isLive m c.part then
      let m := chans.foldl (fun m ch => chanEmit m ch.1 ch.2 c.rate age tag x.lost) m
      gs.foldl (fun m g => groupEmit m g (masterRate m c.part) age tag x.lost) m
    else m
  gs.foldl settleSwitch m

theorem tagGiven_filter (chans : List (Nat × ChanCfg)) (x : LaneSample) (c : SubCfg) (age : Nat) (m : Mod) (tag : Nat) :
    SameFilter (tagGiven chans x c age m tag) m := by
  unfold tagGiven
  extract_lets m1 gs m2 m3
  have h1 : SameFilter m1 m := by
    unfold m1
    split
    · exact reportPart_filter ..
    · exact .of_sv rfl
  have h3 : SameFilter m3 m := by
    unfold m3
    split
    · exact (foldl_filter (fun n g => groupEmit_filter n g ..) gs m2).trans
        ((foldl_filter (fun n ch => .of_sv (chanEmit_sv n ch.1 ch.2 ..)) chans m1).trans h1)
    · exact h1
  exact (foldl_filter settleSwitch_filter gs m3).trans h3

/-- The oldest sample whose lane is not stopped is taken, and at a master tag the array gives its outputs. -/
theorem filterSample_eq {m : Mod} {x : LaneSample} {c : SubCfg} (hx : m.sv.lanes.find? (fun x => !laneHeld m x.sub) = some x)
    (hc : subCfg m x.sub = some c) :
    filterSample m = (x.tag.elim (sampleTaken m x c.rate).1
      (tagGiven (subChans m x.sub) x c (sampleAge m x) (sampleTaken m x c.rate).1), some x, (sampleTaken m x c.rate).2) := by
  have hc' : subCfg { m with sv := { m.sv with lanes := m.sv.lanes.erase x } } x.sub = some c := hc
  unfold filterSample
  rw [hx]
  dsimp only
  rw [hc']
  cases x.tag <;> rfl

/-- Recording, power quality and the outputs of the array leave what the sample left in its lane and in the channels. -/
theorem laneSample_taken {m : Mod} {x : LaneSample} {c : SubCfg}
    (hx : (fltPoint m).sv.lanes.find? (fun x => !laneHeld (fltPoint m) x.sub) = some x) (hc : subCfg (fltPoint m) x.sub = some c) :
    SameFilter (laneSample m) (sampleTaken (fltPoint m) x c.rate).1 := by
  have hgiven (chans : List (Nat × ChanCfg)) (age : Nat) (n : Mod) : SameFilter (x.tag.elim n (tagGiven chans x c age n)) n := by
    cases x.tag with
    | none => exact .of_sv rfl
    | some tag => exact tagGiven_filter ..
  unfold laneSample
  rw [filterSample_eq hx hc]
  exact SameFilter.trans (.of_sv ((pqSample_sv ..).trans (recSample_sv ..))) (hgiven ..)

theorem sampleTaken_lane (m : Mod) (x : LaneSample) (rate : Nat) :
    (sampleTaken m x rate).1.sv.lanes = m.sv.lanes.erase x ∧
      (tabGet (sampleTaken m x rate).1.sv.laneSt x.sub).age = sampleAge m x := by
  obtain ⟨-, hlanes, hlaneSt⟩ := foldl_takeNext_frame rate (sampleAge m x) (sampleCount m x rate) x (subChans m x.sub)
    (laneCounted m x rate, [])
  refine ⟨hlanes, ?_⟩
  rw [sampleTaken, hlaneSt]
  exact congrArg LaneSt.age (tabGet_tabSet_same ..)

theorem sampleTaken_hist {m : Mod} {x : LaneSample} (rate : Nat) (hchans : ((subChans m x.sub).map (·.1)).Nodup) {n : Nat} {ch : ChanCfg}
    (hmem : (n, ch) ∈ subChans m x.sub) {g : GroupCfg} (hg : groupCfg m ch.group = some g) :
    (tabGet (sampleTaken m x rate).1.sv.chans n).hist =
      (x.vals.getD ch.idx (0, 1) :: (tabGet m.sv.chans n).hist).take (histLen g rate) :=
  foldl_takeNext_hist _ _ _ _ hchans hmem (laneCounted m x rate, []) hg

end Sys2Proof.Machine
end

section
/-!
SUPPORT. The switch of a Palette (R187, R189, R190): its start and the end of its fade.
-/
namespace Sys2Proof.Machine

theorem palSwitchStart_head {m : Mod} {g pal : Nat} {rest : List Nat} (hqueue : m.sv.queue = g :: rest)
    (hfade : (groupSt m g).fade = none) (hpend : (groupSt m g).pending = some pal) :
    (palSwitchStart m).sv = (beginSwitch m g pal (tagAdd (latestTag m (groupPart m g)) 8)).sv := by
  simp only [palSwitchStart, hqueue, hfade, hpend]
  rfl

/-- The reports of a delay that changes are tokens: of the SV parser and the array only the group changes. -/
theorem beginSwitch_sv {m : Mod} {g : Nat} {c : GroupCfg} (hc : groupCfg m g = some c) (pal e : Nat) :
    (beginSwitch m g pal e).sv = (modGroup m g fun st => { st with pending := none, fade := some ⟨e, pal,
      decide (0 < c.xf) && (palOf c (groupSt m g).active).delay == (palOf c pal).delay⟩ }).sv := by
  simp only [beginSwitch, hc]
  split
  · rfl
  · exact foldl_keep Mod.sv _ (fun n ch => reportDelays_sv ..) _ _

/-- After the fade's tags the request has left the queue and the new Palette is the group's active one. -/
theorem palFadeEnd_passed {m : Mod} {g : Nat} {f : FadeSt} {c : GroupCfg} (hf : (groupSt m g).fade = some f)
    (hc : groupCfg m g = some c) (hfade : f.fade = true) (hpassed : groupPassed m g (tagAdd f.etag c.xf) = true) :
    (palFadeEnd m g).sv.queue = m.sv.queue.erase g ∧
      groupSt (palFadeEnd m g) g = { groupSt m g with active := f.pal, fade := none } := by
  simp only [palFadeEnd, hf, hc, hfade, hpassed, Bool.and_self, if_true]
  exact ⟨rfl, groupSt_modGroup_same m g fun st => { st with active := f.pal, fade := none }⟩

/-- Settles O48, clause by clause of its words. -/
theorem slipsBlocksLanesAndPalettes : Obligations.SlipsBlocksLanesAndPalettes := by
  refine ⟨fun s hp => ⟨?_, ?_, ?_⟩, fun s hp => ⟨?_, ?_, ?_⟩⟩
  · intro sb k h ins cnt hslip hhigh hk
    refine ⟨(exec_svSlip sb s).trans (runS_powered _ hp), ?_⟩
    beta_reduce
    rw [svSlip_due hslip hhigh hk, stream_modStream_same, slipTaken_stream]
    refine ⟨?_, Bit_setFault (by decide) (by decide), ?_, ?_⟩
    · split <;> rfl
    · rintro rfl
      rfl
    · rintro rfl
      exact ⟨hhigh, rfl⟩
  · intro v c hup hgate hstandby hreferee hc
    refine ⟨(exec_svBlock v 15 s).trans ((runS_powered _ hp).trans (by rw [inRunning_up _ _ _ hup])), ?_⟩
    rw [svBlockWrite, guardedWrite_open _ _ _ hgate, svBlock_taken (m := closeGate s.m (srcOf Reg.SV_BLOCK)) hstandby hreferee hc]
    exact ⟨reg_setReg_same .., gateOpen_closeGate .., addBlock_latest ..⟩
  · intro pq c ty o hdue hc hty _
    refine ⟨(exec_pqEventTimeout pq s).trans (runM_powered _ hp), ?_⟩
    rw [pqTimeout_due hdue hc]
    exact ⟨pqIncomplete_closes hty .., timerDue_stopTimer ..⟩
  · rintro m x c rfl hx hc
    obtain ⟨hlanes, hlaneSt, hchans⟩ := laneSample_taken hx hc
    obtain ⟨htaken, hage⟩ := sampleTaken_lane (fltPoint s.m) x c.rate
    refine ⟨(exec_filterLaneSample s).trans (runS_powered _ hp), hlanes.trans htaken, ?_, fun hnodup n ch g hmem hg => ?_⟩
    · rw [hlaneSt]
      exact hage
    · rw [hchans]
      exact sampleTaken_hist c.rate hnodup hmem hg
  · intro g rest c pal hqueue hfade hpend hc
    refine ⟨(exec_paletteSwitchStart s).trans (runS_powered _ hp), ?_⟩
    have hsv := (palSwitchStart_head hqueue hfade hpend).trans (beginSwitch_sv hc pal _)
    beta_reduce
    rw [groupSt_congr hsv, groupSt_modGroup_same, hsv]
    exact ⟨hqueue, rfl, rfl, rfl⟩
  · intro g f c hf hc hfade hpassed
    refine ⟨(exec_paletteFadeEnd g s).trans (runS_powered _ hp), ?_⟩
    obtain ⟨hqueue, hgroup⟩ := palFadeEnd_passed hf hc hfade hpassed
    rw [hgroup]
    exact ⟨rfl, rfl, hqueue⟩

end Sys2Proof.Machine
end

section
/-!
SUPPORT. An accepted PMU data frame (R200 to R213): what it notes of its input, and that storing its members leaves the inputs, the timers
and the parser buffers.
-/
namespace Sys2Proof.Machine

/-! ## Storing members (R207, R213) -/

/-- Two modules agree on the inputs of the Basin, on the timers and on the parser buffers of the ports. -/
structure SameInputs (n m : Mod) : Prop where
  ins : n.bsn.ins = m.bsn.ins
  timers : n.timers = m.timers
  parser : ∀ p, (netPort n p).parser = (netPort m p).parser

theorem SameInputs.of_eq {n m : Mod} (hbsn : n.bsn = m.bsn) (htimers : n.timers = m.timers) (hnet : n.net = m.net) : SameInputs n m :=
  ⟨by rw [hbsn], htimers, fun p => by rw [netPort_congr hnet]⟩

theorem SameInputs.refl (m : Mod) : SameInputs m m := .of_eq rfl rfl rfl

theorem SameInputs.trans {a b c : Mod} (h : SameInputs a b) (k : SameInputs b c) : SameInputs a c :=
  ⟨h.ins.trans k.ins, h.timers.trans k.timers, fun p => (h.parser p).trans (k.parser p)⟩

theorem setFault_inputs (m : Mod) (off bit obj : Nat) (vals : List Nat) : SameInputs (setFault m off bit obj vals) m :=
  .of_eq (by simp) (by simp) (by simp)

theorem bump_inputs (m : Mod) (off : Nat) : SameInputs (bump m off) m := .of_eq (by simp) (by simp) (by simp)

theorem bumpO_inputs (m : Mod) (off obj : Nat) : SameInputs (bumpO m off obj) m := .of_eq (by simp) (by simp) (by simp)

theorem bsnAnomaly_inputs (m : Mod) (bit n : Nat) : SameInputs (bsnAnomaly m bit n) m := by
  unfold bsnAnomaly
  split
  · exact .of_eq (by simp) (by simp) (by simp)
  · exact .refl m

theorem queueModule_inputs (m : Mod) (p q : Nat) (it : QItem) : SameInputs (queueModule m p q it) m := by
  unfold queueModule
  split
  · refine ⟨rfl, rfl, fun j => ?_⟩
    by_cases h : j = p
    · subst h
      rw [queuePut, netPort_modPort_same]
    · rw [queuePut, netPort, modPort, tabGet_tabMod_ne _ _ h, netPort]
  · exact (setFault_inputs ..).trans (bump_inputs ..)

theorem sendUdp_inputs (m : Mod) (mask q dstIp sport dport : Nat) (tags : List (Nat × Nat)) (body : UdpBody) :
    SameInputs (sendUdp m mask q dstIp sport dport tags body) m :=
  sendUdp_keeps (P := fun n => SameInputs n m)
    (fun _ _ _ _ _ _ hn => sendFrame_keeps (P := fun n => SameInputs n m) (fun _ _ _ _ _ h => (queueModule_inputs ..).trans h)
      (fun _ _ h => ⟨h.ins, h.timers, h.parser⟩) hn ..)
    (fun _ _ hn => (setFault_inputs ..).trans ((bump_inputs ..).trans hn)) (.refl m) ..

theorem sendSupplement_inputs (m : Mod) (o : Nat) (c : OutCfg) (s : BsnSet) : SameInputs (sendSupplement m o c s) m := by
  unfold sendSupplement
  extract_lets late ms
  split
  · exact .refl m
  · exact (bumpO_inputs ..).trans (sendUdp_inputs ..)

/-- A member stored for one output, or refused by it, changes outputs only. -/
theorem storeOut_inputs (m : Mod) (o : Nat) (c : OutCfg) (i : Nat) (k : Int) (x : Member) : SameInputs (storeOut m o c i k x).1 m := by
  unfold storeOut
  extract_lets n st now s decided s'
  have hprune : SameInputs n m := ⟨rfl, rfl, fun _ => rfl⟩
  refine SameInputs.trans ?_ hprune
  have hput (y : BsnSet) : SameInputs (modOut n o fun st => putSet st y) n := ⟨rfl, rfl, fun _ => rfl⟩
  have hdup (y : Member) : SameInputs (if y.blocks = x.blocks then n else setFault n Reg.BSN_FAULT 3 o) n := by
    split
    · exact .refl n
    · exact setFault_inputs ..
  split
  · exact .refl n
  split
  · exact .refl n
  split
  · exact hdup _
  · exact hdup _
  · split
    · split
      · exact (sendSupplement_inputs ..).trans (hput s')
      · exact bumpO_inputs ..
    split
    · exact (setFault_inputs ..).trans (bumpO_inputs ..)
    · exact hput _

/-- A frame's member stored for one output, with the cases met before it. -/
def storeNext (c : InCfg) (ix : Int) (x : Member) (r : Mod × List StoreCase) (o : Nat × OutCfg × Nat) : Mod × List StoreCase :=
  let d : Int := (c.rate / max 1 o.2.1.rate : Nat)
  if d = 0 ∨ ix % d ≠ 0 then r
  else
    let (m, k) := storeOut r.1 o.1 o.2.1 o.2.2 (ix / d) x
    (m, k :: r.2)

theorem storeNext_inputs (c : InCfg) (ix : Int) (x : Member) (r : Mod × List StoreCase) (o : Nat × OutCfg × Nat) :
    SameInputs (storeNext c ix x r o).1 r.1 := by
  unfold storeNext
  extract_lets d
  split
  · exact .refl _
  · have hstored := storeOut_inputs r.1 o.1 o.2.1 o.2.2 (ix / d) x
    split
    rename_i u k hu
    rwa [hu] at hstored

theorem foldl_storeNext_inputs (c : InCfg) (ix : Int) (x : Member) (l : List (Nat × OutCfg × Nat)) (r : Mod × List StoreCase) :
    SameInputs (l.foldl (storeNext c ix x) r).1 r.1 :=
  List.foldlRecOn l _ (motive := fun q => SameInputs q.1 r.1) (.refl _) fun q hq o _ => (storeNext_inputs c ix x q o).trans hq

/-- A case of a frame that a counter of its input counts. -/
theorem ite_bumpO_inputs (b : Bool) (m : Mod) (off n : Nat) : SameInputs (if b then bumpO m off n else m) m := by
  split
  · exact bumpO_inputs ..
  · exact .refl m

/-- A case of a frame that a counter of its input and an event note. -/
theorem ite_bsnAnomaly_inputs (b : Bool) (m : Mod) (off bit n : Nat) :
    SameInputs (if b then bsnAnomaly (bumpO m off n) bit n else m) m := by
  split
  · exact (bsnAnomaly_inputs ..).trans (bumpO_inputs ..)
  · exact .refl m

theorem storeMember_inputs (m : Mod) (n : Nat) (c : InCfg) (ix : Int) (x : Member) : SameInputs (storeMember m n c ix x) m := by
  have hstored := foldl_storeNext_inputs c ix x (outsOf m n) (m, [])
  unfold storeMember
  split
  rename_i u cases hu
  rw [show (outsOf m n).foldl (storeNext c ix x) (m, []) = (u, cases) from hu] at hstored
  extract_lets m1 m2 m3
  have h1 : SameInputs m1 u := ite_bumpO_inputs ..
  have h2 : SameInputs m2 m1 := ite_bsnAnomaly_inputs ..
  have h3 : SameInputs m3 m2 := ite_bsnAnomaly_inputs ..
  exact (ite_bsnAnomaly_inputs ..).trans (h3.trans (h2.trans (h1.trans hstored)))

/-! ## An accepted frame (R203, R204, R207, R208) -/

@[simp] theorem bsnIn_modIn_same (m : Mod) (n : Nat) (f : BsnIn → BsnIn) : bsnIn (modIn m n f) n = f (bsnIn m n) :=
  tabGet_tabMod_same ..

theorem bsnIn_congr {m u : Mod} (h : u.bsn.ins = m.bsn.ins) (n : Nat) : bsnIn u n = bsnIn m n := by rw [bsnIn, h, bsnIn]

/-- The timebase of a frame's fraction of a second (R203). -/
def frameBase (c : InCfg) (f : PmuFrame) : Nat := if f.v905 then 1000000000 else max 1 c.cfg.timeBase

/-- A data frame that none of the cases malformed, mismatch and off-grid discards (R207). -/
def FrameAccepted (m : Mod) (n : Nat) (c : InCfg) (f : PmuFrame) (t : Int) : Prop :=
  f.kind = .data ∧ pmuFits c f = true ∧ (bsnIn m n).mis = false ∧
    (gridIndex c.rate (socToTai m c f (frameBase c f) t).1 f.fracsec (frameBase c f)).isSome = true

/-- The input shows the frame, and its lost timer of 1 s runs from `m`'s instant. -/
def FrameTaken (m u : Mod) (n : Nat) (f : PmuFrame) : Prop :=
  (bsnIn u n).state = (if (f.blocks.map (frameStat f)).any (·.testBit 13) then .unlocked else .locked) ∧
    (bsnIn u n).lastSoc = f.soc ∧ timerDue u .inputLost n = some (m.clk.elapsed + secs 1)

theorem FrameTaken.congr {m u v : Mod} {n : Nat} {f : PmuFrame} (h : FrameTaken m u n f) (k : SameInputs v u) : FrameTaken m v n f := by
  rwa [FrameTaken, bsnIn_congr k.ins, timerDue_congr k.timers]

/-- The module with a leap second that a frame resolved noted, once for its midnight (R204). -/
def leapNoted (m : Mod) (n : Nat) (f : PmuFrame) (resolved : Bool) : Mod :=
  if resolved ∧ (bsnIn m n).leapSoc ≠ some f.soc then
    setFault (modIn m n fun st => { st with leapSoc := some f.soc }) Reg.BSN_FAULT 7 n else m

/-- The module with an accepted frame noted in its input. -/
def frameNoted (m : Mod) (n port : Nat) (f : PmuFrame) : Mod :=
  startTimer (modIn m n fun st => { st with
    state := if (f.blocks.map (frameStat f)).any (·.testBit 13) then .unlocked else .locked, lastSoc := f.soc, port := port
    cfgChg := (f.blocks.map (frameStat f)).any (·.testBit 10)
    leapAt := if f.tq.testBit 4 || f.tq.testBit 5 then some m.clk.elapsed else st.leapAt }) .inputLost n (secs 1)

theorem leapNoted_frame (m : Mod) (n : Nat) (f : PmuFrame) (resolved : Bool) :
    (leapNoted m n f resolved).clk = m.clk ∧ (leapNoted m n f resolved).net = m.net := by
  unfold leapNoted
  split <;> simp

theorem frameNoted_taken (m : Mod) (n port : Nat) (f : PmuFrame) : FrameTaken m (frameNoted m n port f) n f := by
  have hin : bsnIn (frameNoted m n port f) n = _ := bsnIn_modIn_same m n _
  rw [FrameTaken, hin]
  exact ⟨rfl, rfl, timerDue_startTimer ..⟩

theorem FrameTaken.of_clk {m m' u : Mod} {n : Nat} {f : PmuFrame} (h : FrameTaken m' u n f) (hclk : m'.clk = m.clk) :
    FrameTaken m u n f := by
  rwa [FrameTaken, ← hclk]

/-- What becomes of an accepted frame's members at index `ix`: blocked, dropped as unlocked for too long, or stored. -/
def frameStored (m : Mod) (n : Nat) (c : InCfg) (f : PmuFrame) (ix : Int) : Mod :=
  let stats := f.blocks.map (frameStat f)
  if (bsnIn m n).blocked then m
  else if c.unlockDrop && stats.any fun s => s.testBit 13 && decide (c.unlockMax < bitsOf s 5 4) then bumpO m Reg.BSN_IN_CNT_UNLOCK n
  else
    let blocks := ((c.cfg.blocks.zip f.blocks).zip stats).map fun x =>
      inBlock (if f.v905 then { x.1.1 with format := 14 } else x.1.1) x.1.2 x.2
    storeMember m n c ix { blocks := blocks }

theorem frameStored_inputs (m : Mod) (n : Nat) (c : InCfg) (f : PmuFrame) (ix : Int) : SameInputs (frameStored m n c f ix) m := by
  unfold frameStored
  extract_lets stats blocks
  split
  · exact .refl m
  split
  · exact bumpO_inputs ..
  · exact storeMember_inputs ..

/-- An accepted frame is noted in its input, then its members are stored. -/
theorem pmuData_accepted {m : Mod} {n : Nat} {c : InCfg} {f : PmuFrame} {t : Int} (port : Nat) {sec ix : Int} {resolved : Bool}
    (hmis : (bsnIn m n).mis = false) (hsoc : socToTai m c f (frameBase c f) t = (sec, resolved))
    (hix : gridIndex c.rate sec f.fracsec (frameBase c f) = some ix) :
    pmuData m n c port t f = frameStored (frameNoted (leapNoted m n f resolved) n port f) n c f ix := by
  -- The conversions play no part here: under another name the kernel does not evaluate them.
  obtain ⟨toTai, htoTai⟩ : ∃ g, socToTai = g := ⟨_, rfl⟩
  obtain ⟨grid, hgrid⟩ : ∃ g, gridIndex = g := ⟨_, rfl⟩
  rw [htoTai, frameBase] at hsoc
  rw [hgrid, frameBase] at hix
  rw [pmuData, htoTai, hgrid]
  simp only [hmis, hsoc, hix, Bool.false_eq_true, if_false]
  rfl

/-- An accepted frame is taken, and leaves the parser buffers. -/
theorem pmuFrame_taken {m : Mod} {n : Nat} {c : InCfg} {f : PmuFrame} {t : Int} (port : Nat) (htransport : c.transport ≠ 2)
    (h : FrameAccepted m n c f t) :
    FrameTaken m (pmuFrame m n c port t f) n f ∧ ∀ p, (netPort (pmuFrame m n c port t f) p).parser = (netPort m p).parser := by
  obtain ⟨hkind, hfits, hmis, hgrid⟩ := h
  have heq : pmuFrame m n c port t f = pmuData m n c port t f := by simp [pmuFrame, hkind, htransport, hfits]
  obtain ⟨ix, hix⟩ := Option.isSome_iff_exists.1 hgrid
  obtain ⟨hclk, hnet⟩ := leapNoted_frame m n f (socToTai m c f (frameBase c f) t).2
  rw [heq, pmuData_accepted port hmis rfl hix]
  have hsame := frameStored_inputs (frameNoted (leapNoted m n f (socToTai m c f (frameBase c f) t).2) n port f) n c f ix
  exact ⟨((frameNoted_taken ..).congr hsame).of_clk hclk, fun p => (hsame.parser p).trans (congrArg NetPort.parser (netPort_congr hnet p))⟩

section
variable {m u : Mod}

theorem utcOffset_congr (hregs : u.regs = m.regs) : utcOffset u = utcOffset m := by rw [utcOffset, reg_congr hregs, utcOffset]

theorem pendingLeap_congr (hregs : u.regs = m.regs) : pendingLeap u = pendingLeap m := by
  rw [pendingLeap, regBits, reg_congr hregs, pendingLeap, regBits]

theorem leaps_congr (hclk : u.clk = m.clk) (hregs : u.regs = m.regs) : leaps u = leaps m := by
  unfold leaps leapSecond
  rw [hclk, utcOffset_congr hregs, pendingLeap_congr hregs]

theorem socToTai_congr (hclk : u.clk = m.clk) (hregs : u.regs = m.regs) (c : InCfg) (f : PmuFrame) (base : Nat) (t : Int) :
    socToTai u c f base t = socToTai m c f base t := by
  unfold socToTai ambiguous offsetAtUtc
  rw [leaps_congr hclk hregs, utcOffset_congr hregs]

/-- Acceptance looks at the inputs, the local clock and the leap seconds of the registers only. -/
theorem FrameAccepted.congr {n : Nat} {c : InCfg} {f : PmuFrame} {t : Int} (h : FrameAccepted m n c f t)
    (hbsn : u.bsn = m.bsn) (hclk : u.clk = m.clk) (hregs : u.regs = m.regs) : FrameAccepted u n c f t := by
  rwa [FrameAccepted, bsnIn, hbsn, socToTai_congr hclk hregs]

end

end Sys2Proof.Machine
end

section
/-!
SUPPORT. Inputs and commands of the Basin (R201, R207, R208, R218, R219, R226): frames of UDP and TCP inputs, connections, lost inputs,
commands to an output and the block of an input.
-/
namespace Sys2Proof.Machine

/-! ## Frames (R207) -/

/-- The parser takes an input's datagram from the port's buffer. -/
theorem pmuReceived_eq {m : Mod} {p : Nat} {x : RxItem} {rest : List RxItem} {src dst sport dport n : Nat} {f : PmuFrame} {c : InCfg}
    (hheld : (netPort m p).held = false) (htake : takeItem (netPort m p).parser isPmu = some (x, rest))
    (hpayload : x.frame.payload = .udp src dst sport dport (.pmu f)) (hinput : inputOf m p src dst dport f = some (n, c))
    (hlive : isLive m 1 = true) :
    pmuReceived m p = pmuFrame (modPort m p fun q => { q with parser := rest }) n c p (x.ts * (2 ^ 32 : Nat)) f := by
  have hinput' : inputOf (modPort m p fun q => { q with parser := rest }) p src dst dport f = some (n, c) := hinput
  have hlive' : isLive (modPort m p fun q => { q with parser := rest }) 1 = true := hlive
  simp only [pmuReceived, hheld, htake, hpayload, hinput', hlive', Bool.false_eq_true, if_false, if_true]

theorem pmuReceived_taken {m : Mod} {p : Nat} {x : RxItem} {rest : List RxItem} {src dst sport dport n : Nat} {f : PmuFrame}
    {c : InCfg} (hheld : (netPort m p).held = false) (htake : takeItem (netPort m p).parser isPmu = some (x, rest))
    (hpayload : x.frame.payload = .udp src dst sport dport (.pmu f)) (hinput : inputOf m p src dst dport f = some (n, c))
    (htransport : c.transport = 0) (hlive : isLive m 1 = true) (h : FrameAccepted m n c f (x.ts * (2 ^ 32 : Nat))) :
    FrameTaken m (pmuReceived m p) n f ∧ (netPort (pmuReceived m p) p).parser = rest := by
  rw [pmuReceived_eq hheld htake hpayload hinput hlive]
  obtain ⟨htaken, hparser⟩ := pmuFrame_taken p (by rw [htransport]; decide)
    (h.congr (u := modPort m p fun q => { q with parser := rest }) rfl rfl rfl)
  exact ⟨htaken.of_clk rfl, (hparser p).trans (by rw [netPort_modPort_same])⟩

/-- Keeper's taking of a connection's segments changes port buffers only. -/
theorem takeSegments_frame (m : Mod) (c : InCfg) :
    (takeSegments m c).bsn = m.bsn ∧ (takeSegments m c).clk = m.clk ∧ (takeSegments m c).regs = m.regs :=
  List.foldlRecOn _ _ (motive := fun n : Mod => n.bsn = m.bsn ∧ n.clk = m.clk ∧ n.regs = m.regs) ⟨rfl, rfl, rfl⟩ fun _ hn _ _ => hn

theorem pmuTcpFrame_taken {m : Mod} {n : Nat} {f : PmuFrame} {c : InCfg} (hc : inCfg m n = some c) (htransport : c.transport = 1)
    (htcp : (bsnIn m n).tcp = true) (hlive : isLive m 1 = true) (h : FrameAccepted m n c f (localTime m.clk)) :
    FrameTaken m (pmuTcpFrame m n f) n f := by
  obtain ⟨hbsn, hclk, hregs⟩ := takeSegments_frame m c
  simp only [pmuTcpFrame, hc]
  rw [if_pos ⟨htransport, htcp, hlive⟩]
  exact (pmuFrame_taken _ (by rw [htransport]; decide) (h.congr hbsn hclk hregs)).1.of_clk hclk

/-! ## Connections and lost inputs (R201, R208) -/

theorem reconnected_ne_tcpDown (m : Mod) (n : Nat) (st : BsnIn) : reconnected m n st ≠ .tcpDown := by
  unfold reconnected
  split
  · assumption
  · split
    · decide
    · split <;> decide

/-- A connection that is there again asks for CFG-2. -/
theorem pmuTcpReconnect_made {m : Mod} {n : Nat} (h : Due m .tcpReconnect n) :
    let u := pmuTcpReconnect m n true
    bsnIn u n = { bsnIn m n with tcp := true, wantCfg := true, state := reconnected (stopTimer m .tcpReconnect n) n (bsnIn m n) } ∧
      u.sent = .c37 true n 5 [] :: m.sent := by
  rw [pmuTcpReconnect, expire_of_due h, if_pos rfl]
  exact ⟨bsnIn_modIn_same .., rfl⟩

theorem pmuTcpReconnect_failed {m : Mod} {n : Nat} (h : Due m .tcpReconnect n) :
    pmuTcpReconnect m n false = startTimer (stopTimer m .tcpReconnect n) .tcpReconnect n (secs 5) := by
  rw [pmuTcpReconnect, expire_of_due h, if_neg Bool.false_ne_true]

@[simp] theorem bsnIn_setFault (m : Mod) (off bit obj : Nat) (vals : List Nat) (n : Nat) :
    bsnIn (setFault m off bit obj vals) n = bsnIn m n := bsnIn_congr (by simp) n

@[simp] theorem bsnIn_startTimer (m : Mod) (k : TimerKind) (i d n : Nat) : bsnIn (startTimer m k i d) n = bsnIn m n := rfl

theorem pmuTcpDown_of_tcp {m : Mod} {n : Nat} (h : (bsnIn m n).tcp = true) :
    pmuTcpDown m n = startTimer (setFault (modIn m n fun st => { st with tcp := false, wantCfg := false, state := .tcpDown })
      Reg.BSN_FAULT 10 n) .tcpReconnect n (secs 5) := by
  rw [pmuTcpDown, if_pos h]

theorem bsnIn_pmuTcpDown {m : Mod} {n : Nat} (h : (bsnIn m n).tcp = true) :
    bsnIn (pmuTcpDown m n) n = { bsnIn m n with tcp := false, wantCfg := false, state := .tcpDown } := by
  rw [pmuTcpDown_of_tcp h, bsnIn_startTimer, bsnIn_setFault, bsnIn_modIn_same]

theorem pmuInputLost_due {m : Mod} {n : Nat} (h : Due m .inputLost n) :
    pmuInputLost m n = setFault (modIn (stopTimer m .inputLost n) n fun st =>
      { st with state := if st.state = .tcpDown then .tcpDown else .lost }) Reg.BSN_FAULT 4 n := by
  rw [pmuInputLost, expire_of_due h]

/-! ## Commands (R201, R215, R219, R248) -/

theorem takeControl_frame {m m' : Mod} {p : Nat} {want : Payload → Bool} {it : RxItem} (h : takeControl m p want = some (it, m')) :
    m'.bsn = m.bsn ∧ m'.parts = m.parts ∧ m'.sent = m.sent := by
  unfold takeControl at h
  extract_lets control at h
  split at h
  · obtain ⟨-, rfl⟩ := Prod.mk.inj (Option.some.inj h)
    exact ⟨rfl, rfl, rfl⟩
  · exact absurd h (by simp)

theorem imageOf_congr {m u : Mod} (h : u.parts = m.parts) (p : Nat) : imageOf u p = imageOf m p := by
  rw [imageOf, partOf_congr h, imageOf]

theorem bsnOut_congr {m u : Mod} (h : u.bsn.outs = m.bsn.outs) (o : Nat) : bsnOut u o = bsnOut m o := by rw [bsnOut, h, bsnOut]

@[simp] theorem bsnOut_modOut_same (m : Mod) (o : Nat) (f : BsnOut → BsnOut) : bsnOut (modOut m o f) o = f (bsnOut m o) :=
  tabGet_tabMod_same ..

@[simp] theorem bsnOut_setFault (m : Mod) (off bit obj : Nat) (vals : List Nat) (o : Nat) :
    bsnOut (setFault m off bit obj vals) o = bsnOut m o := bsnOut_congr (by simp) o

theorem outGap_bsn (m : Mod) (o first count : Nat) : (outGap m o first count).bsn = m.bsn := by
  simp [outGap]

theorem outCommand_parts (m : Mod) (o cmd : Nat) : (outCommand m o cmd).parts = m.parts := by
  unfold outCommand
  split
  · split <;> simp
  · dsimp only
    split
    · simp [outGap]
    · rfl
  · rfl
  · rfl
  · rfl
  · rfl

theorem outCommand_turnOff {m : Mod} {o : Nat} (h : (bsnOut m o).txOff = false) :
    outCommand m o 1 = setFault (modOut m o fun st => { st with txOff := true, gap := none }) Reg.BSN_FAULT 8 o :=
  if_neg (by rw [h]; exact Bool.false_ne_true)

theorem outCommand_turnOn (m : Mod) (o : Nat) : bsnOut (outCommand m o 2) o = { bsnOut m o with txOff := false, gap := none } := by
  have hcleared : bsnOut (modOut m o fun st => { st with txOff := false, gap := none }) o = _ := bsnOut_modOut_same ..
  simp only [outCommand]
  split
  · rw [bsnOut_congr (congrArg Bsn.outs (outGap_bsn ..)), hcleared]
  · exact hcleared

theorem outCommand_cfg2 {m : Mod} {o : Nat} {oc : OutCfg} (h : outCfg m o = some oc) :
    outCommand m o 5 = emit m (.c37 false o 5 oc.cfg.raw) := by
  simp [outCommand, c37Answer, h]

/-- A command to the alarm stream leaves the outputs and the registers. -/
theorem alarmCommand_frame (m : Mod) (cmd : Nat) :
    (alarmCommand m cmd).bsn.outs = m.bsn.outs ∧ (alarmCommand m cmd).regs = m.regs := by
  unfold alarmCommand
  split <;> exact ⟨rfl, rfl⟩

/-- A command frame of one output acts on it, and on the alarm stream where that has the same command port and IDCODE. -/
theorem c37Command_one {m m' : Mod} {p a b c d id cmd o : Nat} {it : RxItem} {oc : OutCfg}
    (htake : takeControl m p isC37Cmd = some (it, m')) (hpayload : it.frame.payload = .udp a b c d (.c37cmd id cmd false))
    (houts : ((imageOf m 1).outs.filter fun x => x.2.cmdPort ≠ 0 ∧ x.2.cmdPort = d ∧ x.2.idcode = id) = [(o, oc)]) :
    c37Command m p = if (wadCfg m).almCmd ≠ 0 ∧ (wadCfg m).almCmd = d ∧ (wadCfg m).almId = id
      then alarmCommand (outCommand m' o cmd) cmd else outCommand m' o cmd := by
  have himage : imageOf m' 1 = imageOf m 1 := imageOf_congr (takeControl_frame htake).2.1 1
  have himage' : imageOf (outCommand m' o cmd) 1 = imageOf m 1 := (imageOf_congr (outCommand_parts ..) 1).trans himage
  simp only [c37Command, htake, hpayload, Bool.false_eq_true, if_false]
  rw [himage, houts, List.foldl_cons, List.foldl_nil, himage']
  rfl

/-- What holds of an output and of the registers once the output has its command, holds whatever the alarm stream does. -/
theorem c37Command_out {m m' : Mod} {p a b c d id cmd o : Nat} {it : RxItem} {oc : OutCfg}
    (htake : takeControl m p isC37Cmd = some (it, m')) (hpayload : it.frame.payload = .udp a b c d (.c37cmd id cmd false))
    (houts : ((imageOf m 1).outs.filter fun x => x.2.cmdPort ≠ 0 ∧ x.2.cmdPort = d ∧ x.2.idcode = id) = [(o, oc)]) :
    bsnOut (c37Command m p) o = bsnOut (outCommand m' o cmd) o ∧ (c37Command m p).regs = (outCommand m' o cmd).regs := by
  rw [c37Command_one htake hpayload houts]
  split
  · obtain ⟨hbsn, hregs⟩ := alarmCommand_frame (outCommand m' o cmd) cmd
    exact ⟨bsnOut_congr hbsn o, hregs⟩
  · exact ⟨rfl, rfl⟩

/-! ## Blocking an input (R226) -/

theorem bsnInBlock_taken {m : Mod} {v : Word} (hgate : gateOpen m (srcOf Reg.BSN_IN_BLOCK) = true)
    (hc : (inCfg m (v.toNat % 8192)).isSome = true) :
    bsnInBlock m v 15 = modIn (setReg (closeGate m (srcOf Reg.BSN_IN_BLOCK)) Reg.BSN_IN_BLOCK (v &&& 0x80001FFF)) (v.toNat % 8192)
      fun st => { st with blocked := v.getLsbD 31 } := by
  rw [bsnInBlock, guardedWrite_open _ _ _ hgate]
  exact if_neg (Bool.eq_false_iff.1 (Option.isNone_eq_false_iff.2 hc))

/-- Settles O50, clause by clause of its words. -/
theorem pmuInputsAreTakenAndLost : Obligations.PmuInputsAreTakenAndLost := by
  refine ⟨fun s hp => ⟨?_, ?_⟩, fun s n hp => ⟨fun hdue => ⟨?_, ?_⟩, fun htcp => ?_, fun hdue => ?_, ?_, ?_, fun hdue => ?_⟩⟩
  · rintro p x rest src dst sport dport f n c hheld htake hpayload hinput htransport ⟨hlive, haccepted⟩
    exact ⟨(exec_pmuFrameReceived p s).trans (runM_powered _ hp),
      pmuReceived_taken hheld htake hpayload hinput htransport hlive haccepted⟩
  · rintro n f c hc htransport htcp ⟨hlive, haccepted⟩
    exact ⟨(exec_pmuTcpFrame n f s).trans (runM_powered _ hp), pmuTcpFrame_taken hc htransport htcp hlive haccepted⟩
  · obtain ⟨hin, hsent⟩ := pmuTcpReconnect_made hdue
    refine ⟨(exec_pmuTcpReconnect n true s).trans (runM_powered _ hp), ?_⟩
    beta_reduce
    rw [hin]
    exact ⟨rfl, rfl, reconnected_ne_tcpDown _ _ _, hsent⟩
  · refine ⟨(exec_pmuTcpReconnect n false s).trans (runM_powered _ hp), ?_⟩
    beta_reduce
    rw [pmuTcpReconnect_failed hdue]
    exact ⟨timerDue_startTimer .., rfl⟩
  · refine ⟨(exec_pmuTcpDown n s).trans (runM_powered _ hp), ?_⟩
    beta_reduce
    rw [bsnIn_pmuTcpDown htcp, pmuTcpDown_of_tcp htcp]
    exact ⟨rfl, rfl, Bit_setFault (by decide) (by decide), (timerDue_startTimer ..).trans (by simp)⟩
  · refine ⟨(exec_pmuInputLost n s).trans (runM_powered _ hp), ?_⟩
    beta_reduce
    rw [pmuInputLost_due hdue, bsnIn_setFault, bsnIn_modIn_same]
    exact ⟨rfl, Bit_setFault (by decide) (by decide)⟩
  · intro p it m' a b c d id cmd o oc htake hpayload houts
    obtain ⟨hbsn, hparts, hsent⟩ := takeControl_frame htake
    obtain ⟨hout, hregs⟩ := c37Command_out htake hpayload houts
    have hexec := (exec_c37CommandFrame p s).trans (runM_powered (fun m => c37Command m p) hp)
    refine ⟨?_, ?_, ?_⟩
    · rintro rfl hon
      have hoff := outCommand_turnOff (m := m') (o := o) (by rwa [bsnOut, hbsn])
      refine ⟨hexec, ?_, Bit_congr hregs ?_⟩
      · rw [hout, hoff, bsnOut_setFault, bsnOut_modOut_same]
      · rw [hoff]
        exact Bit_setFault (by decide) (by decide)
    · rintro rfl
      refine ⟨hexec, ?_⟩
      beta_reduce
      rw [hout, outCommand_turnOn]
      exact ⟨rfl, rfl⟩
    · rintro rfl hoc halm
      have hoc' : outCfg m' o = some oc := by rwa [outCfg, imageOf_congr hparts]
      refine ⟨hexec, ?_⟩
      beta_reduce
      rw [c37Command_one htake hpayload houts, if_neg fun h => h.1 halm, outCommand_cfg2 hoc']
      exact ⟨congrArg _ hsent, hbsn⟩
  · intro v hup hgate hc
    refine ⟨(exec_bsnInBlock v 15 s).trans ((runM_powered _ hp).trans (by rw [inRunning_up _ _ _ hup])), ?_⟩
    beta_reduce
    rw [bsnInBlock_taken hgate hc, bsnIn_modIn_same]
    exact ⟨rfl, reg_setReg_same .., gateOpen_closeGate ..⟩
  · refine ⟨(exec_configChangeFlagExpiry n s).trans (runM_powered _ hp), ?_⟩
    beta_reduce
    rw [cfgChangeExpiry, expire_of_due hdue, bsnOut_modOut_same]
    exact ⟨rfl, timerDue_stopTimer ..⟩

end Sys2Proof.Machine
end

section
/-!
SUPPORT. What the module's own frames, datagrams and publications leave of the redundant pair (R259 to R263, R288, R347, R349): the
outputs block, the modes, the clock, the timers, and every flag of OUT_FAULT that is set.
-/
namespace Sys2Proof.Machine

/-- No flag of OUT_FAULT that is set in `m` is clear in `n`. -/
def FlagsKept (m n : Mod) : Prop := ∀ b, Bit m Reg.OUT_FAULT b → Bit n Reg.OUT_FAULT b

/-- `n` agrees with `m` on the outputs block, the modes, the clock and the timers, and keeps the flags of OUT_FAULT. -/
structure PairKept (m n : Mod) : Prop where
  out : n.out = m.out
  mode : n.mode = m.mode
  clk : n.clk = m.clk
  timers : n.timers = m.timers
  flags : FlagsKept m n

/-! ## Flags -/

theorem FlagsKept.refl (m : Mod) : FlagsKept m m := fun _ h => h

theorem FlagsKept.trans {a b c : Mod} (h : FlagsKept a b) (k : FlagsKept b c) : FlagsKept a c := fun x hx => k x (h x hx)

theorem FlagsKept.of_regs {m n : Mod} (h : n.regs = m.regs) : FlagsKept m n := fun _ hb => Bit_congr h hb

theorem setFault_flagsKept (m : Mod) (off bit obj : Nat) (vals : List Nat) : FlagsKept m (setFault m off bit obj vals) :=
  fun _ hb => Bit_setFault_other (by decide) hb

theorem raiseEvent_flagsKept (m : Mod) (src cls detail : Nat) (arg : Bytes) : FlagsKept m (raiseEvent m src cls detail arg) :=
  fun _ hb => Bit_raiseEvent (by decide) hb

theorem setReg_flagsKept (m : Mod) {off : Nat} (v : Word) (h : Reg.OUT_FAULT ≠ off) : FlagsKept m (setReg m off v) :=
  fun _ hb => Bit_setReg_other h hb

theorem bump_flagsKept (m : Mod) {off : Nat} (h : Reg.OUT_FAULT ≠ off) : FlagsKept m (bump m off) :=
  fun _ hb => Bit_bump (by decide) h hb

/-! ## What a frame leaves -/

theorem PairKept.refl (m : Mod) : PairKept m m := ⟨rfl, rfl, rfl, rfl, .refl m⟩

theorem PairKept.trans {a b c : Mod} (h : PairKept a b) (k : PairKept b c) : PairKept a c :=
  ⟨k.out.trans h.out, k.mode.trans h.mode, k.clk.trans h.clk, k.timers.trans h.timers, h.flags.trans k.flags⟩

theorem PairKept.foldl {α : Type} {f : Mod → α → Mod} (h : ∀ m x, PairKept m (f m x)) (l : List α) (m : Mod) :
    PairKept m (l.foldl f m) :=
  List.foldlRecOn l f (motive := PairKept m) (.refl m) fun n hn x _ => hn.trans (h n x)

theorem setFault_pairKept (m : Mod) (off bit obj : Nat) (vals : List Nat) : PairKept m (setFault m off bit obj vals) :=
  ⟨by simp, by simp, by simp, by simp, setFault_flagsKept _ _ _ _ _⟩

theorem raiseEvent_pairKept (m : Mod) (src cls detail : Nat) (arg : Bytes) : PairKept m (raiseEvent m src cls detail arg) :=
  ⟨by simp, by simp, by simp, by simp, raiseEvent_flagsKept _ _ _ _ _⟩

theorem bump_pairKept (m : Mod) {off : Nat} (h : Reg.OUT_FAULT ≠ off) : PairKept m (bump m off) :=
  ⟨by simp, by simp, by simp, by simp, bump_flagsKept m h⟩

theorem bumpDrop_pairKept (m : Mod) (p : Nat) : PairKept m (bump m (Reg.MAC_PTX_DROP p)) :=
  bump_pairKept m (by unfold Reg.OUT_FAULT Reg.MAC_PTX_DROP; omega)

theorem queueModule_pairKept (m : Mod) (p q : Nat) (it : QItem) : PairKept m (queueModule m p q it) := by
  unfold queueModule
  split
  · exact ⟨rfl, rfl, rfl, rfl, .of_regs rfl⟩
  · exact (bumpDrop_pairKept m p).trans (setFault_pairKept ..)

theorem sendFrame_pairKept (m : Mod) (mask q dst : Nat) (tags : List (Nat × Nat)) (pl : Payload) (bypass : Bool) :
    PairKept m (sendFrame m mask q dst tags pl bypass) :=
  sendFrame_keeps (P := PairKept m) (fun _ p q it _ hn => hn.trans (queueModule_pairKept _ p q it))
    (fun _ _ hn => hn.trans ⟨rfl, rfl, rfl, rfl, .of_regs rfl⟩) (.refl m) ..

theorem sendUdp_pairKept (m : Mod) (mask q dstIp sport dport : Nat) (tags : List (Nat × Nat)) (body : UdpBody) :
    PairKept m (sendUdp m mask q dstIp sport dport tags body) :=
  sendUdp_keeps (P := PairKept m) (fun _ _ _ _ _ _ hn => hn.trans (sendFrame_pairKept ..))
    (fun n p hn => (hn.trans (bump_pairKept n (by unfold Reg.OUT_FAULT Reg.MAC_PTX_NOARP; omega))).trans (setFault_pairKept ..)) (.refl m) ..

theorem dropUnsigned_pairKept (m : Mod) (ports : Nat) : PairKept m (dropUnsigned m ports) := .foldl bumpDrop_pairKept _ m

/-- A publication's frame leaves its stream as it stands (R262). -/
theorem sendPub_pairKept (m : Mod) (n : Nat) (c : PubCfg) : PairKept m (sendPub m n c) := by
  unfold sendPub
  dsimp only
  split
  · exact sendFrame_pairKept ..
  · split
    · exact sendFrame_pairKept ..
    · exact dropUnsigned_pairKept ..

end Sys2Proof.Machine
end

section
/-!
SUPPORT. GOOSE subscriptions and publications (R258 to R264): the tokens that a frame delivers, the frame that changes a subscription's
state, and the retransmission.
-/
namespace Sys2Proof.Machine

/-! ## Subscriptions and publications -/

@[simp] theorem gsubSt_modGSub_same (m : Mod) (n : Nat) (f : GSubSt → GSubSt) : gsubSt (modGSub m n f) n = f (gsubSt m n) :=
  tabGet_tabMod_same ..

@[simp] theorem pubSt_modPub_same (m : Mod) (n : Nat) (f : PubSt → PubSt) : pubSt (modPub m n f) n = f (pubSt m n) :=
  tabGet_tabMod_same ..

theorem gsubSt_congr {n m : Mod} (h : n.out = m.out) (k : Nat) : gsubSt n k = gsubSt m k := by rw [gsubSt, h, gsubSt]

theorem pubSt_congr {n m : Mod} (h : n.out = m.out) (k : Nat) : pubSt n k = pubSt m k := by rw [pubSt, h, pubSt]

@[simp] theorem gsubSt_modTd (m : Mod) (f : Td → Td) (n : Nat) : gsubSt (modTd m f) n = gsubSt m n := rfl

/-- A frame taken from a control buffer leaves all but the ports. -/
theorem takeControl_eq {m m' : Mod} {p : Nat} {want : Payload → Bool} {it : RxItem} (h : takeControl m p want = some (it, m')) :
    m' = { m with net := m'.net } := by
  unfold takeControl at h
  extract_lets control at h
  split at h
  · obtain ⟨-, rfl⟩ := Prod.mk.inj (Option.some.inj h)
    rfl
  · exact absurd h (by simp)

/-! ## Tokens (R264) -/

/-- Tokens put on a crossing one after the other stand there in their order, and only the dispatcher changes. -/
theorem foldl_pushCross_eq {α : Type} (skip : α → Prop) [DecidablePred skip] (tok : α → XTok) (k : Nat) (l : List α) (m : Mod) :
    ∃ d : Td, l.foldl (fun n x => if skip x then n else pushCross n k (tok x)) m = modTd m (fun _ => d) ∧
      tabGet d.cross k = tabGet m.td.cross k ++ (l.filter fun x => !decide (skip x)).map tok := by
  induction l generalizing m with
  | nil => exact ⟨m.td, rfl, by simp⟩
  | cons x l ih =>
    by_cases hx : skip x
    · simpa [hx] using ih m
    · obtain ⟨d, hd, hcross⟩ := ih (pushCross m k (tok x))
      refine ⟨d, by rw [List.foldl_cons, if_neg hx, hd]; rfl, ?_⟩
      rw [hcross, List.filter_cons_of_pos (by simp [hx])]
      simp [pushCross, modTd]

/-- The token of a routed member of subscription `n`. -/
def gooseToken (n : Nat) (x : (GooseRoute × MemberVal) × Nat) : XTok :=
  ⟨⟨x.1.1.target, x.1.1.op, 0, n, x.1.2.val, x.1.2.q⟩, none, .async⟩

theorem gooseTokens_eq (m : Mod) (n : Nat) (c : GSubCfg) (vals : List MemberVal) (every : Bool) :
    ∃ d : Td, gooseTokens m n c vals every = modGSub (modTd m fun _ => d) n (fun st => { st with vals := vals }) ∧
      tabGet d.cross 5 = tabGet m.td.cross 5 ++ (((c.routes.zip vals).zip (List.range vals.length)).filter fun x =>
        every || (gsubSt m n).vals[x.2]? != some x.1.2).map (gooseToken n) := by
  obtain ⟨d, hd, hcross⟩ := foldl_pushCross_eq
    (fun x : (GooseRoute × MemberVal) × Nat => (!every) = true ∧ (gsubSt m n).vals[x.2]? = some x.1.2) (gooseToken n) 5
    ((c.routes.zip vals).zip (List.range vals.length)) m
  refine ⟨d, congrArg (fun u => modGSub u n fun st => { st with vals := vals }) hd, hcross.trans ?_⟩
  congr 2
  refine List.filter_congr fun x _ => ?_
  cases every <;> simp [bne, beq_eq_decide]

/-! ## A frame that changes the state (R258, R264) -/

section
variable {m : Mod} {n : Nat} {c : GSubCfg} {g : GooseFrame}

/-- What a subscription notes of a frame with a new state number. -/
def gooseNoted (g : GooseFrame) (vals : List MemberVal) (st : GSubSt) : GSubSt :=
  { st with
    state := .valid, last := some (g.stNum, g.sqNum), first := false
    earlier := ((match st.last with
      | some (a, _) => a :: st.earlier
      | none => st.earlier).filter (· ≠ g.stNum)).take 16
    test := vals.any fun v => qBit v.q qTest }

theorem gooseAccept_new (vals : List MemberVal) (l : List (GooseVal × Nat)) (hsgrp : c.sgrp = false)
    (hlast : ∀ a, (gsubSt m n).last = some a → a.1 ≠ g.stNum) (hearlier : (gsubSt m n).earlier.contains g.stNum = false) :
    gooseAccept m n c g vals l =
      gooseTokens (startTimer (modGSub m n (gooseNoted g vals)) .gooseTal n (msec g.tal)) n c vals (gsubSt m n).first := by
  unfold gooseAccept
  extract_lets st fresh same again renew noted
  have hsame : same = false := by
    unfold same st
    split
    · next a b h => simpa using hlast (a, b) h
    · rfl
  have hagain : again = false := by
    unfold again st
    split
    · next a b h => rw [hearlier, beq_eq_false_iff_ne.2 (hlast (a, b) h)]; rfl
    · rfl
  rw [hagain, hsame]
  simp [gooseGroup, hsgrp]
  rfl

/-- A frame of no security and no simulation that meets the subscription's record is accepted. -/
theorem gooseSubFrame_accepts {f : Frame} {vals : List MemberVal} (hdecodes : gooseDecodes f g = true) (hauth : c.auth = false)
    (hconf : g.confRev = c.confRev) (hsim : g.sim = false) (htest : tabGet m.mode.partTest c.part ≠ .simulation)
    (hvals : c.routes.map (routedVal (gooseMembers g.vals)) = vals.map some) :
    gooseSubFrame m n c f g =
      gooseAccept (modGSub m n fun st => { st with simSrc := false }) n c g vals (gooseMembers g.vals) := by
  have hnone : (vals.map some).any (·.isNone) = false := by simp
  have hall : ((vals.map some).filterMap id).map (fun v => if g.sim then { v with q := qOr v.q qTest } else v) = vals := by
    simp [List.filterMap_map, hsim]
  unfold gooseSubFrame
  extract_lets l read
  have hread : read = vals.map some := hvals
  rw [hread, hnone, hdecodes, hauth, if_neg (by decide), if_neg (by simp), if_neg (not_not.2 hconf), gooseSim, if_neg htest, hsim,
    if_neg Bool.false_ne_true]
  rw [hsim] at hall
  exact congrArg (gooseAccept _ n c g · l) hall

/-- A frame that names one live subscription and no publication of the peer. -/
theorem gooseReceived_one {m' : Mod} {p : Nat} {it : RxItem} (htake : takeControl m p isGoose = some (it, m'))
    (hpayload : it.frame.payload = .goose g) (hpeer : peerPub m it.frame g = none) (hsubs : allGSubs m = [(n, c)])
    (happid : c.appid = g.appid) (hdst : c.dst = it.frame.dst) (href : c.gocbRef = g.gocbRef) (hport : c.ports.testBit p = true)
    (hlive : isLive m c.part = true) : gooseReceived m p = gooseSubFrame m' n c it.frame g := by
  have heq := takeControl_eq htake
  have hpeer' : peerPub m' it.frame g = none := by rw [heq]; exact hpeer
  have hsubs' : allGSubs m' = [(n, c)] := by rw [heq]; exact hsubs
  have hlive' : isLive m' c.part = true := by rw [heq]; exact hlive
  unfold gooseReceived
  simp only [htake, hpayload, hpeer', hsubs', List.foldl_cons, List.foldl_nil]
  exact if_pos ⟨happid, hdst, href, hport, hlive'⟩

/-- The module after the frame is noted and its time allowed to live starts, before the values are delivered. -/
def gooseTaken (m : Mod) (n : Nat) (g : GooseFrame) (vals : List MemberVal) : Mod :=
  startTimer (modGSub (modGSub m n fun st => { st with simSrc := false }) n (gooseNoted g vals)) .gooseTal n (msec g.tal)

theorem gooseTaken_frame (m : Mod) (n : Nat) (g : GooseFrame) (vals : List MemberVal) :
    gsubSt (gooseTaken m n g vals) n = gooseNoted g vals { gsubSt m n with simSrc := false } ∧
      timerDue (gooseTaken m n g vals) .gooseTal n = some (m.clk.elapsed + msec g.tal) ∧ (gooseTaken m n g vals).td = m.td := by
  refine ⟨?_, timerDue_startTimer .., rfl⟩
  rw [← gsubSt_modGSub_same m n fun st => { st with simSrc := false }]
  exact gsubSt_modGSub_same ..

theorem gooseSubFrame_new {f : Frame} {vals : List MemberVal} (hdecodes : gooseDecodes f g = true) (hauth : c.auth = false)
    (hconf : g.confRev = c.confRev) (hsim : g.sim = false) (htest : tabGet m.mode.partTest c.part ≠ .simulation)
    (hsgrp : c.sgrp = false) (hvals : c.routes.map (routedVal (gooseMembers g.vals)) = vals.map some)
    (hlast : ∀ a, (gsubSt m n).last = some a → a.1 ≠ g.stNum) (hearlier : (gsubSt m n).earlier.contains g.stNum = false) :
    gooseSubFrame m n c f g = gooseTokens (gooseTaken m n g vals) n c vals (gsubSt m n).first := by
  have hsub := gsubSt_modGSub_same m n fun st => { st with simSrc := false }
  rw [gooseSubFrame_accepts hdecodes hauth hconf hsim htest hvals,
    gooseAccept_new vals _ hsgrp (by rw [hsub]; exact hlast) (by rw [hsub]; exact hearlier), hsub]
  rfl

end

/-! ## The time allowed to live runs out (R264) -/

theorem gooseTalExpiry_due {m : Mod} {n : Nat} {c : GSubCfg} (hdue : Due m .gooseTal n) (hc : (allGSubs m).lookup n = some c) :
    ∃ d : Td, gooseTalExpiry m n = setFault (modGSub (modGSub (modTd (stopTimer m .gooseTal n) fun _ => d) n fun st =>
      { st with vals := (gsubSt m n).vals.map fun v => { v with q := BitVec.ofNat 16 (qGap + 1) } }) n fun st =>
        { st with state := .expired }) Reg.OUT_FAULT 12 n := by
  have hc' : (allGSubs (stopTimer m .gooseTal n)).lookup n = some c := hc
  obtain ⟨d, hd, -⟩ := gooseTokens_eq (stopTimer m .gooseTal n) n c
    ((gsubSt m n).vals.map fun v => { v with q := BitVec.ofNat 16 (qGap + 1) }) true
  refine ⟨d, ?_⟩
  rw [gooseTalExpiry, expire_of_due hdue, hc']
  exact congrArg (fun u => setFault (modGSub u n fun st => { st with state := .expired }) Reg.OUT_FAULT 12 n) hd

/-! ## Retransmission (R261, R262) -/

theorem gooseRetransmit_due {m : Mod} {n : Nat} {c : PubCfg} (hdue : Due m .gooseRetransmit n) (hc : pubCfg m n = some c)
    (hopen : pubBlocked (unitTest m) c = false) :
    gooseRetransmit m n = startTimer (sendPub (modPub (stopTimer m .gooseRetransmit n) n fun x =>
      { x with sqNum := nextNum x.sqNum, interval := min (2 * x.interval) c.tmax }) n c) .gooseRetransmit n
        (usec (max 1 (min (2 * (pubSt m n).interval) c.tmax))) := by
  have hc' : pubCfg (stopTimer m .gooseRetransmit n) n = some c := hc
  have hopen' : ¬pubBlocked (unitTest (stopTimer m .gooseRetransmit n)) c = true := Bool.eq_false_iff.1 hopen
  rw [gooseRetransmit, expire_of_due hdue, hc']
  dsimp only
  rw [if_neg hopen', pubSt_congr (sendPub_pairKept ..).out, pubSt_modPub_same]
  rfl

/-- Settles O49, clause by clause of its words. -/
theorem gooseFramesAndRetransmissions : Obligations.GooseFramesAndRetransmissions := by
  refine fun s hp => ⟨?_, ?_, ?_⟩
  · intro p it m' g n c vals htake hpayload hpeer hsubs happid hdst href hport hlive hdecodes hauth hconf hsim htest hsgrp hvals hlast
      hearlier
    refine ⟨(exec_gooseFrameReceived p s).trans (runS_powered _ hp), ?_⟩
    have hm' := takeControl_eq htake
    have hsub : gsubSt m' n = gsubSt s.m n := gsubSt_congr (by rw [hm']) n
    have htest' : tabGet m'.mode.partTest c.part ≠ .simulation := by rw [hm']; exact htest
    rw [gooseReceived_one htake hpayload hpeer hsubs happid hdst href hport hlive,
      gooseSubFrame_new hdecodes hauth hconf hsim htest' hsgrp hvals (by rwa [hsub]) (by rwa [hsub]), hsub]
    obtain ⟨hnoted, htal, htd⟩ := gooseTaken_frame m' n g vals
    obtain ⟨d, hd, hcross⟩ := gooseTokens_eq (gooseTaken m' n g vals) n c vals (gsubSt s.m n).first
    rw [hnoted, hsub, htd, congrArg Mod.td hm'] at hcross
    rw [hsub] at hnoted
    rw [congrArg Mod.clk hm'] at htal
    beta_reduce
    rw [hd, gsubSt_modGSub_same, gsubSt_modTd, hnoted]
    exact ⟨rfl, rfl, rfl, htal, hcross⟩
  · intro n c hdue hc
    refine ⟨(exec_gooseTalExpiry n s).trans (runM_powered _ hp), ?_⟩
    obtain ⟨d, hd⟩ := gooseTalExpiry_due hdue hc
    rw [hd, gsubSt_congr (setFault_pairKept ..).out, gsubSt_modGSub_same, gsubSt_modGSub_same]
    refine ⟨rfl, Bit_setFault (by decide) (by decide), ?_, rfl⟩
    exact (timerDue_congr (setFault_pairKept ..).timers _ _).trans (timerDue_stopTimer ..)
  · intro n c hdue hc hopen
    refine ⟨(exec_gooseRetransmit n s).trans (runM_powered _ hp), ?_⟩
    have hsent := sendPub_pairKept (modPub (stopTimer s.m .gooseRetransmit n) n fun x =>
      { x with sqNum := nextNum x.sqNum, interval := min (2 * x.interval) c.tmax }) n c
    have hpub := (pubSt_congr hsent.out n).trans (pubSt_modPub_same ..)
    rw [gooseRetransmit_due hdue hc hopen]
    refine ⟨congrArg PubSt.sqNum hpub, congrArg PubSt.interval hpub, ?_, rfl⟩
    rw [timerDue_startTimer, hsent.clk]
    rfl

end Sys2Proof.Machine
end

section
/-!
SUPPORT. Roles, reverts and takeovers of the redundant pair (R268 to R304): what each of their operations leaves of the Towpath and of the
modes, and what a unit is after it.
-/
namespace Sys2Proof.Machine

/-! ## The Towpath -/

/-- From `m` to `n` nothing touches the Towpath and its watch, nor what is known of the peer and of the Referee's presence, and no flag of
OUT_FAULT is lost. -/
structure TowKept (m n : Mod) : Prop where
  lanes : n.out.lanes = m.out.lanes
  up : n.out.towUp = m.out.towUp
  peer : n.out.peer = m.out.peer
  referee : n.out.refPresent = m.out.refPresent
  watch : timerDue n .towpath 0 = timerDue m .towpath 0
  flags : FlagsKept m n

theorem TowKept.refl (m : Mod) : TowKept m m := ⟨rfl, rfl, rfl, rfl, rfl, .refl m⟩

theorem TowKept.trans {a b c : Mod} (h : TowKept a b) (k : TowKept b c) : TowKept a c :=
  ⟨k.lanes.trans h.lanes, k.up.trans h.up, k.peer.trans h.peer, k.referee.trans h.referee, k.watch.trans h.watch, h.flags.trans k.flags⟩

theorem PairKept.towKept {m n : Mod} (h : PairKept m n) : TowKept m n :=
  ⟨by rw [h.out], by rw [h.out], by rw [h.out], by rw [h.out], timerDue_congr h.timers .., h.flags⟩

theorem timerDue_filter (m : Mod) {keep : Timer → Bool} {k : TimerKind} {i : Nat} (h : ∀ t, t.kind = k → keep t = true) :
    timerDue { m with timers := m.timers.filter keep } k i = timerDue m k i := by
  unfold timerDue
  rw [List.find?_filter]
  congr 2
  funext t
  by_cases hk : t.kind = k
  · simp [h t hk, beq_eq_decide]
  · simp [hk]

theorem filterTimers_towKept (m : Mod) {keep : Timer → Bool} (h : ∀ t, t.kind = .towpath → keep t = true) :
    TowKept m { m with timers := m.timers.filter keep } :=
  ⟨rfl, rfl, rfl, rfl, timerDue_filter m h, .of_regs rfl⟩

theorem stopTimer_towKept (m : Mod) {k : TimerKind} (i : Nat) (h : k ≠ .towpath) : TowKept m (stopTimer m k i) :=
  filterTimers_towKept m fun t ht => by simp [ht, h.symm]

theorem setTimerAt_towKept (m : Mod) {k : TimerKind} (i due : Nat) (h : k ≠ .towpath) : TowKept m (setTimerAt m k i due) := by
  refine ⟨rfl, rfl, rfl, rfl, (?_ : _ = timerDue (stopTimer m k i) .towpath 0).trans (stopTimer_towKept m i h).watch, .of_regs rfl⟩
  simp [timerDue, setTimerAt, h]

theorem startTimer_towKept (m : Mod) {k : TimerKind} (i dur : Nat) (h : k ≠ .towpath) : TowKept m (startTimer m k i dur) :=
  setTimerAt_towKept m i _ h

theorem modO_towKept (m : Mod) {f : Out → Out} (h : (f m.out).lanes = m.out.lanes ∧ (f m.out).towUp = m.out.towUp ∧
    (f m.out).peer = m.out.peer ∧ (f m.out).refPresent = m.out.refPresent) : TowKept m (modO m f) :=
  ⟨h.1, h.2.1, h.2.2.1, h.2.2.2, rfl, .of_regs rfl⟩

theorem setFault_towKept (m : Mod) (off bit obj : Nat) (vals : List Nat) : TowKept m (setFault m off bit obj vals) :=
  (setFault_pairKept ..).towKept

theorem towSend_pairKept (m : Mod) (f : TowFrame) : PairKept m (towSend m f) := by
  unfold towSend
  split
  · exact .refl m
  · exact ⟨rfl, rfl, rfl, rfl, .of_regs rfl⟩

theorem seeClaim_towKept (m : Mod) (claim role : Nat) : TowKept m (seeClaim m claim role) := by
  unfold seeClaim
  split
  · exact ⟨rfl, rfl, rfl, rfl, rfl, .of_regs rfl⟩
  · exact .refl m

/-! ## Roles (R271 to R273, R301) -/

theorem setRole_mode (m : Mod) (r : Role) : (setRole m r).mode = { m.mode with role := r } := by
  unfold setRole
  split
  · next h => rw [← h]
  · simp

theorem setRole_out (m : Mod) (r : Role) : (setRole m r).out = m.out := by
  unfold setRole
  split <;> simp

theorem setRole_towKept (m : Mod) (r : Role) : TowKept m (setRole m r) := by
  unfold setRole
  split
  · exact .refl m
  · have hmode : TowKept m { m with mode := { m.mode with role := r } } := ⟨rfl, rfl, rfl, rfl, rfl, .of_regs rfl⟩
    exact hmode.trans (raiseEvent_pairKept ..).towKept

theorem dropStandby_towKept (m : Mod) : TowKept m (dropStandby m) := by
  have hstopped := ((stopTimer_towKept m 0 (by decide : TimerKind.hbWait ≠ _)).trans
    (stopTimer_towKept _ 0 (by decide : TimerKind.takeoverRetry ≠ _))).trans
    ((stopTimer_towKept _ 0 (by decide : TimerKind.peerWait ≠ _)).trans (stopTimer_towKept _ 0 (by decide : TimerKind.revertHold ≠ _)))
  exact hstopped.trans (filterTimers_towKept _ fun t ht => by simp [ht])

theorem becomeActive_mode (m : Mod) : (becomeActive m).mode = { m.mode with role := .active, syncSt := 0, copyTag := none } := by
  simp only [becomeActive, modO_frame, setRole_mode]
  rfl

theorem becomeActive_out (m : Mod) : (becomeActive m).out = { m.out with
    deciding := false, hbLost := false, copies := [], lost := [], open_ := [], sweepEnd := false, reqs := [], yielding := false
    revReq := none, revSince := none } := by
  simp only [becomeActive, modO, setRole_out]
  rfl

theorem becomeActive_towKept (m : Mod) : TowKept m (becomeActive m) :=
  ((dropStandby_towKept m).trans (setRole_towKept _ .active)).trans ⟨rfl, rfl, rfl, rfl, rfl, .of_regs rfl⟩

theorem becomeStandby_effect (m : Mod) : (becomeStandby m).mode.role = .standby ∧ (becomeStandby m).out.claiming = false := by
  simp [becomeStandby, setRole_mode, modO]

/-- The epoch is written, and EPOCH_MAX is set where it has reached its end (R273). -/
theorem raiseEpoch_cases (m : Mod) :
    ∃ v, raiseEpoch m = setReg m Reg.OUT_EPOCH v ∨ raiseEpoch m = setFault (setReg m Reg.OUT_EPOCH v) Reg.OUT_FAULT 8 := by
  unfold raiseEpoch
  extract_lets peer new
  split
  · exact ⟨_, .inl rfl⟩
  · exact ⟨_, .inr rfl⟩

theorem raiseEpoch_mode (m : Mod) : (raiseEpoch m).mode = m.mode := by
  obtain ⟨v, h | h⟩ := raiseEpoch_cases m <;> rw [h]
  · rfl
  · exact (setFault_pairKept ..).mode

theorem raiseEpoch_towKept (m : Mod) : TowKept m (raiseEpoch m) := by
  have hset (v : Word) : TowKept m (setReg m Reg.OUT_EPOCH v) :=
    ⟨rfl, rfl, rfl, rfl, rfl, setReg_flagsKept m v (by decide)⟩
  obtain ⟨v, h | h⟩ := raiseEpoch_cases m <;> rw [h]
  · exact hset v
  · exact (hset v).trans (setFault_towKept ..)

theorem settleClaim_towKept (m : Mod) : TowKept m (settleClaim m) := by
  unfold settleClaim
  split
  · exact .refl m
  · split
    · exact (raiseEpoch_towKept m).trans ⟨rfl, rfl, rfl, rfl, rfl, .of_regs rfl⟩
    · exact ⟨rfl, rfl, rfl, rfl, rfl, .of_regs rfl⟩

/-- An Active claims once its claim is settled (R272). -/
theorem settleClaim_active {m : Mod} (h : m.mode.role = .active) :
    (settleClaim m).out.claiming = true ∧ (settleClaim m).mode = m.mode := by
  have hclaims : claimsNow m = true := by simp [claimsNow, h]
  unfold settleClaim
  rw [hclaims]
  split
  · next hc => exact ⟨hc.symm, rfl⟩
  · exact ⟨rfl, raiseEpoch_mode m⟩

/-! ## Publications (R261, R297) -/

/-- A hand-over changes the publications, one of their timers and what leaves the module. -/
theorem handOver_kept (m : Mod) (n : Nat) (c : PubCfg) (dom tag : Nat) :
    (∃ pubs, (handOver m n c dom tag).out = { m.out with pubs := pubs }) ∧ (handOver m n c dom tag).mode = m.mode ∧
      TowKept m (handOver m n c dom tag) := by
  unfold handOver
  split
  · exact ⟨⟨_, rfl⟩, rfl, .refl m⟩
  · extract_lets st ds new m1 q m2 m3
    split
    · exact ⟨⟨_, rfl⟩, rfl, .refl m⟩
    · have h1 : PairKept m m1 := by
        unfold m1
        split
        · exact raiseEvent_pairKept ..
        · exact .refl m
      have h3 : PairKept m2 m3 := sendPub_pairKept m2 n c
      have hout : m3.out = { m.out with pubs := m2.out.pubs } := by
        rw [h3.out, ← h1.out]
        rfl
      have hmode : m3.mode = m.mode := h3.mode.trans h1.mode
      have h2 : TowKept m1 m2 := ⟨rfl, rfl, rfl, rfl, rfl, .of_regs rfl⟩
      have htow : TowKept m m3 := (h1.towKept.trans h2).trans h3.towKept
      split
      · exact ⟨⟨_, hout⟩, hmode, htow⟩
      · exact ⟨⟨_, hout⟩, hmode, htow.trans (startTimer_towKept m3 n _ (by decide))⟩

theorem republish_kept (m : Mod) (all : Bool) (tag : Nat) :
    (∃ pubs, (republish m all tag).out = { m.out with pubs := pubs }) ∧ (republish m all tag).mode = m.mode ∧
      TowKept m (republish m all tag) := by
  refine List.foldlRecOn _ _ (motive := fun n => (∃ pubs, n.out = { m.out with pubs := pubs }) ∧ n.mode = m.mode ∧ TowKept m n)
    ⟨⟨_, rfl⟩, rfl, .refl m⟩ fun n hn x _ => ?_
  split
  · obtain ⟨⟨pubs, hout⟩, hmode, htow⟩ := hn
    obtain ⟨⟨pubs', hout'⟩, hmode', htow'⟩ := handOver_kept n x.1 x.2 0 tag
    exact ⟨⟨pubs', by rw [hout', hout]⟩, hmode'.trans hmode, htow.trans htow'⟩
  · exact hn

/-! ## Revert (R303, R304) -/

theorem watchRevert_kept (m : Mod) :
    (∃ since, (watchRevert m).out = { m.out with revSince := since }) ∧ (watchRevert m).mode = m.mode ∧ TowKept m (watchRevert m) := by
  unfold watchRevert
  split
  · exact ⟨⟨none, rfl⟩, rfl, (modO_towKept m ⟨rfl, rfl, rfl, rfl⟩).trans (stopTimer_towKept (k := .revertHold) _ 0 (by decide))⟩
  · split
    · exact ⟨⟨_, rfl⟩, rfl, .refl m⟩
    · exact ⟨⟨_, rfl⟩, rfl, (modO_towKept m ⟨rfl, rfl, rfl, rfl⟩).trans
        (setTimerAt_towKept (k := .revertHold) _ 0 _ (by decide))⟩

/-- A revert in progress ends: neither side of it is left, and REVERT_FAIL is set. -/
def revertEnded (m : Mod) : Mod :=
  stopTimer (setFault (modO m fun o => { o with revReq := none, revOut := none, revSince := none }) Reg.OUT_FAULT 11) .revertHold 0

theorem revertEnded_out (m : Mod) : (revertEnded m).out = { m.out with revReq := none, revOut := none, revSince := none } :=
  (setFault_pairKept ..).out

theorem revertEnded_towKept (m : Mod) : TowKept m (revertEnded m) :=
  ((modO_towKept m ⟨rfl, rfl, rfl, rfl⟩).trans (setFault_towKept ..)).trans (stopTimer_towKept (k := .revertHold) _ 0 (by decide))

theorem endRevert_cases (m : Mod) : endRevert m = watchRevert (revertEnded m) ∨
    m.out.revReq = none ∧ m.out.revOut = none ∧ endRevert m = m := by
  unfold endRevert
  split
  · exact .inl rfl
  · next h => exact .inr (by simpa using h)

/-- What the end of a revert leaves: of the outputs block only the revert changes. -/
theorem endRevert_kept (m : Mod) : (∃ since, (endRevert m).out = { m.out with revReq := none, revOut := none, revSince := since }) ∧
    (endRevert m).mode = m.mode ∧ TowKept m (endRevert m) := by
  rcases endRevert_cases m with h | ⟨hreq, hrev, h⟩ <;> rw [h]
  · obtain ⟨⟨since, hout⟩, hmode, htow⟩ := watchRevert_kept (revertEnded m)
    exact ⟨⟨since, by rw [hout, revertEnded_out]⟩, hmode.trans (setFault_pairKept ..).mode, (revertEnded_towKept m).trans htow⟩
  · exact ⟨⟨m.out.revSince, by rw [← hreq, ← hrev]⟩, rfl, .refl m⟩

theorem endRevert_flag {m : Mod} (h : m.out.revReq ≠ none ∨ m.out.revOut ≠ none) : Bit (endRevert m) Reg.OUT_FAULT 11 := by
  rcases endRevert_cases m with he | ⟨hreq, hrev, -⟩
  · rw [he]
    exact (watchRevert_kept _).2.2.flags _ (Bit_setFault (by decide) (by decide))
  · exact absurd h (by simp [hreq, hrev])

theorem abandonRevert_kept (m : Mod) :
    (∃ since, (abandonRevert m).out = { m.out with revReq := none, revOut := none, revSince := since }) ∧
      (abandonRevert m).mode = m.mode ∧ TowKept m (abandonRevert m) := by
  have hended (f : TowFrame) : (∃ since, (endRevert (towSend m f)).out = { m.out with revReq := none, revOut := none, revSince := since }) ∧
      (endRevert (towSend m f)).mode = m.mode ∧ TowKept m (endRevert (towSend m f)) := by
    obtain ⟨⟨since, hout⟩, hmode, htow⟩ := endRevert_kept (towSend m f)
    rw [(towSend_pairKept m f).out] at hout
    exact ⟨⟨since, hout⟩, hmode.trans (towSend_pairKept m f).mode, (towSend_pairKept m f).towKept.trans htow⟩
  unfold abandonRevert
  split
  · exact hended _
  · exact hended _
  · next hreq hrev => exact ⟨⟨m.out.revSince, by rw [← hreq, ← hrev]⟩, rfl, .refl m⟩

end Sys2Proof.Machine
end

section
/-!
SUPPORT. Takeovers, the messages to the Referee, and the start of a role (R279, R288 to R297, R302): what a Standby that takes over is,
and what a request to the Referee notes.
-/
namespace Sys2Proof.Machine

/-! ## What a takeover loses of copies (R190, R297) -/

theorem filterTok_pairKept (m : Mod) (g n : Nat) (r : Option (Nat × Nat)) (tag : Nat) (v : Val) (q : Qual) (etag : Option Nat) :
    PairKept m (filterTok m g n r tag v q etag) := by
  unfold filterTok
  split
  · exact .refl m
  · exact ⟨rfl, rfl, rfl, rfl, .of_regs rfl⟩

theorem reportDelays_pairKept (m : Mod) (ch : ChanCfg) (pal e : Nat) : PairKept m (reportDelays m ch pal e) := by
  unfold reportDelays
  split
  · exact (filterTok_pairKept ..).trans (filterTok_pairKept ..)
  · exact .refl m

theorem beginSwitch_pairKept (m : Mod) (g pal e : Nat) : PairKept m (beginSwitch m g pal e) := by
  unfold beginSwitch
  split
  · exact .refl m
  · extract_lets st same fade m1
    have h1 : PairKept m m1 := ⟨rfl, rfl, rfl, rfl, .of_regs rfl⟩
    split
    · exact h1
    · exact h1.trans (.foldl (fun n _ => reportDelays_pairKept n _ pal e) _ m1)

theorem noteLost_pairKept (m : Mod) (r : CopyRec) : PairKept m (noteLost m r) := by
  unfold noteLost
  split
  · exact setFault_pairKept ..
  · exact raiseEvent_pairKept ..
  · exact raiseEvent_pairKept ..
  · exact .refl m

theorem leaveCopy_pairKept (m : Mod) (c : CopyIn) : PairKept m (leaveCopy m c) := by
  refine .foldl (fun n r => ?_) _ m
  split
  · split
    · exact beginSwitch_pairKept ..
    · exact noteLost_pairKept ..
  · exact noteLost_pairKept ..

/-! ## Takeover (R296 to R298) -/

/-- The unit is Active and claims, with TAKEOVER set and counted, before its takeover interval and its publications. -/
def claimTaken (m : Mod) : Mod :=
  bump (setFault (settleClaim (becomeActive (abandonRevert m))) Reg.OUT_FAULT 0) Reg.OUT_CNT_TKO

theorem claimTaken_effect (m : Mod) :
    (claimTaken m).mode.role = .active ∧ (claimTaken m).out.claiming = true ∧ Bit (claimTaken m) Reg.OUT_FAULT 0 := by
  have hrole : (becomeActive (abandonRevert m)).mode.role = .active := by rw [becomeActive_mode]
  obtain ⟨hclaim, hmode⟩ := settleClaim_active hrole
  have hfault := setFault_pairKept (settleClaim (becomeActive (abandonRevert m))) Reg.OUT_FAULT 0 noObj []
  have hkept := hfault.trans (bump_pairKept _ (by decide : Reg.OUT_FAULT ≠ Reg.OUT_CNT_TKO))
  refine ⟨?_, ?_, Bit_bump (by decide) (by decide) (Bit_setFault (by decide) (by decide))⟩
  · rw [claimTaken, hkept.mode, hmode, hrole]
  · rw [claimTaken, hkept.out, hclaim]

theorem claimTaken_towKept (m : Mod) : TowKept m (claimTaken m) :=
  (((abandonRevert_kept m).2.2.trans (becomeActive_towKept _)).trans (settleClaim_towKept _)).trans
    ((setFault_towKept ..).trans (bump_pairKept _ (by decide)).towKept)

theorem takeover_eq {m : Mod} (hrole : m.mode.role = .standby) (hlive : isLive m 0 = true) :
    ∃ (first last : Nat) (l : List CopyIn),
    takeover m = republish (l.foldl leaveCopy (modO (claimTaken m) fun o => { o with tko := some (first, last) })) true first := by
  unfold takeover
  rw [if_neg (by simp [hrole, hlive])]
  extract_lets m1 left m2 first m3
  exact ⟨first, _, left, rfl⟩

/-- A Standby that takes over is Active, claims, is in its takeover interval and shows TAKEOVER. -/
theorem takeover_effect {m : Mod} (hrole : m.mode.role = .standby) (hlive : isLive m 0 = true) :
    (takeover m).mode.role = .active ∧ (takeover m).out.claiming = true ∧ (takeover m).out.tko.isSome = true ∧
      Bit (takeover m) Reg.OUT_FAULT 0 ∧ TowKept m (takeover m) := by
  obtain ⟨first, last, l, heq⟩ := takeover_eq hrole hlive
  obtain ⟨hactive, hclaim, hflag⟩ := claimTaken_effect m
  have hbegun := claimTaken_towKept m
  rw [heq]
  generalize claimTaken m = u at hactive hclaim hflag hbegun
  have hleft := PairKept.foldl leaveCopy_pairKept l (modO u fun o => { o with tko := some (first, last) })
  obtain ⟨⟨pubs, hout⟩, hmode, htow⟩ :=
    republish_kept (l.foldl leaveCopy (modO u fun o => { o with tko := some (first, last) })) true first
  have hall := hleft.towKept.trans htow
  rw [hmode, hleft.mode, hout, hleft.out]
  exact ⟨hactive, hclaim, rfl, hall.flags _ (Bit_modO.2 hflag), (hbegun.trans (modO_towKept u ⟨rfl, rfl, rfl, rfl⟩)).trans hall⟩

theorem takeover_towKept (m : Mod) : TowKept m (takeover m) := by
  by_cases h : m.mode.role = .standby ∧ isLive m 0 = true
  · exact (takeover_effect h.1 h.2).2.2.2.2
  · rw [takeover, if_pos (by simpa [or_iff_not_imp_left] using h)]
    exact .refl m

/-! ## Messages to the Referee (R288 to R290) -/

/-- A message takes at most the next sequence number. -/
theorem refSend_kept (m : Mod) (type : Nat) (body : Bytes) :
    ∃ seq, PairKept (modO m fun o => { o with seq := seq }) (refSend m type body) := by
  unfold refSend
  extract_lets h seq m1
  split
  · exact ⟨m.out.seq, .refl m⟩
  · split
    · exact ⟨seq, sendUdp_pairKept m1 ..⟩
    · exact ⟨m.out.seq, dropUnsigned_pairKept m _⟩

/-- A message that can be signed takes the next sequence number (R288). -/
theorem refSend_seq {m : Mod} (type : Nat) (body : Bytes) (hports : (outHdr m).refPorts ≠ 0)
    (hsign : canSign m (outHdr m).refKey = true) :
    (refSend m type body).out.seq = (m.out.seq + 1) % 2 ^ 64 := by
  unfold refSend
  extract_lets h seq m1
  rw [if_neg hports, if_pos hsign]
  exact congrArg Out.seq (sendUdp_pairKept m1 ..).out

/-- A request to the Referee is noted with the sequence number that it took (R289). -/
theorem askTakeover_kept (m : Mod) (reason : Nat) : ∃ seq,
    PairKept (modO m fun o => { o with seq := seq, reqs := (seq :: o.reqs).take 4096 }) (askTakeover m reason) := by
  unfold askTakeover
  extract_lets body m1
  obtain ⟨seq, h⟩ : ∃ seq, PairKept (modO m fun o => { o with seq := seq }) m1 := refSend_kept m 3 body
  refine ⟨seq, ?_, h.mode, h.clk, h.timers, h.flags⟩
  simp only [modO, h.out]

theorem askTakeover_towKept (m : Mod) (reason : Nat) : TowKept m (askTakeover m reason) := by
  obtain ⟨seq, h⟩ := askTakeover_kept m reason
  exact (modO_towKept m ⟨rfl, rfl, rfl, rfl⟩).trans h.towKept

/-- The newest request noted is the one just sent. -/
theorem askTakeover_newest (m : Mod) (reason : Nat) : (askTakeover m reason).out.reqs.head? = some (askTakeover m reason).out.seq := by
  obtain ⟨seq, h⟩ := askTakeover_kept m reason
  rw [h.out]
  rfl

/-! ## A Standby without the Towpath, and the start of a role (R279, R296, R302) -/

theorem isolatedStep_towKept (m : Mod) : TowKept m (isolatedStep m) := by
  unfold isolatedStep
  split
  · exact .refl m
  · split
    · exact askTakeover_towKept ..
    · exact takeover_towKept m

/-- Where nothing is to be decided, a step of an isolated Standby is none. -/
theorem isolatedStep_idle {m : Mod} (h : m.mode.role ≠ .standby ∨ m.out.towUp = true ∨ m.out.deciding = true) : isolatedStep m = m :=
  if_pos (by rcases h with h | h | h <;> simp [h])

theorem isolatedStep_asks {m : Mod} (hrole : m.mode.role = .standby) (hdown : m.out.towUp = false) (hdecided : m.out.deciding = false)
    (hlost : m.out.hbLost = true) (href : m.out.refPresent = true) : isolatedStep m = askTakeover m 1 := by
  simp [isolatedStep, hrole, hdown, hdecided, hlost, href]

theorem isolatedStep_takesOver {m : Mod} (hrole : m.mode.role = .standby) (hdown : m.out.towUp = false)
    (hdecided : m.out.deciding = false) (hlost : m.out.hbLost = true) (href : m.out.refPresent = false) : isolatedStep m = takeover m := by
  simp [isolatedStep, hrole, hdown, hdecided, hlost, href]

/-- A role that is decided, or one that is not a Standby's, is not decided again. -/
theorem decideRole_decided {m : Mod} (h : m.out.deciding = false ∨ m.mode.role ≠ .standby) : decideRole m = m :=
  if_pos (by rcases h with h | h <;> simp [h])

theorem decideRole_towKept (m : Mod) : TowKept m (decideRole m) := by
  have hdone : TowKept m (stopTimer (stopTimer (modO m fun o => { o with deciding := false }) .takeoverRetry 0) .peerWait 0) :=
    (modO_towKept m ⟨rfl, rfl, rfl, rfl⟩).trans ((stopTimer_towKept (k := .takeoverRetry) _ 0 (by decide)).trans
      (stopTimer_towKept (k := .peerWait) _ 0 (by decide)))
  unfold decideRole
  split
  · exact .refl m
  · split
    · split
      · exact .refl m
      · extract_lets u done
        split
        · split
          · exact .refl m
          · exact setFault_towKept ..
        · split
          · exact hdone
          · split
            · exact becomeActive_towKept m
            · exact hdone
          · exact .refl m
    · split
      · split
        · exact .refl m
        · exact (askTakeover_towKept m 2).trans (startTimer_towKept (k := .takeoverRetry) _ 0 _ (by decide))
      · split
        · exact .refl m
        · exact startTimer_towKept (k := .peerWait) m 0 _ (by decide)

/-! ## Synchronism (R284) -/

theorem unsync_kept (m : Mod) : (unsync m).mode = { m.mode with syncSt := 0, copyTag := none } ∧ (unsync m).out.copies = [] ∧
    (unsync m).out.deciding = m.out.deciding ∧ TowKept m (unsync m) := by
  unfold unsync
  extract_lets src m1 m2
  have h1 : TowKept m m1 := ⟨rfl, rfl, rfl, rfl, rfl, .of_regs rfl⟩
  obtain ⟨⟨since, hout⟩, hmode, htow⟩ := abandonRevert_kept
    (modO m1 fun o => { o with lost := o.lost ++ o.copies, copies := [], open_ := [], sweepEnd := false })
  refine ⟨hmode, ?_, ?_, ((h1.trans (modO_towKept m1 ⟨rfl, rfl, rfl, rfl⟩)).trans htow).trans
    (filterTimers_towKept m2 fun t ht => by simp [ht])⟩
  · exact (congrArg Out.copies hout).trans rfl
  · exact (congrArg Out.deciding hout).trans rfl

end Sys2Proof.Machine
end

section
/-!
SUPPORT. Frames of the Towpath (R273, R280 to R287, R296, R304): what each valid frame does on the unit that takes it.
-/
namespace Sys2Proof.Machine

/-! ## A frame taken or refused (R280) -/

theorem stickyInc_one {v : Word} (h : v ≠ BitVec.allOnes 32) : stickyInc v 1 = v + 1 := by
  have hlt : v.toNat + 1 ≤ 0xFFFFFFFF := by
    have := BitVec.toNat_ne.1 h
    simp at this
    omega
  rw [stickyInc, Nat.min_eq_left hlt]
  simp [BitVec.ofNat_add]

/-- The module that a valid frame finds: the watch of a Towpath that is up has started again. -/
def towWatched (m : Mod) : Mod := if m.out.towUp then startTimer m .towpath 0 (usec 12) else m

theorem towWatched_eq (m : Mod) : ∃ ts, towWatched m = { m with timers := ts } := by
  unfold towWatched
  split
  · exact ⟨_, rfl⟩
  · exact ⟨m.timers, rfl⟩

theorem towRx_valid {m : Mod} (hlanes : m.out.lanes ≠ 0) (f : Mod → Mod) : towRx m true f = f (towWatched m) := by
  rw [towRx, if_neg hlanes]
  rfl

theorem towRx_bad {m : Mod} (hlanes : m.out.lanes ≠ 0) (f : Mod → Mod) : towRx m false f = bump m Reg.OUT_CNT_TPCRC := by
  simp [towRx, hlanes]

theorem towSend_emit {m : Mod} (f : TowFrame) (hlanes : m.out.lanes ≠ 0) : towSend m f = emit m (.tow f) := if_neg hlanes

/-! ## HELLO and HEARTBEAT (R281) -/

theorem seeClaim_out (m : Mod) (claim role : Nat) : ∃ y, (seeClaim m claim role).out = { m.out with yielding := y } := by
  unfold seeClaim
  split
  · exact ⟨true, rfl⟩
  · exact ⟨m.out.yielding, rfl⟩

/-- A HELLO brings the Towpath up and starts its watch; the rest of what it does leaves the Towpath as it then is. -/
theorem towHello_valid {m : Mod} (hlanes : m.out.lanes ≠ 0) (d : HelloData) :
    TowKept (startTimer (modO (towWatched m) fun o => { o with peer := some d, towUp := true }) .towpath 0 (usec 12))
      (towHello m true d) := by
  rw [towHello, towRx_valid hlanes]
  extract_lets m1 m2 src m3
  have h2 : TowKept m1 m2 := seeClaim_towKept ..
  have h3 : TowKept m2 m3 := by
    unfold m3
    split
    · exact ⟨rfl, rfl, rfl, rfl, rfl, .of_regs rfl⟩
    · exact .refl m2
  exact ((h2.trans h3).trans (decideRole_towKept m3)).trans (watchRevert_kept _).2.2

/-- A HEARTBEAT renews what is known of the peer. -/
theorem towHeartbeat_valid {m : Mod} (hlanes : m.out.lanes ≠ 0) (d : HeartbeatData) {p : HelloData} (hp : m.out.peer = some p) :
    (towHeartbeat m true d).out.peer = some { p with role := d.role, epoch := d.epoch, fit := d.fit } ∧
      (towHeartbeat m true d).out.peerTest = some d.test := by
  obtain ⟨ts, hts⟩ := towWatched_eq m
  rw [towHeartbeat, towRx_valid hlanes, hts]
  simp only [hp]
  generalize hm1 : modO _ _ = m1
  obtain ⟨y, hclaim⟩ := seeClaim_out m1 (d.epoch * 256 + p.rank) (roleCode d.role)
  obtain ⟨⟨since, hrevert⟩, -⟩ := watchRevert_kept (seeClaim m1 (d.epoch * 256 + p.rank) (roleCode d.role))
  rw [hrevert, hclaim, ← hm1]
  exact ⟨rfl, rfl⟩

/-! ## Digests (R269, R284, R287) -/

theorem applyReady_notStandby (n : Nat) {m : Mod} (h : m.mode.role ≠ .standby) : applyReady n m = m := by
  cases n with
  | zero => rfl
  | succ n => exact if_pos h

theorem applyReady_empty (n : Nat) {m : Mod} (h : m.out.copies = []) : applyReady n m = m := by
  cases n with
  | zero => rfl
  | succ n => rw [applyReady, h]; exact ite_self _

/-- The first copy waits where its end has not come, or where a synchronised Standby has not seen it clear. -/
theorem applyReady_waits (n : Nat) {m : Mod} {c : CopyIn} {r : List CopyIn} (hcopies : m.out.copies = c :: r)
    (h : c.ended = false ∨ (c.clear = false ∧ m.mode.syncSt ≠ 1)) : applyReady n m = m := by
  cases n with
  | zero => rfl
  | succ n =>
    have hwaits : (c.ended && (c.clear || m.mode.syncSt == 1)) = false := by rcases h with h | ⟨h, h'⟩ <;> simp [*]
    rw [applyReady, hcopies]
    simp [hwaits]

theorem compareDigests_none {m : Mod} {tag : Nat} (h : m.out.own.find? (·.1 == tag) = none) : compareDigests m tag = m := by
  unfold compareDigests
  rw [h]
  exact ite_self _

/-- `n` agrees with `m` on the modes and on the digests noted of the other unit. -/
structure TheirsKept (m n : Mod) : Prop where
  mode : n.mode = m.mode
  theirs : n.out.theirs = m.out.theirs

theorem TheirsKept.trans {a b c : Mod} (h : TheirsKept a b) (k : TheirsKept b c) : TheirsKept a c :=
  ⟨k.mode.trans h.mode, k.theirs.trans h.theirs⟩

theorem PairKept.theirsKept {m n : Mod} (h : PairKept m n) : TheirsKept m n := ⟨h.mode, by rw [h.out]⟩

theorem abandonRevert_theirsKept (m : Mod) : TheirsKept m (abandonRevert m) := by
  obtain ⟨⟨since, hout⟩, hmode, -⟩ := abandonRevert_kept m
  exact ⟨hmode, (congrArg Out.theirs hout).trans rfl⟩

/-- A mismatch counted, with its flag where `new` says so, and the reverts it ends. -/
theorem mismatch_theirsKept (m : Mod) (tag : Nat) (new : Prop) [Decidable new] : TheirsKept m
    (abandonRevert (if new then setFault (bump m Reg.OUT_CNT_MISMATCH) Reg.OUT_FAULT 5 noObj [tag] else bump m Reg.OUT_CNT_MISMATCH)) := by
  have hbump : PairKept m (bump m Reg.OUT_CNT_MISMATCH) := bump_pairKept m (by decide)
  refine TheirsKept.trans ?_ (abandonRevert_theirsKept _)
  split
  · exact (hbump.trans (setFault_pairKept ..)).theirsKept
  · exact hbump.theirsKept

/-- The comparison of two digests leaves the modes and the digests noted of the other unit. -/
theorem compareDigests_theirsKept (m : Mod) (tag : Nat) : TheirsKept m (compareDigests m tag) := by
  unfold compareDigests
  split
  · exact ⟨rfl, rfl⟩
  · split
    · split
      · extract_lets m1 m2
        have h2 : TheirsKept m m2 := by
          unfold m2
          split
          · exact ⟨rfl, rfl⟩
          · exact ((bump_pairKept m (by decide)).trans (raiseEvent_pairKept ..)).theirsKept
        exact h2.trans ⟨rfl, rfl⟩
      · extract_lets new m1 m2 due wait
        have h2 : TheirsKept m m2 := mismatch_theirsKept m tag new
        clear_value m2
        split
        · split
          · exact h2.trans ⟨rfl, rfl⟩
          · exact h2
        · split
          · exact h2
          · split
            · exact h2.trans ⟨rfl, rfl⟩
            · have hclear : TheirsKept m2 (modCopy m2 tag fun c => { c with clear := true }) := ⟨rfl, rfl⟩
              exact (h2.trans hclear).trans (setFault_pairKept ..).theirsKept
    · exact ⟨rfl, rfl⟩

/-- A unit that is no Standby notes a DIGEST. -/
theorem towDigest_notes {m : Mod} (hlanes : m.out.lanes ≠ 0) (hrole : m.mode.role ≠ .standby) (tag o st : Nat) :
    (towDigest m true tag o st).out.theirs = ((tag, o, st) :: m.out.theirs).take 64 := by
  obtain ⟨ts, hts⟩ := towWatched_eq m
  rw [towDigest, towRx_valid hlanes, hts]
  extract_lets m1 m2
  have hm2 : m2 = m1 := if_neg fun h => hrole h.1
  have hcompared := compareDigests_theirsKept m2 tag
  rw [applyReady_notStandby 64 (by rw [hcompared.mode, hm2]; exact hrole), hcompared.theirs, hm2]
  rfl

/-- On a synchronised Standby without copies the DIGEST of a tag begins its copy and its bound. -/
theorem towDigest_begins {m : Mod} {tag : Nat} (hlanes : m.out.lanes ≠ 0) (hrole : m.mode.role = .standby) (hsync : m.mode.syncSt = 2)
    (hown : m.out.own.find? (·.1 == tag) = none) (hcopies : m.out.copies = []) (o st : Nat) : ∃ ts,
    towDigest m true tag o st = startTimer (modO { m with timers := ts } fun x =>
      { x with theirs := ((tag, o, st) :: x.theirs).take 64, copies := [{ tag := tag }] }) .copyBound tag (cycleTime m) := by
  obtain ⟨ts, hts⟩ := towWatched_eq m
  refine ⟨ts, ?_⟩
  rw [towDigest, towRx_valid hlanes, hts]
  extract_lets m1 m2
  have hopen : openCopy m1 tag = modO m1 fun x => { x with copies := [{ tag := tag }] } := by
    simp [openCopy, m1, modO, hcopies]
  have hm2 : m2 = startTimer (modO m1 fun x => { x with copies := [{ tag := tag }] }) .copyBound tag (cycleTime m) := by
    rw [← hopen]
    exact if_pos ⟨hrole, hsync⟩
  have hsame : compareDigests m2 tag = m2 := compareDigests_none (by rw [hm2]; exact hown)
  rw [hsame, hm2, applyReady_waits (c := { tag := tag }) (r := []) 64 rfl (.inl rfl)]
  rfl

/-! ## Copies and sweeps (R284, R285) -/

theorem openCopy_find (m : Mod) (tag : Nat) : (openCopy m tag).out.copies.find? (·.tag == tag) =
    some ((m.out.copies.find? (·.tag == tag)).getD { tag := tag }) := by
  unfold openCopy
  split
  · next h =>
    obtain ⟨c, hc⟩ := Option.isSome_iff_exists.1 ((List.find?_isSome (p := fun c : CopyIn => c.tag == tag)).2 (by simpa using h))
    rw [hc]
    rfl
  · next h =>
    have hnone (l : List CopyIn) (hl : l.Sublist m.out.copies) : l.find? (·.tag == tag) = none :=
      List.find?_eq_none.2 fun c hc hct => h (List.any_eq_true.2 ⟨c, hl.subset hc, hct⟩)
    simp [modO, hnone _ List.filter_sublist, hnone _ (List.Sublist.refl _)]

theorem modCopy_find (m : Mod) (tag : Nat) {f : CopyIn → CopyIn} (hf : ∀ c, (f c).tag = c.tag) :
    (modCopy m tag f).out.copies.find? (·.tag == tag) = (m.out.copies.find? (·.tag == tag)).map f := by
  have htag (c : CopyIn) : (if c.tag = tag then f c else c).tag = c.tag := by split <;> simp [hf]
  simp only [modCopy, modO, List.find?_map, Function.comp_def, htag]
  cases h : m.out.copies.find? (·.tag == tag) with
  | none => rfl
  | some c => simp [by simpa using List.find?_some h]

/-- COPY adds its records to those of its tag's copy. -/
theorem towCopy_adds {m : Mod} (hlanes : m.out.lanes ≠ 0) (hrole : m.mode.role = .standby)
    (hsync : m.mode.syncSt = 1 ∨ m.mode.syncSt = 2) (tag : Nat) (recs : List CopyRec) :
    ((towCopy m true tag recs).out.copies.find? (·.tag == tag)).map (·.recs) =
      some (((m.out.copies.find? (·.tag == tag)).map (·.recs)).getD [] ++ recs) := by
  obtain ⟨ts, hts⟩ := towWatched_eq m
  rw [towCopy, towRx_valid hlanes, hts, if_neg (by rcases hsync with h | h <;> simp [hrole, h]), modCopy_find, openCopy_find]
  · cases m.out.copies.find? (·.tag == tag) <;> rfl
  · exact fun _ => rfl

/-- COPY_END ends the one copy, where it agrees; it then waits for its clearance. -/
theorem towCopyEnd_ends {m : Mod} {c : CopyIn} (hlanes : m.out.lanes ≠ 0) (hrole : m.mode.role = .standby) (hsync : m.mode.syncSt = 2)
    (hcopies : m.out.copies = [c]) (hclear : c.clear = false) (hown : m.out.own.find? (·.1 == c.tag) = none) :
    (towCopyEnd m true c.tag c.recs.length (Config.copyBytes c.recs).length (crc32c (Config.copyBytes c.recs))).out.copies =
      [{ c with ended := true }] := by
  obtain ⟨ts, hts⟩ := towWatched_eq m
  rw [towCopyEnd, towRx_valid hlanes, hts, if_neg (by simp [hrole, hsync])]
  extract_lets m1 m2 agreed
  have hm1 : m1 = { m with timers := ts } := if_pos (by simp [hcopies])
  have hm2 : m2.out.copies = [{ c with ended := true }] := by simp [m2, modCopy, modO, hm1, hcopies]
  have hagreed : agreed = false := by
    have : m2.out.own.find? (·.1 == c.tag) = none := by rw [show m2.out.own = m.out.own by simp [m2, modCopy, modO, hm1], hown]
    simp [agreed, this]
  have hmode : m2.mode.syncSt = 2 := by simp [m2, modCopy, modO, hm1, hsync]
  obtain ⟨⟨since, hout⟩, -⟩ := watchRevert_kept m2
  simp only [hagreed, Bool.false_eq_true, if_false]
  rw [applyReady_waits 64 hm2 (.inr ⟨hclear, by omega⟩), hout, hm2]

/-- SWEEP on an unsynchronised Standby installs its segment. -/
theorem towSweep_installs {m : Mod} (hlanes : m.out.lanes ≠ 0) (hrole : m.mode.role = .standby) (hsync : m.mode.syncSt ≠ 2) (f t : Nat)
    (w : List Nat) (last : Bool) : (towSweep m true [.segment f t w] last).mode.syncSt = 1 ∧
      tabGet (tabGet (towSweep m true [.segment f t w] last).td.flows f).segs t = wordsSeg w ∧
        (towSweep m true [.segment f t w] last).out.sweepEnd = (last || m.out.sweepEnd) := by
  obtain ⟨ts, hts⟩ := towWatched_eq m
  rw [towSweep, towRx_valid hlanes, hts, if_neg (by simp [hrole, hsync])]
  have hseg (u : Mod) : tabGet (tabGet (applyRec u (.segment f t w)).td.flows f).segs t = wordsSeg w := by
    simp [applyRec, modTd]
  cases last with
  | false => exact ⟨rfl, hseg _, rfl⟩
  | true => exact ⟨rfl, hseg _, rfl⟩

/-! ## Reverts (R304) -/

theorem towRevertReq_acknowledged {m : Mod} (hlanes : m.out.lanes ≠ 0) (hrole : m.mode.role = .active) (hcommit : m.img.commit = none)
    (htko : m.out.tko = none) (hopen : m.out.open_ = []) (tag : Nat) : ∃ ts, towRevertReq m true tag =
    emit (modO { m with timers := ts } fun o => { o with revOut := some tag }) (.tow (.revertAck tag)) := by
  obtain ⟨ts, hts⟩ := towWatched_eq m
  refine ⟨ts, ?_⟩
  rw [towRevertReq, towRx_valid hlanes, hts]
  exact (if_neg (by simp [hrole, hcommit, htko, hopen])).trans (towSend_emit _ hlanes)

theorem towRevertReq_refused {m : Mod} (hlanes : m.out.lanes ≠ 0)
    (hbusy : m.mode.role ≠ .active ∨ m.img.commit.isSome = true ∨ m.out.tko.isSome = true ∨ m.out.open_ ≠ []) (tag : Nat) :
    ∃ ts, towRevertReq m true tag = emit { m with timers := ts } (.tow (.revertNak tag)) := by
  obtain ⟨ts, hts⟩ := towWatched_eq m
  refine ⟨ts, ?_⟩
  rw [towRevertReq, towRx_valid hlanes, hts]
  exact (if_pos (by rcases hbusy with h | h | h | h <;> simp [h])).trans (towSend_emit _ hlanes)

theorem towRevertNak_ends {m : Mod} {tag : Nat} (hlanes : m.out.lanes ≠ 0)
    (h : m.out.revReq.map (·.1) = some tag ∨ m.out.revOut = some tag) :
    (towRevertNak m true tag).out.revReq = none ∧ (towRevertNak m true tag).out.revOut = none ∧
      Bit (towRevertNak m true tag) Reg.OUT_FAULT 11 := by
  obtain ⟨ts, hts⟩ := towWatched_eq m
  rw [towRevertNak, towRx_valid hlanes, hts, if_pos h]
  obtain ⟨⟨since, hout⟩, -⟩ := endRevert_kept { m with timers := ts }
  rw [hout]
  refine ⟨rfl, rfl, endRevert_flag ?_⟩
  rcases h with h | h
  · exact .inl fun hnone => by simp [show m.out.revReq = none from hnone] at h
  · exact .inr (by simp [h])

/-- Settles O53, a valid frame of each kind in turn, and the frame of a bad CRC. -/
theorem towpathFramesAreTaken : Obligations.TowpathFramesAreTaken := by
  intro s hp hlanes
  obtain ⟨ts, hts⟩ := towWatched_eq s.m
  refine ⟨fun d => ?_, fun d hcount => ?_, fun d p hpeer => ?_, fun tag o st hrole => ?_, fun tag o st hrole hsync hown hcopies => ?_,
    fun tag recs hrole hsync => ?_, ?_, fun f t w last hrole hsync => ?_, fun r tag hrole hlive => ?_, ?_, ?_, fun tag x hreq => ?_,
    fun tag hrev => ?_⟩
  · refine ⟨(exec_hello true d s).trans (runS_powered _ hp), ?_⟩
    have hkept := towHello_valid hlanes d
    refine ⟨hkept.peer, hkept.up, hkept.watch.trans ?_⟩
    rw [timerDue_startTimer, hts]
    rfl
  · refine ⟨(exec_hello false d s).trans (runS_powered _ hp), ?_⟩
    rw [towHello, towRx_bad hlanes]
    refine ⟨?_, (bump_pairKept s.m (by decide)).out⟩
    rw [reg_bump _ _ (by decide), if_pos rfl, stickyInc_one hcount]
  · exact ⟨(exec_heartbeat true d s).trans (runS_powered _ hp), towHeartbeat_valid hlanes d hpeer⟩
  · exact ⟨(exec_digest true tag o st s).trans (runS_powered _ hp), towDigest_notes hlanes hrole tag o st⟩
  · refine ⟨(exec_digest true tag o st s).trans (runS_powered _ hp), ?_⟩
    obtain ⟨ts', heq⟩ := towDigest_begins hlanes hrole hsync hown hcopies o st
    rw [heq, timerDue_startTimer]
    exact ⟨rfl, rfl, rfl⟩
  · exact ⟨(exec_copy true tag recs s).trans (runS_powered _ hp), towCopy_adds hlanes hrole hsync tag recs⟩
  · rintro tag n b crc c hrole hsync hcopies rfl hclear hown rfl rfl rfl
    exact ⟨(exec_copyEnd true _ _ _ _ s).trans (runS_powered _ hp), towCopyEnd_ends hlanes hrole hsync hcopies hclear hown⟩
  · exact ⟨(exec_sweep true _ last s).trans (runS_powered _ hp), towSweep_installs hlanes hrole hsync f t w last⟩
  · refine ⟨(exec_fault true r tag s).trans (runS_powered _ hp), ?_⟩
    rw [towFault, towRx_valid hlanes, hts]
    obtain ⟨hactive, hclaim, htko, hflag, -⟩ := takeover_effect (m := { s.m with timers := ts }) hrole hlive
    exact ⟨hactive, hclaim, htko, hflag⟩
  · intro tag hrole hcommit htko hopen
    obtain ⟨ts', heq⟩ := towRevertReq_acknowledged hlanes hrole hcommit htko hopen tag
    exact ⟨(exec_revertReq true tag s).trans (runS_powered _ hp), by rw [heq]; exact ⟨rfl, rfl⟩⟩
  · intro tag hbusy
    obtain ⟨ts', heq⟩ := towRevertReq_refused hlanes hbusy tag
    exact ⟨(exec_revertReq true tag s).trans (runS_powered _ hp), by rw [heq]; exact ⟨rfl, rfl⟩⟩
  · constructor
    · refine ⟨(exec_revertAck true tag s).trans (runS_powered _ hp), ?_⟩
      rw [towRevertAck, towRx_valid hlanes, hts]
      simp [hreq, modO]
    · refine ⟨(exec_revertNak true tag s).trans (runS_powered _ hp), ?_⟩
      obtain ⟨hnone, -, hflag⟩ := towRevertNak_ends (tag := tag) hlanes (.inl (by simp [hreq]))
      exact ⟨hnone, hflag⟩
  · refine ⟨(exec_revertNak true tag s).trans (runS_powered _ hp), ?_⟩
    obtain ⟨-, hnone, hflag⟩ := towRevertNak_ends hlanes (.inr hrev)
    exact ⟨hnone, hflag⟩

end Sys2Proof.Machine
end

section
/-!
SUPPORT. Timers and lanes of the Towpath, and the watches of a Standby (R279 to R287, R296, R298, R302 to R304).
-/
namespace Sys2Proof.Machine

/-! ## The Towpath is lost (R282, R296, R302) -/

/-- The module with its Towpath noted as lost, before the roles see it. -/
def towSilent (m : Mod) : Mod :=
  stopTimer (setFault (modO m fun o => { o with towUp := false, sweeping := false, sweepLeft := [] }) Reg.OUT_FAULT 2) .towpath 0

theorem towSilent_out (m : Mod) : (towSilent m).out = { m.out with towUp := false, sweeping := false, sweepLeft := [] } :=
  (setFault_pairKept ..).out

theorem towSilent_mode (m : Mod) : (towSilent m).mode = m.mode := (setFault_pairKept ..).mode

theorem towSilent_flags (m : Mod) : FlagsKept m (towSilent m) ∧ Bit (towSilent m) Reg.OUT_FAULT 2 :=
  ⟨(setFault_pairKept (modO m fun o => { o with towUp := false, sweeping := false, sweepLeft := [] }) Reg.OUT_FAULT 2 noObj []).flags,
    Bit_setFault (by decide) (by decide)⟩

/-- A Standby whose start is decided, with the Towpath lost, before it asks or takes over. -/
def towIsolated (m : Mod) : Mod :=
  let m := unsync (abandonRevert (towSilent m))
  { m with mode := { m.mode with syncSt := 3 } }

theorem towIsolated_kept (m : Mod) : (towIsolated m).mode.syncSt = 3 ∧ (towIsolated m).out.copies = [] ∧
    TowKept (towSilent m) (towIsolated m) := by
  obtain ⟨-, hcopies, -, hunsync⟩ := unsync_kept (abandonRevert (towSilent m))
  have hmode : TowKept (unsync (abandonRevert (towSilent m))) (towIsolated m) := ⟨rfl, rfl, rfl, rfl, rfl, .of_regs rfl⟩
  exact ⟨rfl, hcopies, ((abandonRevert_kept _).2.2.trans hunsync).trans hmode⟩

/-- Another unit than a Standby only notes the loss, and abandons its reverts. -/
theorem towLost_other {m : Mod} (hup : m.out.towUp = true) (hrole : m.mode.role ≠ .standby) :
    towLost m = abandonRevert (towSilent m) := by
  have hmode : (abandonRevert (towSilent m)).mode = m.mode := (abandonRevert_kept _).2.1.trans (towSilent_mode m)
  have hother : (abandonRevert (towSilent m)).mode.role ≠ .standby := by rwa [hmode]
  rw [towLost, if_neg (by simp [hup])]
  exact (if_pos (by simp [towSilent] at hother ⊢; exact .inl hother)).trans (decideRole_decided (.inr hother))

/-- A Standby whose start is decided asks the Referee, or steps without it. -/
theorem towLost_standby {m : Mod} (hup : m.out.towUp = true) (hrole : m.mode.role = .standby) (hdecided : m.out.deciding = false) :
    towLost m = if m.out.refPresent then askTakeover (towIsolated m) 0
      else isolatedStep (if timerOn (towIsolated m) .hbWait 0 || (towIsolated m).out.hbLost then towIsolated m
        else startTimer (towIsolated m) .hbWait 0 (usec (outHdr (towIsolated m)).hbWait)) := by
  obtain ⟨⟨since, hout⟩, hmode, -⟩ := abandonRevert_kept (towSilent m)
  have hstandby : (abandonRevert (towSilent m)).mode.role = .standby := by rw [hmode, towSilent_mode, hrole]
  have hdone : (abandonRevert (towSilent m)).out.deciding = false := by rw [hout, towSilent_out]; exact hdecided
  have href : (towIsolated m).out.refPresent = m.out.refPresent := by
    rw [(towIsolated_kept m).2.2.referee, towSilent_out]
  rw [← href, towLost, if_neg (by simp [hup])]
  exact if_neg (by simp only [towSilent] at hstandby hdone; simp [hstandby, hdone])

theorem towLost_towKept {m : Mod} (hup : m.out.towUp = true) : TowKept (towSilent m) (towLost m) := by
  have habandon : TowKept (towSilent m) (abandonRevert (towSilent m)) := (abandonRevert_kept _).2.2
  by_cases hrole : m.mode.role = .standby
  · cases hdecided : m.out.deciding
    · have hisolated := (towIsolated_kept m).2.2
      rw [towLost_standby hup hrole hdecided]
      split
      · exact hisolated.trans (askTakeover_towKept ..)
      · refine (hisolated.trans ?_).trans (isolatedStep_towKept _)
        split
        · exact .refl _
        · exact startTimer_towKept (k := .hbWait) _ 0 _ (by decide)
    · have hdeciding : (abandonRevert (towSilent m)).out.deciding = true := by
        obtain ⟨⟨since, hout⟩, -⟩ := abandonRevert_kept (towSilent m)
        rw [hout, towSilent_out]
        exact hdecided
      have heq : towLost m = decideRole (abandonRevert (towSilent m)) := by
        rw [towLost, if_neg (by simp [hup])]
        exact if_pos (by simp only [towSilent] at hdeciding; simp [hdeciding])
      rw [heq]
      exact habandon.trans (decideRole_towKept _)
  · rw [towLost_other hup hrole]
    exact habandon

/-- Whatever the unit makes of it, its Towpath is down, its lanes are as they were and no flag is lost. -/
theorem towLost_down (m : Mod) : (towLost m).out.towUp = false ∧ (towLost m).out.lanes = m.out.lanes ∧ FlagsKept m (towLost m) := by
  cases hup : m.out.towUp
  · have heq : towLost m = m := if_pos (by simp [hup])
    rw [heq]
    exact ⟨hup, rfl, .refl m⟩
  · have hkept := towLost_towKept hup
    rw [hkept.up, hkept.lanes, towSilent_out]
    exact ⟨rfl, rfl, (towSilent_flags m).1.trans hkept.flags⟩

/-! ## Lanes (R281, R282, R286) -/

theorem laneLoss_effect {m : Mod} {n : Nat} (hlanes : m.out.lanes = n + 1) : (laneLoss m).out.lanes = n ∧
    Bit (laneLoss m) Reg.OUT_FAULT 3 ∧ (n = 0 → (laneLoss m).out.towUp = false) := by
  unfold laneLoss
  rw [if_neg (by omega)]
  extract_lets m1
  have hout : m1.out = { m.out with lanes := m.out.lanes - 1 } := (setFault_pairKept ..).out
  have hflag : Bit m1 Reg.OUT_FAULT 3 := Bit_setFault (by decide) (by decide)
  have hleft : m1.out.lanes = n := by
    rw [hout]
    simp [hlanes]
  obtain ⟨hdown, hsame, hflags⟩ := towLost_down m1
  split
  · exact ⟨hsame.trans hleft, hflags _ hflag, fun _ => hdown⟩
  · next hsome => exact ⟨hleft, hflag, fun hn => absurd (hleft.trans hn) hsome⟩

theorem laneRegain_effect {m : Mod} (hlanes : m.out.lanes < 2) : (laneRegain m).out.lanes = m.out.lanes + 1 ∧
    (m.out.lanes = 0 → ∃ d, (laneRegain m).sent = .tow (.hello d) :: m.sent) := by
  unfold laneRegain
  rw [if_neg (by omega)]
  extract_lets first m1
  split
  · rw [towSend_emit _ (Nat.succ_ne_zero _)]
    exact ⟨rfl, fun _ => ⟨_, rfl⟩⟩
  · next h => exact ⟨rfl, fun hn => absurd (beq_iff_eq.2 hn) h⟩

/-! ## Copies (R284, R287) -/

theorem watchRevert_td (m : Mod) : (watchRevert m).td = m.td := by
  unfold watchRevert
  split
  · rfl
  · split <;> rfl

/-- The only copy, of one segment, applied where no revert is asked for. -/
theorem applyCopy_segment {m : Mod} {c : CopyIn} {f t : Nat} {w : List Nat} (hcopies : m.out.copies = [c])
    (hreq : m.out.revReq = none) (hrecs : c.recs = [.segment f t w]) :
    (applyCopy m c).out = { m.out with copies := [], copied := c.tag } ∧ (applyCopy m c).mode = { m.mode with copyTag := some c.tag } ∧
      tabGet (tabGet (applyCopy m c).td.flows f).segs t = wordsSeg w ∧ FlagsKept m (applyCopy m c) := by
  unfold applyCopy
  rw [hrecs]
  extract_lets m1 m2 m3 src m4 m5
  have hout : m4.out = { m.out with copies := [], copied := c.tag } := by
    simp [m4, m3, m2, m1, applyRec, modTd, modO, stopTimer, setReg, setRegO, hcopies]
  have hnone : m5 = m4 := by
    unfold m5
    rw [hout]
    exact ite_self _
  have hstays : revertApplied m4 c.tag = m4 := by
    rw [revertApplied, hout]
    simp [hreq]
  have hseg : tabGet (tabGet m4.td.flows f).segs t = wordsSeg w := by
    simp [m4, m3, applyRec, modTd, setReg, setRegO]
  rw [hnone, hstays]
  exact ⟨hout, rfl, hseg, setReg_flagsKept _ _ (by decide)⟩

/-- A wait that is over clears the one copy, which is then applied. -/
theorem verdictWaitExpiry_applies {m : Mod} {c : CopyIn} {f t : Nat} {w : List Nat} (hdue : Due m .verdictWait c.tag)
    (hrole : m.mode.role = .standby) (hsync : m.mode.syncSt = 2) (hreq : m.out.revReq = none) (hcopies : m.out.copies = [c])
    (hended : c.ended = true) (hrecs : c.recs = [.segment f t w]) :
    (verdictWaitExpiry m c.tag).out.copies = [] ∧ (verdictWaitExpiry m c.tag).mode.copyTag = some c.tag ∧
      tabGet (tabGet (verdictWaitExpiry m c.tag).td.flows f).segs t = wordsSeg w ∧
        Bit (verdictWaitExpiry m c.tag) Reg.OUT_FAULT 6 ∧
          (verdictWaitExpiry m c.tag).out.open_ = m.out.open_.filter (· ≠ c.tag) := by
  rw [verdictWaitExpiry, expire_of_due hdue]
  extract_lets m1
  rw [if_pos (show m1.mode.role = .standby from hrole)]
  generalize hm2 : setFault (modCopy m1 c.tag fun c => { c with clear := true }) Reg.OUT_FAULT 6 = m2
  have hkept : PairKept (modCopy m1 c.tag fun c => { c with clear := true }) m2 := hm2 ▸ setFault_pairKept ..
  have hout : m2.out = { m1.out with copies := [{ c with clear := true }] } := by
    rw [hkept.out]
    simp [modCopy, modO, m1, hcopies]
  have hmode : m2.mode = m.mode := hkept.mode
  have hflag : Bit m2 Reg.OUT_FAULT 6 := hm2 ▸ Bit_setFault (by decide) (by decide)
  obtain ⟨hout3, hmode3, hseg, hflags⟩ := applyCopy_segment (m := m2) (c := { c with clear := true }) (f := f) (t := t) (w := w)
    (by rw [hout]) (by rw [hout]; exact hreq) hrecs
  have hready : applyReady 64 m2 = applyCopy m2 { c with clear := true } := by
    rw [applyReady, hout, if_neg (by rw [hmode]; simp [hrole])]
    refine (if_pos ?_).trans (applyReady_empty 63 ?_)
    · simp [hended, hmode, hsync]
    · rw [hout3]
  rw [hready, watchRevert_td]
  obtain ⟨⟨since, hrev⟩, hrevMode, hrevKept⟩ := watchRevert_kept (applyCopy m2 { c with clear := true })
  rw [hrev, hrevMode, hout3, hmode3]
  exact ⟨rfl, rfl, hseg, hrevKept.flags _ (hflags _ hflag), by rw [hout]; rfl⟩

/-- A bound that is missed ends synchronism, where no held copy comes before it. -/
theorem copyBoundMiss_effect {m : Mod} {tag : Nat} (hdue : Due m .copyBound tag) (hrole : m.mode.role = .standby)
    (hsync : m.mode.syncSt = 2) (hwaits : (m.out.copies.any fun c => c.held && tagBefore c.tag tag) = false) :
    (copyBoundMiss m tag).mode.syncSt = 0 ∧ (copyBoundMiss m tag).out.copies = [] ∧ Bit (copyBoundMiss m tag) Reg.OUT_FAULT 4 := by
  rw [copyBoundMiss, expire_of_due hdue]
  extract_lets waits
  rw [if_pos ⟨hrole, hsync, by simpa [waits] using hwaits⟩]
  generalize hm1 : setFault (stopTimer m .copyBound tag) Reg.OUT_FAULT 4 = m1
  have hflag : Bit m1 Reg.OUT_FAULT 4 := hm1 ▸ Bit_setFault (by decide) (by decide)
  obtain ⟨hmode, hcopies, -, hkept⟩ := unsync_kept m1
  obtain ⟨⟨since, hrev⟩, hrevMode, hrevKept⟩ := watchRevert_kept (unsync m1)
  rw [hrev, hrevMode, hmode]
  exact ⟨rfl, hcopies, hrevKept.flags _ (hkept.flags _ hflag)⟩

/-! ## The watches of a Standby (R279, R302) -/

theorem peerWaitExpiry_decides {m : Mod} (hdue : Due m .peerWait 0) (hdeciding : m.out.deciding = true)
    (hrole : m.mode.role = .standby) (hlive : isLive m 0 = true) : (peerWaitExpiry m).out.deciding = false ∧
      if m.out.hbHeard then (peerWaitExpiry m).mode.syncSt = 3 ∧ (peerWaitExpiry m).mode.role = .standby
      else (peerWaitExpiry m).mode.role = .active := by
  have hlive' : isLive (stopTimer m .peerWait 0) 0 = true := hlive
  rw [peerWaitExpiry, expire_of_due hdue, if_neg (by simpa [stopTimer, hdeciding, hrole] using hlive')]
  split
  · next h =>
    rw [if_pos (show m.out.hbHeard = true from h)]
    exact ⟨rfl, rfl, hrole⟩
  · next h =>
    rw [if_neg (show ¬m.out.hbHeard = true from h), becomeActive_out, becomeActive_mode]
    exact ⟨rfl, rfl⟩

/-- The module whose heartbeat watch has run out. -/
def heartbeatLost (m : Mod) : Mod := modO (stopTimer m .hbWait 0) fun o => { o with hbLost := true }

theorem hbWaitExpiry_due {m : Mod} (hdue : Due m .hbWait 0) : hbWaitExpiry m = isolatedStep (heartbeatLost m) := expire_of_due hdue _

/-- Settles O54, the Towpath's timers and lanes and then the watches of a Standby. -/
theorem towpathTimersAndTakeover : Obligations.TowpathTimersAndTakeover := by
  intro s hp
  refine ⟨fun hdue hlanes => ?_, fun hdue hlanes => ?_, fun hdue hup hrole => ?_, fun hdue hup hrole hdecided href => ?_,
    fun n hlanes => ?_, fun hlanes => ?_, fun hdue hdeciding hdown href => ?_, fun hdue hdeciding hrole hlive => ?_,
    fun hdue hrole => ⟨fun hidle => ?_, fun hdown hdecided href => ?_, fun hdown hdecided href hlive => ?_⟩, ?_,
    fun tag hdue hrole hsync hwaits => ?_, fun a b t htko hlast hle => ?_, fun hdue hready hlanes => ?_⟩
  · refine ⟨(exec_helloTimer s).trans (runM_powered _ hp), ?_⟩
    rw [helloTimer, expire_of_due hdue, towSend_emit (m := stopTimer s.m .hello 0) _ hlanes]
    exact ⟨⟨_, rfl, rfl⟩, timerDue_startTimer ..⟩
  · refine ⟨(exec_heartbeatTimer s).trans (runM_powered _ hp), ?_⟩
    rw [heartbeatTimer, expire_of_due hdue]
    extract_lets d
    rw [towSend_emit (m := stopTimer s.m .heartbeat 0) _ hlanes]
    exact ⟨⟨d, rfl, rfl, rfl⟩, timerDue_startTimer ..⟩
  · refine ⟨(exec_towpathLost s).trans (runS_powered _ hp), ?_⟩
    rw [towpathLost, expire_of_due hdue, towLost_other (m := stopTimer s.m .towpath 0) hup hrole]
    obtain ⟨⟨since, hout⟩, hmode, hkept⟩ := abandonRevert_kept (towSilent (stopTimer s.m .towpath 0))
    rw [hout, hmode, towSilent_mode, towSilent_out]
    exact ⟨rfl, hkept.flags _ (towSilent_flags _).2, rfl⟩
  · refine ⟨(exec_towpathLost s).trans (runS_powered _ hp), ?_⟩
    have hkept := towLost_towKept (m := stopTimer s.m .towpath 0) hup
    rw [towpathLost, expire_of_due hdue]
    refine ⟨(towLost_down _).1, hkept.flags _ (towSilent_flags _).2, ?_⟩
    rw [towLost_standby (m := stopTimer s.m .towpath 0) hup hrole hdecided,
      if_pos (show (stopTimer s.m .towpath 0).out.refPresent = true from href)]
    obtain ⟨hsync, hcopies, -⟩ := towIsolated_kept (stopTimer s.m .towpath 0)
    obtain ⟨seq, hask⟩ := askTakeover_kept (towIsolated (stopTimer s.m .towpath 0)) 0
    refine ⟨?_, ?_, askTakeover_newest _ _⟩
    · rw [hask.mode]
      exact hsync
    · rw [hask.out]
      exact hcopies
  · exact ⟨(exec_towpathLaneLockLoss s).trans (runS_powered _ hp), laneLoss_effect hlanes⟩
  · exact ⟨(exec_towpathLaneLockRegain s).trans (runM_powered _ hp), laneRegain_effect hlanes⟩
  · refine ⟨(exec_takeoverReqRetry s).trans (runM_powered _ hp), ?_⟩
    obtain ⟨seq, hask⟩ := askTakeover_kept (stopTimer s.m .takeoverRetry 0) 2
    rw [takeoverRetry, expire_of_due hdue, if_pos (by simp [stopTimer, hdeciding, hdown, href]), timerDue_startTimer, hask.clk]
    exact ⟨askTakeover_newest _ _, rfl⟩
  · exact ⟨(exec_startPeerWaitExpiry s).trans (runS_powered _ hp), peerWaitExpiry_decides hdue hdeciding hrole hlive⟩
  · refine ⟨(exec_hbWaitExpiry s).trans (runS_powered _ hp), ?_⟩
    rw [hbWaitExpiry_due hdue, isolatedStep_idle (m := heartbeatLost s.m) (.inr hidle)]
    exact ⟨rfl, hrole⟩
  · refine ⟨(exec_hbWaitExpiry s).trans (runS_powered _ hp), ?_⟩
    obtain ⟨seq, hask⟩ := askTakeover_kept (heartbeatLost s.m) 1
    rw [hbWaitExpiry_due hdue, isolatedStep_asks (m := heartbeatLost s.m) hrole hdown hdecided rfl href]
    refine ⟨?_, ?_, askTakeover_newest _ _⟩
    · rw [hask.out]
      rfl
    · rw [hask.mode]
      exact hrole
  · refine ⟨(exec_hbWaitExpiry s).trans (runS_powered _ hp), ?_⟩
    rw [hbWaitExpiry_due hdue, isolatedStep_takesOver (m := heartbeatLost s.m) hrole hdown hdecided rfl href]
    obtain ⟨hactive, -, -, hflag, -⟩ := takeover_effect (m := heartbeatLost s.m) hrole hlive
    exact ⟨hactive, hflag⟩
  · rintro tag c f t w hdue hrole hsync hreq hcopies rfl hended hrecs
    exact ⟨(exec_verdictWaitExpiry _ s).trans (runS_powered _ hp),
      verdictWaitExpiry_applies hdue hrole hsync hreq hcopies hended hrecs⟩
  · exact ⟨(exec_copyBoundMiss tag s).trans (runS_powered _ hp), copyBoundMiss_effect hdue hrole hsync hwaits⟩
  · refine ⟨(exec_takeoverIntervalEnd s).trans (runS_powered _ hp), ?_⟩
    rw [takeoverEnd, htko, hlast]
    exact if_pos hle
  · refine ⟨(exec_revertHoldExpiry s).trans (runS_powered _ hp), ?_⟩
    rw [revertHoldExpiry, expire_of_due hdue, if_pos (show revertReady (stopTimer s.m .revertHold 0) = true from hready)]
    exact ⟨congrArg Out.revReq (towSend_pairKept ..).out, congrArg Mod.sent (if_neg hlanes)⟩

end Sys2Proof.Machine
end

section
/-!
SUPPORT. The Referee, its messages at the units, and the unit's registers (R273, R275, R287 to R295, R302, R308).
-/
namespace Sys2Proof.Machine

/-! ## A message taken (R288) -/

/-- A message that is taken leaves its buffer, and its sequence number is noted. -/
theorem refTake_eq {m m' : Mod} {p type : Nat} {x : Nat × Nat × Bytes} (h : refTake m p type = (some x, m')) :
    ∃ net seqs, m' = { m with net := net, out := { m.out with seqs := seqs } } := by
  unfold refTake at h
  extract_lets hdr at h
  split at h
  · cases h
  · split at h
    · cases h
    · next it m1 htake =>
      split at h
      · extract_lets fld len unit seq key mac next at h
        split at h
        · obtain ⟨-, rfl⟩ := Prod.mk.inj h
          exact ⟨m1.net, _, by rw [takeControl_eq htake]; rfl⟩
        · cases h
      · cases h

theorem refSend_clk (m : Mod) (type : Nat) (body : Bytes) : (refSend m type body).clk = m.clk := by
  obtain ⟨seq, hsent⟩ := refSend_kept m type body
  exact hsent.clk

section
variable {m m' : Mod} {p n q : Nat} {b : Bytes}

theorem refTake_mode {type : Nat} {x : Nat × Nat × Bytes} (h : refTake m p type = (some x, m')) : m'.mode = m.mode := by
  obtain ⟨net, seqs, rfl⟩ := refTake_eq h
  rfl

theorem isLive_of_parts {u v : Mod} (h : u.parts = v.parts) (k : Nat) : isLive u k = isLive v k := by
  rw [isLive, isLive, partOf_congr h]

/-! ## VERDICT (R287, R291) -/

/-- The module that has noted a VERDICT's EPOCH_MAX and counted it. -/
def verdictNoted (m : Mod) (b : Bytes) : Mod := bump (noteEpochMax m (bodyNat b 8 4)) Reg.OUT_CNT_VERDICT

theorem verdictNoted_kept (htake : refTake m p 0x81 = (some (n, q, b), m')) :
    (verdictNoted m' b).mode = m.mode ∧ (verdictNoted m' b).parts = m.parts ∧
      (verdictNoted m' b).out = { m.out with seqs := m'.out.seqs, refEpoch := bodyNat b 8 4 } := by
  obtain ⟨net, seqs, rfl⟩ := refTake_eq htake
  simp [verdictNoted, noteEpochMax, modO]

/-- The module in which the mismatch of a tag is resolved. -/
def verdictClosed (m : Mod) (tag : Nat) : Mod :=
  stopTimer (modO m fun o => { o with open_ := o.open_.filter (· ≠ tag) }) .verdictWait tag

/-- A VERDICT on a copy that is not held comes late. -/
theorem refVerdict_late (htake : refTake m p 0x81 = (some (n, q, b), m')) (hrole : m.mode.role = .standby)
    (hheld : (m.out.copies.any fun c => c.tag == bodyNat b 0 4 && c.held) = false) :
    refVerdict m p = setFault (verdictNoted m' b) Reg.OUT_FAULT 6 := by
  obtain ⟨hmode, -, hout⟩ := verdictNoted_kept htake
  have hcopies : (verdictNoted m' b).out.copies = m.out.copies := by rw [hout]
  rw [refVerdict, htake]
  refine (if_neg (by simp [refTake_mode htake, hrole])).trans (if_pos (⟨?_, ?_⟩ : (verdictNoted m' b).mode.role = _ ∧
    (!((verdictNoted m' b).out.copies.any fun c => c.tag == bodyNat b 0 4 && c.held)) = true))
  · rw [hmode, hrole]
  · rw [hcopies, hheld]
    rfl

/-- A Standby takes over for the copy it holds. -/
theorem refVerdict_takesOver (htake : refTake m p 0x81 = (some (n, q, b), m')) (hrole : m.mode.role = .standby)
    (hheld : (m.out.copies.any fun c => c.tag == bodyNat b 0 4 && c.held) = true) (hcode : bodyNat b 4 1 = 2) :
    refVerdict m p = takeover (verdictClosed (verdictNoted m' b) (bodyNat b 0 4)) := by
  obtain ⟨hmode, -, hout⟩ := verdictNoted_kept htake
  have hcopies : (verdictNoted m' b).out.copies = m.out.copies := by rw [hout]
  have hstandby : (verdictNoted m' b).mode.role = .standby := by rw [hmode, hrole]
  rw [refVerdict, htake]
  refine (if_neg (by simp [refTake_mode htake, hrole])).trans ?_
  refine (if_neg (c := (verdictNoted m' b).mode.role = .standby ∧
    (!((verdictNoted m' b).out.copies.any fun c => c.tag == bodyNat b 0 4 && c.held)) = true) ?_).trans ?_
  · simp [hcopies, hheld]
  · refine (if_neg fun h => h.1 hstandby).trans ?_
    rw [hcode]
    exact (if_pos hstandby).trans (if_pos rfl)

/-- An Active steps down where the mismatch is open. -/
theorem refVerdict_stepsDown (htake : refTake m p 0x81 = (some (n, q, b), m')) (hrole : m.mode.role = .active)
    (hopen : m.out.open_.contains (bodyNat b 0 4) = true) (hcode : bodyNat b 4 1 = 2) :
    refVerdict m p = republish (becomeStandby (verdictClosed (verdictNoted m' b) (bodyNat b 0 4))) false
      (closingTag (becomeStandby (verdictClosed (verdictNoted m' b) (bodyNat b 0 4)))) := by
  obtain ⟨hmode, -, hout⟩ := verdictNoted_kept htake
  have hopens : (verdictNoted m' b).out.open_ = m.out.open_ := by rw [hout]
  have hactive : (verdictNoted m' b).mode.role = .active := by rw [hmode, hrole]
  have hother : (verdictNoted m' b).mode.role ≠ .standby := by simp [hactive]
  rw [refVerdict, htake]
  refine (if_neg (by simp [refTake_mode htake, hrole])).trans ((if_neg fun h => hother h.1).trans ?_)
  refine (if_neg (c := (verdictNoted m' b).mode.role ≠ .standby ∧
    (!(verdictNoted m' b).out.open_.contains (bodyNat b 0 4)) = true) ?_).trans ?_
  · simp only [hopens, hopen]
    simp
  · rw [hcode]
    exact (if_neg hother).trans (if_pos ⟨hactive, rfl⟩)

/-! ## GRANT (R289, R292) -/

/-- The module whose request is answered. -/
def grantTaken (m : Mod) (b : Bytes) : Mod :=
  stopTimer (modO (noteEpochMax m (bodyNat b 12 4)) fun o => { o with reqs := o.reqs.filter (· ≠ bodyNat b 0 8) }) .takeoverRetry 0

theorem grantTaken_kept (htake : refTake m p 0x82 = (some (n, q, b), m')) :
    (grantTaken m' b).mode = m.mode ∧ (grantTaken m' b).parts = m.parts := by
  obtain ⟨net, seqs, rfl⟩ := refTake_eq htake
  exact ⟨rfl, rfl⟩

/-- A GRANT of a request of this Standby. -/
theorem refGrant_answered (htake : refTake m p 0x82 = (some (n, q, b), m')) (hrole : m.mode.role = .standby)
    (hreq : m.out.reqs.contains (bodyNat b 0 8) = true) :
    refGrant m p = if bodyNat b 8 1 = 1 then (if m.out.deciding then becomeActive (grantTaken m' b) else takeover (grantTaken m' b))
      else if m.out.towUp then modO (grantTaken m' b) fun o => { o with deciding := false }
      else { modO (grantTaken m' b) fun o => { o with deciding := false } with
        mode := { (grantTaken m' b).mode with syncSt := 3 } } := by
  obtain ⟨net, seqs, heq⟩ := refTake_eq htake
  rw [refGrant, htake]
  refine (if_neg (by simp [refTake_mode htake, hrole])).trans ?_
  rw [heq]
  exact if_neg (by simpa [noteEpochMax, modO, hrole] using hreq)

/-! ## REF_STATUS (R294, R295) -/

/-- Where nothing follows for the roles, the Referee's absence is noted with its flag. -/
theorem refGone_effect {m : Mod} (hrole : m.mode.role ≠ .standby) :
    refGone m = setFault (modO m fun o => { o with refPresent := false }) Reg.OUT_FAULT 7 := by
  have hother : (setFault (modO m fun o => { o with refPresent := false }) Reg.OUT_FAULT 7).mode.role ≠ .standby := by
    rw [(setFault_pairKept ..).mode]
    exact hrole
  rw [refGone, decideRole_decided (.inr hother), isolatedStep_idle (.inl hother)]

/-- A Standby without the Towpath and without heartbeats takes over when the Referee goes. -/
theorem refGone_takesOver {m : Mod} (hrole : m.mode.role = .standby) (hdown : m.out.towUp = false) (hdecided : m.out.deciding = false)
    (hlost : m.out.hbLost = true) (hlive : isLive m 0 = true) :
    (refGone m).out.refPresent = false ∧ (refGone m).mode.role = .active := by
  rw [refGone]
  generalize hu : setFault (modO m fun o => { o with refPresent := false }) Reg.OUT_FAULT 7 = u
  have hkept : PairKept (modO m fun o => { o with refPresent := false }) u := hu ▸ setFault_pairKept ..
  have hparts : u.parts = m.parts := by simp [← hu, modO]
  have hgone : u.out.refPresent = false := by rw [hkept.out]; rfl
  have hstandby : u.mode.role = .standby := by rw [hkept.mode]; exact hrole
  have hdone : u.out.deciding = false := by rw [hkept.out]; exact hdecided
  have hdown' : u.out.towUp = false := by rw [hkept.out]; exact hdown
  have hlost' : u.out.hbLost = true := by rw [hkept.out]; exact hlost
  rw [decideRole_decided (.inl hdone), isolatedStep_takesOver hstandby hdown' hdone hlost' hgone]
  obtain ⟨hactive, -, -, -, htow⟩ := takeover_effect hstandby ((isLive_of_parts hparts 0).trans hlive)
  exact ⟨htow.referee.trans hgone, hactive⟩

theorem refStatus_present (htake : refTake m p 0x83 = (some (n, q, b), m')) (hrole : m.mode.role ≠ .referee)
    (hdecided : m.mode.role ≠ .standby ∨ m.out.deciding = false) (hid : bodyNat b 8 8 = ((imageOf m 0).red.getD {}).id) :
    refStatus m p =
      startTimer (modO (noteEpochMax m' (bodyNat b 0 4)) fun o => { o with refPresent := true }) .refereeAbsent 0 (msec 3) := by
  obtain ⟨net, seqs, heq⟩ := refTake_eq htake
  rw [refStatus, htake]
  refine (if_neg (by rwa [refTake_mode htake])).trans ?_
  rw [heq]
  refine (if_neg fun h => h hid).trans (decideRole_decided ?_)
  exact hdecided.symm

theorem refStatus_gone (htake : refTake m p 0x83 = (some (n, q, b), m')) (hrole : m.mode.role ≠ .referee)
    (hother : m.mode.role ≠ .standby) (hid : bodyNat b 8 8 ≠ ((imageOf m 0).red.getD {}).id) :
    refStatus m p = setFault (modO (stopTimer (noteEpochMax m' (bodyNat b 0 4)) .refereeAbsent 0) fun o =>
      { o with refPresent := false }) Reg.OUT_FAULT 7 := by
  obtain ⟨net, seqs, heq⟩ := refTake_eq htake
  rw [refStatus, htake]
  refine (if_neg (by rwa [refTake_mode htake])).trans ?_
  rw [heq]
  exact (if_pos hid).trans (refGone_effect hother)

/-! ## Messages at the Referee (R289 to R292) -/

theorem refereeStatus_noted (htake : refTake m p 1 = (some (n, q, b), m')) (hrole : m.mode.role = .referee) :
    (tabGet (refereeStatus m p).out.units n).role = bodyNat b 0 1 ∧ (tabGet (refereeStatus m p).out.units n).epoch = bodyNat b 4 4 ∧
      (tabGet (refereeStatus m p).out.units n).claim = bodyNat b 8 4 ∧
        (tabGet (refereeStatus m p).out.units n).at_ = some m.clk.elapsed := by
  have hclk : m'.clk = m.clk := by
    obtain ⟨net, seqs, rfl⟩ := refTake_eq htake
    rfl
  have hreferee : ¬m'.mode.role ≠ .referee := by simp [refTake_mode htake, hrole]
  rw [refereeStatus, htake]
  simp only [hreferee, if_false, modUnit, modO, tabGet_tabMod_same, hclk, and_self]

/-- The module that has noted a unit's REPORT. -/
def reportNoted (m : Mod) (n : Nat) (b : Bytes) : Mod :=
  modUnit (seeEpoch m (bodyNat b 4 4 / 256)) n fun x =>
    { x with reports := ((bodyNat b 0 4, bodyNat b 8 8, bodyNat b 28 32) :: x.reports).take 64 }

/-- A REPORT is noted, and a VERDICT may follow. -/
theorem refereeReport_cases (htake : refTake m p 2 = (some (n, q, b), m')) (hrole : m.mode.role = .referee) :
    refereeReport m p = reportNoted m' n b ∨ ∃ body, refereeReport m p = refSend (reportNoted m' n b) 0x81 body := by
  rw [refereeReport, htake]
  dsimp only
  rw [if_neg (by simp [refTake_mode htake, hrole])]
  split
  · exact .inl rfl
  · exact (ite_eq_or_eq _ _ _).imp id fun h => ⟨_, h⟩

theorem refereeReport_noted (htake : refTake m p 2 = (some (n, q, b), m')) (hrole : m.mode.role = .referee) :
    (tabGet (refereeReport m p).out.units n).reports.head? = some (bodyNat b 0 4, bodyNat b 8 8, bodyNat b 28 32) := by
  have hunits : (refereeReport m p).out.units = (reportNoted m' n b).out.units := by
    rcases refereeReport_cases htake hrole with h | ⟨body, h⟩ <;> rw [h]
    obtain ⟨seq, hsent⟩ := refSend_kept (reportNoted m' n b) 0x81 body
    exact (congrArg Out.units hsent.out).trans rfl
  rw [hunits]
  simp [reportNoted, modUnit, modO]

/-- The module in which a unit's request is granted. -/
def takeoverGranted (m : Mod) (n : Nat) (b : Bytes) : Mod :=
  modUnit (modO (seeEpoch m (bodyNat b 4 4)) fun o => { o with granted := some n }) n fun x =>
    { x with epoch := max x.epoch (bodyNat b 4 4) }

/-- Where no other unit is known and none was granted before, the request is granted. -/
theorem refereeTakeover_grants (htake : refTake m p 3 = (some (n, q, b), m')) (hrole : m.mode.role = .referee)
    (hgranted : m.out.granted = none) (halone : ∀ x ∈ m.out.units, x.1 = n) :
    refereeTakeover m p = refSend (takeoverGranted m' n b) 0x82
      (leBytes 8 q ++ leBytes 1 1 ++ leBytes 3 0 ++ leBytes 4 (takeoverGranted m' n b).out.refEpoch) := by
  obtain ⟨net, seqs, heq⟩ := refTake_eq htake
  rw [refereeTakeover, htake]
  refine (if_neg (by simp [refTake_mode htake, hrole])).trans ?_
  extract_lets e m1 now alive unfit past ok m2
  have halive : alive = false := List.any_eq_false.2 fun x hx => by
    have := halone x (by simpa [m1, seeEpoch, modO, heq] using hx)
    simp [this]
  have hpast : past = false := by simp [past, m1, seeEpoch, modO, heq, hgranted]
  have hok : ok = true := by simp [ok, halive, hpast]
  have hm2 : m2 = takeoverGranted m' n b := if_pos hok
  rw [hok, hm2]
  rfl

end

/-! ## Registers (R273, R275) -/

theorem outUnitWrite_taken {m : Mod} {v : Word} (hgate : gateOpen m (srcOf Reg.OUT_UNIT) = true) (hactive : m.mode.role ≠ .active)
    (hstandby : m.mode.role ≠ .standby) (hzero : v.toNat % 256 ≠ 0) (hlast : v.toNat % 256 ≠ 255) :
    outUnitWrite m v 15 = setReg (closeGate m (srcOf Reg.OUT_UNIT)) Reg.OUT_UNIT (v &&& 0xFFFFC0FF) := by
  rw [outUnitWrite, guardedWrite_open _ _ _ hgate]
  exact if_neg (by simp [closeGate, stopTimer, hactive, hstandby, hzero, hlast])

theorem outUnitWrite_refused {m : Mod} {v : Word} (hgate : gateOpen m (srcOf Reg.OUT_UNIT) = true)
    (h : m.mode.role = .active ∨ m.mode.role = .standby ∨ v.toNat % 256 = 0 ∨ v.toNat % 256 = 255) :
    outUnitWrite m v 15 = setFault (closeGate m (srcOf Reg.OUT_UNIT)) Reg.OUT_FAULT 9 := by
  rw [outUnitWrite, guardedWrite_open _ _ _ hgate]
  exact if_pos h

theorem outEpochSet_taken {m : Mod} {v : Word} (hgate : gateOpen m (srcOf Reg.OUT_EPOCH_SET) = true) (hrole : m.mode.role = .standalone)
    (hhalted : (partOf m 0).state = .halted) (hepoch : v.toNat % 2 ^ 24 ≠ 0) :
    outEpochSet m v 15 = setReg (setReg (closeGate m (srcOf Reg.OUT_EPOCH_SET)) Reg.OUT_EPOCH_SET (BitVec.ofNat 32 (v.toNat % 2 ^ 24)))
      Reg.OUT_EPOCH (BitVec.ofNat 32 (v.toNat % 2 ^ 24)) := by
  rw [outEpochSet, guardedWrite_open _ _ _ hgate]
  refine if_neg ?_
  rintro (h | h | h)
  · exact h hrole
  · exact h hhalted
  · exact hepoch h

theorem outEpochSet_refused {m : Mod} {v : Word} (hgate : gateOpen m (srcOf Reg.OUT_EPOCH_SET) = true)
    (h : m.mode.role ≠ .standalone ∨ (partOf m 0).state ≠ .halted ∨ v.toNat % 2 ^ 24 = 0) :
    outEpochSet m v 15 = setFault (closeGate m (srcOf Reg.OUT_EPOCH_SET)) Reg.OUT_FAULT 9 := by
  rw [outEpochSet, guardedWrite_open _ _ _ hgate]
  exact if_pos h

/-- A refused write sets its flag and leaves the other registers. -/
theorem refusedWrite_effect (m : Mod) (blk : Nat) {off : Nat} (hfree : eventFree off = true) (hne : off ≠ Reg.OUT_FAULT) :
    reg (setFault (closeGate m blk) Reg.OUT_FAULT 9) off = reg m off ∧
      Bit (setFault (closeGate m blk) Reg.OUT_FAULT 9) Reg.OUT_FAULT 9 := by
  rw [reg_setFault _ _ _ _ _ hfree, if_neg hne]
  exact ⟨rfl, Bit_setFault (by decide) (by decide)⟩

/-- Settles O55, the Referee's messages, the units' and the two registers in turn. -/
theorem refereeMessagesAndUnits : Obligations.RefereeMessagesAndUnits := by
  intro s hp
  refine ⟨?_, ?_, ?_, ?_, ?_, ?_, ?_, ?_, ?_, ?_, ?_⟩
  · intro p n q b m' htake hrole
    exact ⟨(exec_refereeStatus p s).trans (runM_powered _ hp), refereeStatus_noted htake hrole⟩
  · intro p n q b m' htake hrole
    exact ⟨(exec_report p s).trans (runM_powered _ hp), refereeReport_noted htake hrole⟩
  · intro p n q b m' htake hrole hgranted halone
    refine ⟨(exec_takeoverReq p s).trans (runM_powered _ hp), ?_⟩
    rw [refereeTakeover_grants htake hrole hgranted halone]
    refine ⟨?_, takeoverGranted m' n b, rfl⟩
    generalize hv : takeoverGranted m' n b = v
    obtain ⟨seq, hsent⟩ := refSend_kept v 0x82 (leBytes 8 q ++ leBytes 1 1 ++ leBytes 3 0 ++ leBytes 4 v.out.refEpoch)
    rw [hsent.out, ← hv]
    rfl
  · intro p n q b m' htake
    obtain ⟨hmode, hparts, -⟩ := verdictNoted_kept htake
    refine ⟨fun hrole hopen hcode => ?_, fun hrole hheld hcode hlive => ?_, fun hrole hheld => ?_⟩
    · refine ⟨(exec_verdict p s).trans (runS_powered _ hp), ?_⟩
      rw [refVerdict_stepsDown htake hrole hopen hcode]
      obtain ⟨hstandby, hclaim⟩ := becomeStandby_effect (verdictClosed (verdictNoted m' b) (bodyNat b 0 4))
      generalize becomeStandby (verdictClosed (verdictNoted m' b) (bodyNat b 0 4)) = u at hstandby hclaim
      obtain ⟨⟨pubs, hout⟩, hkept, -⟩ := republish_kept u false (closingTag u)
      rw [hkept, hout]
      exact ⟨hstandby, hclaim⟩
    · refine ⟨(exec_verdict p s).trans (runS_powered _ hp), ?_⟩
      rw [refVerdict_takesOver htake hrole hheld hcode]
      obtain ⟨hactive, hclaim, -⟩ := takeover_effect (m := verdictClosed (verdictNoted m' b) (bodyNat b 0 4))
        ((congrArg Modes.role hmode).trans hrole) ((isLive_of_parts hparts 0).trans hlive)
      exact ⟨hactive, hclaim⟩
    · refine ⟨(exec_verdict p s).trans (runS_powered _ hp), ?_⟩
      rw [refVerdict_late htake hrole hheld]
      exact ⟨(setFault_pairKept ..).mode.trans hmode, Bit_setFault (by decide) (by decide)⟩
  · intro p n q b m' htake hrole hreq
    obtain ⟨hmode, hparts⟩ := grantTaken_kept htake
    refine ⟨fun hdeciding => ?_, fun hdecided hcode hlive => ?_⟩
    · refine ⟨(exec_grant p s).trans (runS_powered _ hp), ?_⟩
      rw [refGrant_answered htake hrole hreq, hdeciding]
      split
      · rw [if_pos rfl, becomeActive_out, becomeActive_mode]
        exact ⟨rfl, rfl⟩
      · split
        · exact ⟨rfl, (congrArg Modes.role hmode).trans hrole⟩
        · exact ⟨rfl, (congrArg Modes.role hmode).trans hrole⟩
    · refine ⟨(exec_grant p s).trans (runS_powered _ hp), ?_⟩
      rw [refGrant_answered htake hrole hreq, if_pos hcode, hdecided]
      obtain ⟨hactive, hclaim, -⟩ := takeover_effect (m := grantTaken m' b)
        ((congrArg Modes.role hmode).trans hrole) ((isLive_of_parts hparts 0).trans hlive)
      exact ⟨hactive, hclaim⟩
  · intro p n q b m' htake hrole
    refine ⟨fun hdecided hid => ?_, fun hother hid => ?_⟩
    · refine ⟨(exec_refStatus p s).trans (runS_powered _ hp), ?_⟩
      rw [refStatus_present htake hrole hdecided hid]
      obtain ⟨net, seqs, rfl⟩ := refTake_eq htake
      exact ⟨rfl, rfl, timerDue_startTimer ..⟩
    · refine ⟨(exec_refStatus p s).trans (runS_powered _ hp), ?_⟩
      rw [refStatus_gone htake hrole hother hid]
      exact ⟨congrArg Out.refPresent (setFault_pairKept ..).out, Bit_setFault (by decide) (by decide),
        (timerDue_congr (setFault_pairKept ..).timers _ _).trans (timerDue_stopTimer ..)⟩
  · intro hdue
    refine ⟨fun hrole => ?_, fun hrole hdown hdecided hlost hlive => ?_⟩
    · refine ⟨(exec_refereeAbsent s).trans (runS_powered _ hp), ?_⟩
      rw [refereeAbsent, expire_of_due hdue, refGone_effect (m := stopTimer s.m .refereeAbsent 0) hrole]
      exact ⟨congrArg Out.refPresent (setFault_pairKept ..).out, Bit_setFault (by decide) (by decide), (setFault_pairKept ..).mode⟩
    · refine ⟨(exec_refereeAbsent s).trans (runS_powered _ hp), ?_⟩
      rw [refereeAbsent, expire_of_due hdue]
      exact refGone_takesOver (m := stopTimer s.m .refereeAbsent 0) hrole hdown hdecided hlost hlive
  · intro hdue
    refine ⟨(exec_statusTimer s).trans (runM_powered _ hp), ?_⟩
    rw [statusTimer, expire_of_due hdue]
    extract_lets body
    refine ⟨?_, fun hrole hports hsign => ?_⟩
    · rw [timerDue_startTimer, apply_ite Mod.clk, refSend_clk, ite_self]
      rfl
    · rw [if_neg (show (stopTimer s.m .status 0).mode.role ≠ .referee from hrole)]
      exact refSend_seq (m := stopTimer s.m .status 0) 1 body hports hsign
  · intro hdue
    refine ⟨(exec_refStatusTimer s).trans (runM_powered _ hp), ?_⟩
    rw [refStatusTimer, expire_of_due hdue]
    extract_lets red body
    refine ⟨?_, fun hrole hports hsign => ?_⟩
    · rw [timerDue_startTimer, apply_ite Mod.clk, refSend_clk, ite_self]
      rfl
    · rw [if_pos (show (stopTimer s.m .refStatus 0).mode.role = .referee from hrole)]
      exact refSend_seq (m := stopTimer s.m .refStatus 0) 0x83 body hports hsign
  · intro v hup hgate
    refine ⟨fun hactive hstandby hzero hlast => ?_, fun h => ?_⟩
    · refine ⟨(exec_outUnitWrite v 15 s).trans ((runM_powered _ hp).trans (by rw [inRunning_up _ _ _ hup])), ?_⟩
      rw [outUnitWrite_taken hgate hactive hstandby hzero hlast]
      exact reg_setReg_same ..
    · refine ⟨(exec_outUnitWrite v 15 s).trans ((runM_powered _ hp).trans (by rw [inRunning_up _ _ _ hup])), ?_⟩
      rw [outUnitWrite_refused hgate h]
      exact refusedWrite_effect s.m _ (by decide) (by decide)
  · intro v hup hgate
    refine ⟨fun hrole hhalted hepoch => ?_, fun h => ?_⟩
    · refine ⟨(exec_outEpochSet v 15 s).trans ((runM_powered _ hp).trans (by rw [inRunning_up _ _ _ hup])), ?_⟩
      rw [outEpochSet_taken hgate hrole hhalted hepoch]
      exact reg_setReg_same ..
    · refine ⟨(exec_outEpochSet v 15 s).trans ((runM_powered _ hp).trans (by rw [inRunning_up _ _ _ hup])), ?_⟩
      rw [outEpochSet_refused hgate h]
      exact refusedWrite_effect s.m _ (by decide) (by decide)

end Sys2Proof.Machine
end

section
/-!
SUPPORT. The tick of an empty queue (R310, R311; log 2) and the transmit-timestamp queues (R327).
-/
namespace Sys2Proof.Machine

/-! ## An empty queue -/

theorem step_of_pending_nil {s : State} (h : s.pending = []) :
    step s = if s.m.hlth.power = .off then .next s else .next { s with m := tick s.m } := by
  rw [step, h]

/-- Settles O2: the queue's second branch of `step`, by the supply. -/
theorem emptyQueueLetsTimePass : Obligations.EmptyQueueLetsTimePass := by
  intro s hq
  rw [step_of_pending_nil hq]
  exact ⟨fun hon => if_neg hon, fun hoff => if_pos hoff⟩

/-! ## Transmit timestamps (R327) -/

section
variable {m : Mod} {p : Nat} {e : TsqEntry}

theorem tsqAdd_of_full (h : 32 ≤ (tabGet m.clk.tsq p).length) :
    tsqAdd m p e = setFault (bump m (Reg.PTP_PTSQ_DROP p)) Reg.PTP_FAULT 5 p := if_pos h

theorem tsqAdd_of_room (h : (tabGet m.clk.tsq p).length < 32) :
    tsqAdd m p e =
      let m' := { m with clk := { m.clk with tsq := tabSet m.clk.tsq p (tabGet m.clk.tsq p ++ [e]) } }
      if (tabGet m.clk.tsq p).isEmpty then setFaultQuiet m' Reg.PTP_FAULT 4 else m' := if_neg h.not_ge

theorem tsqAdd_clk_of_room (h : (tabGet m.clk.tsq p).length < 32) :
    (tsqAdd m p e).clk = { m.clk with tsq := tabSet m.clk.tsq p (tabGet m.clk.tsq p ++ [e]) } := by
  rw [tsqAdd_of_room h]
  dsimp only
  split
  · simp only [setFaultQuiet_frame]
  · rfl

theorem eventFree_PTP_PTSQ_DROP (hp : p < 8) : eventFree (Reg.PTP_PTSQ_DROP p) = true := by
  simp only [eventFree, Reg.PTP_PTSQ_DROP, Reg.EVR_LOST_CNT, Reg.EVR_FAULT, Bool.and_eq_true, decide_eq_true_eq, bne_iff_ne]
  omega

theorem PTP_PTSQ_DROP_ne_PTP_FAULT : Reg.PTP_PTSQ_DROP p ≠ Reg.PTP_FAULT := by
  unfold Reg.PTP_PTSQ_DROP Reg.PTP_FAULT
  omega

/-- A timestamp that finds room counts in no drop counter. -/
theorem reg_tsqAdd_of_room (hp : p < 8) (h : (tabGet m.clk.tsq p).length < 32) :
    reg (tsqAdd m p e) (Reg.PTP_PTSQ_DROP p) = reg m (Reg.PTP_PTSQ_DROP p) := by
  rw [tsqAdd_of_room h]
  dsimp only
  split
  · rw [reg_setFaultQuiet _ _ _ (eventFree_lt (eventFree_PTP_PTSQ_DROP hp)), if_neg PTP_PTSQ_DROP_ne_PTP_FAULT]
    exact reg_congr rfl _
  · exact reg_congr rfl _

end

/-- Settles O60: the full queue of R327 counts and flags the loss, and one with room takes the entry. -/
theorem timestampQueuesKeepThirtyTwoEntries : Obligations.TimestampQueuesKeepThirtyTwoEntries := by
  intro m p e hp
  refine ⟨fun hfull => ?_, fun hroom => ⟨?_, fun q hq => ?_, reg_tsqAdd_of_room hp hroom, fun hempty => ?_⟩⟩
  · rw [tsqAdd_of_full hfull]
    refine ⟨by simp, Bit_setFault (by decide) (by decide), fun hcnt => ?_⟩
    have hfree := eventFree_PTP_PTSQ_DROP hp
    rw [reg_setFault _ _ _ _ _ hfree, if_neg PTP_PTSQ_DROP_ne_PTP_FAULT, reg_bump _ _ hfree, if_pos rfl, stickyInc_one hcnt]
  · rw [tsqAdd_clk_of_room hroom]
    exact tabGet_tabSet_same ..
  · rw [tsqAdd_clk_of_room hroom]
    exact tabGet_tabSet_ne _ _ hq
  · rw [tsqAdd_of_room hroom, hempty]
    exact setFaultQuiet_bit _ _ (by decide) (by decide)

end Sys2Proof.Machine
end

section
/-!
SUPPORT. Changes of the clock state and of the Time axis (R313, R314, R317): the fields of the clock that they set, and the registers
and flags of the time base that they keep.
-/
namespace Sys2Proof.Machine

/-! ## The clock under a change of state -/

/-- `d` differs from `c` in the clock state and the instants and counts from which a lock is judged (R313), and in nothing else. -/
structure SameButState (c d : Clk) : Prop where
  eq : d = { c with
    state := d.state, holdExit := d.holdExit, lockedAt := d.lockedAt, unlockedAt := d.unlockedAt, longLock := d.longLock
    fromHoldover := d.fromHoldover, goodRun := d.goodRun, badRun := d.badRun }

theorem SameButState.refl (c : Clk) : SameButState c c := ⟨rfl⟩

theorem SameButState.trans {a b c : Clk} (h : SameButState a b) (k : SameButState b c) : SameButState a c :=
  ⟨k.eq.trans (by rw [h.eq])⟩

theorem SameButState.ite {a b c : Clk} {p : Prop} [Decidable p] (h : SameButState a b) (k : SameButState a c) :
    SameButState a (if p then b else c) := by
  split
  · exact h
  · exact k

section
variable {c d : Clk} (h : SameButState c d)
include h

theorem SameButState.mode : d.mode = c.mode := (congrArg Clk.mode h.eq :)
theorem SameButState.fromMode : d.fromMode = c.fromMode := (congrArg Clk.fromMode h.eq :)
theorem SameButState.ports : d.ports = c.ports := (congrArg Clk.ports h.eq :)
theorem SameButState.lastSyncAt : d.lastSyncAt = c.lastSyncAt := (congrArg Clk.lastSyncAt h.eq :)
theorem SameButState.extRun : d.extRun = c.extRun := (congrArg Clk.extRun h.eq :)
theorem SameButState.extState : d.extState = c.extState := (congrArg Clk.extState h.eq :)

end

theorem clkEnter_same (c : Clk) (form : Nat × Nat) (st : ClkState) : SameButState c (clkEnter c form st) := by
  unfold clkEnter
  extract_lets old c1 c2 c3 c4
  have h1 : SameButState c c1 := .ite ⟨rfl⟩ (.refl c)
  have h2 : SameButState c c2 := h1.trans ⟨rfl⟩
  have h3 : SameButState c c3 := h2.trans (.ite ⟨rfl⟩ (.refl c2))
  have h4 : SameButState c c4 := h3.trans (.ite ⟨rfl⟩ (.refl c3))
  exact h4.trans (.ite ⟨rfl⟩ (.refl c4))

theorem clkEnter_state (c : Clk) (form : Nat × Nat) (st : ClkState) : (clkEnter c form st).state = st := by
  unfold clkEnter
  extract_lets old c1 c2 c3 c4
  have h3 : c3.state = st := by
    simp only [c3]
    split <;> rfl
  have h4 : c4.state = c3.state := by
    simp only [c4]
    split <;> rfl
  rw [apply_ite Clk.state, ite_self]
  exact h4.trans h3

/-! ## Registers and flags -/

/-- `n` reads as `m` in the registers below those of the ports, but for flags of PTP_FAULT that are set. -/
structure PtpNoted (m n : Mod) : Prop where
  regs : ∀ off, off < 0xa0000 → off ≠ Reg.PTP_FAULT → reg n off = reg m off
  flags : ∀ b, Bit m Reg.PTP_FAULT b → Bit n Reg.PTP_FAULT b

theorem eventFree_of_lt {off : Nat} (h : off < 0xa0000) : eventFree off = true := by
  simp only [eventFree, Reg.EVR_LOST_CNT, Reg.EVR_FAULT, Bool.and_eq_true, decide_eq_true_eq, bne_iff_ne]
  omega

theorem PtpNoted.of_regs {m n : Mod} (h : n.regs = m.regs) : PtpNoted m n := ⟨fun _ _ _ => reg_congr h _, fun _ hb => Bit_congr h hb⟩

theorem PtpNoted.refl (m : Mod) : PtpNoted m m := .of_regs rfl

theorem PtpNoted.trans {a b c : Mod} (h : PtpNoted a b) (k : PtpNoted b c) : PtpNoted a c :=
  ⟨fun off hlt hne => (k.regs off hlt hne).trans (h.regs off hlt hne), fun b hb => k.flags b (h.flags b hb)⟩

theorem setFault_ptpNoted (m : Mod) {a : Nat} (bit obj : Nat) (vals : List Nat) (ha : a = Reg.PTP_FAULT ∨ 0xa0000 ≤ a) :
    PtpNoted m (setFault m a bit obj vals) := by
  refine ⟨fun off hlt hne => ?_, fun b hb => Bit_setFault_other (by decide) hb⟩
  rw [reg_setFault _ _ _ _ _ (eventFree_of_lt hlt), if_neg]
  omega

theorem stateEvent_ptpNoted (m : Mod) (src code old new obj : Nat) : PtpNoted m (stateEvent m src code old new obj) :=
  ⟨fun _ hlt _ => reg_stateEvent _ _ _ _ _ _ (eventFree_of_lt hlt), fun _ hb => Bit_raiseEvent (by decide) hb⟩

theorem stateEvent_clk (m : Mod) (src code old new obj : Nat) : (stateEvent m src code old new obj).clk = m.clk := by
  simp only [stateEvent_frame]

theorem queueModule_ptpNoted (m : Mod) (p q : Nat) (it : QItem) : PtpNoted m (queueModule m p q it) := by
  unfold queueModule
  split
  · exact .of_regs rfl
  · have hdrop : ∀ off, off < 0xa0000 → off ≠ Reg.MAC_PTX_DROP p := fun off h => by unfold Reg.MAC_PTX_DROP; omega
    refine PtpNoted.trans ⟨fun off hlt _ => ?_, fun b hb => Bit_bump (by decide) (hdrop _ (by decide)) hb⟩
      (setFault_ptpNoted _ _ _ _ (.inr (by unfold Reg.MAC_PFAULT; omega)))
    rw [reg_bump _ _ (eventFree_of_lt hlt), if_neg (hdrop off hlt)]

/-- A FAULT bit of the time base set where a condition holds. -/
theorem iteFault_ptpNoted (m : Mod) (c : Prop) [Decidable c] (bit : Nat) :
    PtpNoted m (if c then setFault m Reg.PTP_FAULT bit else m) := by
  split
  · exact setFault_ptpNoted _ _ _ _ (.inl rfl)
  · exact .refl m

theorem iteFault_clk (m : Mod) (c : Prop) [Decidable c] (bit : Nat) :
    (if c then setFault m Reg.PTP_FAULT bit else m).clk = m.clk := by
  split
  · exact (setFault_pairKept ..).clk
  · rfl

/-! ## The change of state -/

theorem setClkState_ptpNoted (m : Mod) (st : ClkState) : PtpNoted m (setClkState m st) := by
  unfold setClkState
  extract_lets old code m1 m2 m3 m4
  split
  · exact .refl m
  · exact (PtpNoted.of_regs rfl : PtpNoted m m1).trans <| (iteFault_ptpNoted ..).trans <| (iteFault_ptpNoted ..).trans <|
      (iteFault_ptpNoted ..).trans (stateEvent_ptpNoted ..)

theorem setClkState_clk (m : Mod) (st : ClkState) :
    SameButState m.clk (setClkState m st).clk ∧ (setClkState m st).clk.state = st := by
  unfold setClkState
  extract_lets old code m1 m2 m3 m4
  split
  case isTrue h => exact ⟨.refl _, h⟩
  case isFalse h =>
    have hclk : (stateEvent m4 9 4 (code old) (code st) 0).clk = clkEnter m.clk (holdForm m) st :=
      (stateEvent_clk ..).trans <| (iteFault_clk ..).trans <| (iteFault_clk ..).trans (iteFault_clk ..)
    rw [hclk]
    exact ⟨clkEnter_same .., clkEnter_state ..⟩

/-- The entry into Holdover sets its flag (R314). -/
theorem Bit_setClkState_holdover {m : Mod} (h : m.clk.state ≠ .holdover) : Bit (setClkState m .holdover) Reg.PTP_FAULT 3 := by
  unfold setClkState
  extract_lets old code m1 m2 m3 m4
  rw [if_neg h]
  exact (stateEvent_ptpNoted ..).flags 3 (Bit_setFault (by decide) (by decide))

/-! ## The Time axis and Holdover -/

theorem setTimeAxis_clk (m : Mod) (t : TimeMode) : (setTimeAxis m t).clk = { m.clk with mode := t } := by
  unfold setTimeAxis
  split
  case isTrue h => rw [← h]
  case isFalse h => rw [stateEvent_clk]

theorem setTimeAxis_ptpNoted (m : Mod) (t : TimeMode) : PtpNoted m (setTimeAxis m t) := by
  unfold setTimeAxis
  split
  · exact .refl m
  · have hmode : PtpNoted m { m with clk := { m.clk with mode := t } } := .of_regs rfl
    exact hmode.trans (stateEvent_ptpNoted ..)

theorem holdRate_clk (m : Mod) : (holdRate m).clk = m.clk := rfl

theorem Bit_holdRate {m : Mod} {b : Nat} (h : Bit m Reg.PTP_FAULT b) : Bit (holdRate m) Reg.PTP_FAULT b :=
  Bit_setReg_other (by decide) h

/-- An automatic Holdover notes the Time mode it leaves (R66) and changes nothing but the mode and the clock state. -/
theorem autoHoldover_clk (m : Mod) :
    SameButState { m.clk with fromMode := m.clk.mode, cmdHoldover := false, mode := .holdover } (autoHoldover m).clk ∧
      (autoHoldover m).clk.state = .holdover := by
  have h := setClkState_clk (setTimeAxis (holdRate { m with clk := { m.clk with fromMode := m.clk.mode, cmdHoldover := false } }) .holdover)
    .holdover
  rwa [setTimeAxis_clk, holdRate_clk] at h

theorem Bit_autoHoldover {m : Mod} {b : Nat} (h : Bit m Reg.PTP_FAULT b) : Bit (autoHoldover m) Reg.PTP_FAULT b :=
  (setClkState_ptpNoted ..).flags b ((setTimeAxis_ptpNoted ..).flags b (Bit_holdRate h))

theorem Bit_autoHoldover_entered {m : Mod} (h : m.clk.state ≠ .holdover) : Bit (autoHoldover m) Reg.PTP_FAULT 3 :=
  Bit_setClkState_holdover (by rwa [setTimeAxis_clk, holdRate_clk])

end Sys2Proof.Machine
end

section
/-!
SUPPORT. PTP on a port (R329 to R331): the message timers, the messages taken, the foreign masters and the offset that a Sync forms
(R314, R319).
-/
namespace Sys2Proof.Machine

/-! ## Ports of the engine -/

theorem ptpPort_modPtpPort_same (m : Mod) (p : Nat) (f : PtpPort → PtpPort) : ptpPort (modPtpPort m p f) p = f (ptpPort m p) :=
  tabGet_tabMod_same ..

theorem ptpPort_congr {m n : Mod} (h : n.clk.ports = m.clk.ports) (p : Nat) : ptpPort n p = ptpPort m p := by
  rw [ptpPort, h, ptpPort]

/-- A change of port states leaves the foreign masters of every port. -/
theorem foreigns_setState (m : Mod) (p q : Nat) (st : PtpPortState) :
    (ptpPort (modPtpPort m q fun x => { x with state := st }) p).foreigns = (ptpPort m p).foreigns := by
  by_cases h : p = q
  · subst h
    rw [ptpPort_modPtpPort_same]
  · unfold ptpPort modPtpPort
    rw [tabGet_tabMod_ne _ _ h]

/-! ## Messages sent (R330) -/

theorem ptpSend_pairKept (m : Mod) (p : Nat) (msg : PtpMsg) (ev : Nat) : PairKept m (ptpSend m p msg ev) :=
  queueModule_pairKept ..

/-- A port that counts the message it sends, its timer started: the timer and the count stand when the message is queued. -/
theorem ptpSend_started (m : Mod) (p i d : Nat) (f : PtpPort → PtpPort) (msg : PtpMsg) (ev : Nat) :
    timerDue (ptpSend (modPtpPort (startTimer m .ptpMessage i d) p f) p msg ev) .ptpMessage i = some (m.clk.elapsed + d) ∧
      ptpPort (ptpSend (modPtpPort (startTimer m .ptpMessage i d) p f) p msg ev) p = f (ptpPort m p) := by
  have hkept := ptpSend_pairKept (modPtpPort (startTimer m .ptpMessage i d) p f) p msg ev
  exact ⟨(timerDue_congr hkept.timers _ _).trans (timerDue_startTimer ..),
    (ptpPort_congr (congrArg Clk.ports hkept.clk) p).trans (ptpPort_modPtpPort_same ..)⟩

section
variable {m : Mod} {p : Nat}

theorem ptpEnabled_guard (h : ptpEnabled m p = true) : ¬(!ptpEnabled m p) = true := by
  rw [h]
  decide

theorem ptpMessageTimer_sync (hdue : Due m .ptpMessage (4 * p)) (hon : ptpEnabled m p = true) (hst : (ptpPort m p).state = .master) :
    ∃ msg ev, ptpMessageTimer m p 0 = ptpSend
      (modPtpPort (startTimer (stopTimer m .ptpMessage (4 * p)) .ptpMessage (4 * p) (intvAt m 0)) p fun q =>
        { q with seqSync := (q.seqSync + 1) % 65536 }) p msg ev := by
  rw [ptpMessageTimer, Nat.add_zero, expire_of_due hdue]
  exact ⟨_, _, (if_neg (ptpEnabled_guard hon)).trans (if_pos hst)⟩

theorem ptpMessageTimer_announce (hdue : Due m .ptpMessage (4 * p + 1)) (hon : ptpEnabled m p = true)
    (hst : (ptpPort m p).state = .master) :
    ∃ msg ev, ptpMessageTimer m p 1 = ptpSend
      (modPtpPort (startTimer (stopTimer m .ptpMessage (4 * p + 1)) .ptpMessage (4 * p + 1) (intvAt m 4)) p fun q =>
        { q with seqAnn := (q.seqAnn + 1) % 65536 }) p msg ev := by
  rw [ptpMessageTimer, expire_of_due hdue]
  exact ⟨_, _, (if_neg (ptpEnabled_guard hon)).trans (if_pos hst)⟩

/-- Delay requests go out of a SLAVE port, and under the peer delay mechanism of every port that is not DISABLED (R330). -/
theorem ptpMessageTimer_request (hdue : Due m .ptpMessage (4 * p + 2)) (hon : ptpEnabled m p = true)
    (hst : (ptpProfile m ≠ 0 ∧ (ptpPort m p).state ≠ .disabled) ∨ (ptpProfile m = 0 ∧ (ptpPort m p).state = .slave)) :
    ∃ msg ev, ptpMessageTimer m p 2 = ptpSend
      (modPtpPort (startTimer (stopTimer m .ptpMessage (4 * p + 2)) .ptpMessage (4 * p + 2)
        (intvAt m (if ptpProfile m ≠ 0 then 8 else 12))) p fun q =>
          { q with seqReq := (q.seqReq + 1) % 65536, req := some ⟨(ptpPort m p).seqReq, default, 0, 0, 0⟩, resp := none }) p msg ev := by
  have hsends : (decide (ptpProfile m ≠ 0) && decide ((ptpPort m p).state ≠ .disabled) ||
      !decide (ptpProfile m ≠ 0) && (ptpPort m p).state == .slave) = true := by simpa using hst
  rw [ptpMessageTimer, expire_of_due hdue]
  exact ⟨_, _, (if_neg (ptpEnabled_guard hon)).trans (if_pos hsends)⟩

end

/-! ## Messages taken (R329) -/

/-- A PTP message. -/
def isPtp : Payload → Bool
  | .ptp _ => true
  | _ => false

/-- The engine handles the message, and an HSR pair passes it on. -/
theorem ptpReceived_of_take {m m' : Mod} {p : Nat} {it : RxItem} {x : PtpMsg} (htake : takeControl m p isPtp = some (it, m'))
    (hpayload : it.frame.payload = .ptp x) : ptpReceived m p = ptpForward (ptpHandle m' p x it.ts) p it x := by
  change (match takeControl m p isPtp with
    | some (it, m) => match it.frame.payload with
      | .ptp msg => ptpForward (ptpHandle m p msg it.ts) p it msg
      | _ => m
    | none => m) = _
  rw [htake]
  dsimp only
  rw [hpayload]

/-- A message passed on leaves the clock, and of the registers those of the time base. -/
theorem ptpForward_kept (m : Mod) (p : Nat) (it : RxItem) (x : PtpMsg) :
    (ptpForward m p it x).clk = m.clk ∧ PtpNoted m (ptpForward m p it x) := by
  have hput : ∀ o f, (queueModule m o 7 f).clk = m.clk ∧ PtpNoted m (queueModule m o 7 f) :=
    fun o f => ⟨(queueModule_basin ..).2, queueModule_ptpNoted ..⟩
  unfold ptpForward
  extract_lets o f put
  split
  · exact ⟨rfl, .refl m⟩
  · split
    · exact hput ..
    · exact hput ..
    · exact hput ..
    · exact ⟨rfl, .refl m⟩

/-- The engine of a port takes a message: the port takes part, and the message is of its domain and profile and not the module's own. -/
def TakesPart (m : Mod) (p : Nat) (x : PtpMsg) : Prop :=
  ptpEnabled m p = true ∧ (ptpPort m p).state ≠ .disabled ∧ x.domain = ptpDomain m ∧ x.src.clock ≠ Config.clockIdentity ∧
    (x.udp = true → ptpProfile m = 0)

section
variable {m : Mod} {p : Nat} {x : PtpMsg} (hours : TakesPart m p x) {ts : Int}
include hours

theorem ptpHandle_guard : ¬(!ptpEnabled m p || (ptpPort m p).state == .disabled || (x.udp && decide (ptpProfile m ≠ 0)) ||
    decide (x.domain ≠ ptpDomain m) || x.src.clock == Config.clockIdentity) = true := by
  obtain ⟨hon, hst, hdom, hsrc, hudp⟩ := hours
  cases hu : x.udp
  · simp [hon, hst, hdom, hsrc]
  · simp [hon, hst, hdom, hsrc, hudp hu]

theorem ptpHandle_announce (hkind : x.kind = .announce) (hmode : m.clk.mode ≠ .freeRun) :
    ptpHandle m p x ts = gotAnnounce m p x := by
  rw [ptpHandle]
  refine (if_neg (ptpHandle_guard hours)).trans ?_
  rw [hkind]
  exact if_neg hmode

theorem ptpHandle_sync (hkind : x.kind = .sync) (hparent : fromParent m p x = true) (hone : x.twoStep = false) :
    ptpHandle m p x ts = acceptSync m p x.origin ts x.corr := by
  rw [ptpHandle]
  refine (if_neg (ptpHandle_guard hours)).trans ?_
  rw [hkind]
  simp only [hparent, hone, Bool.not_true, Bool.false_eq_true, if_false]

end

/-! ## Foreign masters (R330, R331) -/

theorem utcFromParent_ports (m : Mod) : (utcFromParent m).clk.ports = m.clk.ports := by
  unfold utcFromParent
  split
  · split
    · split <;> rfl
    · rfl
  · rfl

/-- The state decision changes port states, the parent and the clock state, and no foreign master. -/
theorem runBmca_foreigns (m : Mod) (p : Nat) : (ptpPort (runBmca m) p).foreigns = (ptpPort m p).foreigns := by
  unfold runBmca
  split
  · rfl
  · extract_lets best sts m1 sp par id changed c m2 c' m3 m4
    clear_value sts
    have h1 : (ptpPort m1 p).foreigns = (ptpPort m p).foreigns :=
      foldl_keep (fun n => (ptpPort n p).foreigns) _ (fun n ps => foreigns_setState n p ps.1 ps.2) sts m
    have h3 : m3.clk.ports = m1.clk.ports := by
      simp only [m3]
      split
      · rw [(setFault_pairKept ..).clk]
      · rfl
    have h4 : m4.clk.ports = m3.clk.ports := by
      simp only [m4]
      split
      · exact (setClkState_clk ..).1.ports
      · rfl
    rw [ptpPort_congr ((utcFromParent_ports m4).trans (h4.trans h3)), h1]

/-- The Announce of a clock that a port does not know adds its record while fewer than eight are kept (R330). -/
theorem gotAnnounce_new {m : Mod} {p : Nat} {x : PtpMsg} (hnew : ∀ f ∈ (ptpPort m p).foreigns, f.src ≠ x.src)
    (hroom : (ptpPort m p).foreigns.length < 8) :
    (ptpPort (gotAnnounce m p x) p).foreigns =
      (ptpPort m p).foreigns ++ [⟨x.src, x.ann, 1, m.clk.elapsed, x.ann.utcValid⟩] := by
  have hnone : ((ptpPort m p).foreigns.any (·.src == x.src)) = false := by simpa using hnew
  rw [gotAnnounce, runBmca_foreigns, ptpPort_modPtpPort_same, hnone, if_neg Bool.false_ne_true, if_pos hroom]

theorem autoHoldover_foreigns (m : Mod) (p : Nat) : (ptpPort (autoHoldover m) p).foreigns = (ptpPort m p).foreigns :=
  congrArg PtpPort.foreigns (ptpPort_congr (autoHoldover_clk m).1.ports p)

/-- The only foreign master of a port leaves it when it has been silent for announceReceiptTimeout. -/
theorem foreignTimeout_one {m : Mod} {p : Nat} {f : ForeignMaster} (hone : (ptpPort m p).foreigns = [f])
    (hsilent : f.lastAt + announceTimeout m ≤ m.clk.elapsed) : (ptpPort (foreignTimeout m p) p).foreigns = [] := by
  have htimeout : foreignTimeout m p = dropForeigns m p := by
    rw [foreignTimeout, hone]
    exact congrArg (dropForeigns · p) (advanceTo_of_le hsilent)
  rw [htimeout]
  unfold dropForeigns
  extract_lets stale parent lost m1
  have hgone : (ptpPort m1 p).foreigns = [] := by
    rw [ptpPort_modPtpPort_same, hone]
    simp [stale, hsilent]
  split
  · rw [autoHoldover_foreigns, hgone]
  · rw [runBmca_foreigns, hgone]

/-! ## Offsets (R314, R319) -/

/-- Where PTP_CTRL forbids steps every offset is slewed. -/
theorem correctOffset_slews {m : Mod} (h : regBits m Reg.PTP_CTRL 0 0 = 0) (d : Int) :
    correctOffset m d = { m with clk := { m.clk with slewLeft := -d * nsUnit } } := if_pos (.inr h)

/-- An accepted offset is shown, and slewed where PTP_CTRL forbids steps. -/
theorem acceptOffset_effect {m : Mod} (h : regBits m Reg.PTP_CTRL 0 0 = 0) (d mpd : Int) :
    reg (acceptOffset m d mpd) Reg.PTP_OFFSET = BitVec.ofInt 32 (satNs d) ∧
      (acceptOffset m d mpd).clk.lastSyncAt = m.clk.lastSyncAt ∧ (acceptOffset m d mpd).clk.slewLeft = -d * nsUnit := by
  unfold acceptOffset
  extract_lets lockNs
  split
  next k m1 hdraw =>
  obtain ⟨-, rfl⟩ := Prod.mk.inj hdraw
  extract_lets good bad m2 m3 c m4 m5 c' m6
  have h4 : reg m4 Reg.PTP_OFFSET = BitVec.ofInt 32 (satNs d) ∧ reg m4 Reg.PTP_CTRL = reg m Reg.PTP_CTRL := by
    constructor
    · exact (reg_setReg_ne _ _ (by decide)).trans <| (reg_setReg_ne _ _ (by decide)).trans (reg_setReg_same ..)
    · exact (reg_setReg_ne _ _ (by decide)).trans <| (reg_setReg_ne _ _ (by decide)).trans (reg_setReg_ne _ _ (by decide))
  have h5 : PtpNoted m4 m5 ∧ m5.clk.lastSyncAt = m4.clk.lastSyncAt := by
    have hst : ∀ st, PtpNoted m4 (setClkState m4 st) ∧ (setClkState m4 st).clk.lastSyncAt = m4.clk.lastSyncAt :=
      fun st => ⟨setClkState_ptpNoted .., (setClkState_clk ..).1.lastSyncAt⟩
    simp only [m5]
    split
    · exact hst _
    · split
      · exact hst _
      · exact ⟨.refl m4, rfl⟩
  have h6 : m6.regs = m5.regs ∧ m6.clk.lastSyncAt = m5.clk.lastSyncAt := by
    simp only [m6]
    split <;> exact ⟨rfl, rfl⟩
  have hreg : ∀ off, off < 0xa0000 → off ≠ Reg.PTP_FAULT → reg m6 off = reg m4 off :=
    fun off hlt hne => (reg_congr h6.1 off).trans (h5.1.regs off hlt hne)
  have hctrl : regBits m6 Reg.PTP_CTRL 0 0 = 0 := by rwa [regBits, hreg _ (by decide) (by decide), h4.2]
  rw [correctOffset_slews hctrl]
  exact ⟨(hreg _ (by decide) (by decide)).trans h4.1, h6.2.trans h5.2, rfl⟩

/-- Outside Holdover a Sync with its origin time forms its offset while the clock acquires or holds its lock. -/
theorem acceptSync_forms {m : Mod} (p : Nat) (t1 t2 corr : Int) (hmode : m.clk.mode ≠ .holdover) (hcmd : m.clk.cmdHoldover = false)
    (hst : m.clk.state = .acquiring ∨ m.clk.state = .locked) : ∃ n mpd,
    acceptSync m p t1 t2 corr = acceptOffset n ((t2 - t1 - corr - (ptpPort m p).mpd) / 65536) mpd ∧ n.regs = m.regs ∧
      n.clk.lastSyncAt = m.clk.elapsed := by
  unfold acceptSync
  extract_lets c m1 m2 m3 q
  have h3 : m3 = m2 := if_neg (by simpa [m2, m1, modPtpPort] using fun h => absurd h hmode)
  refine ⟨m2, (ptpPort m2 p).mpd / 65536, ?_, rfl, rfl⟩
  have hmpd : (ptpPort m2 p).mpd = (ptpPort m p).mpd := by
    rw [ptpPort_modPtpPort_same]
    rfl
  have hq : q = ptpPort m2 p := congrArg (ptpPort · p) h3
  rw [hq, h3, if_neg (by simpa [m2, m1, modPtpPort] using hcmd), ← hmpd]
  exact if_pos hst

/-! ## What a message taken does -/

section
variable {m m' : Mod} {p : Nat} {it : RxItem} {x : PtpMsg} (htake : takeControl m p isPtp = some (it, m'))
  (hpayload : it.frame.payload = .ptp x) (hours : TakesPart m p x)
include htake hpayload hours

theorem ptpReceived_announce (hkind : x.kind = .announce) (hmode : m.clk.mode ≠ .freeRun)
    (hnew : ∀ f ∈ (ptpPort m p).foreigns, f.src ≠ x.src) (hroom : (ptpPort m p).foreigns.length < 8) :
    (ptpPort (ptpReceived m p) p).foreigns =
      (ptpPort m p).foreigns ++ [⟨x.src, x.ann, 1, m.clk.elapsed, x.ann.utcValid⟩] := by
  rw [ptpReceived_of_take htake hpayload, ptpPort_congr (congrArg Clk.ports (ptpForward_kept ..).1), takeControl_eq htake,
    ptpHandle_announce (m := { m with net := m'.net }) hours hkind hmode]
  exact gotAnnounce_new (m := { m with net := m'.net }) hnew hroom

/-- A one-step Sync of the parent forms the offset, which is shown and slewed where steps are forbidden (R314, R319). -/
theorem ptpReceived_sync (hkind : x.kind = .sync) (hparent : fromParent m p x = true) (hone : x.twoStep = false)
    (hcmd : m.clk.cmdHoldover = false) (hmode : m.clk.mode ≠ .holdover) (hctrl : regBits m Reg.PTP_CTRL 0 0 = 0)
    (hst : m.clk.state = .acquiring ∨ m.clk.state = .locked) {d : Int}
    (hd : d = (it.ts - x.origin - x.corr - (ptpPort m p).mpd) / 65536) :
    reg (ptpReceived m p) Reg.PTP_OFFSET = BitVec.ofInt 32 (satNs d) ∧ (ptpReceived m p).clk.lastSyncAt = m.clk.elapsed ∧
      (ptpReceived m p).clk.slewLeft = -d * nsUnit := by
  obtain ⟨n, mpd, hsync, hregs, hat⟩ :=
    acceptSync_forms (m := { m with net := m'.net }) p x.origin it.ts x.corr hmode hcmd hst
  have hn : regBits n Reg.PTP_CTRL 0 0 = 0 := by
    rw [regBits, reg_congr hregs]
    exact hctrl
  have hreceived : ptpReceived m p = ptpForward (acceptOffset n d mpd) p it x := by
    have hparent' : fromParent { m with net := m'.net } p x = true := by
      rw [fromParent, if_neg (by simp [hmode])] at hparent ⊢
      exact hparent
    rw [ptpReceived_of_take htake hpayload, takeControl_eq htake,
      ptpHandle_sync (m := { m with net := m'.net }) hours hkind hparent' hone, hsync, hd]
    rfl
  obtain ⟨hclk, hnoted⟩ := ptpForward_kept (acceptOffset n d mpd) p it x
  obtain ⟨hoff, hsyncAt, hslew⟩ := acceptOffset_effect hn d mpd
  rw [hreceived, hclk]
  exact ⟨(hnoted.regs _ (by decide) (by decide)).trans hoff, hsyncAt.trans hat, hslew⟩

end

end Sys2Proof.Machine
end

section
/-!
SUPPORT. The local clock between its ticks (R310, R319): the tick that carries, the 1PPS edge it makes, the leap second at such an
edge (R323) and the end of a slew.
-/
namespace Sys2Proof.Machine

/-! ## The local clock as a number -/

/-- The fractions of a clock are read off the number it stands for. -/
theorem localFine_withLocal (c : Clk) (t : Nat) : localFine (withLocal c t) = t % secs 1 := by
  simp only [localFine, withLocal, secs, nsUnit]
  omega

theorem withLocal_sec (c : Clk) (t : Nat) : (withLocal c t).sec = t / secs 1 % 2 ^ 64 := rfl

/-! ## Counting ticks -/

theorem ceilDiv_le_iff {a b n : Nat} (hb : 0 < b) : ceilDiv a b ≤ n ↔ a ≤ n * b := by
  rw [ceilDiv, if_neg hb.ne', ← Nat.ceilDiv_eq_add_pred_div, ceilDiv_le_iff_le_mul hb, mul_comm]

/-- Without a slew the ticks that add `need` are counted by the increment alone. -/
theorem ticksFor_noSlew {inc : Nat} (hinc : 0 < inc) (need : Nat) : ticksFor inc 0 need = ceilDiv need inc := by
  have hle : ceilDiv need (inc + slewTick) ≤ ceilDiv need inc := by
    rw [ceilDiv_le_iff (by omega)]
    calc need ≤ ceilDiv need inc * inc := (ceilDiv_le_iff hinc).1 le_rfl
      _ ≤ ceilDiv need inc * (inc + slewTick) := Nat.mul_le_mul_left _ (Nat.le_add_right ..)
  rw [ticksFor]
  simp only [le_refl, if_true, sub_zero, Int.toNat_natCast]
  exact max_eq_right hle

theorem ticksAdd_noSlew (inc n : Nat) : ticksAdd inc 0 n = (n * inc : Nat) := by
  rw [ticksAdd, if_pos le_rfl, min_eq_right (by positivity), add_zero]

section
variable {m : Mod}

/-- The ticks to the carry reach the second, and the last of them alone passes it (R310). -/
theorem ticksToCarry_bounds (hslew : m.clk.slewLeft = 0) (hfine : localFine m.clk < secs 1) (hinc : 0 < tickInc m) :
    secs 1 ≤ localFine m.clk + ticksToCarry m * tickInc m ∧
      localFine m.clk + ticksToCarry m * tickInc m < secs 1 + tickInc m := by
  have hticks : ticksToCarry m = ceilDiv (secs 1 - localFine m.clk) (tickInc m) := by
    rw [ticksToCarry, hslew, ticksFor_noSlew hinc]
    refine max_eq_right (Nat.pos_of_ne_zero fun h0 => ?_)
    have := (ceilDiv_le_iff hinc).1 h0.le
    omega
  rw [hticks]
  generalize hn : ceilDiv (secs 1 - localFine m.clk) (tickInc m) = n
  have hreach := (ceilDiv_le_iff hinc).1 hn.le
  cases n with
  | zero => omega
  | succ n =>
    have hlast : ¬secs 1 - localFine m.clk ≤ n * tickInc m := fun h => by
      have := (ceilDiv_le_iff hinc).2 h
      omega
    rw [Nat.succ_mul] at hreach ⊢
    omega

/-- At the carry the second counts one, and less than a tick of the next one has passed (R310). -/
theorem addTicks_carry (hslew : m.clk.slewLeft = 0) (hfine : localFine m.clk < secs 1) (hinc : 0 < tickInc m)
    (hstep : tickInc m ≤ secs 1) (hsec : m.clk.sec + 1 < 2 ^ 64) :
    (addTicks m (ticksToCarry m)).clk.sec = m.clk.sec + 1 ∧ localFine (addTicks m (ticksToCarry m)).clk < tickInc m := by
  obtain ⟨hlow, hhigh⟩ := ticksToCarry_bounds hslew hfine hinc
  obtain ⟨r, hr⟩ := Nat.exists_eq_add_of_le hlow
  have htime : ((localTime m.clk : Int) + ticksAdd (tickInc m) m.clk.slewLeft (ticksToCarry m)).toNat =
      r + (m.clk.sec + 1) * secs 1 := by
    rw [hslew, ticksAdd_noSlew, ← Nat.cast_add, Int.toNat_natCast, localTime, Nat.succ_mul]
    omega
  have hrlt : r < secs 1 := by omega
  have hsec1 : 0 < secs 1 := by omega
  constructor
  · change (withLocal m.clk _).sec = _
    rw [htime, withLocal_sec, Nat.add_mul_div_right _ _ hsec1, Nat.div_eq_of_lt hrlt, Nat.zero_add, Nat.mod_eq_of_lt hsec]
  · change localFine (withLocal m.clk _) < _
    rw [htime, localFine_withLocal, Nat.add_mul_mod_self_right, Nat.mod_eq_of_lt hrlt]
    omega

/-! ## The 1PPS edge -/

theorem takeSet_of_none (h : m.clk.pendStep = none) : takeSet m = m := by
  rw [takeSet, h]
  rfl

theorem ppsEdge_of_none (h : m.clk.pendMode = none) : ppsEdge m = m := by
  rw [ppsEdge, h]

theorem toPps_of_none (hset : m.clk.pendStep = none) : toPps m = carryEdge m := by
  rw [toPps, takeSet_of_none hset]
  exact if_pos rfl

theorem leapEdge_of_none (h : pendingLeap m = 0) : leapEdge m = m := by
  unfold leapEdge
  extract_lets lp new
  exact if_neg fun hl => by simp [lp, h] at hl

/-- Without a commanded Time mode and without a pending leap the 1PPS edge is the carry alone. -/
theorem toPps_plain (hset : m.clk.pendStep = none) (hmode : m.clk.pendMode = none) (hleap : pendingLeap m = 0) :
    toPps m = addTicks m (ticksToCarry m) := by
  rw [toPps_of_none hset, carryEdge, leapEdge_of_none (m := addTicks m (ticksToCarry m)) hleap]
  exact ppsEdge_of_none hmode

/-! ## The leap second (R323) -/

/-- At the midnight of a pending 61st second the offset counts one, and the flag sets. -/
theorem leapEdge_added (hleap : pendingLeap m = 1) (hday : ((m.clk.sec : Int) - (utcOffset m + 1)) % 86400 = 0) :
    leapEdge m = setFault { setReg m Reg.PTP_UTC (BitVec.ofNat 32 (codedOf 16 (utcOffset m + 1))) with
      clk := { m.clk with leapAt := some m.clk.sec, leapDir := 0 } } Reg.PTP_FAULT 7 := by
  simp only [leapEdge, hleap, hday, if_true, true_or, and_self]
  rfl

/-- The second that ends the UTC day of a pending 61st second is a midnight of the new offset. -/
theorem leapSecond_midnight (hleap : pendingLeap m = 1) {n : Nat} (hn : leapSecond m = n + 1) :
    (((n + 1 : Nat) : Int) - (utcOffset m + 1)) % 86400 = 0 := by
  simp only [leapSecond, hleap, if_true] at hn
  omega

/-- Half a second before its midnight the pending leap waits for the next 1PPS edge alone. -/
theorem leapApply_near (hleap : pendingLeap m = 1) (hsec : leapSecond m = m.clk.sec + 1)
    (hhalf : secs 1 / 2 ≤ localFine m.clk) : leapApply m = toPps m := by
  have hle : leapSecond m * secs 1 - secs 1 / 2 ≤ localTime m.clk := by
    have heven : secs 1 = secs 1 / 2 + secs 1 / 2 := by decide
    rw [hsec, localTime, Nat.succ_mul]
    omega
  rw [leapApply, if_pos (.inl hleap)]
  dsimp only
  rw [advanceLocal_of_le hle]

/-- The leap second is applied at the carry to its midnight (R323). -/
theorem leapApply_effect (hslew : m.clk.slewLeft = 0) (hset : m.clk.pendStep = none) (hmode : m.clk.pendMode = none)
    (hfine : localFine m.clk < secs 1) (hinc : 0 < tickInc m) (hstep : tickInc m ≤ secs 1) (hbound : m.clk.sec + 1 < 2 ^ 64)
    (hleap : pendingLeap m = 1) (hsec : leapSecond m = m.clk.sec + 1) (hhalf : secs 1 / 2 ≤ localFine m.clk) :
    (leapApply m).clk.sec = m.clk.sec + 1 ∧ (leapApply m).clk.leapAt = some (leapApply m).clk.sec ∧
      Bit (leapApply m) Reg.PTP_FAULT 7 ∧ reg (leapApply m) Reg.PTP_UTC = BitVec.ofNat 32 (codedOf 16 (utcOffset m + 1)) := by
  obtain ⟨hcarry, -⟩ := addTicks_carry hslew hfine hinc hstep hbound
  have hedge := leapEdge_added (m := addTicks m (ticksToCarry m)) hleap (by
    rw [hcarry]
    exact leapSecond_midnight hleap hsec)
  rw [leapApply_near hleap hsec hhalf, toPps_of_none hset, carryEdge, hedge,
    ppsEdge_of_none (by rw [(setFault_pairKept ..).clk]; exact hmode), (setFault_pairKept ..).clk]
  refine ⟨hcarry, rfl, Bit_setFault (by decide) (by decide), ?_⟩
  rw [reg_setFault _ _ _ _ _ (by decide), if_neg (by decide)]
  exact reg_setReg_same ..

/-! ## The end of a slew (R319) -/

theorem runTicks_of_lt {k n : Nat} (h : n < ticksToCarry m) : runTicks (k + 1) m n = addTicks m n := by
  rw [runTicks]
  exact if_pos h

/-- Nothing of a slew is left after as many ticks as its offset takes. -/
theorem slewAfter_done (slew : Int) : slewAfter slew (ceilDiv slew.natAbs slewTick) = 0 := by
  have h := (ceilDiv_le_iff (a := slew.natAbs) (b := slewTick) (by decide)).1 le_rfl
  unfold slewAfter
  split <;> omega

/-- A slew that ends within the second takes its ticks alone. -/
theorem slewComplete_within (hset : m.clk.pendStep = none) (hslew : m.clk.slewLeft ≠ 0)
    (hlt : ceilDiv m.clk.slewLeft.natAbs slewTick < ticksToCarry m) :
    slewComplete m = addTicks m (ceilDiv m.clk.slewLeft.natAbs slewTick) := by
  have hne : ceilDiv m.clk.slewLeft.natAbs slewTick ≠ 0 := fun h0 => by
    have := (ceilDiv_le_iff (b := slewTick) (by decide)).1 h0.le
    omega
  rw [slewComplete, takeSet_of_none hset]
  exact (if_neg hne).trans (runTicks_of_lt hlt)

end

end Sys2Proof.Machine
end

section
/-!
SUPPORT. The references of the clock (R314, R318), and the settings that the host writes (R320, R322, R337).
-/
namespace Sys2Proof.Machine

/-! ## References -/

section
variable {m : Mod}

/-- Three sync intervals without a Sync end a lock, or its acquisition, in Holdover (R314). -/
theorem referenceLost_due {f : ForeignMaster} {p : Nat} (hmode : m.clk.mode = .slave ∨ m.clk.mode = .boundary)
    (hst : m.clk.state = .locked ∨ m.clk.state = .acquiring) (hparent : m.clk.parent = some f) (hport : m.clk.slavePort = some p)
    (hsilent : m.clk.lastSyncAt + 3 * intvAt m 0 ≤ m.clk.elapsed) : referenceLost m = autoHoldover m := by
  rw [referenceLost, if_pos ⟨hmode, hst⟩, hparent, hport]
  exact congrArg autoHoldover (advanceTo_of_le (min_le_of_right_le hsilent))

theorem settleExt_of_ne_master (h : m.clk.mode ≠ .master) : settleExt m = m := if_pos (.inl h)

/-- An edge of the external 1PPS a second after the one before it, of a valid 10 MHz input: a slave follows it and is not set by it
(R318). -/
theorem extPpsEdge_slave {c : Nat × Nat × Nat} (huse : regBits m Reg.PTP_CTRL 2 2 = 1) (hcap : m.clk.extCap = some c)
    (hmode : m.clk.mode = .slave)
    (hnear : ((localTime m.clk : Int) - (c.1 * secs 1 + c.2.1 * nsUnit + c.2.2 * 2 ^ 32 + secs 1 : Nat)).natAbs ≤ usec 1) :
    ∃ run, (extPpsEdge m true).clk = { m.clk with
      ext10 := true, extPps := true, extRun := run, extCap := some (m.clk.sec, m.clk.ns, m.clk.frac)
      extEdge := some (m.clk.sec, m.clk.ns, m.clk.frac), extState := if 16 ≤ run then 2 else 1 } := by
  unfold extPpsEdge
  extract_lets t prev ok fine off use run c1 m1 c2 m3 c3 m5 c5 m7 m8
  have hok : ok = true := by
    simp only [ok, prev, hcap]
    exact decide_eq_true hnear
  have huse' : use = true := by simp [use, huse]
  clear_value ok use
  subst hok huse'
  have h3 : m3.clk = m1.clk := by
    simp only [m3]
    split <;> rfl
  have h7 : m7.clk = { m1.clk with extState := if 16 ≤ run then 2 else 1 } := by rw [← h3]
  have hmode7 : m7.clk.mode = .slave := (congrArg Clk.mode h7).trans hmode
  have h8 : m8 = m7 := by
    simp only [m8]
    rw [if_neg (by simp [hmode7]), settleExt_of_ne_master (by simp [hmode7])]
  refine ⟨run, ?_⟩
  rw [if_neg (by decide), if_neg (by decide), if_pos (by simp [h8, hmode7]), h8, h7]
  rfl

/-- A lost external input is noted with its flag, and ends the lock of a master in Holdover (R318). -/
theorem extLost_effect (ten : Bool) (huse : regBits m Reg.PTP_CTRL 2 2 = 1) :
    (extLost m ten).clk.extState = 3 ∧ (extLost m ten).clk.extRun = 0 ∧ Bit (extLost m ten) Reg.PTP_FAULT 6 ∧
      (m.clk.mode = .master → m.clk.state = .locked →
        (extLost m ten).clk.state = .holdover ∧ (extLost m ten).clk.mode = .holdover) := by
  unfold extLost
  rw [if_neg (by omega)]
  extract_lets c m1 m2
  have h2 : m2.clk = m1.clk := (setFault_pairKept ..).clk
  have hbit : Bit m2 Reg.PTP_FAULT 6 := Bit_setFault (by decide) (by decide)
  have hstate : m2.clk.extState = 3 ∧ m2.clk.extRun = 0 := by
    rw [h2]
    exact ⟨rfl, rfl⟩
  have hmode : m2.clk.mode = m.clk.mode ∧ m2.clk.state = m.clk.state := by
    rw [h2]
    exact ⟨rfl, rfl⟩
  split
  case isTrue h =>
    obtain ⟨hsame, hst⟩ := autoHoldover_clk m2
    exact ⟨hsame.extState.trans hstate.1, hsame.extRun.trans hstate.2, Bit_autoHoldover hbit, fun _ _ => ⟨hst, hsame.mode⟩⟩
  case isFalse h =>
    rw [hmode.1, hmode.2] at h
    have hnot : m.clk.mode = .master → m.clk.state = .locked → False := fun h1 h2 => h ⟨h1, h2⟩
    split
    · obtain ⟨hsame, -⟩ := setClkState_clk m2 .grandmaster
      exact ⟨hsame.extState.trans hstate.1, hsame.extRun.trans hstate.2, (setClkState_ptpNoted ..).flags 6 hbit,
        fun h1 h2 => (hnot h1 h2).elim⟩
    · exact ⟨hstate.1, hstate.2, hbit, fun h1 h2 => (hnot h1 h2).elim⟩

/-! ## Settings -/

section
variable {v : Word}

theorem ptpSetCmd_taken (hgate : gateOpen m (srcOf Reg.PTP_SET_CMD) = true) (hgo : v.toNat % 2 = 1)
    (hst : m.clk.state = .freeRun ∨ m.clk.state = .grandmaster) (hns : (reg m Reg.PTP_SET_NS).toNat < 1000000000) :
    (ptpSetCmd m v 15).clk.pendStep = some ((reg m Reg.PTP_SET_SECL).toNat + 2 ^ 32 * (reg m Reg.PTP_SET_SECH).toNat,
      (reg m Reg.PTP_SET_NS).toNat) := by
  rw [ptpSetCmd, guardedWrite_open _ _ _ hgate]
  extract_lets ns
  rw [if_neg (by omega), if_pos ⟨hst, hns⟩]
  rfl

theorem ptpSetCmd_refused (hgate : gateOpen m (srcOf Reg.PTP_SET_CMD) = true) (hgo : v.toNat % 2 = 1)
    (h : ¬(m.clk.state = .freeRun ∨ m.clk.state = .grandmaster) ∨ 1000000000 ≤ (reg m Reg.PTP_SET_NS).toNat) :
    ptpSetCmd m v 15 = setFault (closeGate m (srcOf Reg.PTP_SET_CMD)) Reg.PTP_FAULT 10 := by
  rw [ptpSetCmd, guardedWrite_open _ _ _ hgate]
  extract_lets ns
  have hnot : ¬((m.clk.state = .freeRun ∨ m.clk.state = .grandmaster) ∧ (reg m Reg.PTP_SET_NS).toNat < 1000000000) :=
    fun ⟨hst, hns⟩ => h.elim (· hst) hns.not_ge
  rw [if_neg (by omega)]
  exact if_neg hnot

theorem ptpFreqWrite_taken (hgate : gateOpen m (srcOf Reg.PTP_FREQ) = true)
    (hst : m.clk.state = .freeRun ∨ m.clk.state = .grandmaster) :
    ptpFreqWrite m v 15 = setReg (setReg (closeGate m (srcOf Reg.PTP_FREQ)) Reg.PTP_FREQ v) Reg.PTP_RATE v := by
  rw [ptpFreqWrite, guardedWrite_open _ _ _ hgate]
  exact if_pos hst

theorem ptpFreqWrite_refused (hgate : gateOpen m (srcOf Reg.PTP_FREQ) = true)
    (hst : ¬(m.clk.state = .freeRun ∨ m.clk.state = .grandmaster)) :
    ptpFreqWrite m v 15 = setFault (closeGate m (srcOf Reg.PTP_FREQ)) Reg.PTP_FAULT 10 := by
  rw [ptpFreqWrite, guardedWrite_open _ _ _ hgate]
  exact if_neg hst

/-- The parent's Announce is the source of the UTC values (R322). -/
def utcFromAnnounce (m : Mod) : Bool :=
  (m.clk.mode == .slave || m.clk.mode == .boundary) && m.clk.parent.any fun f => f.ann.utcValid

theorem ptpUtcWrite_taken (hgate : gateOpen m (srcOf Reg.PTP_UTC) = true) (hsrc : utcFromAnnounce m = false)
    (hleap : bitsOf v.toNat 17 16 ≠ 3) :
    ptpUtcWrite m v 15 = setReg (closeGate m (srcOf Reg.PTP_UTC)) Reg.PTP_UTC (BitVec.ofNat 32 (v.toNat % 2 ^ 18)) := by
  rw [ptpUtcWrite, guardedWrite_open _ _ _ hgate]
  exact if_neg (show ¬(utcFromAnnounce m || decide (bitsOf v.toNat 17 16 = 3)) = true by simp [hsrc, hleap])

theorem ptpUtcWrite_refused (hgate : gateOpen m (srcOf Reg.PTP_UTC) = true)
    (h : utcFromAnnounce m = true ∨ bitsOf v.toNat 17 16 = 3) :
    ptpUtcWrite m v 15 = setFault (closeGate m (srcOf Reg.PTP_UTC)) Reg.PTP_FAULT 10 := by
  rw [ptpUtcWrite, guardedWrite_open _ _ _ hgate]
  exact if_pos (show (utcFromAnnounce m || decide (bitsOf v.toNat 17 16 = 3)) = true by simpa using h)

/-- A refused setting sets its flag and leaves the clock and the other registers of the time base. -/
theorem ptpRefused_effect (m : Mod) (blk : Nat) :
    (setFault (closeGate m blk) Reg.PTP_FAULT 10).clk = m.clk ∧ Bit (setFault (closeGate m blk) Reg.PTP_FAULT 10) Reg.PTP_FAULT 10 ∧
      ∀ off, off < 0xa0000 → off ≠ Reg.PTP_FAULT → reg (setFault (closeGate m blk) Reg.PTP_FAULT 10) off = reg m off :=
  ⟨(setFault_pairKept ..).clk, Bit_setFault (by decide) (by decide), (setFault_ptpNoted (closeGate m blk) 10 _ _ (.inl rfl)).regs⟩

end
end

theorem clockRetain_due {m : Mod} (h : Due m .clockRetain 0) :
    (clockRetain m).clk.savedSec = m.clk.sec ∧ timerDue (clockRetain m) .clockRetain 0 = some (m.clk.elapsed + secs 60) := by
  rw [clockRetain, expire_of_due h]
  exact ⟨rfl, timerDue_startTimer ..⟩

/-! ## The statement -/

/-- Settles O56, clause by clause of its words. -/
theorem clockFollowsItsReferences : Obligations.ClockFollowsItsReferences := by
  intro s hp
  refine ⟨?_, ?_, ?_, ?_, ?_, ?_, ?_, ?_, ?_, ?_, ?_, ?_⟩
  · intro p it m' x htake hpayload hours
    refine ⟨fun hkind hmode hnew hroom => ?_, fun hkind hparent hone hcmd hmode hctrl hst d hd => ?_⟩
    · exact ⟨(exec_ptpMessageReceived p s).trans (runS_powered _ hp),
        ptpReceived_announce htake hpayload hours hkind hmode hnew hroom⟩
    · exact ⟨(exec_ptpMessageReceived p s).trans (runS_powered _ hp),
        ptpReceived_sync htake hpayload hours hkind hparent hone hcmd hmode hctrl hst hd⟩
  · intro p hon hst
    refine ⟨fun hdue => ⟨(exec_ptpMessageTimer p 0 s).trans (runM_powered _ hp), ?_⟩,
      fun hdue => ⟨(exec_ptpMessageTimer p 1 s).trans (runM_powered _ hp), ?_⟩⟩
    · obtain ⟨msg, ev, hsends⟩ := ptpMessageTimer_sync hdue hon hst
      rw [hsends]
      obtain ⟨htimer, hport⟩ := ptpSend_started (stopTimer s.m .ptpMessage (4 * p)) p (4 * p) (intvAt s.m 0) _ msg ev
      exact ⟨htimer, congrArg PtpPort.seqSync hport⟩
    · obtain ⟨msg, ev, hsends⟩ := ptpMessageTimer_announce hdue hon hst
      rw [hsends]
      obtain ⟨htimer, hport⟩ := ptpSend_started (stopTimer s.m .ptpMessage (4 * p + 1)) p (4 * p + 1) (intvAt s.m 4) _ msg ev
      exact ⟨htimer, congrArg PtpPort.seqAnn hport⟩
  · intro p hon hst hdue
    refine ⟨(exec_ptpMessageTimer p 2 s).trans (runM_powered _ hp), ?_⟩
    obtain ⟨msg, ev, hsends⟩ := ptpMessageTimer_request hdue hon hst
    rw [hsends]
    obtain ⟨htimer, hport⟩ := ptpSend_started (stopTimer s.m .ptpMessage (4 * p + 2)) p (4 * p + 2) _ _ msg ev
    exact ⟨htimer, congrArg PtpPort.seqReq hport⟩
  · intro p f hone hsilent
    exact ⟨(exec_foreignMasterRecordTimeout p s).trans (runM_powered _ hp), foreignTimeout_one hone hsilent⟩
  · intro f p hmode hst hparent hport hsilent
    refine ⟨(exec_referenceLost s).trans (runS_powered _ hp), ?_⟩
    rw [referenceLost_due hmode hst hparent hport hsilent]
    obtain ⟨hsame, hstate⟩ := autoHoldover_clk s.m
    exact ⟨hsame.mode, hstate, hsame.fromMode, Bit_autoHoldover_entered (by rcases hst with h | h <;> simp [h])⟩
  · intro hslew hset hlt
    refine ⟨(exec_slewComplete s).trans (runS_powered _ hp), ?_⟩
    rw [slewComplete_within hset hslew hlt]
    exact ⟨slewAfter_done _, rfl⟩
  · intro hslew hset hmode hfine hinc hstep hbound
    refine ⟨fun hleap => ⟨(exec_ppsEdge s).trans (runS_powered _ hp), ?_⟩,
      fun hleap hsec hhalf => ⟨(exec_leapSecondApply s).trans (runS_powered _ hp), ?_⟩⟩
    · rw [toPps_plain hset hmode hleap]
      exact addTicks_carry hslew hfine hinc hstep hbound
    · exact leapApply_effect hslew hset hmode hfine hinc hstep hbound hleap hsec hhalf
  · intro c huse hcap hmode hnear
    refine ⟨(exec_ext1ppsEdge true s).trans (runS_powered _ hp), ?_⟩
    obtain ⟨run, hclk⟩ := extPpsEdge_slave huse hcap hmode hnear
    rw [hclk]
    exact ⟨rfl, rfl, rfl, rfl⟩
  · intro ten huse
    exact ⟨(exec_extReferenceLost ten s).trans (runS_powered _ hp), extLost_effect ten huse⟩
  · intro v st hst
    refine ⟨fun hup hgate hgo => ⟨fun htaken hns => ?_, fun h => ?_⟩, fun hup hgate => ⟨fun htaken => ?_, fun h => ?_⟩⟩
    · refine ⟨(exec_ptpSetCmd v 15 s).trans ((runS_powered _ hp).trans (by rw [inRunning_up _ _ _ hup])), ?_⟩
      exact ptpSetCmd_taken hgate hgo (hst.1 htaken) hns
    · refine ⟨(exec_ptpSetCmd v 15 s).trans ((runS_powered _ hp).trans (by rw [inRunning_up _ _ _ hup])), ?_⟩
      rw [ptpSetCmd_refused hgate hgo (h.imp_left (mt hst.2))]
      obtain ⟨hclk, hbit, -⟩ := ptpRefused_effect s.m (srcOf Reg.PTP_SET_CMD)
      exact ⟨hbit, hclk⟩
    · refine ⟨(exec_ptpFreqWrite v 15 s).trans ((runM_powered _ hp).trans (by rw [inRunning_up _ _ _ hup])), ?_⟩
      rw [ptpFreqWrite_taken hgate (hst.1 htaken)]
      exact ⟨(reg_setReg_ne _ _ (by decide)).trans (reg_setReg_same ..), reg_setReg_same ..⟩
    · refine ⟨(exec_ptpFreqWrite v 15 s).trans ((runM_powered _ hp).trans (by rw [inRunning_up _ _ _ hup])), ?_⟩
      rw [ptpFreqWrite_refused hgate (mt hst.2 h)]
      obtain ⟨-, hbit, hregs⟩ := ptpRefused_effect s.m (srcOf Reg.PTP_FREQ)
      exact ⟨hregs _ (by decide) (by decide), hregs _ (by decide) (by decide), hbit⟩
  · intro v src hup hgate hsrc
    refine ⟨fun hhost hleap => ?_, fun h => ?_⟩
    · refine ⟨(exec_ptpUtcWrite v 15 s).trans ((runS_powered _ hp).trans (by rw [inRunning_up _ _ _ hup])), ?_⟩
      rw [ptpUtcWrite_taken hgate (hsrc.symm.trans hhost) hleap]
      exact reg_setReg_same ..
    · refine ⟨(exec_ptpUtcWrite v 15 s).trans ((runS_powered _ hp).trans (by rw [inRunning_up _ _ _ hup])), ?_⟩
      rw [ptpUtcWrite_refused hgate (h.imp_left hsrc.symm.trans)]
      obtain ⟨-, hbit, hregs⟩ := ptpRefused_effect s.m (srcOf Reg.PTP_UTC)
      exact ⟨hregs _ (by decide) (by decide), hbit⟩
  · intro hdue
    exact ⟨(exec_clockSecondsRetain s).trans (runM_powered _ hp), clockRetain_due hdue⟩

end Sys2Proof.Machine
end

section
/-!
SUPPORT. Host rings (R351 to R353, R361): their registers, and what a transmit descriptor done, queued or waiting leaves.
-/
namespace Sys2Proof.Machine

/-! ## The registers of the rings (R361) -/

/-- The BASE, SIZE, TAIL and HEAD registers of the eight host rings. -/
def IsRingReg (off : Nat) : Prop := 0xa8040 ≤ off ∧ off < 0xa80c0

theorem isRingReg_of_ring {r : Nat} (hr : r < 8) :
    IsRingReg (ringBase r) ∧ IsRingReg (ringSz r) ∧ IsRingReg (ringTail r) ∧ IsRingReg (ringHead r) := by
  unfold IsRingReg ringBase ringSz ringTail ringHead Reg.MAC_HRX_BASE Reg.MAC_HTX_BASE Reg.MAC_HRX_SIZE Reg.MAC_HTX_SIZE
    Reg.MAC_HRX_TAIL Reg.MAC_HTX_TAIL Reg.MAC_HRX_HEAD Reg.MAC_HTX_HEAD
  split <;> omega

theorem srcOf_ringTail {r : Nat} (hr : r < 8) : srcOf (ringTail r) = 0xA := by
  obtain ⟨-, -, ⟨hlow, hhigh⟩, -⟩ := isRingReg_of_ring hr
  unfold srcOf
  omega

/-- The registers of the ports and of the rings are none that an event changes. -/
theorem eventFree_of_lt_recorder {off : Nat} (h : off < 0xf0000) : eventFree off = true := by
  simp only [eventFree, Reg.EVR_LOST_CNT, Reg.EVR_FAULT, Bool.and_eq_true, decide_eq_true_eq, bne_iff_ne]
  omega

theorem IsRingReg.eventFree {off : Nat} (h : IsRingReg off) : eventFree off = true :=
  eventFree_of_lt_recorder (by unfold IsRingReg at h; omega)

theorem IsRingReg.ne {off a : Nat} (h : IsRingReg off) (ha : ¬IsRingReg a) : off ≠ a := fun e => ha (e ▸ h)

/-- The ring registers read in `n` as in `m`. -/
def RingsKept (m n : Mod) : Prop := ∀ off, IsRingReg off → reg n off = reg m off

theorem RingsKept.of_regs {m n : Mod} (h : n.regs = m.regs) : RingsKept m n := fun _ _ => reg_congr h _

theorem RingsKept.trans {a b c : Mod} (h : RingsKept a b) (k : RingsKept b c) : RingsKept a c :=
  fun off ho => (k off ho).trans (h off ho)

theorem bump_ringsKept (m : Mod) {a : Nat} (ha : ¬IsRingReg a) : RingsKept m (bump m a) := fun off ho => by
  rw [reg_bump _ _ ho.eventFree, if_neg (ho.ne ha)]

theorem setFault_ringsKept (m : Mod) {a : Nat} (bit obj : Nat) (vals : List Nat) (ha : ¬IsRingReg a) :
    RingsKept m (setFault m a bit obj vals) := fun off ho => by
  rw [reg_setFault _ _ _ _ _ ho.eventFree, if_neg (ho.ne ha)]

theorem setFaultQuiet_ringsKept (m : Mod) {a : Nat} (bit : Nat) (ha : ¬IsRingReg a) : RingsKept m (setFaultQuiet m a bit) :=
  fun off ho => by rw [reg_setFaultQuiet _ _ _ (eventFree_lt ho.eventFree), if_neg (ho.ne ha)]

theorem not_isRingReg_of_lt {off : Nat} (h : off < 0xa8000) : ¬IsRingReg off := by
  unfold IsRingReg
  omega

theorem tsqAdd_ringsKept (m : Mod) {p : Nat} (hp : p < 8) (e : TsqEntry) : RingsKept m (tsqAdd m p e) := by
  have hdrop : ¬IsRingReg (Reg.PTP_PTSQ_DROP p) := not_isRingReg_of_lt (by unfold Reg.PTP_PTSQ_DROP; omega)
  have hfault : ¬IsRingReg Reg.PTP_FAULT := not_isRingReg_of_lt (by decide)
  unfold tsqAdd
  dsimp only
  split
  · exact (bump_ringsKept m hdrop).trans (setFault_ringsKept _ _ _ _ hfault)
  · split
    · exact .trans (.of_regs rfl) (setFaultQuiet_ringsKept _ _ hfault)
    · exact .of_regs rfl

theorem RingsKept.ringDesc_eq {m n : Mod} (h : RingsKept m n) {r : Nat} (hr : r < 8) (i : Nat) : ringDesc n r i = ringDesc m r i := by
  rw [ringDesc, h _ (isRingReg_of_ring hr).1, ringDesc]

theorem RingsKept.ringNext_eq {m n : Mod} (h : RingsKept m n) {r : Nat} (hr : r < 8) (i : Nat) : ringNext n r i = ringNext m r i := by
  rw [ringNext, h _ (isRingReg_of_ring hr).2.1, ringNext]

/-! ## The ring interrupt (R538) -/

theorem reg_msixSend (m : Mod) (v : Nat) {off : Nat} (h : off < 0x3F8000) : reg (msixSend m v) off = reg m off := by
  have hpba : off ≠ pbaWord v := by unfold pbaWord; omega
  unfold msixSend
  split
  · exact reg_setReg_ne _ _ hpba
  · rfl

theorem ringInt_keeps (m : Mod) (r : Nat) :
    (ringInt m r).net = m.net ∧ ∀ off, off < 0x3F8000 → reg (ringInt m r) off = reg m off := by
  have hsend (off : Nat) (h : off < 0x3F8000) : reg (msixSend m (45 + r)) off = reg m off := reg_msixSend m _ h
  unfold ringInt
  dsimp only
  split
  · exact ⟨rfl, fun _ _ => rfl⟩
  · split
    · exact ⟨rfl, fun _ _ => rfl⟩
    · split
      · exact ⟨by simp, hsend⟩
      · exact ⟨by simp [startTimer, setTimerAt, stopTimer], hsend⟩

theorem reg_ringInt_ring (m : Mod) {r off : Nat} (h : IsRingReg off) : reg (ringInt m r) off = reg m off :=
  (ringInt_keeps m r).2 off (eventFree_lt h.eventFree)

/-! ## Host writes (R351, R361) -/

theorem hostRxTail_given (m : Mod) (r : Nat) (v : Word) :
    reg (hostRxTail m r v 15) (ringTail r) = v ∧ tabGet (hostRxTail m r v 15).net.stopped r = false := by
  rw [hostRxTail, hostWrite_full]
  exact ⟨reg_setReg_same .., tabGet_tabSet_same ..⟩

theorem ringBaseSizeWrite_empty {m : Mod} {r : Nat} (hempty : reg m (ringHead r) = reg m (ringTail r)) (size : Bool) (v : Word) :
    reg (ringBaseSizeWrite m r size v 15) (if size then ringSz r else ringBase r) = v := by
  rw [ringBaseSizeWrite, hostWrite_full, if_neg (not_not.2 hempty)]
  exact reg_setReg_same ..

theorem ringBaseSizeWrite_refused {m : Mod} {r : Nat} (hused : reg m (ringHead r) ≠ reg m (ringTail r)) (size : Bool) (v : Word) :
    ringBaseSizeWrite m r size v 15 = setFault m (Reg.MAC_PFAULT 0) 8 r := by
  rw [ringBaseSizeWrite, hostWrite_full]
  exact if_pos hused

theorem exec_ringBaseSizeWrite_ring {s : State} (hp : Powered s) (hup : blockUp s.m 0xA = true) {r : Nat} (hr : r < 8) (size : Bool)
    (v : Word) : exec (.ringBaseSizeWrite r size v 15) s = .next { s with m := ringBaseSizeWrite s.m r size v 15 } :=
  (exec_ringBaseSizeWrite r size v 15 s).trans ((runM_powered _ hp).trans (by rw [if_pos hr, inRunning_up _ _ _ hup]))

/-! ## A descriptor done (R353) -/

theorem hostTxDone_effect {m n : Mod} (h : RingsKept m n) {r : Nat} (hr : r < 4) (i status : Nat) :
    (hostTxDone n r i status).2 = [toDram (ringDesc m (4 + r) i + 28) (leBytes 4 status)] ∧
      reg (hostTxDone n r i status).1 (ringHead (4 + r)) = BitVec.ofNat 32 (ringNext m (4 + r) i) ∧
      (hostTxDone n r i status).1.net.ports = n.net.ports ∧
      (hostTxDone n r i status).1.net.txWait = n.net.txWait.filter (·.ring ≠ r) := by
  have hr8 : 4 + r < 8 := by omega
  rw [← h.ringDesc_eq hr8, ← h.ringNext_eq hr8]
  have hnet : (hostTxDone n r i status).1.net = { n.net with txWait := n.net.txWait.filter (·.ring ≠ r) } := (ringInt_keeps ..).1
  exact ⟨rfl, (reg_ringInt_ring _ (isRingReg_of_ring hr8).2.2.2).trans (reg_setReg_same ..), by rw [hnet], by rw [hnet]⟩

/-! ## Frames queued once per port (R353, R355) -/

/-- In a fold over distinct elements of which only `b` touches what `g` shows, `g` shows what the step at `b` does. -/
theorem foldl_once {α β γ : Type} (g : α → γ) (f : α → β → α) (P : γ → γ → Prop) {b : β} {l : List β} (hnodup : l.Nodup)
    (hb : b ∈ l) (hother : ∀ a x, x ≠ b → g (f a x) = g a) (hat : ∀ a, P (g a) (g (f a b))) (a : α) : P (g a) (g (l.foldl f a)) := by
  have hkeep (l : List β) (hl : b ∉ l) (a : α) : g (l.foldl f a) = g a :=
    List.foldlRecOn l f (motive := fun n => g n = g a) rfl fun n hn x hx => (hother n x fun h => hl (h ▸ hx)).trans hn
  obtain ⟨l₁, l₂, rfl⟩ := List.append_of_mem hb
  have hsplit := List.nodup_middle.1 hnodup
  obtain ⟨h₁, h₂⟩ := not_or.1 (mt List.mem_append.2 (List.nodup_cons.1 hsplit).1)
  rw [List.foldl_append, List.foldl_cons, hkeep l₂ h₂, ← hkeep l₁ h₁ a]
  exact hat _

/-- The step of HOST_TX_DESCRIPTOR at one pair: the pair's sequence number where the frame is redundant, and `item`, of the pair's
mode, the number and the port, on each of its ports in `ps`. -/
def queueHostPair (ps : List Nat) (bypass : Bool) (q : Nat) (item : Nat → Nat → Nat → QItem) (m : Mod) (pr : Nat) : Mod :=
  if (ps.filter fun p => p / 2 == pr).isEmpty then m
  else
    let sm := if (tabGet m.portMap.pairs pr).mode ≠ 0 && !bypass then takeSeq m pr else (0, m)
    (ps.filter fun p => p / 2 == pr).foldl (fun n p => queuePut n p q (item (tabGet m.portMap.pairs pr).mode sm.1 p)) sm.2

/-- The frames of a host descriptor on the ports `ps`. -/
def queueHostFrames (ps : List Nat) (bypass : Bool) (q : Nat) (item : Nat → Nat → Nat → QItem) (m : Mod) : Mod :=
  (List.range 4).foldl (queueHostPair ps bypass q item) m

/-- What a transmit queue of a port holds. -/
abbrev queueOf (p q : Nat) (m : Mod) : List QItem := tabGet (netPort m p).txq q

theorem queueOf_queuePut_same (m : Mod) (p q : Nat) (it : QItem) : queueOf p q (queuePut m p q it) = queueOf p q m ++ [it] := by
  rw [queueOf, queuePut, netPort_modPort_same]
  exact tabGet_tabSet_same ..

theorem queueOf_queuePut_ne (m : Mod) {p j : Nat} (q : Nat) (it : QItem) (h : j ≠ p) :
    queueOf p q (queuePut m j q it) = queueOf p q m := by
  unfold queueOf netPort queuePut modPort
  rw [tabGet_tabMod_ne _ _ h.symm]

theorem queueOf_seqTaken (p q : Nat) (b : Bool) (m : Mod) (pr : Nat) :
    queueOf p q (if b then takeSeq m pr else (0, m)).2 = queueOf p q m := by
  split <;> rfl

/-- `l` grew to `l'` by one item, of some mode and sequence number, for port `p`. -/
def GrewBy (item : Nat → Nat → Nat → QItem) (p : Nat) (l l' : List QItem) : Prop := ∃ md s, l' = l ++ [item md s p]

section
variable {ps : List Nat} (hps : ps.Nodup) {bypass : Bool} {q : Nat} {item : Nat → Nat → Nat → QItem} {p : Nat} (hp : p ∈ ps)
  (m : Mod)

theorem queueOf_queueHostPair_other {pr : Nat} (h : pr ≠ p / 2) :
    queueOf p q (queueHostPair ps bypass q item m pr) = queueOf p q m := by
  unfold queueHostPair
  split
  · rfl
  · refine List.foldlRecOn _ _ (motive := fun n => queueOf p q n = queueOf p q m) (queueOf_seqTaken ..) fun n hn j hj => ?_
    have hpair : j / 2 = pr := by simpa using (List.mem_filter.1 hj).2
    exact (queueOf_queuePut_ne n q _ fun hjp => h (by rw [← hpair, hjp])).trans hn

include hps hp

theorem queueHostPair_grew : GrewBy item p (queueOf p q m) (queueOf p q (queueHostPair ps bypass q item m (p / 2))) := by
  have hmem : p ∈ ps.filter fun j => j / 2 == p / 2 := List.mem_filter.2 ⟨hp, by simp⟩
  unfold queueHostPair
  rw [if_neg fun h => List.ne_nil_of_mem hmem (List.isEmpty_iff.1 h)]
  dsimp only
  rw [← queueOf_seqTaken p q ((tabGet m.portMap.pairs (p / 2)).mode ≠ 0 && !bypass) m (p / 2)]
  exact foldl_once (queueOf p q) _ (GrewBy item p) (hps.filter _) hmem (fun n j hj => queueOf_queuePut_ne n q _ hj)
    (fun n => ⟨_, _, queueOf_queuePut_same ..⟩) _

theorem queueHostFrames_grew (hp8 : p < 8) :
    GrewBy item p (queueOf p q m) (queueOf p q (queueHostFrames ps bypass q item m)) :=
  foldl_once (queueOf p q) _ (GrewBy item p) List.nodup_range (List.mem_range.2 (by omega))
    (fun n _ h => queueOf_queueHostPair_other n h) (fun n => queueHostPair_grew hps hp n) m

end

/-! ## The descriptor at the head of a transmit ring (R353) -/

/-- The descriptor at HEAD of a ring, and the fields of a transmit descriptor (R353). -/
abbrev headDesc (m : Mod) (r : Nat) : Nat := ringDesc m r (reg m (ringHead r)).toNat
abbrev descLen (mem : Mem) (d : Nat) : Nat := dramNat mem (d + 4) 2
abbrev descPorts (mem : Mem) (d : Nat) : Nat := dramNat mem (d + 6) 1
abbrev descQueue (mem : Mem) (d : Nat) : Nat := dramNat mem (d + 7) 1
abbrev descFlags (mem : Mem) (d : Nat) : Nat := dramNat mem (d + 10) 2
abbrev descBypass (mem : Mem) (d : Nat) : Bool := (descFlags mem d).testBit 1
abbrev descOk (m : Mod) (mem : Mem) (d : Nat) : Bool := hostTxOk m (descLen mem d) (descPorts mem d) (descQueue mem d) (descFlags mem d)
abbrev descTargets (m : Mod) (mem : Mem) (d : Nat) : List Nat := hostTxPorts m (descPorts mem d) (descBypass mem d)

/-- The frame of the descriptor at `d` is redundant on port `p`. -/
def descRed (m : Mod) (mem : Mem) (d p : Nat) : Bool := !descBypass mem d && (pairCfg m p).mode ≠ 0

/-- Its bytes on port `p`, FCS and redundancy trailer included. -/
def descSize (m : Mod) (mem : Mem) (d p : Nat) : Nat := descLen mem d + 4 + if descRed m mem d p then 6 else 0

theorem descSize_eq (m : Mod) (mem : Mem) (d p : Nat) :
    descSize m mem d p = descLen mem d + 4 + if descBypass mem d = false ∧ (pairCfg m p).mode ≠ 0 then 6 else 0 := by
  simp [descSize, descRed]

/-- Its queue has room for it on port `p`. -/
def descRoom (m : Mod) (mem : Mem) (d p : Nat) : Bool := queueRoom m p (descQueue mem d) (descSize m mem d p)

/-- Its queue item on port `p` of a pair of mode `md`, with sequence number `s`. -/
def descItem (m : Mod) (mem : Mem) (d md s p : Nat) : QItem :=
  let b := dramRead mem (dramNat mem d 4) (descLen mem d)
  ⟨⟨beNat (b.take 6), beNat ((b.drop 6).take 6), [], descLen mem d + 4, false, false,
      if descRed m mem d p then some ⟨md == 2, s, p % 2⟩ else none, hostPayload b, b⟩,
    descSize m mem d p, if (descFlags mem d).testBit 0 then some (dramNat mem (d + 8) 2) else none, 0⟩

/-- The module once it noted that the frame of a descriptor with a timestamp request is not sent (R326). -/
def descNotSent (m : Mod) (mem : Mem) (d : Nat) : Mod :=
  if (descFlags mem d).testBit 0 then (maskPorts (descPorts mem d)).foldl (fun n p => tsqNotSent n p (dramNat mem (d + 8) 2)) m else m

theorem descNotSent_ringsKept (m : Mod) (mem : Mem) (d : Nat) : RingsKept m (descNotSent m mem d) := by
  unfold descNotSent
  split
  · refine List.foldlRecOn _ _ (motive := RingsKept m) (.of_regs rfl) fun n hn p hmem => hn.trans (tsqAdd_ringsKept n ?_ _)
    exact List.mem_range.1 (List.mem_of_mem_filter hmem)
  · exact .of_regs rfl

theorem mem_hostTxPorts_lt {m : Mod} {ports p : Nat} {bypass : Bool} (h : p ∈ hostTxPorts m ports bypass) : p < 8 :=
  List.mem_range.1 (List.mem_of_mem_filter h)

theorem nodup_hostTxPorts (m : Mod) (ports : Nat) (bypass : Bool) : (hostTxPorts m ports bypass).Nodup := List.nodup_range.filter _

/-- The module once the frame of the descriptor at `d` is queued on all its ports. -/
def descQueued (m : Mod) (mem : Mem) (d : Nat) : Mod :=
  queueHostFrames (descTargets m mem d) (descBypass mem d) (descQueue mem d) (descItem m mem d) m

theorem descQueued_regs (m : Mod) (mem : Mem) (d : Nat) : (descQueued m mem d).regs = m.regs := by
  refine foldl_keep Mod.regs _ (fun n pr => ?_) _ m
  unfold queueHostPair
  split
  · rfl
  · dsimp only
    rw [foldl_keep Mod.regs]
    · split <;> rfl
    · exact fun _ _ => rfl

section
variable {m : Mod} {mem : Mem} {r : Nat} (hrun : tabGet m.net.stopped (4 + r) = false)
  (hgiven : (reg m (ringHead (4 + r))).toNat ≠ (reg m (ringTail (4 + r))).toNat)
include hrun hgiven

theorem hostTxDescriptor_unowned (hown : dramNat mem (headDesc m (4 + r) + 28) 4 < 2 ^ 31) :
    hostTxDescriptor m mem r = ({ m with net := { m.net with stopped := tabSet m.net.stopped (4 + r) true } }, []) :=
  (if_neg (by simp [hrun, hgiven])).trans (if_pos hown)

variable (hown : 2 ^ 31 ≤ dramNat mem (headDesc m (4 + r) + 28) 4)
include hown

/-- A descriptor of the module is refused, queued on all its ports, or waits. -/
theorem hostTxDescriptor_owned :
    hostTxDescriptor m mem r =
      if !descOk m mem (headDesc m (4 + r)) then
        hostTxDone (descNotSent m mem (headDesc m (4 + r))) r (reg m (ringHead (4 + r))).toNat 4
      else if (descTargets m mem (headDesc m (4 + r))).all (descRoom m mem (headDesc m (4 + r))) then
        hostTxDone (descQueued m mem (headDesc m (4 + r))) r (reg m (ringHead (4 + r))).toNat 1
      else if m.net.txWait.any (·.ring == r) then (m, [])
      else (startTimer { m with net := { m.net with txWait := m.net.txWait ++ [⟨r, (reg m (ringHead (4 + r))).toNat⟩] } }
        .hostTx r (msec 10), []) :=
  (if_neg (by simp [hrun, hgiven])).trans (if_neg hown.not_gt)

theorem hostTxDescriptor_refused (hr : r < 4) (hok : descOk m mem (headDesc m (4 + r)) = false) :
    (hostTxDescriptor m mem r).2 = [toDram (headDesc m (4 + r) + 28) (leBytes 4 4)] ∧
      reg (hostTxDescriptor m mem r).1 (ringHead (4 + r)) =
        BitVec.ofNat 32 (ringNext m (4 + r) (reg m (ringHead (4 + r))).toNat) := by
  obtain ⟨hws, hhead, -⟩ := hostTxDone_effect (descNotSent_ringsKept m mem (headDesc m (4 + r))) hr (reg m (ringHead (4 + r))).toNat 4
  rw [hostTxDescriptor_owned hrun hgiven hown, hok]
  exact ⟨hws, hhead⟩

variable (hok : descOk m mem (headDesc m (4 + r)) = true)
include hok

theorem hostTxDescriptor_queued (hr : r < 4)
    (hroom : ∀ p ∈ descTargets m mem (headDesc m (4 + r)), descRoom m mem (headDesc m (4 + r)) p = true) :
    (hostTxDescriptor m mem r).2 = [toDram (headDesc m (4 + r) + 28) (leBytes 4 1)] ∧
      reg (hostTxDescriptor m mem r).1 (ringHead (4 + r)) =
        BitVec.ofNat 32 (ringNext m (4 + r) (reg m (ringHead (4 + r))).toNat) ∧
      ∀ p ∈ descTargets m mem (headDesc m (4 + r)), GrewBy (descItem m mem (headDesc m (4 + r))) p
        (queueOf p (descQueue mem (headDesc m (4 + r))) m)
        (queueOf p (descQueue mem (headDesc m (4 + r))) (hostTxDescriptor m mem r).1) := by
  rw [hostTxDescriptor_owned hrun hgiven hown, hok, List.all_eq_true.2 hroom, Bool.not_true, if_neg Bool.false_ne_true, if_pos rfl]
  obtain ⟨hws, hhead, hports, -⟩ :=
    hostTxDone_effect (.of_regs (descQueued_regs m mem (headDesc m (4 + r)))) hr (reg m (ringHead (4 + r))).toNat 1
  refine ⟨hws, hhead, fun p hp => ?_⟩
  have hqueue (q : Nat) : queueOf p q (hostTxDone (descQueued m mem (headDesc m (4 + r))) r (reg m (ringHead (4 + r))).toNat 1).1 =
      queueOf p q (descQueued m mem (headDesc m (4 + r))) := by
    simp only [queueOf, netPort, hports]
  rw [hqueue]
  exact queueHostFrames_grew (nodup_hostTxPorts ..) hp m (mem_hostTxPorts_lt hp)

theorem hostTxDescriptor_waits
    (hroom : ∃ p ∈ descTargets m mem (headDesc m (4 + r)), ¬descRoom m mem (headDesc m (4 + r)) p = true)
    (hfirst : (m.net.txWait.any (·.ring == r)) = false) :
    hostTxDescriptor m mem r = (startTimer { m with net :=
      { m.net with txWait := m.net.txWait ++ [⟨r, (reg m (ringHead (4 + r))).toNat⟩] } } .hostTx r (msec 10), []) := by
  have hfull : (descTargets m mem (headDesc m (4 + r))).all (descRoom m mem (headDesc m (4 + r))) = false := by
    simpa using hroom
  rw [hostTxDescriptor_owned hrun hgiven hown, hok, hfull, hfirst, Bool.not_true]
  rfl

end

theorem hostTxTimeout_due {m : Mod} {r : Nat} {w : TxWait} (mem : Mem) (hdue : Due m .hostTx r)
    (hw : m.net.txWait.find? (·.ring == r) = some w) :
    hostTxTimeout m mem r = hostTxDone (descNotSent m mem (ringDesc m (4 + r) w.idx)) r w.idx 2 := by
  obtain ⟨due, htimer, hle⟩ := hdue
  unfold hostTxTimeout
  rw [htimer, hw]
  dsimp only
  rw [advanceTo_of_le hle]
  rfl

/-! ## A descriptor of a receive ring (R343, R352) -/

theorem RingsKept.headDesc_eq {m n : Mod} (h : RingsKept m n) {r : Nat} (hr : r < 8) : headDesc n r = headDesc m r := by
  rw [headDesc, h.ringDesc_eq hr, h _ (isRingReg_of_ring hr).2.2.2]

/-- A frame stored through the descriptor at HEAD of a ring whose registers still read as in `m`. -/
theorem hostDeliver_stored {m n : Mod} (h : RingsKept m n) {mem : Mem} {r : Nat} (hr : r < 8) (p : Nat) (it : RxItem) (flags : Nat)
    (hrun : tabGet n.net.stopped r = false) (hgiven : reg m (ringHead r) ≠ reg m (ringTail r))
    (hown : 2 ^ 31 ≤ dramNat mem (headDesc m r + 28) 4) :
    reg (hostDeliver n mem r p it flags).1 (ringHead r) = BitVec.ofNat 32 (ringNext m r (reg m (ringHead r)).toNat) ∧
      ∃ w, (hostDeliver n mem r p it flags).2 =
          [toDram (dramNat mem (headDesc m r) 4) (it.frame.raw.take (descLen mem (headDesc m r))), w,
            toDram (headDesc m r + 28)
              (leBytes 4 (flags + if descLen mem (headDesc m r) < it.frame.raw.length then 256 else 0))] ∧
        w.addr = headDesc m r + 6 ∧
        w.bytes.take 2 = leBytes 2 (it.frame.raw.take (descLen mem (headDesc m r))).length := by
  obtain ⟨-, -, htail, hhead⟩ := isRingReg_of_ring hr
  rw [← h.headDesc_eq hr] at hown ⊢
  rw [← h.ringNext_eq hr, ← h _ hhead]
  rw [← h _ hhead, ← h _ htail] at hgiven
  unfold hostDeliver
  dsimp only
  rw [hrun, if_neg Bool.false_ne_true, if_neg (BitVec.toNat_ne.1 hgiven), if_neg hown.not_gt]
  exact ⟨(reg_ringInt_ring _ hhead).trans (reg_setReg_same ..), _, rfl, rfl, rfl⟩

end Sys2Proof.Machine
end

section
/-!
SUPPORT. Received frames (R340, R342 to R346, R350): their checks, their class and the buffer, ring or pause that they reach.
-/
namespace Sys2Proof.Machine

/-! ## Counters of a port -/

theorem reg_bump_ne (m : Mod) {a off : Nat} (hf : eventFree off = true) (h : off ≠ a) : reg (bump m a) off = reg m off := by
  rw [reg_bump _ _ hf, if_neg h]

theorem portCfg_bump (m : Mod) (a p : Nat) : portCfg (bump m a) p = portCfg m p := by simp [portCfg]

theorem bump_clk (m : Mod) (a : Nat) : (bump m a).clk = m.clk := by simp

theorem eventFree_MAC_PCFG {p : Nat} (hp : p < 8) : eventFree (Reg.MAC_PCFG p) = true :=
  eventFree_of_lt_recorder (by unfold Reg.MAC_PCFG; omega)

theorem reg_bump_counts {m : Mod} {a : Nat} (ha : eventFree a = true) (h : reg m a ≠ BitVec.allOnes 32) :
    reg (bump m a) a = reg m a + 1 := by
  rw [reg_bump _ _ ha, if_pos rfl, stickyInc_one h]

/-! ## The class of a frame (R342) -/

/-- What the class of a frame depends on: the images, the port map, the unit of the pair and PTP_CFG. -/
theorem rxClass_congr {m n : Mod} (hparts : n.parts = m.parts) (hmap : n.portMap = m.portMap) (hout : n.out = m.out)
    (hcfg : reg n Reg.PTP_CFG = reg m Reg.PTP_CFG) (p : Nat) (f : Frame) : rxClass n p f = rxClass m p f := by
  have hprofile : ptpProfile n = ptpProfile m := congrArg (fun w : Word => bitsOf w.toNat 1 0) hcfg
  have himage : imageOf n = imageOf m := funext (imageOf_congr hparts)
  have hpeer (g : GooseFrame) : peerPub n f g = peerPub m f g := by rw [peerPub, allPubs, sideB, himage, hout]; rfl
  have hsubs : allGSubs n = allGSubs m := by rw [allGSubs, himage]; rfl
  have hport (d : Nat) : isImagePort n p d = isImagePort m p d := by rw [isImagePort, outHdr, himage]; rfl
  have hinput (src dst d : Nat) (g : PmuFrame) : inputOf n p src dst d g = inputOf m p src dst d g := by rw [inputOf, himage]; rfl
  have hcfgs : portCfg n p = portCfg m p := by rw [portCfg, hmap, portCfg]
  simp only [rxClass, hprofile, himage, hpeer, hsubs, hport, hinput, hcfgs, hmap]

theorem rxClass_bump (m : Mod) {a : Nat} (ha : 0xa0000 ≤ a) (p : Nat) (f : Frame) : rxClass (bump m a) p f = rxClass m p f := by
  refine rxClass_congr (by simp) (by simp) (by simp) ?_ p f
  exact reg_bump_ne m (by decide) (by unfold Reg.PTP_CFG; omega)

/-! ## Frames with errors and frames of other VIDs (R340, R342, R346) -/

/-- The four error counters of a port stand between its other registers. -/
theorem errCounter_range (p errs : Nat) : Reg.MAC_PRX_FCS p ≤ errCounter p errs ∧ errCounter p errs ≤ Reg.MAC_PRX_CODE p := by
  unfold errCounter Reg.MAC_PRX_FCS Reg.MAC_PRX_RUNT Reg.MAC_PRX_OVERSIZE Reg.MAC_PRX_CODE
  split
  · omega
  · split
    · omega
    · split <;> omega

theorem oddFrame_discarded {m n : Mod} {p : Nat} (h : reg n (Reg.MAC_PCFG p) = reg m (Reg.MAC_PCFG p))
    (hdeliver : regBits m (Reg.MAC_PCFG p) 3 3 = 0) (mem : Mem) (it : RxItem) (flags : Nat) : oddFrame n mem p it flags = (n, []) := by
  refine if_neg ?_
  rw [regBits, h, ← regBits, hdeliver]
  decide

/-- The module once a frame with errors is counted. -/
def erredFrame (m : Mod) (p errs : Nat) : Mod := setFaultQuiet (bump m (errCounter p errs)) (Reg.MAC_PFAULT p) 0

theorem erredFrame_counted (m : Mod) {p : Nat} (hp : p < 8) (errs : Nat) :
    Bit (erredFrame m p errs) (Reg.MAC_PFAULT p) 0 ∧
      (reg m (errCounter p errs) ≠ BitVec.allOnes 32 →
        reg (erredFrame m p errs) (errCounter p errs) = reg m (errCounter p errs) + 1) ∧
      reg (erredFrame m p errs) (Reg.MAC_PCFG p) = reg m (Reg.MAC_PCFG p) := by
  obtain ⟨hlow, hhigh⟩ := errCounter_range p errs
  unfold Reg.MAC_PRX_FCS at hlow
  unfold Reg.MAC_PRX_CODE at hhigh
  have hcntFree : eventFree (errCounter p errs) = true := eventFree_of_lt_recorder (by omega)
  have hcntFault : errCounter p errs ≠ Reg.MAC_PFAULT p := by unfold Reg.MAC_PFAULT; omega
  have hcfgFault : Reg.MAC_PCFG p ≠ Reg.MAC_PFAULT p := by unfold Reg.MAC_PCFG Reg.MAC_PFAULT; omega
  have hcfgCnt : Reg.MAC_PCFG p ≠ errCounter p errs := by unfold Reg.MAC_PCFG; omega
  unfold erredFrame
  refine ⟨setFaultQuiet_bit _ _ (eventFree_lt (eventFree_MAC_PFAULT hp)) (by decide), fun hfull => ?_, ?_⟩
  · rw [reg_setFaultQuiet _ _ _ (eventFree_lt hcntFree), if_neg hcntFault, reg_bump_counts hcntFree hfull]
  · rw [reg_setFaultQuiet _ _ _ (eventFree_lt (eventFree_MAC_PCFG hp)), if_neg hcfgFault,
      reg_bump_ne _ (eventFree_MAC_PCFG hp) hcfgCnt]

section
variable {m : Mod} {mem : Mem} {p : Nat} {f : Frame} (hp : p < 8) (hlink : (netPort m p).link = true)
include hp hlink

theorem macFrameReceived_erred (hdeliver : regBits m (Reg.MAC_PCFG p) 3 3 = 0) (herr : frameErrs m p f ≠ 0) :
    macFrameReceived m mem p f = (erredFrame m p (frameErrs m p f), []) := by
  unfold macFrameReceived
  dsimp only
  rw [hlink, Bool.not_true, if_neg Bool.false_ne_true, if_pos herr]
  exact oddFrame_discarded (erredFrame_counted m hp _).2.2 hdeliver ..

variable (hgood : frameErrs m p f = 0)
include hgood

theorem macFrameReceived_unlistedVid (hdeliver : regBits m (Reg.MAC_PCFG p) 3 3 = 0) (htags : f.tags.length < 2)
    (hfilter : (portCfg m p).vlanFilter = true) (hvid : frameVid f ≠ 0) (hlist : (portCfg m p).vids.contains (frameVid f) = false) :
    macFrameReceived m mem p f = (bump m (Reg.MAC_PRX_VLAN p), []) := by
  have hne : Reg.MAC_PCFG p ≠ Reg.MAC_PRX_VLAN p := by unfold Reg.MAC_PCFG Reg.MAC_PRX_VLAN; omega
  unfold macFrameReceived
  dsimp only
  rw [hlink, Bool.not_true, if_neg Bool.false_ne_true, if_neg (not_not.2 hgood), if_neg htags.not_ge,
    if_pos ⟨hfilter, hvid, by rw [hlist]; rfl⟩]
  exact oddFrame_discarded (reg_bump_ne _ (eventFree_MAC_PCFG hp) hne) hdeliver ..

/-! ## Good frames (R342, R343, R350) -/

omit hp in
/-- A frame that passes the checks counts. A PAUSE frame goes to the port, and one without a redundancy tag to its class. -/
theorem macFrameReceived_passed (htags : f.tags.length < 2)
    (hvid : (portCfg m p).vlanFilter = false ∨ frameVid f = 0 ∨ (portCfg m p).vids.contains (frameVid f) = true) :
    (∀ q, f.payload = .pause q → macFrameReceived m mem p f = (pauseFrame (bump m (Reg.MAC_PRX_OK p)) p q, [])) ∧
    ((∀ q, f.payload ≠ .pause q) → f.red = none →
      macFrameReceived m mem p f = routeFrame (bump m (Reg.MAC_PRX_OK p)) mem p ⟨f, rxStamp m p, false⟩) := by
  have hlisted : ¬((portCfg m p).vlanFilter = true ∧ frameVid f ≠ 0 ∧ (!(portCfg m p).vids.contains (frameVid f)) = true) := by
    rintro ⟨hfilter, hne, hnot⟩
    rw [Bool.not_eq_true'] at hnot
    rcases hvid with h | h | h
    · exact Bool.false_ne_true (h.symm.trans hfilter)
    · exact hne h
    · exact Bool.false_ne_true (hnot.symm.trans h)
  unfold macFrameReceived
  dsimp only
  rw [hlink, Bool.not_true, if_neg Bool.false_ne_true, if_neg (not_not.2 hgood), if_neg htags.not_ge, if_neg hlisted]
  refine ⟨fun q hq => by rw [hq], fun hnopause hplain => ?_⟩
  split
  case h_1 q hq => exact absurd hq (hnopause q)
  case h_2 =>
    rw [redStage, hplain]
    rfl

end

/-! ## Buffers, rings and pauses (R343, R350) -/

theorem toControl_room {m : Mod} {p : Nat} {it : RxItem} (h : bufFill (netPort m p).control + it.frame.len ≤ 131072) :
    (netPort (toControl m p it) p).control = (netPort m p).control ++ [it] := by
  rw [toControl, if_pos h, netPort_modPort_same]

theorem toParser_room {m : Mod} {p : Nat} {it : RxItem} (h : bufFill (netPort m p).parser + it.frame.len ≤ 2097152) :
    (netPort (toParser m p it) p).parser = (netPort m p).parser ++ [it] := by
  have hput : (netPort (modPort m p fun st => { st with parser := st.parser ++ [it] }) p).parser = (netPort m p).parser ++ [it] := by
    rw [netPort_modPort_same]
  unfold toParser
  dsimp only
  rw [if_pos h]
  split
  · exact hput
  · exact hput

theorem pauseFrame_obeyed {m : Mod} {p q : Nat} (hp : p < 8) (hq : 0 < q) (hobey : regBits m (Reg.MAC_PCFG p) 2 2 = 1) :
    (netPort (pauseFrame m p q) p).paused = true ∧ timerDue (pauseFrame m p q) .pause p =
      some (m.clk.elapsed + q * (if (portCfg m p).mode = 1 then 512 * nsUnit / 10 else 512 * nsUnit)) := by
  have hcfg : reg (bump m (Reg.MAC_PPAUSE_RX p)) (Reg.MAC_PCFG p) = reg m (Reg.MAC_PCFG p) :=
    reg_bump_ne _ (eventFree_MAC_PCFG hp) (by unfold Reg.MAC_PCFG Reg.MAC_PPAUSE_RX; omega)
  have hobey' : regBits (bump m (Reg.MAC_PPAUSE_RX p)) (Reg.MAC_PCFG p) 2 2 = 1 := by rwa [regBits, hcfg]
  unfold pauseFrame
  dsimp only
  rw [if_pos hobey', if_neg hq.ne', portCfg_bump]
  exact ⟨congrArg NetPort.paused (netPort_modPort_same ..), (timerDue_startTimer ..).trans (by simp)⟩

/-! ## The statement -/

/-- A command that writes memory, by what its function gives. -/
theorem stores_of_runW {i : Instr} {s : State} {g : Mod → Mod × List MemWrite} {u : Mod} {ws : List MemWrite} {P : Mod → Prop}
    (hexec : exec i s = runW s g) (hp : Powered s) (hg : g s.m = (u, ws)) (hP : P u) : Stores i s (g s.m).1 ws P :=
  ⟨by rw [hexec, runW_powered _ hp, hg], by rwa [hg]⟩

/-- Settles O46: the rings by the branches of a host write and of a transmit descriptor, the frames by the checks of a port and the class
of a frame that passes them. -/
theorem hostRingsAndReceivedFrames : Obligations.HostRingsAndReceivedFrames := by
  refine ⟨fun s hp hup => ⟨?_, ?_, ?_, ?_, ?_, ?_⟩, fun s p f hp hp8 hlink hgood htags hplain hnopause hvid => ?_,
    fun s p f hp hp8 hlink hdeliver => ⟨?_, ?_, ?_⟩⟩
  · intro r v hr
    have hrun : blockUp s.m (srcOf (ringTail r)) = true := by rwa [srcOf_ringTail (by omega)]
    exact ⟨(exec_hostRxRingTail r v 15 s).trans ((runM_powered _ hp).trans (by rw [inRunning_up _ _ _ hrun])), hostRxTail_given ..⟩
  · intro r v hr
    have hrun : blockUp s.m (srcOf (ringTail (4 + r))) = true := by rwa [srcOf_ringTail (by omega)]
    exact ⟨(exec_hostTxRingTail r v 15 s).trans ((runM_powered _ hp).trans (by rw [inRunning_up _ _ _ hrun])), hostRxTail_given ..⟩
  · intro r v hr hempty
    exact ⟨⟨exec_ringBaseSizeWrite_ring hp hup hr false v, ringBaseSizeWrite_empty hempty false v⟩,
      ⟨exec_ringBaseSizeWrite_ring hp hup hr true v, ringBaseSizeWrite_empty hempty true v⟩⟩
  · intro r v hr hused
    refine ⟨exec_ringBaseSizeWrite_ring hp hup hr false v, ?_⟩
    rw [ringBaseSizeWrite_refused hused]
    exact ⟨setFault_ringsKept _ _ _ _ (not_isRingReg_of_lt (by decide)) _ (isRingReg_of_ring hr).1,
      Bit_setFault (by decide) (by decide)⟩
  · rintro r _ hr hrun rfl hgiven
    have hexec := exec_hostTxDescriptor r s
    refine ⟨fun hown => ?_, ?_⟩
    · exact stores_of_runW hexec hp (hostTxDescriptor_unowned hrun hgiven hown) (tabGet_tabSet_same ..)
    · rintro hown _ _ _ _ _ rfl rfl rfl rfl rfl
      simp only [← descSize_eq]
      refine ⟨fun hok => ?_, fun hok hroom => ?_, fun hok hroom hfirst => ?_⟩
      · obtain ⟨hws, hhead⟩ := hostTxDescriptor_refused hrun hgiven hown hr hok
        exact stores_of_runW hexec hp (Prod.ext rfl hws) hhead
      · obtain ⟨hws, hhead, hgrew⟩ := hostTxDescriptor_queued hrun hgiven hown hok hr hroom
        refine stores_of_runW hexec hp (Prod.ext rfl hws) ⟨hhead, fun p hmem => ?_⟩
        obtain ⟨md, sq, hq⟩ := hgrew p hmem
        exact ⟨_, hq, rfl, rfl⟩
      · exact stores_of_runW hexec hp (hostTxDescriptor_waits hrun hgiven hown hok hroom hfirst) ⟨rfl, timerDue_startTimer ..⟩
  · intro r w hr hdue hw
    obtain ⟨hws, hhead, -, hwait⟩ := hostTxDone_effect (descNotSent_ringsKept s.m s.mem (ringDesc s.m (4 + r) w.idx)) hr w.idx 2
    refine stores_of_runW (exec_hostTxQueueTimeout r s) hp ((hostTxTimeout_due s.mem hdue hw).trans (Prod.ext rfl hws)) ⟨hhead, ?_⟩
    rw [hwait]
    simp
  · have hexec := exec_macFrameReceived p f s
    have hdone := (macFrameReceived_passed (mem := s.mem) hlink hgood htags hvid).2 hnopause hplain
    have hport := netPort_bump s.m (Reg.MAC_PRX_OK p) p
    have hclass : rxClass (bump s.m (Reg.MAC_PRX_OK p)) p f = rxClass s.m p f :=
      rxClass_bump _ (by unfold Reg.MAC_PRX_OK; omega) p f
    refine ⟨fun hc hroom => ?_, fun hc hroom => ?_, ?_⟩
    · rw [routeFrame, hclass, hc] at hdone
      refine stores_of_runW hexec hp hdone ?_
      rw [toControl_room (by rwa [hport]), hport]
    · rw [routeFrame, hclass, hc] at hdone
      refine stores_of_runW hexec hp hdone ?_
      rw [toParser_room (by rwa [hport]), hport]
    · rintro r _ hc rfl hrun hr hgiven hown
      have hkept : RingsKept s.m (bump s.m (Reg.MAC_PRX_OK p)) :=
        bump_ringsKept _ (not_isRingReg_of_lt (by unfold Reg.MAC_PRX_OK; omega))
      obtain ⟨hnext, w, hws, haddr, hbytes⟩ := hostDeliver_stored (mem := s.mem) hkept (r := r) (by omega) p
        ⟨f, rxStamp s.m p, false⟩ 0 (by simpa using hrun) hgiven hown
      rw [Nat.zero_add] at hws
      rw [routeFrame, hclass, hc] at hdone
      exact ⟨w, stores_of_runW hexec hp (hdone.trans (Prod.ext rfl hws)) hnext, haddr, hbytes⟩
  · intro herr
    obtain ⟨hbit, hcount, -⟩ := erredFrame_counted s.m hp8 (frameErrs s.m p f)
    exact stores_of_runW (exec_macFrameReceived p f s) hp (macFrameReceived_erred hp8 hlink hdeliver herr) ⟨hbit, hcount⟩
  · intro hgood htags hfilter hvid hlist hfull
    exact stores_of_runW (exec_macFrameReceived p f s) hp
      (macFrameReceived_unlistedVid hp8 hlink hgood hdeliver htags hfilter hvid hlist)
      (reg_bump_counts (eventFree_of_lt_recorder (by unfold Reg.MAC_PRX_VLAN; omega)) hfull)
  · intro q hgood htags hpause hq hobey
    have hpassed := macFrameReceived_passed (mem := s.mem) hlink hgood (by simp [htags]) (.inr (.inl (by simp [frameVid, htags])))
    refine stores_of_runW (exec_macFrameReceived p f s) hp (hpassed.1 q hpause) ?_
    have hcfg : reg (bump s.m (Reg.MAC_PRX_OK p)) (Reg.MAC_PCFG p) = reg s.m (Reg.MAC_PCFG p) :=
      reg_bump_ne _ (eventFree_MAC_PCFG hp8) (by unfold Reg.MAC_PCFG Reg.MAC_PRX_OK; omega)
    obtain ⟨hpaused, htimer⟩ := pauseFrame_obeyed (m := bump s.m (Reg.MAC_PRX_OK p)) hp8 hq (by rwa [regBits, hcfg])
    exact ⟨hpaused, by rw [htimer, portCfg_bump, bump_clk]⟩

end Sys2Proof.Machine
end

section
/-!
SUPPORT. Recording: a manual trigger of an armed definition (R371, R375, R376). The record it opens has a primary trigger of source
class 2 (manual) and of kind 0; kind 2 of R373 is the stop of a REC_TRIGGER, which opens no record.
-/
namespace Sys2Proof.Machine

/-- A definition that a trigger opens a record of: configured in a Live partition, without an open record, armed and not in hold-off
(R375). -/
structure ArmedIdle (m : Mod) (d : Nat) (c : RecDef) : Prop where
  live : isLive m 3 = true
  configured : (recCfg m).defs.lookup d = some c
  idle : (defSt m d).rec_ = none
  armed : (defSt m d).disarmed = false
  ready : (defSt m d).hold = false

/-- The manual trigger of this instant (R371). -/
def manualTrigger (m : Mod) : Trigger := { cls := 2, num := 0, time := localTime m.clk }

/-- The record that a trigger opens, with the gap for the rows the ring does not hold (R377). -/
def openedRec (m : Mod) (d : Nat) (c : RecDef) (t : Trigger) : RecFile :=
  { newRec m d c t with rows := shortGap m (newRec m d c t) }

theorem openRec_of_idle {m : Mod} {d : Nat} (h : (defSt m d).rec_ = none) : openRec m d = none := by
  rw [openRec, h, Option.bind_none]

theorem closeIfDue_of_idle {m : Mod} {d : Nat} (h : (defSt m d).rec_ = none) : closeIfDue m d = m := by
  rw [closeIfDue, openRec_of_idle h]

theorem trigger_armedIdle {m : Mod} {d : Nat} {c : RecDef} (h : ArmedIdle m d c) (t : Trigger) : trigger m d t = recOpen m d c t := by
  unfold trigger
  simp only [closeIfDue_of_idle h.idle, h.configured, openRec_of_idle h.idle, h.live, h.armed, h.ready, Bool.not_true, Bool.or_self,
    Bool.false_eq_true, if_false]

/-- A fold over numbers none of which changes the value. -/
theorem foldl_of_skips {α : Type} {f : α → Nat → α} {l : List Nat} (hskip : ∀ b, ∀ j ∈ l, f b j = b) (a : α) : l.foldl f a = a := by
  induction l with
  | nil => rfl
  | cons j l ih =>
    rw [List.foldl_cons, hskip a j List.mem_cons_self]
    exact ih fun b k hk => hskip b k (List.mem_cons_of_mem j hk)

/-- A fold over the numbers below `n` that acts at one of them alone. -/
theorem foldl_range_single {α : Type} {f : α → Nat → α} {n i : Nat} (hi : i < n) (hskip : ∀ b j, j ≠ i → f b j = b) (a : α) :
    (List.range n).foldl f a = f a i := by
  obtain ⟨k, rfl⟩ := Nat.exists_eq_add_of_lt hi
  have hbelow : (List.range i).foldl f a = a :=
    foldl_of_skips (fun b j hj => hskip b j (List.mem_range.1 hj).ne) a
  rw [Nat.add_assoc, List.range_add, List.foldl_append, hbelow, List.range_succ_eq_map, List.map_cons, List.foldl_cons, Nat.add_zero]
  refine foldl_of_skips (fun b j hj => hskip b j ?_) (f a i)
  simp only [List.map_map, List.mem_map, Function.comp_apply] at hj
  omega

/-- A write of REC_MANUAL that names one definition opens its record. -/
theorem recManual_armedIdle {m : Mod} {half i d : Nat} {c : RecDef} (hi : i < 32) (hd : d = 32 * half + i) (h : ArmedIdle m d c) :
    recManual m half (BitVec.ofNat 32 (2 ^ i)) 15 = recOpen m d c (manualTrigger m) := by
  have hbit (j : Nat) : (BitVec.ofNat 32 (2 ^ i)).toNat.testBit j = decide (i = j) := by
    rw [BitVec.toNat_ofNat, Nat.mod_eq_of_lt (Nat.pow_lt_pow_right (by omega) hi), Nat.testBit_two_pow]
  rw [recManual, hostWrite_full, foldl_range_single hi fun n j hj => if_pos (by rw [hbit, decide_eq_false hj.symm]; rfl), ← hd,
    if_neg (by rw [hbit]; simp), if_neg (by rw [h.live, h.configured]; exact Bool.false_ne_true)]
  exact trigger_armedIdle h _

theorem recOpen_recs (m : Mod) (d : Nat) (c : RecDef) (t : Trigger) :
    (recOpen m d c t).rec_.recs = m.rec_.recs ++ [openedRec m d c t] := by
  simp [recOpen, openedRec, bumpO, modDef, modRec]

/-- A module in supply whose recording partition is Live with definition 0 alone, which is armed; no record is open. -/
def armedRecorder : State :=
  { m := { hlth := { power := .on, stage := 5 }
           parts := [(3, { state := .live, image := some { rec_ := { defs := [(0, {})] } } })] } }

theorem armedRecorder_powered : Powered armedRecorder := rfl

theorem armedRecorder_up : blockUp armedRecorder.m (srcOf (Reg.REC_MANUAL 0)) = true := by decide

theorem armedRecorder_armedIdle : ArmedIdle armedRecorder.m 0 {} := ⟨rfl, rfl, rfl, rfl, rfl⟩

/-- Refutes O57: its first clause gives the primary trigger of a record that REC_MANUAL opens the kind 2. On `armedRecorder`, bit 0 of
REC_MANUAL0 opens a record of definition 0 whose primary trigger has class 2, the manual source, and kind 0. -/
theorem not_recordsOpenCloseAndExport : ¬ Obligations.RecordsOpenCloseAndExport := by
  unfold Obligations.RecordsOpenCloseAndExport
  intro h
  have hs := armedRecorder_armedIdle
  obtain ⟨hmanual, -⟩ := h armedRecorder armedRecorder_powered
  obtain ⟨-, r, hrecs, -, -, -, -, hkind, -⟩ :=
    hmanual 0 0 0 {} (by decide) (by decide) rfl armedRecorder_up hs.live hs.configured hs.idle hs.armed hs.ready
  rw [recManual_armedIdle (by decide) rfl hs, recOpen_recs, List.append_cancel_left_eq, List.singleton_inj] at hrecs
  have hkind0 : r.primary.kind = 0 := by rw [← hrecs]; rfl
  exact absurd (hkind0.symm.trans hkind) (by decide)

end Sys2Proof.Machine
end

section
/-!
SUPPORT. Scope: a module without supply (R438, R475, R495). `exec_cases` gives every command its shape; without supply the shapes of the
commands that need it leave the state as it is.
-/
namespace Sys2Proof.Machine

section
variable {s : State} (h : s.m.hlth.power = .off)
include h

theorem runM_off (f : Mod → Mod) : runM s f = .next s := by
  rw [runM, runRaw, onSupply_off f s.m h]

theorem runS_off (f : Mod → Mod) : runS s f = .next s := if_pos h

theorem runW_off (f : Mod → Mod × List MemWrite) : runW s f = .next s := if_pos h

end

/-- Settles O7: of the five shapes of a command three do nothing without supply, and the other two are those of the commands named. -/
theorem noEffectWithoutSupply : Obligations.NoEffectWithoutSupply := by
  intro i s hoff hgood hpfail hunder htamper hhold hsave
  obtain ⟨f, hf⟩ | ⟨f, hf⟩ | ⟨-, f, hf⟩ | ⟨hraw, -⟩ | ⟨hsupply, -⟩ := exec_cases i s
  · exact hf.trans (runM_off hoff f)
  · exact hf.trans (runS_off hoff f)
  · exact hf.trans (runW_off hoff f)
  · obtain rfl | rfl | rfl | ⟨ok, cv, rfl⟩ := hraw
    · exact absurd rfl hgood
    · exact absurd rfl (hsave true)
    · exact absurd rfl (hsave false)
    · exact absurd rfl (hhold ok cv)
  · obtain rfl | rfl | ⟨c, rfl⟩ := hsupply
    · exact absurd rfl hpfail
    · exact absurd rfl hunder
    · exact absurd rfl (htamper c)

end Sys2Proof.Machine
end

section
/-!
SUPPORT. Keeper's queries, settings and statistics (R485 to R489, R498, R503, R504, R528, R529): what a taken command answers, and what
its own effect keeps beside the response.
-/
namespace Sys2Proof.Machine

/-- What a response leaves of the settings, the clock, the pair, the key store and the timers. -/
theorem SameButResponse.kept {m u : Mod} (h : SameButResponse m u) :
    u.mode = m.mode ∧ u.clk = m.clk ∧ u.out = m.out ∧ u.key = m.key ∧ u.timers = m.timers := by
  rw [SameButResponse] at h
  rw [h]
  exact ⟨rfl, rfl, rfl, rfl, rfl⟩

/-! ## Queries -/

/-- A taken query answers `r` where it asks for `r`, and changes nothing else. -/
theorem keeperAsk_result {m : Mod} {shed : Nat} {rq : KReq} {cmd obj : Nat} {args : Bytes} {ask : Mod → KResp} {r : KResp}
    (h : KeeperTakes m shed) (hr : ask m = r) : SameButResponse m (keeperAsk m rq cmd shed obj args ask) ∧
      Answers (keeperAsk m rq cmd shed obj args ask) rq cmd r := by
  obtain ⟨hans, hsame⟩ := keeperAsk_answers (rq := rq) (cmd := cmd) (obj := obj) (args := args) (ask := ask) h
  exact ⟨hsame, hr ▸ hans⟩

/-- The names of the partitions in turn. -/
abbrev allNames (m : Mod) : List (Nat × Nat × Bytes) := ([0, 1, 2, 3].map fun p => (imageOf m p).names).flatten

theorem mem_allNames {m : Mod} {x : Nat × Nat × Bytes} : x ∈ allNames m ↔ ∃ p < 4, x ∈ (imageOf m p).names := by
  have hparts (p : Nat) : p ∈ [0, 1, 2, 3] ↔ p < 4 := by simp only [List.mem_cons, List.not_mem_nil, or_false]; omega
  simp only [allNames, List.mem_flatten, List.mem_map, hparts]
  constructor
  · rintro ⟨_, ⟨p, hp, rfl⟩, hx⟩
    exact ⟨p, hp, hx⟩
  · rintro ⟨p, hp, hx⟩
    exact ⟨_, ⟨p, hp, rfl⟩, hx⟩

/-- Where a partition names the object, the first entry of its kind and number is one of a partition. -/
theorem allNames_find {m : Mod} {kind num : Nat} (h : ∃ p x, p < 4 ∧ (kind, num, x) ∈ (imageOf m p).names) :
    ∃ p x, p < 4 ∧ (kind, num, x) ∈ (imageOf m p).names ∧
      (allNames m).find? (fun x => x.1 == kind && x.2.1 == num) = some (kind, num, x) := by
  obtain ⟨p, x, hp, hx⟩ := h
  have hsome : ((allNames m).find? fun x => x.1 == kind && x.2.1 == num).isSome :=
    List.find?_isSome.2 ⟨_, mem_allNames.2 ⟨p, hp, hx⟩, by simp⟩
  obtain ⟨⟨k, n, y⟩, hy⟩ := Option.isSome_iff_exists.1 hsome
  obtain ⟨q, hq, hmem⟩ := mem_allNames.1 (List.mem_of_find?_eq_some hy)
  have hkey := List.find?_some hy
  simp only [Bool.and_eq_true, beq_iff_eq] at hkey
  obtain ⟨rfl, rfl⟩ := hkey
  exact ⟨q, y, hq, hmem, hy⟩

theorem nameLookup_result {m : Mod} (rq : KReq) {kind num : Nat} (hk : KeeperTakes m 1) (hpos : 1 ≤ kind) (hle : kind ≤ 9)
    (h : ∃ p x, p < 4 ∧ (kind, num, x) ∈ (imageOf m p).names) :
    SameButResponse m (nameLookup m rq kind num) ∧ ∃ p x, p < 4 ∧ (kind, num, x) ∈ (imageOf m p).names ∧
      Answers (nameLookup m rq kind num) rq 0x0003 { result := 0, data := x ++ [0] } := by
  obtain ⟨p, x, hp, hx, hfind⟩ := allNames_find h
  have hkind : ¬(kind = 0 ∨ 9 < kind) := by omega
  have hres : SameButResponse m (nameLookup m rq kind num) ∧
      Answers (nameLookup m rq kind num) rq 0x0003 { result := 0, data := x ++ [0] } :=
    keeperAsk_result hk (by simp only [if_neg hkind, hfind])
  exact ⟨hres.1, p, x, hp, hx, hres.2⟩

theorem selfTestFull_result {m : Mod} (rq : KReq) {mask : Nat} (res : List FullTest) (hk : KeeperTakes m 0) (hmask : mask < 2 ^ 16)
    (hfree : ∀ p < 4, (partOf m p).state = .live ∨ (partOf m p).state = .loading → (imageOf m p).homeSet &&& mask = 0) :
    SameButResponse m (selfTestFull m rq mask res) ∧ Answers (selfTestFull m rq mask res) rq 0x0081
      { result := 0
        data := Config.fullTestBytes (((List.range 16).filter mask.testBit).map fun c => match res.find? (·.cl == c) with
          | some r => [c, if r.pass then 1 else 3, r.unit]
          | none => [c, 0, 0]) } := by
  have huse (p : Nat) (hp : p < 4) :
      (((partOf m p).state == .live || (partOf m p).state == .loading) && (imageOf m p).homeSet &&& mask != 0) = false := by
    simpa using hfree p hp
  exact keeperAsk_result hk (by
    simp only [hmask.not_ge, List.any_cons, List.any_nil, huse, Nat.reduceLT, Bool.or_self, Bool.false_eq_true, if_false]
      <;> rfl)

/-- Settles O9: each query answers what it asks for, and changes nothing beside the response and its audit event. -/
theorem keeperAnswersQueries : Obligations.KeeperAnswersQueries := by
  intro s rq hp hk
  refine ⟨?_, ?_, fun first count hcount => ?_, fun n r hr => ?_, fun kind num hpos hle hname => ?_, fun mask res hmask hfree => ?_⟩
  · exact ⟨(exec_status rq s).trans (runM_powered _ hp), keeperAsk_result hk rfl⟩
  · exact ⟨(exec_healthReport rq s).trans (runM_powered _ hp), keeperAsk_result hk rfl⟩
  · exact ⟨(exec_recList rq first count s).trans (runM_powered _ hp), keeperAsk_result hk (if_neg hcount.not_gt)⟩
  · exact ⟨(exec_recInfo rq n s).trans (runM_powered _ hp), keeperAsk_result hk (by simp only [hr]; cases r.closed <;> rfl)⟩
  · exact ⟨(exec_nameLookup rq kind num s).trans (runM_powered _ hp), nameLookup_result rq hk hpos hle hname⟩
  · exact ⟨(exec_selftestFull rq mask res s).trans (runS_powered _ hp),
      selfTestFull_result rq res (keeperTakes_every 0 hk) hmask hfree⟩

/-! ## Settings -/

theorem imageDiscard_result {m : Mod} (rq : KReq) (hk : KeeperTakes m 0) : Answered (imageDiscard m rq) rq 0x0012 0 ∧
    (imageDiscard m rq).img = { m.img with staged := none, commit := m.img.commit.filter fun c => !c.waiting } := by
  obtain ⟨hans, hsame⟩ : Answered (imageDiscard m rq) rq 0x0012 (answer 0).result ∧ SameButResponse _ (imageDiscard m rq) :=
    keeperCmd_result hk rfl
  exact ⟨hans, hsame.held.2⟩

theorem compatSet_result {m : Mod} (rq : KReq) (v : Bool) (hk : KeeperTakes m 0) : Answered (compatSet m rq v) rq 0x0033 0 ∧
    (compatSet m rq v).mode = { m.mode with vz20Next := v } := by
  obtain ⟨hans, hsame⟩ : Answered (compatSet m rq v) rq 0x0033 (answer 0).result ∧ SameButResponse _ (compatSet m rq v) :=
    keeperCmd_result hk rfl
  exact ⟨hans, hsame.kept.1⟩

theorem timeModeCmd_result {m : Mod} (rq : KReq) {t : TimeMode} (hk : KeeperTakes m 0)
    (hleft : t = .holdover → m.clk.pendMode.getD m.clk.mode = .slave ∨ m.clk.pendMode.getD m.clk.mode = .boundary) :
    Answered (timeModeCmd m rq t) rq 0x0031 0 ∧ (timeModeCmd m rq t).clk = { m.clk with pendMode := some t } := by
  have hadmit : ¬(t = .holdover ∧ m.clk.pendMode.getD m.clk.mode ≠ .slave ∧ m.clk.pendMode.getD m.clk.mode ≠ .boundary) := by
    rintro ⟨rfl, hslave, hboundary⟩
    exact (hleft rfl).elim hslave hboundary
  obtain ⟨hans, hsame⟩ : Answered (timeModeCmd m rq t) rq 0x0031 (answer 0).result ∧
      SameButResponse { m with clk := { m.clk with pendMode := some t } } (timeModeCmd m rq t) :=
    keeperCmd_result hk (if_neg hadmit)
  exact ⟨hans, hsame.kept.2.1⟩

/-- A Test value noted for every partition's next boundary. -/
theorem tabGet_noted_parts (l : Cells (Option TestVal)) (v : TestVal) {p : Nat} (hp : p < 4) :
    tabGet ([0, 1, 2, 3].foldl (fun l k => tabSet l k (some v)) l) p = some v := by
  obtain rfl | rfl | rfl | rfl : p = 0 ∨ p = 1 ∨ p = 2 ∨ p = 3 := by omega
  all_goals simp [tabGet_tabSet_ne]

theorem testModeCmd_result {m : Mod} (rq : KReq) {v : TestVal} (hk : KeeperTakes m 0)
    (hactive : ∀ t, activeTest m (roleLeft m) = some t → t = v) :
    Answered (testModeCmd m rq v) rq 0x0032 0 ∧ (testModeCmd m rq v).mode = { m.mode with
      test := v, pendTest := [0, 1, 2, 3].foldl (fun l k => tabSet l k (some v)) m.mode.pendTest } := by
  obtain ⟨hans, hsame⟩ : Answered (testModeCmd m rq v) rq 0x0032 (answer 0).result ∧ SameButResponse { m with mode := { m.mode with
      test := v, pendTest := [0, 1, 2, 3].foldl (fun l k => tabSet l k (some v)) m.mode.pendTest } } (testModeCmd m rq v) :=
    keeperCmd_result hk (if_neg (by
      cases h : activeTest m (roleLeft m) with
      | none => exact Bool.false_ne_true
      | some t => simp [hactive t h]))
  exact ⟨hans, hsame.kept.1⟩

theorem roleSet_result {m : Mod} (rq : KReq) {r : Role} (hk : KeeperTakes m 0) (hcheck : (roleCheck m (roleLeft m) r).1 = 0) :
    Answered (roleSet m rq r) rq 0x0030 0 ∧ (roleSet m rq r).mode = { m.mode with pendRole := some r, pendFrom := m.mode.role } ∧
      (roleSet m rq r).out = { m.out with unit := (reg m Reg.OUT_UNIT).toNat } := by
  obtain ⟨clash, hclash⟩ : ∃ clash, roleCheck m (roleLeft m) r = (0, clash) := ⟨_, Prod.ext hcheck rfl⟩
  obtain ⟨hans, hsame⟩ : Answered (roleSet m rq r) rq 0x0030 (answer 0).result ∧
      SameButResponse { modO m (fun o => { o with unit := (reg m Reg.OUT_UNIT).toNat }) with
        mode := { m.mode with pendRole := some r, pendFrom := m.mode.role } } (roleSet m rq r) :=
    keeperCmd_result hk (by rw [hclash]; rfl)
  obtain ⟨hmode, -, hout, -⟩ := hsame.kept
  exact ⟨hans, hmode, hout⟩

theorem selfTestReq_result {m : Mod} (rq : KReq) {mask : Nat} (hk : KeeperTakes m 0) (hmask : mask < 2 ^ 16) :
    Answered (selfTestReq m rq mask) rq 0x0080 0 ∧
      reg (selfTestReq m rq mask) Reg.HLTH_ST_QUEUE = reg m Reg.HLTH_ST_QUEUE ||| BitVec.ofNat 32 mask := by
  have hans : Answered (selfTestReq m rq mask) rq 0x0080 (answer 0).result ∧ _ := keeperCmd_result hk (if_neg hmask.not_ge)
  refine ⟨hans.1, (regO_keeperCmd _ _ _ _ _ hk 0 (by decide)).trans ?_⟩
  rw [if_neg hmask.not_ge]
  exact reg_setReg_same ..

/-- Settles O10, setting by setting. -/
theorem keeperTakesSettings : Obligations.KeeperTakesSettings := by
  intro s rq hp hk
  refine ⟨?_, fun v => ?_, fun t hleft => ?_, fun v hactive => ?_, fun r hcheck => ?_, fun mask hmask => ?_⟩
  · exact ⟨(exec_imageDiscard rq s).trans (runM_powered _ hp), imageDiscard_result rq hk⟩
  · exact ⟨(exec_compatSet rq v s).trans (runM_powered _ hp), compatSet_result rq v hk⟩
  · exact ⟨(exec_timeMode rq t s).trans (runS_powered _ hp), timeModeCmd_result rq hk hleft⟩
  · obtain ⟨hans, hmode⟩ := testModeCmd_result rq hk hactive
    refine ⟨(exec_testMode rq v s).trans (runS_powered _ hp), hans, ?_, ?_, fun p hp4 => ?_⟩ <;> rw [hmode]
    exact tabGet_noted_parts s.m.mode.pendTest v hp4
  · obtain ⟨hans, hmode, hout⟩ := roleSet_result rq hk hcheck
    exact ⟨(exec_roleSet rq r s).trans (runS_powered _ hp), hans, hmode, by rw [hout]⟩
  · exact ⟨(exec_selftestReq rq mask s).trans (runS_powered _ hp), selfTestReq_result rq hk hmask⟩

/-! ## Statistics (R488, R529) -/

/-- Counters of a list all read 0 once the list is cleared. -/
theorem regO_clearAll {l : List (Nat × Nat)} {x : Nat × Nat} (hx : x ∈ l) (m : Mod) :
    regO (l.foldl (fun m r => setRegO m r.1 r.2 0) m) x.1 x.2 = 0 := by
  induction l generalizing m with
  | nil => cases hx
  | cons y l ih =>
    rcases List.mem_cons.1 hx with rfl | hx
    · refine List.foldlRecOn l _ (motive := fun n => regO n x.1 x.2 = 0) ?_ fun n hn y _ => ?_
      · rw [regO_setRegO, if_pos rfl]
      · rw [regO_setRegO]
        split
        · rfl
        · exact hn
    · exact ih hx _

/-- Settles O12: STATS answers the counters and clears them; the response touches no register outside the windows of Keeper and of the
event recorder. -/
theorem statsClearsCounters : Obligations.StatsClearsCounters := by
  intro s rq b obj hp hk hb
  have hrun : (if 0x12 ≤ b then (s.m, answer 0x0E)
      else ((statRows b obj).foldl (fun m r => setRegO m r.1 r.2 0) s.m,
        { result := 0, data := ((statRows b obj).map fun x => leBytes 4 (regO s.m x.1 x.2).toNat).flatten })) =
      ((statRows b obj).foldl (fun m r => setRegO m r.1 r.2 0) s.m,
        { result := 0, data := ((statRows b obj).map fun x => leBytes 4 (regO s.m x.1 x.2).toNat).flatten }) := if_neg hb.not_ge
  refine ⟨(exec_stats rq b obj s).trans (runM_powered _ hp), (keeperCmd_answers hk hrun).1, fun x hx hfree => ?_⟩
  refine (regO_keeperCmd _ _ _ _ _ hk x.2 hfree).trans ?_
  rw [hrun]
  exact regO_clearAll hx s.m

end Sys2Proof.Machine
end

section
/-!
SUPPORT. Keeper's commands of the key store (R465, R469 to R472, R478): what each gives where its checks pass.
-/
namespace Sys2Proof.Machine

/-! ## Slots and tags -/

/-- Two modules agree on what a response leaves of a slot. -/
theorem keySlot_congr {m u : Mod} (h : u.key = m.key) (i : Nat) : keySlot u i = keySlot m i := by rw [keySlot, h, keySlot]

@[simp] theorem keySlot_setSlot_same (m : Mod) (i : Nat) (s : KeySlot) : keySlot (setSlot m i s) i = s := tabGet_tabSet_same ..

/-! ## The store (R469) -/

/-- KEY_COMMISSION of a zeroed store, or of one without an image key, needs no signature. -/
theorem keyCommission_open {m : Mod} (sig : Bytes) (h : m.key.store = .zeroed ∨ ∀ i < 256, validPolicy m 2 i = false) :
    ∃ u, keyCommission m sig = (u, answer 0) ∧ u.key.store = .commissioning ∧
      timerDue u .commissioning 0 = some (m.clk.elapsed + secs 600) ∧
      (m.key.store = .zeroed → u.key.slots = [] ∧ u.key.tamper = 0) := by
  have hok : (m.key.store == .zeroed || !((List.range 256).any fun i => validPolicy m 2 i)) = true := by
    rcases h with h | h
    · simp [h]
    · simpa using Or.inr h
  unfold keyCommission
  simp only [hok, Bool.true_or, Bool.not_true, Bool.false_eq_true, if_false]
  by_cases hz : m.key.store = .zeroed
  · rw [if_pos hz]
    exact ⟨_, rfl, rfl, timerDue_startTimer .., fun _ => ⟨rfl, rfl⟩⟩
  · rw [if_neg hz]
    exact ⟨_, rfl, rfl, timerDue_startTimer .., fun h => absurd h hz⟩

theorem keyCommissionCmd_result {m : Mod} (rq : KReq) (sig : Bytes) (hk : KeeperTakes m 0)
    (h : m.key.store = .zeroed ∨ ∀ i < 256, validPolicy m 2 i = false) :
    Answered (keyCommissionCmd m rq sig) rq 0x0070 0 ∧ (keyCommissionCmd m rq sig).key.store = .commissioning ∧
      timerDue (keyCommissionCmd m rq sig) .commissioning 0 = some (m.clk.elapsed + secs 600) ∧
      (m.key.store = .zeroed → (keyCommissionCmd m rq sig).key.slots = [] ∧ (keyCommissionCmd m rq sig).key.tamper = 0) := by
  obtain ⟨u, hrun, hstore, htimer, hzero⟩ := keyCommission_open sig h
  obtain ⟨hans, hsame⟩ : Answered (keyCommissionCmd m rq sig) rq 0x0070 (answer 0).result ∧
      SameButResponse u (keyCommissionCmd m rq sig) := keeperCmd_result hk hrun
  obtain ⟨-, -, -, hkey, htimers⟩ := hsame.kept
  refine ⟨hans, ?_, (timerDue_congr htimers ..).trans htimer, ?_⟩ <;> rw [hkey]
  · exact hstore
  · exact hzero

theorem keyCloseCmd_result {m : Mod} (rq : KReq) (hk : KeeperTakes m 0) (h : m.key.store = .commissioning) :
    Answered (keyCloseCmd m rq) rq 0x0071 0 ∧ (keyCloseCmd m rq).key = { m.key with store := .provisioned } ∧
      timerDue (keyCloseCmd m rq) .commissioning 0 = none := by
  obtain ⟨hans, hsame⟩ : Answered (keyCloseCmd m rq) rq 0x0071 (answer 0).result ∧
      SameButResponse (stopTimer { m with key := { m.key with store := .provisioned } } .commissioning 0) (keyCloseCmd m rq) :=
    keeperCmd_result hk (if_pos h)
  obtain ⟨-, -, -, hkey, htimers⟩ := hsame.kept
  exact ⟨hans, hkey, (timerDue_congr htimers ..).trans (timerDue_stopTimer ..)⟩

/-! ## KEY_LOAD (R470, R471) -/

/-- What KEY_LOAD checks of a load: its authenticator, its type and material, its KID, and that no key of the slot is pending. -/
structure LoadPasses (m : Mod) (slot policy type kid : Nat) (mat auth : Bytes) : Prop where
  auth : loadAuthOk m slot policy type kid mat auth = true
  suits : typeSuits policy type = true
  material : materialOk type mat = true
  order : policy = 5 → m.factory.orderL = true
  kidFree : ∀ j < 256, j ≠ slot → (keySlot m j).state = .empty ∨ ((keySlot m j).kid ≠ kid ∧
    ((keySlot m j).state = .pending → (keySlot m j).nxtKid ≠ kid))
  notPending : (keySlot m slot).state ≠ .pending
  notZeroed : m.key.store ≠ .zeroed

/-- The slot once a load that passes is taken: filled at once where it was empty, else with the new key pending. -/
def LoadedSlot (old new : KeySlot) (policy type kid : Nat) (mat : Bytes) : Prop :=
  if old.state = .empty then new.state = .valid ∧ new.cur = mat ∧ new.policy = policy ∧ new.kid = kid
  else new = { old with
    state := .pending, cur := if old.state = .unusable then [] else old.cur
    nxt := mat, nxtKid := kid, nxtType := type, nxtPolicy := policy }

theorem keyLoad_passes {m : Mod} {slot policy type kid : Nat} {mat auth : Bytes} (h : LoadPasses m slot policy type kid mat auth) :
    ∃ u, keyLoad m slot policy type kid mat auth true = (u, answer 0) ∧
      LoadedSlot (keySlot m slot) (keySlot u slot) policy type kid mat := by
  have hkid : ((List.range 256).any fun j => j ≠ slot && (keySlot m j).state ≠ .empty
      && ((keySlot m j).kid == kid || ((keySlot m j).state == .pending && (keySlot m j).nxtKid == kid))) = false := by
    simp only [List.any_eq_false, List.mem_range]
    intro j hj
    have hfree := h.kidFree j hj
    simp only [Bool.and_eq_true, Bool.or_eq_true, decide_eq_true_eq, beq_iff_eq]
    tauto
  have horder : (policy == 5 && !m.factory.orderL) = false := by
    have := h.order
    by_cases h5 : policy = 5 <;> simp_all
  have hpending : ((keySlot m slot).state == .pending) = false := by simpa using h.notPending
  have hzeroed : (m.key.store == .zeroed) = false := by simpa using h.notZeroed
  unfold keyLoad LoadedSlot
  simp only [h.auth, h.suits, h.material, hkid, horder, hpending, hzeroed, Bool.not_true, Bool.or_self, Bool.false_eq_true, if_false]
  split
  · exact ⟨_, rfl, by simp [keySlot, setSlot]⟩
  · exact ⟨_, rfl, by simp [keySlot, setSlot]⟩

theorem keyLoadCmd_result {m : Mod} (rq : KReq) {slot policy type kid : Nat} {mat auth : Bytes} (hk : KeeperTakes m 0)
    (hslot : slot < 256) (h : LoadPasses m slot policy type kid mat auth) :
    Answered (keyLoadCmd m rq slot policy type kid mat auth true) rq 0x0072 0 ∧
      LoadedSlot (keySlot m slot) (keySlot (keyLoadCmd m rq slot policy type kid mat auth true) slot) policy type kid mat := by
  obtain ⟨u, hrun, hloaded⟩ := keyLoad_passes h
  obtain ⟨hans, hsame⟩ : Answered (keyLoadCmd m rq slot policy type kid mat auth true) rq 0x0072 (answer 0).result ∧
      SameButResponse u (keyLoadCmd m rq slot policy type kid mat auth true) :=
    keeperCmd_result hk ((if_neg hslot.not_ge).trans hrun)
  obtain ⟨-, -, -, hkey, -⟩ := hsame.kept
  exact ⟨hans, by rwa [keySlot_congr hkey]⟩

/-! ## KEY_COMMIT and KEY_ERASE (R471, R472) -/

theorem keyCommit_pending {m : Mod} {i : Nat} (hstate : (keySlot m i).state = .pending) (htag : checkTag m i = m) :
    ∃ u, keyCommit m i false false = (u, answer 0) ∧ Bit u Reg.KEY_FAULT 4 ∧ (keySlot u i).cur = (keySlot m i).nxt ∧
      (keySlot u i).kid = (keySlot m i).nxtKid ∧ (keySlot u i).policy = (keySlot m i).nxtPolicy ∧
      (keySlot u i).state = if (keySlot m i).policy = 1 ∧ (keySlot m i).nxtPolicy = 1 then .grace else .valid := by
  unfold keyCommit
  simp only [htag, hstate, ne_eq, not_true_eq_false, Bool.or_self, Bool.false_eq_true, if_false, Bool.and_eq_true, beq_iff_eq]
  split
  all_goals exact ⟨_, rfl, Bit_setFault (by decide) (by decide), by simp [keySlot, setSlot]⟩

section
variable {m : Mod} (rq : KReq) {slot : Nat} (hk : KeeperTakes m 0) (hslot : slot < 256) (hseal : isSealSlot m slot = false)
  (hnamed : slot ∉ namedSlots m)
include hk hslot hseal hnamed

theorem keyCommitCmd_result (hstate : (keySlot m slot).state = .pending) (htag : checkTag m slot = m) :
    Answered (keyCommitCmd m rq slot) rq 0x0073 0 ∧ Bit (keyCommitCmd m rq slot) Reg.KEY_FAULT 4 ∧
      (keySlot (keyCommitCmd m rq slot) slot).cur = (keySlot m slot).nxt ∧
      (keySlot (keyCommitCmd m rq slot) slot).kid = (keySlot m slot).nxtKid ∧
      (keySlot (keyCommitCmd m rq slot) slot).policy = (keySlot m slot).nxtPolicy ∧
      (keySlot (keyCommitCmd m rq slot) slot).state =
        if (keySlot m slot).policy = 1 ∧ (keySlot m slot).nxtPolicy = 1 then .grace else .valid := by
  obtain ⟨u, hrun, hbit, hcommitted⟩ := keyCommit_pending hstate htag
  have hrun' : (if 256 ≤ slot then (m, answer 0x0E) else keyCommit m slot (isSealSlot m slot) ((namedSlots m).contains slot)) =
      (u, answer 0) := by
    rw [if_neg hslot.not_ge, hseal, List.contains_eq_mem, decide_eq_false hnamed, hrun]
  obtain ⟨hans, hsame⟩ : Answered (keyCommitCmd m rq slot) rq 0x0073 (answer 0).result ∧
      SameButResponse u (keyCommitCmd m rq slot) := keeperCmd_result hk hrun'
  obtain ⟨-, -, -, hkey, -⟩ := hsame.kept
  have hreg : reg (keyCommitCmd m rq slot) Reg.KEY_FAULT = reg u Reg.KEY_FAULT :=
    (regO_keeperCmd _ _ _ _ _ hk 0 (by decide)).trans (by rw [hrun']; rfl)
  rw [keySlot_congr hkey, Bit, hreg]
  exact ⟨hans, hbit, hcommitted⟩

theorem keyEraseCmd_result : Answered (keyEraseCmd m rq slot) rq 0x0074 0 ∧ keySlot (keyEraseCmd m rq slot) slot = {} := by
  have hrun : (if 256 ≤ slot then (m, answer 0x0E) else keyErase m slot (isSealSlot m slot) ((namedSlots m).contains slot)) =
      keyErase m slot false false := by
    rw [if_neg hslot.not_ge, hseal, List.contains_eq_mem, decide_eq_false hnamed]
  obtain ⟨hans, hsame⟩ : Answered (keyEraseCmd m rq slot) rq 0x0074 (answer 0).result ∧ SameButResponse _ (keyEraseCmd m rq slot) :=
    keeperCmd_result hk hrun
  obtain ⟨-, -, -, hkey, -⟩ := hsame.kept
  exact ⟨hans, (keySlot_congr hkey slot).trans (keySlot_setSlot_same m slot {})⟩

end

/-! ## KEY_SIGN_LOG (R465, R467) -/

theorem keySignLog_committed {m : Mod} {i first count : Nat} (htag : checkTag m i = m) (hpolicy : validPolicy m 3 i = true)
    (hrecs : ∀ k < count, (keySignLog.readRecord' m ((first + k) % 2 ^ 64)).isSome) :
    keySignLog m i first count = (m,
      { result := 0
        data := hmac256 (keySlot m i).cur
          ((List.range count).filterMap fun k => keySignLog.readRecord' m ((first + k) % 2 ^ 64)).flatten }) := by
  have hnone : (((List.range count).map fun k => keySignLog.readRecord' m ((first + k) % 2 ^ 64)).any (·.isNone)) = false := by
    simp only [List.any_map, List.any_eq_false, List.mem_range, Function.comp_apply]
    intro k hk
    exact Bool.eq_false_iff.1 (Option.isNone_eq_false_iff.2 (hrecs k hk))
  unfold keySignLog
  simp only [htag, hpolicy, hnone, Bool.not_true, Bool.false_eq_true, if_false, List.filterMap_map]
  rfl

theorem keySignLogCmd_result {m : Mod} (rq : KReq) {slot first count : Nat} (hk : KeeperTakes m 0) (hslot : slot < 256)
    (htag : checkTag m slot = m) (hpolicy : validPolicy m 3 slot = true)
    (hrecs : ∀ k < count, (keySignLog.readRecord' m ((first + k) % 2 ^ 64)).isSome) :
    SameButResponse m (keySignLogCmd m rq slot first count) ∧ Answers (keySignLogCmd m rq slot first count) rq 0x0075
      { result := 0
        data := hmac256 (keySlot m slot).cur
          ((List.range count).filterMap fun k => keySignLog.readRecord' m ((first + k) % 2 ^ 64)).flatten } :=
  (keeperCmd_answers hk ((if_neg hslot.not_ge).trans (keySignLog_committed htag hpolicy hrecs))).symm

/-! ## KEY_UNSEAL (R478) -/

@[simp] theorem checkTag_mode (m : Mod) (i : Nat) : (checkTag m i).mode = m.mode := by
  unfold checkTag tagFail
  dsimp only
  split
  · simp [setSlot]
  · rfl

/-- What every part of a log entry keeps, the entry keeps: the check of the seal slot's tag, the entries written, and the count and flag of
one that finds the log full (R445). -/
theorem mtrLog_keeps {P : Mod → Prop} (htag : ∀ n i, P n → P (checkTag n i)) (hput : ∀ n code pt args, P n → P (logPut n code pt args))
    (hlost : ∀ n k, P n → P (modMtr n fun r => { r with logLost := k }))
    (hdrop : ∀ n, P n → P (setFault (bump n Reg.MTR_LOG_DROP) Reg.MTR_FAULT 9)) {m : Mod} (h : P m) (code pt : Nat)
    (args : List Nat) : P (mtrLog m code pt args) := by
  unfold mtrLog
  split
  · exact h
  · extract_lets m1 m2 m3
    have h1 : P m1 := by
      simp only [m1]
      split
      · exact htag _ _ h
      · exact h
    have h2 : P m2 := by
      simp only [m2]
      split
      · exact hlost _ _ (hput _ _ _ _ h1)
      · exact h1
    split
    · exact hput _ _ _ _ h2
    · exact hdrop _ (hlost _ _ h2)

/-- A log entry leaves the modes. -/
theorem mtrLog_mode (m : Mod) (code pt : Nat) (args : List Nat) : (mtrLog m code pt args).mode = m.mode :=
  mtrLog_keeps (P := fun n => n.mode = m.mode) (fun n i h => (checkTag_mode n i).trans h) (fun _ _ _ _ h => h) (fun _ _ h => h)
    (fun n h => by simpa using h) rfl code pt args

theorem setSeal_sealSt (m : Mod) (old new : Nat) (st : SealState) : (setSeal m old new st).mode.sealSt = st := by
  simp [setSeal]

section
variable {m : Mod} {kid slot : Nat} (hfind : (List.range 256).find? (fun i => sealSlotOk m i && (keySlot m i).kid == kid) = some slot)
include hfind

/-- The authenticator that opens the seal: the HMAC of the slot over the next log entry's SEQ and the serial number (R478). -/
abbrev unsealMac (m : Mod) (slot : Nat) : Bytes :=
  (hmac256 (keySlot m slot).cur (Config.keyAuthBytes [m.mtr.logNext % 2 ^ 64] (ascii "UNSEAL" ++ serialBytes m))).take 16

theorem keyUnseal_result (rq : KReq) (hk : KeeperTakes m 0) (htag : checkTag m slot = m) (hlogs : sealLogs m = true)
    (hown : m.mtr.sealSlot = none ∨ m.mtr.sealSlot = some slot) :
    Answered (keyUnseal m rq kid (unsealMac m slot)) rq 0x0076 0 ∧
      (keyUnseal m rq kid (unsealMac m slot)).mode.sealSt = .unsealed := by
  have hslot : sealSlotOk m slot = true := by
    have := List.find?_some hfind
    simp only [Bool.and_eq_true] at this
    exact this.1
  obtain ⟨hans, hsame⟩ : Answered (keyUnseal m rq kid (unsealMac m slot)) rq 0x0076 (answer 0).result ∧
      SameButResponse (mtrLog (setSeal m (if sealState m = .sealed then 2 else 3) 1 .unsealed) 0x03 0xFF [kid])
        (keyUnseal m rq kid (unsealMac m slot)) := keeperCmd_result hk (by
    rcases hown with h | h <;> simp only [hfind, htag, hlogs, h, hslot, beq_self_eq_true, Bool.and_self, if_true])
  obtain ⟨hmode, -⟩ := hsame.kept
  rw [hmode, mtrLog_mode]
  exact ⟨hans, setSeal_sealSt ..⟩

end

/-- Settles O15, command by command. -/
theorem keeperRunsKeyCommands : Obligations.KeeperRunsKeyCommands := by
  intro s rq hp hk
  refine ⟨fun sig h => ?_, fun h => ?_, fun slot policy type kid mat auth hslot hauth hsuits hmat horder hkid hpend hzero => ?_,
    fun slot hslot hstate htag hseal hnamed => ?_, fun slot hslot hseal hnamed => ?_,
    fun slot first count hslot htag hpolicy hrecs => ?_, fun kid slot hfind htag hlogs hown => ?_⟩
  · exact ⟨(exec_keyCommission rq sig s).trans (runM_powered _ hp), keyCommissionCmd_result rq sig hk h⟩
  · exact ⟨(exec_keyClose rq s).trans (runM_powered _ hp), keyCloseCmd_result rq hk h⟩
  · exact ⟨(exec_keyLoad rq slot policy type kid mat auth true s).trans (runM_powered _ hp),
      keyLoadCmd_result rq hk hslot ⟨hauth, hsuits, hmat, horder, hkid, hpend, hzero⟩⟩
  · exact ⟨(exec_keyCommit rq slot s).trans (runM_powered _ hp), keyCommitCmd_result rq hk hslot hseal hnamed hstate htag⟩
  · exact ⟨(exec_keyErase rq slot s).trans (runM_powered _ hp), keyEraseCmd_result rq hk hslot hseal hnamed⟩
  · exact ⟨(exec_keySignLog rq slot first count s).trans (runM_powered _ hp), keySignLogCmd_result rq hk hslot htag hpolicy hrecs⟩
  · exact ⟨(exec_keyUnseal rq kid _ s).trans (runS_powered _ hp), keyUnseal_result hfind rq hk htag hlogs hown⟩

end Sys2Proof.Machine
end

section
/-!
SUPPORT. Power, HOLD, battery, tamper and the PCIe link (R438, R475 to R477, R495, R522, R545).
-/
namespace Sys2Proof.Machine

/-! ## Power good (R495) -/

/-- What power good makes of a module that had no supply and is not in the thermal Stop: only retained registers keep their value, the
host interface, the timers and Keeper's state are those of reset, and HOLD has 10 s to rise. -/
theorem powerGood_started {m : Mod} (hoff : m.hlth.power = .off) (hthermal : m.hlth.thermal ≠ 3) : ∃ n : Mod,
    powerGood m = keyTimers (startTimer n .holdLow 0 (secs 10)) ∧ n.regs = m.regs.filter (fun r => retainedRow r.1) ∧ n.shadow = [] ∧
      n.host = {} ∧ n.kpr.ready = false ∧ n.hlth.power = .on ∧ n.hlth.stage = 2 ∧ n.clk.elapsed = 0 ∧ n.mtr = m.mtr ∧
      n.key = m.key ∧ n.mode = m.mode ∧ n.rec_ = m.rec_ := by
  have hreq : (releaseReq m).regs = m.regs ∧ (releaseReq m).hlth.thermal = m.hlth.thermal ∧ (releaseReq m).mtr = m.mtr ∧
      (releaseReq m).key = m.key ∧ (releaseReq m).mode = m.mode ∧ (releaseReq m).rec_ = m.rec_ := by
    unfold releaseReq
    split <;> exact ⟨rfl, rfl, rfl, rfl, rfl, rfl⟩
  obtain ⟨hregs, hth, hmtr, hkey, hmode, hrec⟩ := hreq
  unfold powerGood
  rw [if_neg (by simp [hoff])]
  refine ⟨_, rfl, congrArg _ hregs, rfl, rfl, rfl, ?_, ?_, rfl, hmtr, hkey, hmode, hrec⟩
  · exact if_neg (by simpa [clockPowerOn, hth] using hthermal)
  · exact if_neg (by simpa [clockPowerOn, hth] using hthermal)

/-- The commissioning time that goes on leaves everything but its timer. -/
theorem keyTimers_frame (m : Mod) : keyTimers m = { m with timers := (keyTimers m).timers } ∧
    timerDue (keyTimers m) .holdLow 0 = timerDue m .holdLow 0 := by
  unfold keyTimers
  split
  · exact ⟨rfl, timerDue_startTimer_ne m (by decide)⟩
  · exact ⟨rfl, rfl⟩

theorem reg_of_retained {n : Mod} {l : Cells Word} (h : n.regs = l.filter fun r => retainedRow r.1) {off : Nat}
    (hoff : retainedRow off = false) : reg n off = regReset off := by
  unfold reg regO
  rw [h]
  exact cellGet_filter_out regReset l _ _ fun _ => hoff

/-- Settles O18: what power good makes of the module, and the timers it starts. -/
theorem powerGoodStartsTheModule : Obligations.PowerGoodStartsTheModule := by
  intro s hoff hthermal
  obtain ⟨n, hgood, hregs, hshadow, hhost, hready, hpower, hstage, hclk, hmtr, hkey, hmode, hrec⟩ :=
    powerGood_started hoff hthermal
  obtain ⟨hframe, htimer⟩ := keyTimers_frame (startTimer n .holdLow 0 (secs 10))
  refine ⟨{ s with m := powerGood s.m }, exec_powerGood s, rfl, ?_⟩
  change _ ∧ _ ∧ _ ∧ _ ∧ _ ∧ _ ∧ timerDue (powerGood s.m) .holdLow 0 = _ ∧ _
  rw [hgood, htimer, timerDue_startTimer, hclk, hframe]
  exact ⟨hpower, hstage, hready, hhost, hshadow, hclk, by rw [Nat.zero_add], hmtr, hkey, hmode, hrec,
    fun off hret _ => reg_of_retained hregs hret⟩

/-! ## Supply failure (R296, R438) -/

/-- The module is stopped for want of supply. -/
def SupplyGone (u : Mod) : Prop :=
  u.hlth.power = .off ∧ u.timers = [] ∧ u.host.linkUp = false ∧ u.evr.queue = [] ∧ u.td = {} ∧ u.hlth.wipe = true

theorem supplyLost_gone (m : Mod) : SupplyGone (supplyLost m) := ⟨rfl, rfl, rfl, rfl, rfl, rfl⟩

/-- PWR_CYCLE_REQ_N released does not bring a supply back. -/
theorem SupplyGone.releaseReq {m : Mod} (h : SupplyGone m) : SupplyGone (releaseReq m) := by
  unfold Machine.releaseReq
  split <;> exact h

/-- A unit that is not Active has no role to give up. -/
theorem leaveActive_of_not_active {m : Mod} (h : m.mode.role ≠ .active) (reason : Nat) : leaveActive m reason = m := if_pos h

theorem pfailAssert_supplied {m : Mod} (hp : m.hlth.power = .on) :
    pfailAssert m = if m.mtr.holdOk then supplyLost (lastGasp (leaveActive m 2) false) else leaveActive m 2 := by
  have hmtr : (leaveActive m 2).mtr = m.mtr := by simp
  rw [pfailAssert, if_neg (by simp [hp])]
  dsimp only
  rw [hmtr]

/-- Settles O19: with HOLD or without the input the last act is `supplyLost`. -/
theorem supplyFailureStopsTheModule : Obligations.SupplyFailureStopsTheModule := by
  intro s hp
  refine ⟨fun hhold => ⟨exec_pfailNAssert s, ?_⟩, fun hhold hrole => ⟨exec_pfailNAssert s, ?_⟩, exec_inputUndervoltage s, ?_⟩
  · rw [pfailAssert_supplied hp, if_pos hhold]
    exact supplyLost_gone _
  · rw [pfailAssert_supplied hp, if_neg (by simp [hhold]), leaveActive_of_not_active hrole]
  · rw [inputUndervoltage, if_neg (powered_ne_off hp)]
    exact (supplyLost_gone _).releaseReq

/-! ## HOLD, battery and tamper (R438, R475 to R477, R545) -/

theorem holdOkChange_effect (m : Mod) (ok : Bool) (cv : Nat) :
    (holdOkChange m ok cv).mtr = { m.mtr with holdOk := ok, holdCv := min cv 5500 } ∧
      (m.hlth.power ≠ .off → m.mtr.holdOk = true → ok = false → Bit (holdOkChange m ok cv) Reg.MTR_FAULT 5) := by
  unfold holdOkChange
  dsimp only
  refine ⟨?_, fun hp hwas hok => ?_⟩
  · split <;> simp [modMtr]
  · have hfalls : (m.mtr.holdOk && !ok && m.hlth.power != .off) = true := by simp [hp, hwas, hok]
    simp only [modMtr, hfalls, if_true]
    exact Bit_setFault (by decide) (by decide)

theorem holdLowCheck_low {m : Mod} (hdue : Due m .holdLow 0) (hhold : m.mtr.holdOk = false) :
    Bit (holdLowCheck m) Reg.MTR_FAULT 5 ∧ timerDue (holdLowCheck m) .holdLow 0 = none := by
  have hlow : (stopTimer m .holdLow 0).mtr.holdOk = false := hhold
  rw [holdLowCheck, expire_of_due hdue]
  simp only [hlow, Bool.false_eq_true, if_false]
  refine ⟨Bit_setFault (by decide) (by decide), ?_⟩
  exact (timerDue_congr (n := stopTimer m .holdLow 0) (by simp) ..).trans (timerDue_stopTimer ..)

/-- The store zeroed: its flag, no root of its own to change, and every slot Unusable without a key (R476). -/
theorem zeroStore_effect (m : Mod) : Bit (zeroStore m) Reg.KEY_FAULT 1 ∧ (zeroStore m).key.store = .zeroed ∧
    (zeroStore m).key.root = m.key.root ∧ (zeroStore m).key.tamper = m.key.tamper ∧
    ∀ x ∈ (zeroStore m).key.slots, x.2.state = .unusable ∧ x.2.cur = [] := by
  unfold zeroStore
  refine ⟨Bit_raiseEvent (by decide) (Bit_setFault (by decide) (by decide)), by simp, by simp, by simp, ?_⟩
  simp only [raiseEvent_frame, setFault_frame, stopTimer_frame, List.mem_map]
  rintro _ ⟨x, -, rfl⟩
  exact ⟨rfl, rfl⟩

theorem breakSeal_frame (m : Mod) : (breakSeal m).key = m.key ∧ (Bit m Reg.KEY_FAULT 1 → Bit (breakSeal m) Reg.KEY_FAULT 1) := by
  unfold breakSeal
  split
  · exact ⟨rfl, id⟩
  · exact ⟨by simp, fun h => Bit_raiseEvent (by decide) h⟩

theorem tamperDetected_zeroes {m : Mod} {c : Nat} (h : c = 2 → m.factory.orderL = true) :
    (tamperDetected m c true).key.root = List.replicate 32 0 ∧ (tamperDetected m c true).key.tamper.testBit c = true ∧
      (tamperDetected m c true).key.store = .zeroed ∧ Bit (tamperDetected m c true) Reg.KEY_FAULT 1 ∧
      ∀ x ∈ (tamperDetected m c true).key.slots, x.2.state = .unusable ∧ x.2.cur = [] := by
  have hfitted : ¬(c = 2 ∧ (!m.factory.orderL) = true) := by simpa using h
  unfold tamperDetected
  rw [if_neg hfitted]
  set n : Mod := { m with key := { m.key with root := List.replicate 32 0, tamper := m.key.tamper ||| 2 ^ c, zeroPend := true } } with hn
  have htamper : n.key.tamper.testBit c = true := by simp [hn, Nat.testBit_or, Nat.testBit_two_pow_self]
  obtain ⟨hbit, hstore, hroot, hkept, hslots⟩ := zeroStore_effect n
  simp only [Bool.not_true, Bool.false_eq_true, if_false]
  split
  · obtain ⟨hkey, hflag⟩ := breakSeal_frame (zeroStore n)
    rw [hkey, hroot, hkept, hstore]
    exact ⟨rfl, htamper, rfl, hflag hbit, hslots⟩
  · rw [hroot, hkept, hstore]
    exact ⟨rfl, htamper, rfl, hbit, hslots⟩

/-- Settles O20, event by event. -/
theorem holdBatteryAndTamper : Obligations.HoldBatteryAndTamper := by
  intro s hp
  refine ⟨fun ok cv => ?_, fun hdue hhold => ?_, fun mv => ?_, fun c _ hcause => ?_⟩
  · obtain ⟨hmtr, hbit⟩ := holdOkChange_effect s.m ok cv
    exact ⟨_, exec_holdOkChange ok cv s, hmtr, hbit (powered_ne_off hp)⟩
  · exact ⟨(exec_holdLowCheck s).trans (runM_powered _ hp), holdLowCheck_low hdue hhold⟩
  · exact ⟨(exec_battLowDetected mv s).trans (runM_powered _ hp), Bit_setFault (by decide) (by decide), by simp [battLow]⟩
  · have hrails : (s.m.hlth.power != .off) = true := by simp [powered_ne_off hp]
    refine ⟨(exec_tamperDetected c s).trans ?_, tamperDetected_zeroes hcause⟩
    rw [execTamperDetected, runSupply, hrails]

/-! ## The PCIe link (R519, R522) -/

/-- The words of the MSI-X table put back to their reset values one by one. -/
def resetMsixWord (m : Mod) (k : Nat) : Mod := setReg m (0x3F0000 + 4 * k) (regReset (0x3F0000 + 4 * k))

theorem reg_foldl_resetMsixWord (n : Nat) (m : Mod) (off : Nat) (halign : off % 4 = 0) :
    reg ((List.range n).foldl resetMsixWord m) off = if 0x3F0000 ≤ off ∧ off < 0x3F0000 + 4 * n then regReset off else reg m off := by
  induction n with
  | zero => rw [if_neg (by omega)]; rfl
  | succ n ih =>
    rw [List.range_succ, List.foldl_append, List.foldl_cons, List.foldl_nil, resetMsixWord, reg_setReg, ih]
    by_cases h : off = 0x3F0000 + 4 * n
    · rw [if_pos h, if_pos (by omega), h]
    · rw [if_neg h]
      congr 1
      exact propext (by omega)

theorem foldl_resetMsixWord_frame (l : List Nat) (m : Mod) :
    (l.foldl resetMsixWord m).host = m.host ∧ (l.foldl resetMsixWord m).timers = m.timers :=
  ⟨foldl_keep Mod.host resetMsixWord (fun _ _ => rfl) l m, foldl_keep Mod.timers resetMsixWord (fun _ _ => rfl) l m⟩

theorem pcieReset_eq (m : Mod) : ∃ n : Mod, pcieReset m = { n with
      host := { n.host with linkUp := false, linkGen := 0, linkWidth := 0, aerAbort := false } } ∧
    n.host = m.host ∧ n.timers = m.timers ∧
    ∀ off, off % 4 = 0 → reg n off = if 0x3F0000 ≤ off ∧ off < 0x3F0000 + 4 * 256 then regReset off else reg m off := by
  unfold pcieReset
  obtain ⟨hhost, htimers⟩ := foldl_resetMsixWord_frame (List.range 256) m
  exact ⟨_, rfl, hhost, htimers, reg_foldl_resetMsixWord 256 m⟩

theorem pcieReset_effect (m : Mod) : (pcieReset m).host.linkUp = false ∧ (pcieReset m).host.gates = m.host.gates ∧
    (pcieReset m).timers = m.timers ∧
    ∀ off, off % 4 = 0 → reg (pcieReset m) off = if isMsix off then regReset off else reg m off := by
  obtain ⟨n, hreset, hhost, htimers, hregs⟩ := pcieReset_eq m
  rw [hreset]
  refine ⟨rfl, by rw [hhost], htimers, fun off halign => (hregs off halign).trans ?_⟩
  simp [isMsix]

theorem pcieTrained_effect (m : Mod) (gen width : Nat) :
    (pcieTrained m gen width).host.linkUp = true ∧ (pcieTrained m gen width).host.linkGen = gen ∧
      (pcieTrained m gen width).host.linkWidth = width ∧
      (gen < 4 ∨ width < 4 → Bit (pcieTrained m gen width) Reg.HOST_FAULT 1) := by
  unfold pcieTrained
  dsimp only
  split
  · rw [setFault_host]
    exact ⟨rfl, rfl, rfl, fun _ => Bit_setFault (by decide) (by decide)⟩
  · rename_i h
    exact ⟨rfl, rfl, rfl, fun hlow => absurd hlow h⟩

/-- Settles O21: the reset of the MSI-X table word by word, and the link noted by training. -/
theorem pcieLinkFollowsItsPins : Obligations.PcieLinkFollowsItsPins := by
  intro s hp
  exact ⟨⟨(exec_pcieReset s).trans (runM_powered _ hp), pcieReset_effect s.m⟩, fun gen width =>
    ⟨(exec_pcieLinkTrained gen width s).trans (runM_powered _ hp), pcieTrained_effect s.m gen width⟩⟩

end Sys2Proof.Machine
end

section
/-!
SUPPORT. Keeper's watchdog and shed level, and ageing readings (R490, R491, R493, R507, R512, R513).
-/
namespace Sys2Proof.Machine

/-! ## Restart and device reset (R493, R512, R513) -/

theorem reg_modHlth (m : Mod) (f : Hlth → Hlth) (off : Nat) : reg (modHlth m f) off = reg m off := rfl

/-- HLTH_RESET keeps what is written to it past the fault and the event of a device reset. -/
theorem reg_resetCause (m : Mod) (w : Word) (arg : Bytes) :
    reg (class6 (setFault (setReg m Reg.HLTH_RESET w) Reg.HLTH_FAULT 1) 4 arg) Reg.HLTH_RESET = w := by
  rw [class6, reg_raiseEvent _ _ _ _ _ (by decide), reg_setFault _ _ _ _ _ (by decide), if_neg (by decide), reg_setReg_same]

/-- A device reset by its marks: HLTH_FAULT.RUNG3, step 3 of the start, and the cause in HLTH_RESET. -/
theorem deviceReset_effect (m : Mod) (cause : Nat) : Bit (deviceReset m cause) Reg.HLTH_FAULT 1 ∧ (deviceReset m cause).hlth.stage = 3 ∧
    ∃ n, reg (deviceReset m cause) Reg.HLTH_RESET = BitVec.ofNat 32 (n * 65536 + cause) := by
  unfold deviceReset
  generalize islandReset m = u
  dsimp only
  generalize min 0xFFFF (regBits u Reg.HLTH_RESET 31 16 + 1) = n
  refine ⟨?_, rfl, n, ?_⟩
  · rw [Bit_startTimer, Bit_modHlth]
    exact Bit_raiseEvent (by decide) (Bit_setFault (by decide) (by decide))
  · rw [reg_startTimer, reg_modHlth, reg_resetCause]

/-- Keeper starts again: it is not ready, and has 15 s. -/
theorem keeperRestart_effect (m : Mod) : (keeperRestart m).kpr.ready = false ∧ (keeperRestart m).kpr.kstate = 2 ∧
    timerDue (keeperRestart m) .keeperReady 0 = some ((keeperRestart m).clk.elapsed + secs 15) := by
  unfold keeperRestart
  extract_lets m1 m2 m3 m4 m5
  have hkpr : m5.kpr = m2.kpr := by
    simp only [m5]
    split <;> rfl
  have hready : m5.kpr.ready = false := by rw [hkpr]; rfl
  have hkstate : m5.kpr.kstate = 2 := by rw [hkpr]; rfl
  exact ⟨hready, hkstate, timerDue_startTimer ..⟩

/-- The first expiry of the watchdog in an hour restarts Keeper and no more. -/
theorem watchdogExpiry_first {m : Mod} (hp : m.hlth.power = .on) (hstate : m.kpr.kstate ≠ 0) (hwdogs : m.hlth.wdogs = []) :
    (watchdogExpiry m).kpr.ready = false ∧ (watchdogExpiry m).kpr.kstate = 2 ∧ Bit (watchdogExpiry m) Reg.KPR_FAULT 2 ∧
      timerDue (watchdogExpiry m) .keeperReady 0 = some ((watchdogExpiry m).clk.elapsed + secs 15) := by
  have hruns : (!powered m || m.kpr.kstate == 0) = false := by simp [powered, hp, hstate]
  unfold watchdogExpiry
  simp only [hruns, hwdogs, List.filter_nil, List.length_singleton, Nat.reduceLeDiff, Bool.false_eq_true, if_false]
  obtain ⟨hready, hkstate, htimer⟩ := keeperRestart_effect (modHlth m fun h => { h with wdogs := [opTime m] })
  refine ⟨by simpa using hready, by simpa using hkstate, ?_, ?_⟩
  · exact Bit_raiseEvent (by decide) (Bit_bump (by decide) (by decide) (Bit_setFault (by decide) (by decide)))
  · refine (timerDue_congr (by simp) ..).trans (htimer.trans ?_)
    simp

theorem keeperRestarted_effect {m : Mod} (h : m.kpr.kstate = 2) :
    (keeperRestarted m).kpr.ready = true ∧ (keeperRestarted m).kpr.kstate = 1 ∧ Bit (keeperRestarted m) Reg.KPR_FAULT 3 ∧
      timerDue (keeperRestarted m) .keeperReady 0 = none := by
  unfold keeperRestarted
  rw [if_neg (by simp [h])]
  refine ⟨by simp [modKpr], by simp [modKpr], Bit_raiseEvent (by decide) (Bit_setFault (by decide) (by decide)), ?_⟩
  exact (timerDue_congr (n := stopTimer (modKpr m fun k => { k with ready := true, kstate := 1 }) .keeperReady 0) (by simp) ..).trans
    (timerDue_stopTimer ..)

theorem keeperReadyTimeout_due {m : Mod} (hdue : Due m .keeperReady 0) (h : m.kpr.kstate = 2) :
    keeperReadyTimeout m = deviceReset (stopTimer m .keeperReady 0) 3 := by
  rw [keeperReadyTimeout, expire_of_due hdue]
  exact if_pos h

theorem startStep9Timeout_first {m : Mod} (hdue : Due m .startStep9 0) (h : m.hlth.failedStarts = 0) :
    startStep9Timeout m = modHlth (stopTimer m .startStep9 0) fun h => { h with failedStarts := 1 } := by
  rw [startStep9Timeout, expire_of_due hdue]
  simp only [stopTimer_frame, h, Nat.zero_add, Nat.reduceLeDiff, if_false]

/-- Settles O23, timer by timer. -/
theorem keeperRestartsAndResets : Obligations.KeeperRestartsAndResets := by
  intro s hp
  refine ⟨fun hstate hwdogs => ?_, fun hstate => ?_, fun hdue hstate => ?_, fun hdue => ?_, fun hdue hfailed => ?_⟩
  · exact ⟨(exec_watchdogExpiry s).trans (runS_powered _ hp), watchdogExpiry_first hp hstate hwdogs⟩
  · exact ⟨(exec_keeperRestartComplete s).trans (runS_powered _ hp), keeperRestarted_effect hstate⟩
  · refine ⟨(exec_keeperReadyTimeout s).trans (runS_powered _ hp), ?_⟩
    rw [keeperReadyTimeout_due hdue hstate]
    exact deviceReset_effect _ 3
  · refine ⟨(exec_powerCycleTimeout s).trans (runS_powered _ hp), ?_⟩
    rw [powerCycleTimeout, expire_of_due hdue]
    exact deviceReset_effect _ 5
  · refine ⟨(exec_rung3StartStep9Timeout s).trans (runS_powered _ hp), ?_⟩
    rw [startStep9Timeout_first hdue hfailed]
    exact ⟨rfl, timerDue_stopTimer ..⟩

/-! ## The shed level (R490, R491) -/

/-- The second that ends: the next one runs, and KPR_LOAD shows the loads. -/
def loadNoted (m : Mod) (a b c d : Nat) : Mod :=
  setReg (startTimer (stopTimer m .shedSecond 0) .shedSecond 0 (secs 1)) Reg.KPR_LOAD
    (BitVec.ofNat 32 (a + 256 * b + 65536 * c + 16777216 * d))

theorem loadNoted_effect (m : Mod) (a b c d : Nat) :
    reg (loadNoted m a b c d) Reg.KPR_LOAD = BitVec.ofNat 32 (a + 256 * b + 65536 * c + 16777216 * d) ∧
      timerDue (loadNoted m a b c d) .shedSecond 0 = some (m.clk.elapsed + secs 1) :=
  ⟨reg_setReg_same .., timerDue_startTimer ..⟩

/-- The level raised by one, with its flag, its count and its event. -/
def shedRaised (m : Mod) (s : Nat) : Mod :=
  stateEvent (bump (setFault (modKpr (modKpr m fun k => { k with lowSecs := 0 }) fun k => { k with shed := s + 1 }) Reg.KPR_FAULT 4)
    Reg.KPR_CNT_SHED) keeperSrc 10 s (s + 1) 0

theorem shedRaised_effect (m : Mod) (s : Nat) : (shedRaised m s).kpr.shed = s + 1 ∧ Bit (shedRaised m s) Reg.KPR_FAULT 4 ∧
    reg (shedRaised m s) Reg.KPR_LOAD = reg m Reg.KPR_LOAD ∧ (shedRaised m s).timers = m.timers := by
  unfold shedRaised
  refine ⟨by simp [modKpr], ?_, ?_, by simp⟩
  · exact Bit_raiseEvent (by decide) (Bit_bump (by decide) (by decide) (Bit_setFault (by decide) (by decide)))
  · rw [reg_stateEvent _ _ _ _ _ _ (by decide), reg_bump _ _ (by decide), if_neg (by decide), reg_setFault _ _ _ _ _ (by decide),
      if_neg (by decide)]
    exact reg_congr rfl _

section
variable {m : Mod} {a b c d : Nat} (hdue : Due m .shedSecond 0) (hstate : m.kpr.kstate = 1) (ha : a ≤ 100) (hb : b ≤ 100)
  (hc : c ≤ 100) (hd : d ≤ 100)
include hdue hstate ha hb hc hd

/-- A second by the sum of its loads. -/
theorem shedUpdate_eq : shedUpdate m a b c d =
    if 360 < a + b + c + d then
      if 4 ≤ m.kpr.shed then modKpr (loadNoted m a b c d) fun k => { k with lowSecs := 0 }
      else shedRaised (loadNoted m a b c d) m.kpr.shed
    else if a + b + c + d < 280 then
      if m.kpr.lowSecs + 1 < 10 then modKpr (loadNoted m a b c d) fun k => { k with lowSecs := k.lowSecs + 1 }
      else modKpr (loadNoted m a b c d) fun k => { k with lowSecs := 0, shed := m.kpr.shed - 1 }
    else modKpr (loadNoted m a b c d) fun k => { k with lowSecs := 0 } := by
  rw [shedUpdate, expire_of_due hdue]
  simp only [min_eq_left ha, min_eq_left hb, min_eq_left hc, min_eq_left hd]
  exact if_neg (by simpa using hstate)

theorem shedUpdate_effect :
    reg (shedUpdate m a b c d) Reg.KPR_LOAD = BitVec.ofNat 32 (a + 256 * b + 65536 * c + 16777216 * d) ∧
      timerDue (shedUpdate m a b c d) .shedSecond 0 = some (m.clk.elapsed + secs 1) ∧
      (360 < a + b + c + d → m.kpr.shed < 4 →
        (shedUpdate m a b c d).kpr.shed = m.kpr.shed + 1 ∧ Bit (shedUpdate m a b c d) Reg.KPR_FAULT 4) ∧
      (280 ≤ a + b + c + d → a + b + c + d ≤ 360 → (shedUpdate m a b c d).kpr.shed = m.kpr.shed) ∧
      (a + b + c + d < 280 →
        (shedUpdate m a b c d).kpr.shed = if m.kpr.lowSecs + 1 < 10 then m.kpr.shed else m.kpr.shed - 1) := by
  obtain ⟨hload, htimer⟩ := loadNoted_effect m a b c d
  rw [shedUpdate_eq hdue hstate ha hb hc hd]
  by_cases hhigh : 360 < a + b + c + d
  · rw [if_pos hhigh]
    by_cases hfull : 4 ≤ m.kpr.shed
    · rw [if_pos hfull]
      exact ⟨hload, htimer, fun _ h => by omega, fun _ h => by omega, fun h => by omega⟩
    · rw [if_neg hfull]
      obtain ⟨hshed, hbit, hreg, htimers⟩ := shedRaised_effect (loadNoted m a b c d) m.kpr.shed
      exact ⟨hreg.trans hload, (timerDue_congr htimers ..).trans htimer, fun _ _ => ⟨hshed, hbit⟩, fun _ h => by omega,
        fun h => by omega⟩
  · rw [if_neg hhigh]
    by_cases hlow : a + b + c + d < 280
    · rw [if_pos hlow]
      split
      · exact ⟨hload, htimer, fun h => absurd h hhigh, fun h => by omega, fun _ => rfl⟩
      · exact ⟨hload, htimer, fun h => absurd h hhigh, fun h => by omega, fun _ => rfl⟩
    · rw [if_neg hlow]
      exact ⟨hload, htimer, fun h => absurd h hhigh, fun _ _ => rfl, fun h => absurd h hlow⟩

end

/-- Settles O24. -/
theorem shedLevelFollowsTheLoad : Obligations.ShedLevelFollowsTheLoad := by
  intro s a b c d hp hdue hstate ha hb hc hd
  exact ⟨(exec_shedLevelUpdate a b c d s).trans (runS_powered _ hp), shedUpdate_effect hdue hstate ha hb hc hd⟩

/-! ## Ageing (R505 to R507) -/

theorem noteExhausted_low (m : Mod) : Bit (noteExhausted m true) Reg.HLTH_ALARM 4 := by
  unfold noteExhausted
  dsimp only
  split
  · exact Bit_raiseEvent (by decide) (Bit_setBits (by decide))
  · exact Bit_setBits (by decide)

/-- Settles O28: a cluster at the highest voltage with slack below 5 % makes the reading low, and what follows the flag leaves it. -/
theorem ageingReadingsRaiseTheAlarm : Obligations.AgeingReadingsRaiseTheAlarm := by
  intro s cl isl c hp hstate hc hvolt hslack
  refine ⟨(exec_ageingReading cl isl s).trans (runS_powered _ hp), ?_⟩
  have hlow : (List.range 16).any (fun k =>
      ((List.range 16).map fun c => marginVolt s.m (Reg.HLTH_CL_MARGIN c)).getD k 0 == 14 && decide (cl.getD k 0 < 500)) = true := by
    refine List.any_eq_true.2 ⟨c, List.mem_range.2 hc, ?_⟩
    simpa [hc, hvolt] using hslack
  unfold ageingReading
  simp only [hstate, ne_eq, not_true_eq_false, if_false, hlow, Bool.true_or]
  exact Bit_setReg_other (by decide) (noteExhausted_low _)

end Sys2Proof.Machine
end

section
/-!
SUPPORT. Thermal readings (R559, R560).
-/
namespace Sys2Proof.Machine

/-! ## What the steps of a thermal change leave -/

/-- The plate, the junctions and the thermal state noted. -/
def thermalOf (u : Mod) : Int × List Int × Nat := (u.hlth.plate, u.hlth.junctions, u.hlth.thermal)

theorem thermalOf_congr {u v : Mod} (h : u.hlth = v.hlth) : thermalOf u = thermalOf v := by rw [thermalOf, h, thermalOf]

theorem requestSave_hlth (m : Mod) (kind : SaveKind) : (requestSave m kind).hlth = m.hlth := by
  unfold requestSave
  repeat' split
  all_goals rfl

theorem recClose_hlth (m : Mod) (r : RecFile) (reason : Nat) : (recClose m r reason).hlth = m.hlth := by
  unfold recClose closeFile
  dsimp only
  repeat' split
  all_goals simp

theorem recCut_hlth (m : Mod) : (recCut m).hlth = m.hlth :=
  foldl_keep Mod.hlth (fun m r => recClose (endAtLast m r) r 3) (fun m r => (recClose_hlth (endAtLast m r) r 3).trans (by simp [endAtLast]))
    _ m

/-- A reset of the islands ends what Keeper's health unit had under way, and keeps the readings. -/
theorem islandReset_hlth (m : Mod) : (islandReset m).hlth = { m.hlth with
    trigs := [], wdogs := [], rewrites := [], testing := none, retest := false, pendClk := [], shedFor := none, shedMask := 0
    flowBad := 0, wipe := true } := by
  have hsteps : (recCut (leaveActive (requestSave m .command) 1)).hlth = m.hlth := by
    rw [recCut_hlth, (leaveActive_core _ _).2.2.1, requestSave_hlth]
  have hislands : (resetIslands (recCut (leaveActive (requestSave m .command) 1))).hlth = m.hlth := hsteps
  simp only [islandReset, modHlth, hislands]

theorem laneStart_hlth (m : Mod) (mem : Mem) (n : Nat) : (laneStart m mem n).hlth = m.hlth := by
  unfold laneStart
  dsimp only
  repeat' split
  all_goals rfl

theorem thermalOf_thermalShed (m : Mod) : thermalOf (thermalShed m) = thermalOf m := by
  refine foldl_keep thermalOf _ (fun m p => ?_) [1, 3] m
  split <;> rfl

theorem thermalOf_settleThermal (m : Mod) : thermalOf (settleThermal m) = thermalOf m := by
  unfold settleThermal
  split
  · refine foldl_keep thermalOf _ (fun m p => ?_) [1, 3] m
    split <;> rfl
  split
  · rfl
  · refine foldl_keep thermalOf _ (fun m p => ?_) [1, 3] m
    dsimp only
    repeat' split
    all_goals rfl

/-! ## Entering Shed (R560) -/

theorem inCommit_congr {n m : Mod} (h : n.img = m.img) (p : Nat) : inCommit n p = inCommit m p := by
  rw [inCommit, h]
  rfl

theorem partBusy_congr {n m : Mod} (hparts : n.parts = m.parts) (himg : n.img = m.img) (p : Nat) : partBusy n p = partBusy m p := by
  simp only [partBusy, inCommit_congr himg, partOf_congr hparts]

theorem thermalShed_held (m : Mod) : SameHeld (thermalShed m) m := by
  unfold thermalShed
  simp only [List.foldl_cons, List.foldl_nil]
  repeat' split
  all_goals exact ⟨rfl, rfl⟩

/-- One partition of `thermalShed`. -/
def shedMark (m : Mod) (p : Nat) : Mod :=
  if isLive m p || (partOf m p).state == .loading then modHlth m fun h => { h with shedMask := h.shedMask ||| 2 ^ p } else m

theorem thermalShed_eq (m : Mod) : thermalShed m = shedMark (shedMark m 1) 3 := rfl

theorem shedMark_parts (m : Mod) (p : Nat) : (shedMark m p).parts = m.parts := by
  unfold shedMark
  split <;> rfl

theorem shedMark_sets {m : Mod} {p : Nat} (h : isLive m p = true) : (shedMark m p).hlth.shedMask.testBit p = true := by
  simp [shedMark, h, modHlth, Nat.testBit_or, Nat.testBit_two_pow_self]

theorem shedMark_keeps {m : Mod} {p : Nat} (q : Nat) (h : m.hlth.shedMask.testBit p = true) :
    (shedMark m q).hlth.shedMask.testBit p = true := by
  unfold shedMark
  split
  · simp [modHlth, Nat.testBit_or, h]
  · exact h

theorem thermalShed_marks {m : Mod} {p : Nat} (hp : p = 1 ∨ p = 3) (h : isLive m p = true) :
    (thermalShed m).hlth.shedMask.testBit p = true := by
  rw [thermalShed_eq]
  rcases hp with rfl | rfl
  · exact shedMark_keeps 3 (shedMark_sets h)
  · exact shedMark_sets ((isLive_of_parts (shedMark_parts m 1) 3).trans h)

/-- One partition of `settleThermal` in Shed. -/
def shedHalt (m : Mod) (p : Nat) : Mod :=
  if m.hlth.shedMask.testBit p && isLive m p && !partBusy m p then modPart m p fun s => { s with next := some .stay } else m

theorem settleThermal_shed {m : Mod} (h : m.hlth.thermal = 2) : settleThermal m = shedHalt (shedHalt m 1) 3 := by
  rw [settleThermal, if_pos h]
  rfl

theorem shedHalt_halts {m : Mod} {p : Nat} (hmask : m.hlth.shedMask.testBit p = true) (hlive : isLive m p = true)
    (hbusy : partBusy m p = false) : (partOf (shedHalt m p) p).next = some .stay := by
  rw [shedHalt, if_pos (by simp [hmask, hlive, hbusy]), partOf_modPart_same]

theorem shedHalt_other (m : Mod) {p q : Nat} (h : q ≠ p) :
    partOf (shedHalt m p) q = partOf m q ∧ (shedHalt m p).img = m.img ∧ (shedHalt m p).hlth = m.hlth := by
  unfold shedHalt
  split
  · exact ⟨partOf_modPart_ne _ _ h, rfl, rfl⟩
  · exact ⟨rfl, rfl, rfl⟩

theorem settleThermal_halts {m : Mod} {p : Nat} (hp : p = 1 ∨ p = 3) (hthermal : m.hlth.thermal = 2)
    (hmask : m.hlth.shedMask.testBit p = true) (hlive : isLive m p = true) (hbusy : partBusy m p = false) :
    (partOf (settleThermal m) p).next = some .stay := by
  rw [settleThermal_shed hthermal]
  rcases hp with rfl | rfl
  · rw [(shedHalt_other _ (by decide)).1]
    exact shedHalt_halts hmask hlive hbusy
  · obtain ⟨hpart, himg, hhlth⟩ := shedHalt_other m (p := 1) (q := 3) (by decide)
    refine shedHalt_halts (by rwa [hhlth]) (by rwa [isLive, hpart]) ?_
    simp only [partBusy, inCommit_congr himg, hpart]
    exact hbusy

/-! ## A reading by the state it gives -/

/-- The module that has noted the reading. -/
def readingNoted (m : Mod) (plate : Int) (js : List Int) : Mod :=
  modHlth m fun h => { h with thermal := thermalNext m.hlth.thermal plate js, plate := plate, junctions := js }

/-- The module that has noted a reading of another state, with its event. -/
def changeNoted (m : Mod) (plate : Int) (js : List Int) : Mod :=
  let t := thermalNext m.hlth.thermal plate js
  if t = 0 then readingNoted m plate js else class6 (readingNoted m plate js) (11 + t) (leBytes 2 (codedOf 16 plate))

theorem changeNoted_frame (m : Mod) (plate : Int) (js : List Int) :
    (changeNoted m plate js).hlth = (readingNoted m plate js).hlth ∧ SameHeld (changeNoted m plate js) m := by
  unfold changeNoted
  dsimp only
  split
  · exact ⟨rfl, rfl, rfl⟩
  · exact ⟨by simp, by simp [readingNoted, modHlth], by simp [readingNoted, modHlth]⟩

section
variable (m : Mod) (mem : Mem) (plate : Int) (js : List Int)

theorem changeNoted_noted : thermalOf (changeNoted m plate js) = (plate, js, thermalNext m.hlth.thermal plate js) :=
  thermalOf_congr (changeNoted_frame m plate js).1

variable (hon : m.hlth.power ≠ .off)
include hon

/-- A reading by the old and the new state. -/
theorem thermalReading_eq : thermalReading m mem plate js =
    if thermalNext m.hlth.thermal plate js = m.hlth.thermal then readingNoted m plate js
    else if thermalNext m.hlth.thermal plate js = 3 then thermalStop (changeNoted m plate js)
    else if m.hlth.thermal = 3 then
      modHlth (changeNoted m plate js) fun h =>
        { h with power := .on, stage := 3, startAt := (changeNoted m plate js).clk.elapsed, afterReset := true }
    else if thermalNext m.hlth.thermal plate js = 2 then settleThermal (thermalShed (changeNoted m plate js))
    else if m.hlth.thermal = 2 then
      (List.range 16).foldl (fun m n => laneStart m mem n) (settleThermal (changeNoted m plate js))
    else changeNoted m plate js := by
  rw [thermalReading, if_neg hon]
  rfl

theorem thermalReading_noted :
    thermalOf (thermalReading m mem plate js) = (plate, js, thermalNext m.hlth.thermal plate js) := by
  have hnoted := changeNoted_noted m plate js
  rw [thermalReading_eq m mem plate js hon]
  split
  · rfl
  split
  · simp only [thermalOf, thermalStop, modHlth, islandReset_hlth]
    exact hnoted
  split
  · exact hnoted
  split
  · rw [thermalOf_settleThermal, thermalOf_thermalShed, hnoted]
  split
  · rw [thermalOf_congr (foldl_keep Mod.hlth (fun m n => laneStart m mem n) (fun m n => laneStart_hlth m mem n) _ _),
      thermalOf_settleThermal, hnoted]
  · exact hnoted

/-- Below the shed temperature nothing but the reading and its event is noted. -/
theorem thermalReading_below (hold : m.hlth.thermal < 2) (hnew : thermalNext m.hlth.thermal plate js < 2) :
    (thermalReading m mem plate js).parts = m.parts := by
  rw [thermalReading_eq m mem plate js hon]
  split
  · rfl
  · rw [if_neg (by omega), if_neg (by omega), if_neg (by omega), if_neg (by omega)]
    exact (changeNoted_frame m plate js).2.1

theorem thermalReading_sheds (hold : m.hlth.thermal < 2) (hnew : thermalNext m.hlth.thermal plate js = 2) {p : Nat}
    (hp : p = 1 ∨ p = 3) (hlive : isLive m p = true) (hbusy : partBusy m p = false) :
    (partOf (thermalReading m mem plate js) p).next = some .stay := by
  obtain ⟨hparts, himg⟩ := (changeNoted_frame m plate js).2
  obtain ⟨hparts', himg'⟩ := thermalShed_held (changeNoted m plate js)
  rw [thermalReading_eq m mem plate js hon, if_neg (by omega), if_neg (by omega), if_neg (by omega), if_pos hnew]
  refine settleThermal_halts hp ?_ (thermalShed_marks hp ((isLive_of_parts hparts p).trans hlive)) ?_ ?_
  · have hnoted := (thermalOf_thermalShed (changeNoted m plate js)).trans (changeNoted_noted m plate js)
    exact (congrArg (fun r => r.2.2) hnoted).trans hnew
  · exact (isLive_of_parts (hparts'.trans hparts) p).trans hlive
  · exact (partBusy_congr (hparts'.trans hparts) (himg'.trans himg) p).trans hbusy

theorem thermalReading_stops (hold : m.hlth.thermal < 3) (hnew : thermalNext m.hlth.thermal plate js = 3) :
    let u := thermalReading m mem plate js
    u.hlth.power = .thermalStop ∧ u.hlth.stage = 0 ∧ u.td = {} ∧ u.parts = [] ∧ u.hlth.wipe = true := by
  rw [thermalReading_eq m mem plate js hon, if_neg (by omega), if_pos hnew]
  exact ⟨rfl, rfl, rfl, rfl, rfl⟩

theorem thermalReading_starts (hold : m.hlth.thermal = 3) (hnew : thermalNext m.hlth.thermal plate js ≠ 3) :
    (thermalReading m mem plate js).hlth.power = .on ∧ (thermalReading m mem plate js).hlth.stage = 3 := by
  rw [thermalReading_eq m mem plate js hon, if_neg (by omega), if_neg hnew, if_pos hold]
  exact ⟨rfl, rfl⟩

end

/-- Settles O22, a lemma for each change of state. -/
theorem thermalReadingsAreNoted : Obligations.ThermalReadingsAreNoted := by
  intro s plate js hon
  have hnoted := thermalReading_noted s.m s.mem plate js hon
  have hplate := congrArg (fun r => r.1) hnoted
  have hjs := congrArg (fun r => r.2.1) hnoted
  have hthermal := congrArg (fun r => r.2.2) hnoted
  refine ⟨(exec_thermalReading plate js s).trans (runS_on _ _ hon), hplate, hjs, hthermal, fun hsame => ?_,
    thermalReading_below s.m s.mem plate js hon, fun hold hnew p hp => thermalReading_sheds s.m s.mem plate js hon hold hnew hp,
    thermalReading_stops s.m s.mem plate js hon, thermalReading_starts s.m s.mem plate js hon⟩
  rw [thermalReading_eq s.m s.mem plate js hon, if_pos hsame, readingNoted, hsame]
  rfl

end Sys2Proof.Machine
end

section
/-!
SUPPORT. Ignored accesses, key gates, strobes and apply points (R526, R531 to R535).
-/
namespace Sys2Proof.Machine

/-! ## Ignored accesses (R526) -/

theorem accErr_gates (m : Mod) (bit addr : Nat) : SameGates (accErr m bit addr) m := by
  have hset : (orBits m Reg.HOST_ACCERR (2 ^ bit)).host.gates = m.host.gates := by rw [orBits_host]
  refine ⟨?_, by simp⟩
  unfold accErr
  dsimp only
  split
  · rw [raiseEvent_host, setFaultQuiet_host, bump_host]
    exact hset
  · rw [setFaultQuiet_host, bump_host]
    exact hset

/-- An ignored access is recorded by its offset and its fault flag. -/
theorem accErr_noted (m : Mod) (bit addr : Nat) :
    reg (accErr m bit addr) Reg.HOST_ACCADDR = BitVec.ofNat 32 (addr % 0x400000) ∧ Bit (accErr m bit addr) Reg.HOST_FAULT 0 := by
  have hquiet (n : Mod) : reg (setFaultQuiet (bump (setReg n Reg.HOST_ACCADDR (BitVec.ofNat 32 (addr % 0x400000)))
      Reg.HOST_CNT_ACCERR) Reg.HOST_FAULT 0) Reg.HOST_ACCADDR = BitVec.ofNat 32 (addr % 0x400000) := by
    rw [reg_setFaultQuiet _ _ _ (by decide), if_neg (by decide), reg_bump _ _ (by decide), if_neg (by decide)]
    exact reg_setReg_same ..
  unfold accErr
  dsimp only
  split
  · exact ⟨(reg_raiseEvent _ _ _ _ _ (by decide)).trans (hquiet _), Bit_raiseEvent (by decide) (setFaultQuiet_bit _ _ (by decide) (by decide))⟩
  · exact ⟨hquiet _, setFaultQuiet_bit _ _ (by decide) (by decide)⟩

/-- What a module keeps of an ignored access. -/
def AccessNoted (m u : Mod) (a : Nat) : Prop :=
  reg u Reg.HOST_ACCADDR = BitVec.ofNat 32 (a % 0x400000) ∧ Bit u Reg.HOST_FAULT 0 ∧ u.host.gates = m.host.gates ∧ u.shadow = m.shadow

theorem accErr_accessNoted (m : Mod) (bit a : Nat) : AccessNoted m (accErr m bit a) a :=
  ⟨(accErr_noted m bit a).1, (accErr_noted m bit a).2, (accErr_gates m bit a).1, by simp⟩

theorem reservedAccess_accessNoted (m : Mod) (a : Nat) (w : Bool) : AccessNoted m (reservedAccess m a w) a := by
  have hnoted := accErr_accessNoted m 1 a
  unfold reservedAccess
  dsimp only
  repeat' split
  all_goals exact hnoted

/-- Settles O41: a reserved access, a partial write and a closed gate each end in `accErr`. -/
theorem ignoredAccessesAreNoted : Obligations.IgnoredAccessesAreNoted := by
  refine ⟨fun s a w hp => ⟨(exec_reservedAccess a w s).trans (runM_powered _ hp), reservedAccess_accessNoted s.m a w⟩,
    fun m off be f hnone hpart => ?_, fun m off f hclosed => ?_⟩
  · rw [hostWrite, if_neg hnone, if_neg (by simpa [fullBe] using hpart)]
    exact accErr_accessNoted m 0 off
  · rw [guardedWrite, hostWrite_full, if_neg (by simp [hclosed])]
    exact accErr_accessNoted m 2 off

/-! ## Key gates (R535) -/

theorem gateOpen_openGate (m : Mod) (b : Nat) : gateOpen (openGate m b) b = true := by
  simp [gateOpen, openGate, startTimer, msec, setTimerAt, nsUnit]

theorem keygateWrite_key (m : Mod) (b : Nat) : keygateWrite m b 0x0000C5A7 15 = openGate m b := by
  rw [keygateWrite, hostWrite_full]
  exact if_pos rfl

theorem keygateWrite_wrong (m : Mod) (b : Nat) {v : Word} (h : v ≠ 0x0000C5A7) :
    keygateWrite m b v 15 = accErr (auditEvent (closeGate m b) b 0x001 1 b []) 4 (keygateOff b) := by
  rw [keygateWrite, hostWrite_full]
  exact if_neg h

theorem auditEvent_gates (m : Mod) (src code result obj : Nat) (args : Bytes) :
    SameGates (auditEvent m src code result obj args) m := ⟨by rw [auditEvent_host], by simp⟩

theorem keygateWrite_wrong_closed (m : Mod) (b : Nat) {v : Word} (h : v ≠ 0x0000C5A7) :
    gateOpen (keygateWrite m b v 15) b = false ∧ Bit (keygateWrite m b v 15) Reg.HOST_FAULT 0 := by
  rw [keygateWrite_wrong m b h, gateOpen_congr (accErr_gates ..), gateOpen_congr (auditEvent_gates ..), gateOpen_closeGate]
  exact ⟨rfl, (accErr_noted ..).2⟩

/-! ## Strobes (R531, R532) -/

/-- The units at which a group's strobe waits. -/
def strobeUnits (m : Mod) (g : Nat) : List Nat :=
  (shadowBlocks.filter fun b => groupOf m b == g).flatMap fun b => (List.range (applyUnits b)).map fun u => 16 * b + u

/-- A group added to those that wait at a unit. -/
def strobeAdd (g : Nat) (l : Cells (List Nat)) (k : Nat) : Cells (List Nat) :=
  tabMod l k fun gs => if gs.contains g then gs else gs ++ [g]

theorem strobeAdd_same (g k : Nat) (l : Cells (List Nat)) : g ∈ tabGet (strobeAdd g l k) k := by
  rw [strobeAdd, tabGet_tabMod_same]
  split
  · next h => exact List.contains_iff_mem.1 h
  · simp

theorem strobeAdd_keeps (g k j : Nat) {l : Cells (List Nat)} (h : g ∈ tabGet l k) : g ∈ tabGet (strobeAdd g l j) k := by
  by_cases hj : k = j
  · subst hj
    exact strobeAdd_same g k l
  · rwa [strobeAdd, tabGet_tabMod_ne _ _ hj]

theorem foldl_strobeAdd (g k : Nat) {units : List Nat} (hk : k ∈ units) (l : Cells (List Nat)) :
    g ∈ tabGet (units.foldl (strobeAdd g) l) k := by
  obtain ⟨before, after, rfl⟩ := List.append_of_mem hk
  rw [List.foldl_append, List.foldl_cons]
  exact List.foldlRecOn after (strobeAdd g) (motive := fun l => g ∈ tabGet l k) (strobeAdd_same g k _)
    fun l h j _ => strobeAdd_keeps g k j h

theorem strobeGroup_strobes {m : Mod} {g : Nat} (h : strobeUnits m g ≠ []) :
    (strobeGroup m g).host.strobes = (strobeUnits m g).foldl (strobeAdd g) m.host.strobes := by
  unfold strobeGroup
  extract_lets units add m0 m1
  have hhost : m1.host = m.host := by
    simp only [m1]
    split <;> rfl
  have hunits : units = strobeUnits m g := rfl
  rw [if_neg (by simpa [hunits] using h)]
  simp only [hhost]
  rfl

theorem strobeGroup_waits {m : Mod} {g b n : Nat} (hb : b ∈ shadowBlocks) (hg : groupOf m b = g) (hn : n < applyUnits b) :
    g ∈ tabGet (strobeGroup m g).host.strobes (16 * b + n) := by
  have hunit : 16 * b + n ∈ strobeUnits m g :=
    List.mem_flatMap.2 ⟨b, List.mem_filter.2 ⟨hb, by simp [hg]⟩, List.mem_map.2 ⟨n, List.mem_range.2 hn, rfl⟩⟩
  rw [strobeGroup_strobes (List.ne_nil_of_mem hunit)]
  exact foldl_strobeAdd g _ hunit _

/-- The word 2^g names group g alone. -/
theorem hostStrobe_single (m : Mod) {g : Nat} (hg : g < 8) :
    hostStrobe m (BitVec.ofNat 32 (2 ^ g)) 15 = strobeGroup m g := by
  have hgroups : ((List.range 8).filter fun k => (BitVec.ofNat 32 (2 ^ g)).toNat.testBit k) = [g] := by
    interval_cases g <;> decide
  rw [hostStrobe, hostWrite_full, hgroups]
  rfl

theorem sgrpWrite_idle {m : Mod} {n : Nat} {v : Word} {r : RegRow} (hidle : strobeStat m = 0)
    (hrow : regRow? (Reg.HOST_SGRP n) = some r) :
    sgrpWrite m n v 15 = setReg m (Reg.HOST_SGRP n) (v &&& BitVec.ofNat 32 r.live) := by
  rw [sgrpWrite, hostWrite_full]
  simp only [hidle, ne_eq, not_true_eq_false, if_false, hrow]

/-! ## The hand-over of shadow copies (R532, R533) -/

/-- The shadowed rows of a block. -/
def shadowRows (b : Nat) : List RegRow := (windowRows b).filter fun r => r.shadow ≠ 0

/-- The value that a hand-over gives a shadowed register. -/
def handed (m : Mod) (r : RegRow) : Word :=
  (limited r.off (shadowReg m r.off) &&& BitVec.ofNat 32 r.shadow) ||| (reg m r.off &&& ~~~(BitVec.ofNat 32 r.shadow))

theorem windowRows_none {b : Nat} (h : 18 ≤ b) : windowRows b = [] := by
  unfold windowRows
  split
  case h_19 => rfl
  all_goals omega

/-- The shadowed registers of a block have offsets of their own, which no event record and no HOST_FAULT shares. -/
theorem shadowRows_offsets (b : Nat) : ((shadowRows b).map (·.off)).Nodup ∧
    ∀ r ∈ shadowRows b, eventFree r.off = true ∧ r.off ≠ Reg.HOST_FAULT := by
  by_cases h : b < 18
  · interval_cases b <;> decide
  · rw [shadowRows, windowRows_none (by omega)]
    simp

/-- Rows of distinct offsets handed over in turn: each register gets the value handed to it at first. -/
theorem foldl_handed {l : List RegRow} (hnodup : (l.map (·.off)).Nodup) {r : RegRow} (hr : r ∈ l) (m : Mod) :
    reg (l.foldl (fun m r => setReg m r.off (handed m r)) m) r.off = handed m r := by
  induction l generalizing m with
  | nil => exact absurd hr List.not_mem_nil
  | cons x l ih =>
    rw [List.map_cons, List.nodup_cons] at hnodup
    obtain ⟨hx, hl⟩ := hnodup
    rw [List.foldl_cons]
    rcases List.mem_cons.1 hr with rfl | hmem
    · refine List.foldlRecOn l _ (motive := fun n => reg n r.off = handed m r) (reg_setReg_same ..) fun n hn y hy => ?_
      exact (reg_setReg_ne n _ fun h => hx (List.mem_map.2 ⟨y, hy, h.symm⟩)).trans hn
    · have hne : r.off ≠ x.off := fun h => hx (List.mem_map.2 ⟨r, hmem, h⟩)
      rw [ih hl hmem, handed, reg_setReg_ne m _ hne]
      rfl

theorem copyShadow_handed (m : Mod) {b : Nat} {r : RegRow} (hr : r ∈ shadowRows b) :
    reg (copyShadow m b (unitOf r.off)) r.off = handed m r := by
  have hrows : ((windowRows b).filter fun x => x.shadow ≠ 0 && unitOf x.off == unitOf r.off) =
      (shadowRows b).filter fun x => unitOf x.off == unitOf r.off := by
    rw [shadowRows, List.filter_filter]
    exact List.filter_congr fun x _ => Bool.and_comm ..
  have hmem : r ∈ (shadowRows b).filter fun x => unitOf x.off == unitOf r.off := List.mem_filter.2 ⟨hr, by simp⟩
  unfold copyShadow
  rw [hrows]
  exact foldl_handed ((shadowRows_offsets b).1.sublist (List.filter_sublist.map _)) hmem m

/-! ## What a hand-over leaves of it (R532) -/

theorem reg_checkTag (m : Mod) (i : Nat) {off : Nat} (h : eventFree off = true) (hkey : off ≠ Reg.KEY_FAULT) :
    reg (checkTag m i) off = reg m off := by
  unfold checkTag
  dsimp only
  split
  · rw [tagFail, reg_setFault _ _ _ _ _ h, if_neg hkey]
    rfl
  · rfl

theorem reg_mtrLog (m : Mod) (code pt : Nat) (args : List Nat) {off : Nat} (h : eventFree off = true) (hkey : off ≠ Reg.KEY_FAULT)
    (hdrop : off ≠ Reg.MTR_LOG_DROP) (hfault : off ≠ Reg.MTR_FAULT) : reg (mtrLog m code pt args) off = reg m off := by
  refine mtrLog_keeps (P := fun n => reg n off = reg m off) (fun n i hn => (reg_checkTag n i h hkey).trans hn)
    (fun n code pt args hn => hn) (fun n k hn => hn) (fun n hn => ?_) rfl code pt args
  rw [reg_setFault _ _ _ _ _ h, if_neg hfault, reg_bump _ _ h, if_neg hdrop]
  exact hn

/-- New values of MTR_SAVE and MTR_CTRL take effect without a change of MTR_SAVE. -/
theorem reg_mtrApply (m : Mod) (p en : Nat) : reg (mtrApply m p en) Reg.MTR_SAVE = reg m Reg.MTR_SAVE := by
  have hlog (n : Mod) (code pt : Nat) (args : List Nat) : reg (mtrLog n code pt args) Reg.MTR_SAVE = reg n Reg.MTR_SAVE :=
    reg_mtrLog n code pt args (by decide) (by decide) (by decide) (by decide)
  have hconfig (n : Mod) (kind pt value : Nat) : reg (logConfig n kind pt value) Reg.MTR_SAVE = reg n Reg.MTR_SAVE := by
    unfold logConfig
    split
    · exact hlog ..
    · rfl
  unfold mtrApply
  refine (foldl_keep (fun n => reg n Reg.MTR_SAVE) _ (fun n o => ?_) _ _).trans
    ((foldl_keep (fun n => reg n Reg.MTR_SAVE) _ (fun n o => ?_) _ _).trans ?_)
  · split <;> rfl
  · dsimp only
    repeat' split
    · rw [reg_setFault _ _ _ _ _ (by decide), if_neg (by decide)]
      exact reg_setReg_ne _ _ (by decide)
    · exact hconfig ..
    · rfl
    · rfl
  · repeat' split
    · rfl
    · exact hlog ..
    · rfl

theorem reg_watchRevert (m : Mod) (off : Nat) : reg (watchRevert m) off = reg m off := by
  unfold watchRevert
  repeat' split
  all_goals rfl

theorem shadowRows_mtr : ∀ r ∈ shadowRows 0xE, r.off = Reg.MTR_CTRL ∨ r.off = Reg.MTR_SAVE := by decide

theorem shadowRows_flt : ∀ r ∈ shadowRows 5, r.off = Reg.FLT_PAL_CMD := by decide

/-- The hand-over of a block other than the time base gives its registers their shadow copies; FLT_PAL_CMD and MTR_CTRL change as
their commands do. -/
theorem applyShadow_handed {m : Mod} {b : Nat} {r : RegRow} (hr : r ∈ shadowRows b) (hptp : b ≠ 9)
    (hlink : b = 0xA → (netPort m (unitOf r.off)).link = false) (hpal : r.off ≠ Reg.FLT_PAL_CMD) (hctrl : r.off ≠ Reg.MTR_CTRL) :
    reg (applyShadow m b (unitOf r.off)) r.off = handed m r := by
  have hcopy := copyShadow_handed m hr
  have hnet : (copyShadow m b (unitOf r.off)).net = m.net := foldl_keep Mod.net _ (fun n x => by simp) _ m
  rw [applyShadow, if_neg hptp]
  by_cases hmtr : b = 0xE
  · subst hmtr
    have hsave := (shadowRows_mtr r hr).resolve_left hctrl
    rw [if_pos rfl, hsave, reg_mtrApply, ← hsave]
    exact hcopy
  rw [if_neg hmtr]
  by_cases hflt : b = 5
  · subst hflt
    exact absurd (shadowRows_flt r hr) hpal
  dsimp only
  rw [if_neg hflt]
  by_cases hout : b = 8
  · rw [if_pos hout, reg_watchRevert]
    exact hcopy
  rw [if_neg hout, if_neg fun h => ?_]
  · exact hcopy
  · obtain ⟨hmac, -, hup⟩ := h
    rw [netPort, hnet] at hup
    exact Bool.false_ne_true ((hlink hmac).symm.trans hup)

/-! ## The time base (R334, R533) -/

/-- One register of the time base at a hand-over. -/
def ptpTake (m : Mod) (o : Nat) : Mod :=
  if ptpInRange o (shadowReg m o) then setReg m o (shadowReg m o) else setFault (setShadow m o (reg m o)) Reg.PTP_FAULT 10

theorem ptpTake_other (m : Mod) {o off : Nat} (hne : off ≠ o) (hfree : eventFree off = true) (hfault : off ≠ Reg.PTP_FAULT) :
    reg (ptpTake m o) off = reg m off ∧ shadowReg (ptpTake m o) off = shadowReg m off := by
  unfold ptpTake
  split
  · exact ⟨reg_setReg_ne _ _ hne, rfl⟩
  · refine ⟨by rw [reg_setFault _ _ _ _ _ hfree, if_neg hfault, reg_setShadow], ?_⟩
    have hshadow : (setFault (setShadow m o (reg m o)) Reg.PTP_FAULT 10).shadow = (setShadow m o (reg m o)).shadow := by simp
    unfold shadowReg
    rw [hshadow]
    exact cellGet_cellSet_ne _ _ _ hne

theorem foldl_ptpTake {l : List Nat} (hnodup : l.Nodup) {off : Nat} (hoff : off ∈ l) (hfree : eventFree off = true)
    (hfault : off ≠ Reg.PTP_FAULT) {m : Mod} (hrange : ptpInRange off (shadowReg m off) = true) :
    reg (l.foldl ptpTake m) off = shadowReg m off := by
  induction l generalizing m with
  | nil => exact absurd hoff List.not_mem_nil
  | cons x l ih =>
    obtain ⟨hx, hl⟩ := List.nodup_cons.1 hnodup
    rw [List.foldl_cons]
    rcases List.mem_cons.1 hoff with rfl | hmem
    · refine List.foldlRecOn l ptpTake (motive := fun n => reg n off = shadowReg m off) ?_ fun n hn y hy => ?_
      · rw [ptpTake, if_pos hrange, reg_setReg_same]
      · exact (ptpTake_other n (ne_of_mem_of_not_mem hy hx).symm hfree hfault).1.trans hn
    · have hne : off ≠ x := fun h => hx (h ▸ hmem)
      have hshadow := (ptpTake_other m hne hfree hfault).2
      rw [ih hl hmem (by rwa [hshadow]), hshadow]

theorem reg_modPtpPort (m : Mod) (p : Nat) (f : PtpPort → PtpPort) (off : Nat) : reg (modPtpPort m p f) off = reg m off := rfl

theorem reg_portStates (l : List (Nat × PtpPortState)) (m : Mod) (off : Nat) :
    reg (l.foldl (fun m ps => modPtpPort m ps.1 fun q => { q with state := ps.2 }) m) off = reg m off :=
  foldl_keep (fun n => reg n off) _ (fun n ps => reg_modPtpPort n ps.1 _ off) l m

theorem reg_utcFromParent (m : Mod) {off : Nat} (hutc : off ≠ Reg.PTP_UTC) : reg (utcFromParent m) off = reg m off := by
  unfold utcFromParent
  split
  · split
    · split
      · exact reg_setReg_ne m _ hutc
      · rfl
    · rfl
  · rfl

section
variable {off : Nat} (hfree : eventFree off = true) (hfault : off ≠ Reg.PTP_FAULT)
include hfree hfault

theorem reg_setClkState (m : Mod) (st : ClkState) : reg (setClkState m st) off = reg m off := by
  have hset (n : Mod) (b : Nat) : reg (setFault n Reg.PTP_FAULT b) off = reg n off := by
    rw [reg_setFault _ _ _ _ _ hfree, if_neg hfault]
  unfold setClkState
  extract_lets old code m1 m2 m3 m4
  have h2 : reg m2 off = reg m1 off := by
    simp only [m2]
    split
    · exact hset m1 1
    · rfl
  have h3 : reg m3 off = reg m2 off := by
    simp only [m3]
    split
    · exact hset m2 2
    · rfl
  have h4 : reg m4 off = reg m3 off := by
    simp only [m4]
    split
    · exact hset m3 3
    · rfl
  split
  · rfl
  · rw [reg_stateEvent _ _ _ _ _ _ hfree, h4, h3, h2]
    rfl

theorem reg_settleExt (m : Mod) : reg (settleExt m) off = reg m off := by
  unfold settleExt
  split
  · rfl
  · exact reg_setClkState hfree hfault m _

theorem reg_runBmca (m : Mod) (hutc : off ≠ Reg.PTP_UTC) : reg (runBmca m) off = reg m off := by
  unfold runBmca
  split
  · rfl
  extract_lets best sts m1 sp par id changed c1 m2 c2 m3 m4
  have h1 : reg m1 off = reg m off := reg_portStates sts m off
  clear_value m1
  have h2 : reg m2 off = reg m1 off := rfl
  clear_value m2
  have h3 : reg m3 off = reg m2 off := by
    simp only [m3]
    split
    · rw [reg_setFault _ _ _ _ _ hfree, if_neg hfault]
      rfl
    · rfl
  clear_value m3
  have h4 : reg m4 off = reg m3 off := by
    simp only [m4]
    split
    · exact reg_setClkState hfree hfault m3 .acquiring
    · rfl
  rw [reg_utcFromParent m4 hutc, h4, h3, h2, h1]

end

theorem reg_armPtp (m : Mod) (p off : Nat) : reg (armPtp m p) off = reg m off := by
  unfold armPtp
  split
  · rfl
  · refine foldl_keep (fun n => reg n off) _ (fun n k => ?_) [0, 1, 2] m
    split <;> rfl

/-- The registers of the time base in the order of the hand-over. -/
def ptpShadows : List Nat := [Reg.PTP_CTRL, Reg.PTP_CFG, Reg.PTP_INTV, Reg.PTP_SERVO]
  ++ (List.range 8).map (fun p => Reg.PTP_PCFG p) ++ (List.range 8).map (fun p => Reg.PTP_PLAT p)

/-- A shadow value in its range is the time base's after the hand-over. -/
theorem reg_ptpApply {m : Mod} {off : Nat} (hoff : off ∈ ptpShadows) (hfree : eventFree off = true) (hfault : off ≠ Reg.PTP_FAULT)
    (hutc : off ≠ Reg.PTP_UTC) (hrange : ptpInRange off (shadowReg m off) = true) : reg (ptpApply m) off = shadowReg m off := by
  have harm (n : Mod) : reg ((List.range 8).foldl armPtp n) off = reg n off :=
    foldl_keep (fun n => reg n off) armPtp (fun n p => reg_armPtp n p off) _ n
  unfold ptpApply
  extract_lets offs prof was m1 c1 m2 c2 m3 listening m4 m5
  have h1 : reg m1 off = shadowReg m off := foldl_ptpTake (l := ptpShadows) (by decide) hoff hfree hfault hrange
  clear_value m1
  have h2 : reg m2 off = reg m1 off := rfl
  clear_value m2
  have h3 : reg m3 off = reg m2 off := by
    simp only [m3]
    rw [reg_settleExt hfree hfault]
    split <;> rfl
  clear_value m3
  have h4 : reg m4 off = reg m3 off := by
    simp only [m4]
    split
    · split
      · exact reg_setClkState hfree hfault listening _
      · rfl
    · rfl
  clear_value m4
  have h5 : reg m5 off = reg m4 off := by
    simp only [m5]
    refine foldl_keep (fun n => reg n off) _ (fun n p => ?_) _ m4
    split <;> rfl
  rw [reg_runBmca hfree hfault _ hutc, harm, h5, h4, h3, h2, h1]

/-! ## The apply point (R532) -/

/-- A group done is noted once it waits nowhere; no register but HOST_FAULT changes. -/
theorem reg_groupsDone (gs : List Nat) (m : Mod) {off : Nat} (hlow : off < 0x3F8000) (hfault : off ≠ Reg.HOST_FAULT) :
    reg (gs.foldl (fun m g => if m.host.strobes.any fun s => s.2.contains g then m else setFaultQuiet m Reg.HOST_FAULT 2) m) off =
      reg m off := by
  refine foldl_keep (fun n => reg n off) _ (fun n g => ?_) gs m
  split
  · rfl
  · rw [reg_setFaultQuiet _ _ _ hlow, if_neg hfault]

theorem strobes_groupsDone (gs : List Nat) (m : Mod) :
    (gs.foldl (fun m g => if m.host.strobes.any fun s => s.2.contains g then m else setFaultQuiet m Reg.HOST_FAULT 2) m).host.strobes =
      m.host.strobes := by
  refine foldl_keep (fun n : Mod => n.host.strobes) _ (fun n g => ?_) gs m
  split
  · rfl
  · rw [setFaultQuiet_host]

theorem applyPoint_not_ready {m : Mod} (n : Nat) (h : fltReady m = false) : applyPoint m 5 n = m := by
  unfold applyPoint
  dsimp only
  split
  · rfl
  · exact if_pos ⟨rfl, by simp [h]⟩

section
variable {m : Mod} {b : Nat} (hready : b ≠ 5 ∨ fltReady m = true)
include hready

/-- What waited at an apply point is taken there. -/
theorem applyPoint_takes (n : Nat) : tabGet (applyPoint m b n).host.strobes (16 * b + n) = [] := by
  unfold applyPoint
  dsimp only
  split
  · assumption
  · rw [if_neg (by rintro ⟨rfl, h⟩; simp_all), strobes_groupsDone]
    exact tabGet_tabSet_same ..

/-- The registers are those of the hand-over. -/
theorem reg_applyPoint {n off : Nat} (hwait : tabGet m.host.strobes (16 * b + n) ≠ []) (hlow : off < 0x3F8000)
    (hfault : off ≠ Reg.HOST_FAULT) : reg (applyPoint m b n) off = reg (applyShadow m b n) off := by
  unfold applyPoint
  dsimp only
  split
  · next h => exact absurd h hwait
  · rw [if_neg (by rintro ⟨rfl, h⟩; simp_all), reg_groupsDone _ _ hlow hfault]
    rfl

end

/-- The four registers of the time base that hold its settings. -/
theorem ptpSettings_offsets : ∀ off ∈ [Reg.PTP_CTRL, Reg.PTP_CFG, Reg.PTP_INTV, Reg.PTP_SERVO],
    off ∈ ptpShadows ∧ eventFree off = true ∧ off ≠ Reg.PTP_FAULT ∧ off ≠ Reg.PTP_UTC ∧ off ≠ Reg.HOST_FAULT := by decide

/-- Settles O42, a command at a time. -/
theorem gatesAndStrobesWait : Obligations.GatesAndStrobesWait := by
  intro s hp
  refine ⟨fun b hup => ?_, fun b v hup hv => ?_, fun b hdue => ?_, fun g b n hg hb hgroup hn => ?_, fun b n hready => ?_,
    fun n hready => ?_, fun n v r hidle hrow => ?_⟩
  · refine ⟨(exec_keygateWrite b _ 15 s).trans ((runM_powered _ hp).trans (by rw [inRunning_up _ _ _ hup])), ?_⟩
    rw [keygateWrite_key]
    exact ⟨gateOpen_openGate s.m b, timerDue_startTimer .., rfl⟩
  · exact ⟨(exec_keygateWrite b v 15 s).trans ((runM_powered _ hp).trans (by rw [inRunning_up _ _ _ hup])),
      keygateWrite_wrong_closed s.m b hv⟩
  · refine ⟨(exec_keygateRelock b s).trans (runM_powered _ hp), ?_⟩
    rw [keygateRelock, expire_of_due hdue]
    exact ⟨gateOpen_closeGate _ b, timerDue_stopTimer ..⟩
  · refine ⟨(exec_hostStrobe _ 15 s).trans (runM_powered _ hp), ?_⟩
    rw [hostStrobe_single s.m hg]
    exact strobeGroup_waits hb hgroup hn
  · refine ⟨(exec_blockApplyPoint b n s).trans (runS_powered _ hp), applyPoint_takes hready n,
      fun hwait hptp hlink r hr hshadow hunit hpal hctrl => ?_, fun hwait hptp off hoff hrange => ?_⟩
    · have hrow : r ∈ shadowRows b := List.mem_filter.2 ⟨hr, by simpa using hshadow⟩
      obtain ⟨hfree, hhost⟩ := (shadowRows_offsets b).2 r hrow
      subst hunit
      rw [reg_applyPoint hready hwait (eventFree_lt hfree) hhost]
      exact applyShadow_handed hrow hptp hlink hpal hctrl
    · obtain ⟨hmem, hfree, hfault, hutc, hhost⟩ := ptpSettings_offsets off hoff
      rw [reg_applyPoint hready hwait (eventFree_lt hfree) hhost, applyShadow, if_pos hptp]
      exact reg_ptpApply hmem hfree hfault hutc hrange
  · exact ⟨(exec_blockApplyPoint 5 n s).trans (runS_powered _ hp), applyPoint_not_ready n hready⟩
  · refine ⟨(exec_hostSgrpWrite n v 15 s).trans (runM_powered _ hp), ?_⟩
    rw [sgrpWrite_idle hidle hrow]
    exact ⟨reg_setReg_same .., rfl, rfl⟩

end Sys2Proof.Machine
end

section
/-!
SUPPORT. Wide-value mailboxes and the event recorder's read buffer (R334, R450, R462, R536).
-/
namespace Sys2Proof.Machine

/-! ## A mailbox set -/

@[simp] theorem getBox_setBox (m : Mod) (b : WideBox) (x : Mailbox) : getBox (setBox m b x) b = x := by cases b <;> rfl

@[simp] theorem reg_setBox (m : Mod) (b : WideBox) (x : Mailbox) (off : Nat) : reg (setBox m b x) off = reg m off := by
  cases b <;> rfl

@[simp] theorem setBox_regs (m : Mod) (b : WideBox) (x : Mailbox) : (setBox m b x).regs = m.regs := by cases b <;> rfl

theorem getBox_setFault (m : Mod) (b : WideBox) (a bit o : Nat) (vals : List Nat) :
    getBox (setFault m a bit o vals) b = getBox m b := by
  unfold getBox
  rw [setFault_host]

/-! ## The snapshot of a selection -/

/-- What a selection shows: the words, and the module that has taken them. -/
def boxWords (m : Mod) (b : WideBox) (v : Nat) : Mod × Option (List Nat) := match b with
  | .host => (m, hostMbox m (v % 256))
  | .ptp => (m, ptpMbox m (v % 256))
  | .mtr => mtrMbox m (bitsOf v 15 8) (bitsOf v 7 4) (bitsOf v 3 0)
  | .evr => (m, evrMbox m (v % 256))

/-- The mailbox that shows the words, or the empty one. -/
def boxOf (v : Nat) (ws : Option (List Nat)) : Mailbox := match ws with
  | some ws => { valid := true, code := v, words := ws }
  | none => {}

theorem mtrMbox_regs (m : Mod) (idx kind item : Nat) : (mtrMbox m idx kind item).1.regs = m.regs := by
  unfold mtrMbox
  dsimp only
  repeat' split
  all_goals rfl

theorem boxWords_regs (m : Mod) (b : WideBox) (v : Nat) : (boxWords m b v).1.regs = m.regs := by
  cases b
  case mtr => exact mtrMbox_regs m ..
  all_goals rfl

theorem boxTake_eq (m : Mod) (b : WideBox) (v : Nat) : boxTake m b v =
    if b = .ptp ∧ (boxWords m b v).2 = none then setFault (setBox (boxWords m b v).1 b {}) Reg.PTP_FAULT 10
    else setBox (boxWords m b v).1 b (boxOf v (boxWords m b v).2) := by
  have htake : boxTake m b v = match (boxWords m b v).2 with
      | some ws => setBox (boxWords m b v).1 b { valid := true, code := v, words := ws }
      | none => if b = .ptp then setFault (setBox (boxWords m b v).1 b {}) Reg.PTP_FAULT 10 else setBox (boxWords m b v).1 b {} := rfl
  rw [htake]
  cases hwords : (boxWords m b v).2 with
  | some ws => simp [boxOf]
  | none =>
    by_cases hptp : b = .ptp <;> simp [hptp, boxOf]

theorem getBox_boxTake (m : Mod) (b : WideBox) (v : Nat) : getBox (boxTake m b v) b = boxOf v (boxWords m b v).2 := by
  rw [boxTake_eq]
  split
  · next h => rw [getBox_setFault, getBox_setBox, h.2, boxOf]
  · rw [getBox_setBox]

theorem reg_boxTake (m : Mod) (b : WideBox) (v : Nat) : reg (boxTake m b v) (boxSel b) = reg m (boxSel b) := by
  have hregs := reg_congr (boxWords_regs m b v) (boxSel b)
  rw [boxTake_eq]
  split
  · next h =>
    obtain ⟨rfl, -⟩ := h
    rw [reg_setFault _ _ _ _ _ (by decide), if_neg (by decide), reg_setBox, hregs]
  · rw [reg_setBox, hregs]

/-- A time base's code that does not exist is refused. -/
theorem boxTake_refused {m : Mod} {v : Nat} (h : ptpMbox m (v % 256) = none) : Bit (boxTake m .ptp v) Reg.PTP_FAULT 10 := by
  rw [boxTake_eq, if_pos ⟨rfl, h⟩]
  exact Bit_setFault (by decide) (by decide)

/-! ## The write of SEL and the read of DATA3 -/

theorem mboxSel_full {m : Mod} {b : WideBox} (v : Word) {r : RegRow} (hup : blockUp m (srcOf (boxSel b)) = true)
    (hrow : regRow? (boxSel b) = some r) :
    mboxSel m b v 15 = boxTake (setReg m (boxSel b) (v &&& BitVec.ofNat 32 r.live)) b (v &&& BitVec.ofNat 32 r.live).toNat := by
  rw [mboxSel, hostWrite_full, hup, if_neg (by decide), hrow]

/-- A selection's word, and the box that shows it. -/
theorem mboxSel_latched {m : Mod} {b : WideBox} (v : Word) {r : RegRow} (hup : blockUp m (srcOf (boxSel b)) = true)
    (hrow : regRow? (boxSel b) = some r) :
    let w := v &&& BitVec.ofNat 32 r.live
    reg (mboxSel m b v 15) (boxSel b) = w ∧
      getBox (mboxSel m b v 15) b = boxOf w.toNat (boxWords (setReg m (boxSel b) w) b w.toNat).2 := by
  rw [mboxSel_full v hup hrow]
  exact ⟨(reg_boxTake ..).trans (reg_setReg_same ..), getBox_boxTake ..⟩

theorem mboxRead_data3 {m : Mod} {b : WideBox} (hvalid : (getBox m b).valid = true) :
    (mboxRead m b 3).1 = BitVec.ofNat 32 ((getBox m b).words.getD 3 0) ∧ getBox (mboxRead m b 3).2 b = {} ∧
      (mboxRead m b 3).2.regs = m.regs := by
  unfold mboxRead
  simp only [hvalid, Bool.not_true, Bool.false_eq_true, if_false, ne_eq, not_true_eq_false]
  split
  · next h =>
    obtain ⟨rfl, -⟩ := h
    exact ⟨rfl, rfl, rfl⟩
  · exact ⟨rfl, getBox_setBox .., setBox_regs ..⟩

theorem mboxData3_full (m : Mod) (b : WideBox) : mboxData3 m b 15 =
    { (mboxRead m b 3).2 with host := { (mboxRead m b 3).2.host with latched := .data (mboxRead m b 3).1 } } := by
  unfold mboxData3
  rw [if_neg (by decide)]
  simp only [lanes_full]

theorem getBox_latched (m : Mod) (b : WideBox) (x : Completion) :
    getBox { m with host := { m.host with latched := x } } b = getBox m b := by cases b <;> rfl

theorem rdData15_effect {m : Mod} (hup : blockUp m (srcOf (Reg.EVR_RD_DATA 15)) = true) :
    (rdData15 m 15).evr.readValid = false ∧ (rdData15 m 15).host.latched = .data (readValue m (Reg.EVR_RD_DATA 15)) := by
  have hplain : implemented (Reg.EVR_RD_DATA 15) = true ∧ boxWord (Reg.EVR_RD_DATA 15) = none := by decide
  obtain ⟨himpl, hbox⟩ := hplain
  have ha : Reg.EVR_RD_DATA 15 / 4 * 4 = Reg.EVR_RD_DATA 15 := by decide
  unfold rdData15 hostRead
  simp only [ha, himpl, hup, hbox, lanes_full, Bool.not_true, Bool.false_eq_true, if_false, if_true,
    if_neg (show (15 : BitVec 4) ≠ 0 by decide), and_self]

/-- Settles O44, box by box. -/
theorem mailboxesLatchTheirValue : Obligations.MailboxesLatchTheirValue := by
  intro s hp
  refine ⟨fun b v r hup hrow => ?_, ?_, fun b hvalid => ?_, fun hup => ?_⟩
  · have hlatched := mboxSel_latched v hup hrow
    refine ⟨?_, ?_, ?_, ?_⟩
    · rintro rfl
      refine ⟨(exec_ptpMboxSel v 15 s).trans (runM_powered _ hp), hlatched, fun hnone => ?_⟩
      rw [mboxSel_full v hup hrow]
      exact boxTake_refused hnone
    all_goals rintro rfl
    · exact ⟨(exec_mtrMboxSel v 15 s).trans (runM_powered _ hp), hlatched⟩
    · exact ⟨(exec_evrMboxSel v 15 s).trans (runM_powered _ hp), hlatched⟩
    · exact ⟨(exec_hostMboxSel v 15 s).trans (runM_powered _ hp), hlatched⟩
  · refine ⟨(exec_hostMboxSel 0 15 s).trans (runM_powered _ hp), ?_⟩
    obtain ⟨r, hrow⟩ := Option.isSome_iff_exists.1 (show (regRow? (boxSel .host)).isSome = true by decide)
    refine (mboxSel_latched (m := s.m) 0 rfl hrow).2.trans ?_
    have hzero : (0 : Word) &&& BitVec.ofNat 32 r.live = 0 := by simp
    rw [hzero]
    rfl
  · refine ⟨(exec_mboxData3Read b 15 s).trans (runM_powered _ hp), ?_⟩
    obtain ⟨hword, hbox, hregs⟩ := mboxRead_data3 hvalid
    rw [mboxData3_full, getBox_latched, hword]
    exact ⟨hbox, rfl, hregs⟩
  · exact ⟨(exec_evrRdData15Read 15 s).trans (runM_powered _ hp), rdData15_effect hup⟩

end Sys2Proof.Machine
end

section
/-!
SUPPORT. DMA channels and compression lanes (R392 to R405).
-/
namespace Sys2Proof.Machine

/-! ## Channels -/

@[simp] theorem dmaChan_modChan_same (m : Mod) (n : Nat) (f : DmaChan → DmaChan) : dmaChan (modChan m n f) n = f (dmaChan m n) :=
  tabGet_tabMod_same m.dma.chans n f

theorem dmaChan_modChan_ne (m : Mod) {n k : Nat} (f : DmaChan → DmaChan) (h : k ≠ n) : dmaChan (modChan m n f) k = dmaChan m k :=
  tabGet_tabMod_ne m.dma.chans f h

theorem dmaChan_congr {u m : Mod} (h : u.dma = m.dma) (n : Nat) : dmaChan u n = dmaChan m n := by rw [dmaChan, h, dmaChan]

theorem dmaChan_setFault (m : Mod) (a bit o n : Nat) (vals : List Nat) : dmaChan (setFault m a bit o vals) n = dmaChan m n :=
  dmaChan_congr (by simp) n

/-- A halted channel with its code, and the fault bits that name it. -/
theorem dmaHalt_effect (m : Mod) (n err cur : Nat) :
    dmaChan (dmaHalt m n err cur) n = { dmaChan m n with state := .halted, err := err, cur := cur, bursts := 0 } := by
  unfold dmaHalt
  dsimp only
  repeat' split
  all_goals simp [dmaChan_setFault]

theorem dmaHalt_timeout_bits (m : Mod) (n cur : Nat) :
    Bit (dmaHalt m n 4 cur) Reg.DMA_FAULT 0 ∧ Bit (dmaHalt m n 4 cur) Reg.DMA_FAULT 1 := by
  unfold dmaHalt
  rw [if_pos rfl]
  exact ⟨Bit_setFault_other (by decide) (Bit_setFault (by decide) (by decide)), Bit_setFault (by decide) (by decide)⟩

/-! ## Chains and commands (R392, R395, R401) -/

/-- An Idle channel takes the one chain that is queued. -/
theorem dmaNextChain_takes {m : Mod} {n q : Nat} {rest : List Nat} (hstate : (dmaChan m n).state = .running)
    (hnext : (dmaChan m n).next = none) (hfetched : (dmaChan m n).fetched = []) (hpend : (dmaChan m n).pend = none)
    (hqueue : (dmaChan m n).queue = q :: rest) :
    (dmaChan (dmaNextChain m n) n).state = .running ∧ (dmaChan (dmaNextChain m n) n).next = some q ∧
      (dmaChan (dmaNextChain m n) n).queue = rest := by
  unfold dmaNextChain
  simp [hstate, hnext, hfetched, hpend, hqueue]

section
variable {m : Mod} {n : Nat} {v : Word}

theorem dmaChain_queued (hroom : (dmaChan m n).queue.length < 4) (halign : v.toNat % 32 = 0) : dmaChain m n v 15 (keeperChan n) =
    if (dmaChan m n).state == .idle then
      dmaNextChain (modChan (modChan m n fun c => { c with queue := c.queue ++ [v.toNat] }) n fun c => { c with state := .running }) n
    else modChan m n fun c => { c with queue := c.queue ++ [v.toNat] } := by
  rw [dmaChain, hostWrite_full, if_neg (by simp), if_neg (by omega)]

theorem dmaCmd_halted (hstate : (dmaChan m n).state = .halted) : dmaCmd m n v 15 (keeperChan n) =
    if v.toNat.testBit 0 then
      modChan m n fun c => { c with state := .idle, queue := [], next := none, fetched := [], pend := none, cur := 0xFFFFFFFF, bursts := 0 }
    else if v.toNat.testBit 1 then
      modChan m n fun x => { x with
        state := .running, crc := if (dmaChan m n).err ≤ 7 then (dmaChan m n).crcOld else (dmaChan m n).crc }
    else m := by
  rw [dmaCmd, hostWrite_full, if_neg (by simp), if_neg (by simp [hstate])]

end

/-! ## Fetches (R396, R400) -/

/-- The descriptor of `off` as memory holds it, with what it waits for. -/
def descriptorAt (mem : Mem) (off : Nat) (hazards : List (Nat × Nat × Nat)) : DmaDesc :=
  { off := off, src := dramNat mem off 8, dst := dramNat mem (off + 8) 8, len := dramNat mem (off + 16) 4
    ctrl := dramNat mem (off + 20) 4, next := dramNat mem (off + 24) 4, hazards := hazards }

theorem dmaFetch_fetches {m : Mod} {mem : Mem} {n off : Nat} (hnext : (dmaChan m n).next = some off)
    (hstate : (dmaChan m n).state = .running) (hroom : (dmaChan m n).fetched.length < 128) (hpend : (dmaChan m n).pend = none)
    (halign : off % 32 = 0) (hhops : (dmaChan m n).hops < (dmaChan m n).hopMax) (hown : 2 ^ 31 ≤ dramNat mem (off + 28) 4) :
    (∃ hz, (dmaChan (dmaFetch m mem n) n).fetched = (dmaChan m n).fetched ++ [descriptorAt mem off hz]) ∧
      (dmaChan (dmaFetch m mem n) n).hops = (dmaChan m n).hops + 1 := by
  unfold dmaFetch
  simp only [hnext]
  rw [if_neg (by simp [hstate, hpend]; omega), if_neg (by omega), if_neg (by omega), if_neg (by omega), dmaChan_modChan_same]
  exact ⟨⟨_, rfl⟩, rfl⟩

/-! ## Transfers (R394, R397 to R399) -/

@[simp] theorem length_readBytes (l : List Host.Cell) (a k : Nat) : (readBytes l a k).length = k := by
  induction k generalizing a with
  | zero => rfl
  | succ k ih => rw [readBytes, List.length_cons, ih]

/-- The descriptors that a channel has fetched. -/
def fetchedOf (n : Nat) (m : Mod) : List DmaDesc := (dmaChan m n).fetched

theorem fetchedOf_modChan {m : Mod} {n : Nat} {f : DmaChan → DmaChan} (h : (f (dmaChan m n)).fetched = (dmaChan m n).fetched) :
    fetchedOf n (modChan m n f) = fetchedOf n m := by rw [fetchedOf, dmaChan_modChan_same, h, fetchedOf]

theorem fetchedOf_congr {u m : Mod} (h : u.dma = m.dma) (n : Nat) : fetchedOf n u = fetchedOf n m := by
  rw [fetchedOf, dmaChan_congr h, fetchedOf]

theorem fetchedOf_dmaTurns (m : Mod) (n : Nat) (d : DmaDesc) : fetchedOf n (dmaTurns m n d) = fetchedOf n m := by
  unfold dmaTurns
  extract_lets rounds place one m1
  have hone (u : Mod) (c : Nat) : fetchedOf n (one u c) = fetchedOf n u := by
    simp only [one]
    split
    · split
      · next h => rw [fetchedOf, dmaChan_modChan_ne _ _ (Ne.symm h.2), fetchedOf]
      · rfl
    · rfl
  clear_value one
  exact (fetchedOf_modChan (f := fun s => { s with bursts := 0 }) rfl).trans (foldl_keep (fetchedOf n) one hone _ m)

theorem fetchedOf_dmaPend (m : Mod) (n : Nat) : fetchedOf n (dmaPend m n) = fetchedOf n m := by
  unfold dmaPend
  dsimp only
  split
  · split
    · rw [fetchedOf, dmaHalt_effect, dmaChan_modChan_same, fetchedOf]
    · rfl
  · rfl

theorem fetchedOf_dmaNextChain (m : Mod) (n : Nat) : fetchedOf n (dmaNextChain m n) = fetchedOf n m := by
  unfold dmaNextChain
  dsimp only
  split
  · rfl
  · split
    · exact fetchedOf_modChan rfl
    · exact fetchedOf_modChan rfl

theorem fetchedOf_dmaPop (m : Mod) (n : Nat) : fetchedOf n (dmaPop m n) = (fetchedOf n m).drop 1 := by
  unfold dmaPop
  rw [fetchedOf_dmaNextChain, fetchedOf_dmaPend, fetchedOf, dmaChan_modChan_same, fetchedOf]

/-- A descriptor's end counted, with its interrupt. -/
def dmaCounted (m : Mod) (n : Nat) (d : DmaDesc) (k : Nat) (f : DmaChan → DmaChan) : Mod :=
  dmaInt (bump (dmaCount (modChan m n f) n k) (Reg.DMA_CH_CNT_DESC n)) n d

theorem fetchedOf_dmaCounted {m : Mod} {n : Nat} (d : DmaDesc) (k : Nat) {f : DmaChan → DmaChan}
    (h : (f (dmaChan m n)).fetched = (dmaChan m n).fetched) : fetchedOf n (dmaCounted m n d k f) = fetchedOf n m := by
  have hint (u : Mod) : (dmaInt u n d).dma = u.dma := by
    unfold dmaInt
    dsimp only
    repeat' split
    all_goals simp [setBits]
  have hcount (u : Mod) : fetchedOf n (bump (dmaCount u n k) (Reg.DMA_CH_CNT_DESC n)) = fetchedOf n u :=
    (fetchedOf_congr (m := modChan u n fun c => { c with part := ((dmaChan u n).part + k) % 1024 }) (by simp [dmaCount]) n).trans
      (fetchedOf_modChan rfl)
  rw [dmaCounted, fetchedOf_congr (hint _), hcount, fetchedOf_modChan h]

/-- A copy without CRC ends: its bytes and its status are written, and it leaves the channel. -/
theorem dmaRun_copies {m : Mod} {mem : Mem} {n : Nat} {d : DmaDesc} (hstore : d.ctrl.testBit 10 = false)
    (hcheck : d.ctrl.testBit 11 = false) (hhazards : d.hazards = []) (hsrc : d.ctrl % 8 ≠ 2) (hlen : d.len ≠ 0) :
    (dmaRun m mem n d d.len 0).2 =
      ⟨bitsOf d.ctrl 5 4 == 1, d.dst, readBytes (if d.ctrl % 8 = 1 then mem.host else mem.dram) d.src d.len⟩ :: dmaStatus d false 0 d.len ∧
    fetchedOf n (dmaRun m mem n d d.len 0).1 = (fetchedOf n m).drop 1 := by
  have hbytes (fr : Nat) : (dmaBytes mem d fr (dmaSrcLen d)).take d.len =
      readBytes (if d.ctrl % 8 = 1 then mem.host else mem.dram) d.src d.len := by
    simp [dmaBytes, dmaSrcLen, hcheck, hhazards, hsrc, List.take_of_length_le]
  have hbody : readBytes (if d.ctrl % 8 = 1 then mem.host else mem.dram) d.src d.len ≠ [] :=
    List.ne_nil_of_length_pos (by rw [length_readBytes]; omega)
  unfold dmaRun
  simp only [drawFree, hbytes, hstore, hcheck, Bool.false_and, Bool.false_eq_true, if_false, if_neg hbody, if_true, Bool.false_or,
    List.append_nil, List.singleton_append, true_and]
  rw [fetchedOf_dmaPop]
  exact congrArg _ (fetchedOf_dmaCounted d d.len rfl)

/-- A descriptor that ends with ERR 4 halts the channel, and its status is the last write. -/
theorem dmaRun_halts (m : Mod) (mem : Mem) (n : Nat) (d : DmaDesc) (k : Nat) :
    ∃ u w, dmaRun m mem n d k 4 = (dmaHalt u n 4 d.off, w ++ dmaStatus d false 4 k) := by
  have herr : ((4 : Nat) == 0) = false := rfl
  unfold dmaRun
  simp only [drawFree, herr, Bool.and_false, Bool.false_and, Bool.false_eq_true, if_false, Bool.false_or, OfNat.ofNat_ne_zero]
  exact ⟨_, _, rfl⟩

/-- The channel and the flags after a host time-out. -/
theorem dmaRun_timeout (m : Mod) (mem : Mem) (n : Nat) (d : DmaDesc) (k : Nat) :
    (dmaChan (dmaRun m mem n d k 4).1 n).state = .halted ∧ (dmaChan (dmaRun m mem n d k 4).1 n).err = 4 ∧
      (dmaChan (dmaRun m mem n d k 4).1 n).cur = d.off ∧ Bit (dmaRun m mem n d k 4).1 Reg.DMA_FAULT 0 ∧
      Bit (dmaRun m mem n d k 4).1 Reg.DMA_FAULT 1 ∧ ∃ w, (dmaRun m mem n d k 4).2 = w ++ dmaStatus d false 4 k := by
  obtain ⟨u, w, hrun⟩ := dmaRun_halts m mem n d k
  obtain ⟨hany, htimeout⟩ := dmaHalt_timeout_bits u n d.off
  rw [hrun, dmaHalt_effect]
  exact ⟨rfl, rfl, rfl, hany, htimeout, w, rfl⟩

theorem dmaCheck_len {n : Nat} {d : DmaDesc} (h : dmaCheck n d = 0) : d.len ≠ 0 := by
  intro hlen
  unfold dmaCheck at h
  simp [hlen] at h

theorem dmaComplete_ok {m : Mod} {mem : Mem} {n : Nat} {d : DmaDesc} {rest : List DmaDesc}
    (hfetched : (dmaChan m n).fetched = d :: rest) (hstate : (dmaChan m n).state = .running) (hcheck : dmaCheck n d = 0) :
    dmaComplete m mem n .ok = dmaRun (dmaTurns m n d) mem n d d.len 0 := by
  unfold dmaComplete
  simp only [hfetched, hstate, hcheck, ne_eq, not_true_eq_false, if_false]

theorem dmaTimeout_runs {m : Mod} {mem : Mem} {n : Nat} {d : DmaDesc} {rest : List DmaDesc}
    (hfetched : (dmaChan m n).fetched = d :: rest) (hstate : (dmaChan m n).state = .running) (hcheck : dmaCheck n d = 0)
    (hhost : d.ctrl % 8 = 1 ∨ bitsOf d.ctrl 5 4 = 1) (k : Nat) : dmaTimeout m mem n k = dmaRun m mem n d (min k d.len) 4 := by
  unfold dmaTimeout
  simp only [hfetched]
  exact if_neg (by simp only [hstate, hcheck]; tauto)

/-! ## Compression lanes (R403 to R405) -/

@[simp] theorem cmpLane_modLane_same (m : Mod) (n : Nat) (f : CmpLane → CmpLane) : cmpLane (modLane m n f) n = f (cmpLane m n) :=
  tabGet_tabMod_same m.dma.lanes n f

theorem cmpLane_modLane_ne (m : Mod) {n k : Nat} (f : CmpLane → CmpLane) (h : k ≠ n) : cmpLane (modLane m n f) k = cmpLane m k :=
  tabGet_tabMod_ne m.dma.lanes f h

theorem cmpLane_congr {u m : Mod} (h : u.dma = m.dma) (n : Nat) : cmpLane u n = cmpLane m n := by rw [cmpLane, h, cmpLane]

/-- The job at `a` as memory holds it. -/
def jobAt (mem : Mem) (a : Nat) : CmpJob :=
  { off := a, src := dramNat mem a 8, dst := dramNat mem (a + 8) 8, chain := dramNat mem (a + 16) 8
    state := dramNat mem (a + 24) 8, srcLen := dramNat mem (a + 32) 4, dstLen := dramNat mem (a + 36) 4
    chainLen := dramNat mem (a + 40) 4, ctrl := dramNat mem (a + 44) 4 }

theorem laneStart_takes {m : Mod} {mem : Mem} {n a : Nat} (hstopped : (cmpLane m n).stopped = false) (hjob : (cmpLane m n).job = none)
    (hthermal : m.hlth.thermal < 2) (hring : (reg m (Reg.CMP_L_HEAD n)).toNat ≠ (reg m (Reg.CMP_L_TAIL n)).toNat) (heven : n % 2 = 0)
    (ha : a = (reg m (Reg.CMP_L_BASE n)).toNat + 64 * (reg m (Reg.CMP_L_HEAD n)).toNat) (hown : 2 ^ 31 ≤ dramNat mem (a + 0x3C) 4) :
    laneStart m mem n = modLane m n fun c => { c with job := some (jobAt mem a) } := by
  subst ha
  unfold laneStart
  dsimp only
  rw [if_neg (by simp [hstopped, hjob, hring, heven, hthermal]), if_neg (by omega)]
  rfl

theorem laneStart_regs (m : Mod) (mem : Mem) (n : Nat) : (laneStart m mem n).regs = m.regs := by
  unfold laneStart
  dsimp only
  repeat' split
  all_goals rfl

/-- The code that a lane shows. -/
def laneCode (n : Nat) (m : Mod) : Nat := (cmpLane m n).code

theorem laneCode_congr {u m : Mod} (h : u.dma = m.dma) (n : Nat) : laneCode n u = laneCode n m := by rw [laneCode, cmpLane_congr h, laneCode]

theorem laneCode_modLane {m : Mod} {n k : Nat} {f : CmpLane → CmpLane} (h : ∀ c, (f c).code = c.code) :
    laneCode n (modLane m k f) = laneCode n m := by
  by_cases hk : n = k
  · subst hk
    rw [laneCode, cmpLane_modLane_same, h, laneCode]
  · rw [laneCode, cmpLane_modLane_ne _ _ hk, laneCode]

theorem laneCode_laneStart (m : Mod) (mem : Mem) (n k : Nat) : laneCode n (laneStart m mem k) = laneCode n m := by
  unfold laneStart
  dsimp only
  split
  · rfl
  · split
    · exact laneCode_modLane fun _ => rfl
    · exact laneCode_modLane fun _ => rfl

/-- TAIL gives an even lane that has no job the one at HEAD. -/
theorem cmpRingTail_takes {m : Mod} {mem : Mem} {n a : Nat} {v : Word} (hjob : (cmpLane m n).job = none)
    (hthermal : m.hlth.thermal < 2) (heven : n % 2 = 0) (hring : (reg m (Reg.CMP_L_HEAD n)).toNat ≠ v.toNat)
    (ha : a = (reg m (Reg.CMP_L_BASE n)).toNat + 64 * (reg m (Reg.CMP_L_HEAD n)).toNat) (hown : 2 ^ 31 ≤ dramNat mem (a + 0x3C) 4) :
    reg (cmpRingTail m mem n v 15 (keeperLane n)) (Reg.CMP_L_TAIL n) = v ∧
      (cmpLane (cmpRingTail m mem n v 15 (keeperLane n)) n).job = some (jobAt mem a) := by
  have hhead : reg (setReg m (Reg.CMP_L_TAIL n) v) (Reg.CMP_L_HEAD n) = reg m (Reg.CMP_L_HEAD n) :=
    reg_setReg_ne _ _ (by unfold Reg.CMP_L_HEAD Reg.CMP_L_TAIL; omega)
  have hbase : reg (setReg m (Reg.CMP_L_TAIL n) v) (Reg.CMP_L_BASE n) = reg m (Reg.CMP_L_BASE n) :=
    reg_setReg_ne _ _ (by unfold Reg.CMP_L_BASE Reg.CMP_L_TAIL; omega)
  have htail : reg (setReg m (Reg.CMP_L_TAIL n) v) (Reg.CMP_L_TAIL n) = v := reg_setReg_same ..
  have hlane : cmpLane (setReg m (Reg.CMP_L_TAIL n) v) n = cmpLane m n := rfl
  have hhlth : (setReg m (Reg.CMP_L_TAIL n) v).hlth = m.hlth := rfl
  rw [cmpRingTail, hostWrite_full, if_neg (by simp)]
  generalize setReg m (Reg.CMP_L_TAIL n) v = u at hhead hbase htail hlane hhlth ⊢
  have hregs (off : Nat) : reg (modLane u n fun c => { c with stopped := false }) off = reg u off := rfl
  rw [laneStart_takes (a := a) (by simp) (by simpa [hlane] using hjob) (by simpa [hhlth] using hthermal)
    (by simpa [hregs, hhead, htail] using hring) heven (by simpa [hregs, hhead, hbase] using ha) hown]
  exact ⟨htail, by simp⟩

/-! ## The end of a job (R405, R412) -/

/-- The lane after a job: its code and stream, what is saved, and HEAD. -/
def jobEnded (m : Mod) (n : Nat) (j : CmpJob) (r : CmpResult) : Mod :=
  let bad := decide (0x10 ≤ r.code)
  let kept : CmpStream := r.stream.getD { dec := j.ctrl % 4 == 1, wrap := bitsOf j.ctrl 3 2 }
  let m := modLane m n fun c => { c with job := none, code := r.code, stream := if bad then none else r.stream }
  let m := if j.ctrl.testBit 11 && !bad then { m with dma := { m.dma with saved := kept :: m.dma.saved.filter (· ≠ kept) } } else m
  setReg m (Reg.CMP_L_HEAD n) (BitVec.ofNat 32 (laneNext m n (reg m (Reg.CMP_L_HEAD n)).toNat))

/-- The counters and flags of a job's end. -/
def jobCounted (m : Mod) (n : Nat) (r : CmpResult) : Mod :=
  let m := cmpCount (bump m (Reg.CMP_L_CNT_JOBS n)) n r.used r.out.length
  let m := if decide (0x10 ≤ r.code) then setFault (bump m (Reg.CMP_L_CNT_ERR n)) Reg.CMP_FAULT 0 n else m
  let m := if r.code = 0x12 then setFault m Reg.CMP_FAULT 2 n else m
  if r.code = 0x30 then setFault m Reg.CMP_FAULT 1 n else m

/-- CMP_DONE and its interrupt where the job asks for them. -/
def jobDone (m : Mod) (n : Nat) (j : CmpJob) : Mod :=
  if j.ctrl.testBit 14 then
    let m := setBits m Reg.CMP_DONE n n 1
    if n < 2 then recheck m (37 + n) else m
  else m

/-- The lane and its partner look for their next jobs. -/
def lanesStart (m : Mod) (mem : Mem) (n : Nat) : Mod :=
  if n % 2 = 0 then laneStart (laneStart m mem n) mem (n + 1) else laneStart m mem n

/-- The write-back of a job. -/
def jobStatus (j : CmpJob) (r : CmpResult) : List MemWrite :=
  [toDram (j.off + 0x30) (leBytes 4 r.used ++ leBytes 4 r.out.length ++ leBytes 4 r.check ++ leBytes 4 (r.code * 65536 + 2 ^ 31)),
    toDram (j.off + 0x3F) [0]]

/-- A job that does not verify ends: its output and its write-back, and the lane in the order of its steps. -/
theorem cmpComplete_eq {m : Mod} {mem : Mem} {n : Nat} {j : CmpJob} {meet : CmpMeet} (hjob : (cmpLane m n).job = some j)
    (hverify : j.ctrl.testBit 13 = false) :
    let r := cmpResult { m with free := m.free + 1 } mem n j meet m.free
    ∃ w, (cmpComplete m mem n meet).2 = w ++ jobStatus j r ∧
      (cmpComplete m mem n meet).1 = lanesStart (jobDone (jobCounted (jobEnded { m with free := m.free + 1 } n j r) n r) n j)
        (memWrites mem (w ++ jobStatus j r)) n := by
  unfold cmpComplete
  simp only [hjob, hverify, Bool.false_and, Bool.false_eq_true, if_false, drawFree]
  exact ⟨_, rfl, rfl⟩

theorem jobEnded_effect (m : Mod) (n : Nat) (j : CmpJob) (r : CmpResult) : laneCode n (jobEnded m n j r) = r.code ∧
    reg (jobEnded m n j r) (Reg.CMP_L_HEAD n) = BitVec.ofNat 32 (laneNext m n (reg m (Reg.CMP_L_HEAD n)).toNat) := by
  unfold jobEnded
  extract_lets bad kept m1 d1 m2
  have hcode : laneCode n m1 = r.code := congrArg CmpLane.code (cmpLane_modLane_same ..)
  have hsaved : laneCode n m2 = laneCode n m1 ∧ m2.regs = m1.regs := by
    simp only [m2]
    split <;> exact ⟨rfl, rfl⟩
  have hregs : m2.regs = m.regs := hsaved.2
  have hnext (k : Nat) : laneNext m2 n k = laneNext m n k := by rw [laneNext, reg_congr hregs, laneNext]
  rw [hnext, reg_congr hregs]
  exact ⟨hsaved.1.trans hcode, reg_setReg_same ..⟩

theorem laneCode_jobCounted (m : Mod) (n : Nat) (r : CmpResult) : laneCode n (jobCounted m n r) = laneCode n m := by
  have hcount (u : Mod) (i o : Nat) : laneCode n (cmpCount u n i o) = laneCode n u := by
    unfold cmpCount
    exact (laneCode_congr (m := modLane u n fun c => { c with
      inPart := ((cmpLane u n).inPart + i) % 2 ^ 20, outPart := ((cmpLane u n).outPart + o) % 2 ^ 20 }) (by simp) n).trans
      (laneCode_modLane fun _ => rfl)
  have hfault (u : Mod) (b : Nat) : laneCode n (setFault u Reg.CMP_FAULT b n) = laneCode n u := laneCode_congr (by simp) n
  have hbump (u : Mod) (a : Nat) : laneCode n (bump u a) = laneCode n u := laneCode_congr (by simp) n
  unfold jobCounted
  dsimp only
  repeat' split
  all_goals simp only [hfault, hbump, hcount]

theorem laneCode_jobDone (m : Mod) (n : Nat) (j : CmpJob) : laneCode n (jobDone m n j) = laneCode n m := by
  refine laneCode_congr ?_ n
  unfold jobDone
  dsimp only
  repeat' split
  all_goals simp [setBits]

theorem laneCode_lanesStart (m : Mod) (mem : Mem) (n : Nat) : laneCode n (lanesStart m mem n) = laneCode n m := by
  unfold lanesStart
  split <;> simp only [laneCode_laneStart]

theorem lanesStart_regs (m : Mod) (mem : Mem) (n : Nat) : (lanesStart m mem n).regs = m.regs := by
  unfold lanesStart
  split <;> simp only [laneStart_regs]

section
variable {n : Nat} (hn : n < 4)
include hn

theorem reg_jobCounted_head (m : Mod) (r : CmpResult) :
    reg (jobCounted m n r) (Reg.CMP_L_HEAD n) = reg m (Reg.CMP_L_HEAD n) := by
  have hfree : eventFree (Reg.CMP_L_HEAD n) = true := by interval_cases n <;> rfl
  have hadd (u : Mod) (a k : Nat) (ha : Reg.CMP_L_HEAD n ≠ a) : reg (addCnt u a k) (Reg.CMP_L_HEAD n) = reg u (Reg.CMP_L_HEAD n) := by
    rw [reg_addCnt _ _ _ hfree, if_neg ha]
  have hcount (u : Mod) (i o : Nat) : reg (cmpCount u n i o) (Reg.CMP_L_HEAD n) = reg u (Reg.CMP_L_HEAD n) := by
    unfold cmpCount
    rw [hadd _ _ _ (by unfold Reg.CMP_L_HEAD Reg.CMP_L_CNT_OUT; omega), hadd _ _ _ (by unfold Reg.CMP_L_HEAD Reg.CMP_L_CNT_IN; omega)]
    rfl
  have hjobs (u : Mod) : reg (bump u (Reg.CMP_L_CNT_JOBS n)) (Reg.CMP_L_HEAD n) = reg u (Reg.CMP_L_HEAD n) :=
    hadd u _ 1 (by unfold Reg.CMP_L_HEAD Reg.CMP_L_CNT_JOBS; omega)
  have herr (u : Mod) : reg (bump u (Reg.CMP_L_CNT_ERR n)) (Reg.CMP_L_HEAD n) = reg u (Reg.CMP_L_HEAD n) :=
    hadd u _ 1 (by unfold Reg.CMP_L_HEAD Reg.CMP_L_CNT_ERR; omega)
  have hfault (u : Mod) (b : Nat) : reg (setFault u Reg.CMP_FAULT b n) (Reg.CMP_L_HEAD n) = reg u (Reg.CMP_L_HEAD n) := by
    rw [reg_setFault _ _ _ _ _ hfree, if_neg (by unfold Reg.CMP_L_HEAD Reg.CMP_FAULT; omega)]
  unfold jobCounted
  dsimp only
  repeat' split
  all_goals simp only [hfault, herr, hcount, hjobs]

theorem reg_jobDone (m : Mod) (j : CmpJob) {off : Nat} (hlow : off < 0x3F8000) (hoff : off ≠ Reg.CMP_DONE) :
    reg (jobDone m n j) off = reg m off := by
  unfold jobDone
  dsimp only
  split
  · split
    · exact (regO_recheck _ _ 0 (by omega) hlow).trans (reg_setReg_ne _ _ hoff)
    · exact reg_setReg_ne _ _ hoff
  · rfl

end

/-- An uncorrectable word in a job has its flags. -/
theorem jobCounted_memUe (m : Mod) (n : Nat) {r : CmpResult} (h : r.code = 0x12) :
    Bit (jobCounted m n r) Reg.CMP_FAULT 0 ∧ Bit (jobCounted m n r) Reg.CMP_FAULT 2 := by
  unfold jobCounted
  simp only [h, Nat.reduceLeDiff, decide_true, if_true, Nat.reduceEqDiff, if_false]
  exact ⟨Bit_setFault_other (by decide) (Bit_setFault (by decide) (by decide)), Bit_setFault (by decide) (by decide)⟩

theorem cmpResult_memUe (m : Mod) (mem : Mem) {n : Nat} {j : CmpJob} (free : Nat) (h : cmpCheck n j = 0) :
    (cmpResult m mem n j .memUe free).code = 0x12 := by
  unfold cmpResult
  simp only [h, ne_eq, not_true_eq_false, if_false, if_true]

/-- Settles O58, an engine's command at a time. -/
theorem channelsAndLanesRunTheirWork : Obligations.ChannelsAndLanesRunTheirWork := by
  intro s n hp hn
  refine ⟨fun v hup hroom halign => ⟨fun hstate hqueue hnext hfetched hpend => ?_, fun hstate => ?_⟩, fun v hup hstate => ⟨fun habort => ?_,
    fun hkeep hretry => ?_⟩, fun off hnext hstate hroom hpend halign hhops hown => ?_,
    fun d rest hfetched hstate hcheck => ⟨fun hstore hcrc hhazards hsrc => ?_, fun hhost k => ?_⟩,
    fun v a hlane hup hjob hthermal heven hring ha hown => ?_, fun j meet r hlane hjob hverify hr => ?_⟩
  · refine ⟨(exec_dmaChain n v 15 _ s).trans ((runM_powered _ hp).trans (by rw [inRunning_up _ _ _ hup])), ?_⟩
    rw [dmaChain_queued hroom halign, if_pos (by simp [hstate])]
    exact dmaNextChain_takes (rest := []) (by simp) (by simpa using hnext) (by simpa using hfetched) (by simpa using hpend)
      (by simp [hqueue])
  · refine ⟨(exec_dmaChain n v 15 _ s).trans ((runM_powered _ hp).trans (by rw [inRunning_up _ _ _ hup])), ?_⟩
    rw [dmaChain_queued hroom halign, if_neg (by simp [hstate])]
    exact congrArg DmaChan.queue (dmaChan_modChan_same ..)
  · refine ⟨(exec_dmaAbort n v 15 _ s).trans ((runM_powered _ hp).trans (by rw [inRunning_up _ _ _ hup])), ?_⟩
    rw [dmaAbort, dmaCmd_halted hstate, if_pos habort]
    beta_reduce
    rw [dmaChan_modChan_same]
    exact ⟨rfl, rfl, rfl, rfl⟩
  · refine ⟨(exec_dmaRetry n v 15 _ s).trans ((runM_powered _ hp).trans (by rw [inRunning_up _ _ _ hup])), ?_⟩
    rw [dmaRetry, dmaCmd_halted hstate, if_neg (by simp [hkeep]), if_pos hretry]
    beta_reduce
    rw [dmaChan_modChan_same]
    exact ⟨rfl, rfl⟩
  · obtain ⟨⟨hz, hlast⟩, hcount⟩ := dmaFetch_fetches (mem := s.mem) hnext hstate hroom hpend halign hhops hown
    exact ⟨(exec_dmaDescriptorFetch n s).trans (runM_powered _ hp), ⟨_, hlast, rfl, rfl, rfl, rfl, rfl⟩, hcount⟩
  · obtain ⟨hwrites, hleft⟩ := dmaRun_copies (m := dmaTurns s.m n d) (mem := s.mem) (n := n) hstore hcrc hhazards hsrc (dmaCheck_len hcheck)
    rw [← dmaComplete_ok hfetched hstate hcheck] at hwrites hleft
    refine stores_of_runW (u := (dmaComplete s.m s.mem n .ok).1) (exec_dmaDescriptorComplete n .ok s) hp (Prod.ext rfl hwrites) (hleft.trans ?_)
    rw [fetchedOf_dmaTurns, fetchedOf, hfetched]
    rfl
  · refine stores_of_runW (u := (dmaTimeout s.m s.mem n k).1) (exec_dmaTimeout n k s) hp (Prod.ext rfl rfl) ?_
    rw [dmaTimeout_runs hfetched hstate hcheck hhost]
    exact dmaRun_timeout s.m s.mem n d (min k d.len)
  · obtain ⟨htail, htaken⟩ := cmpRingTail_takes (mem := s.mem) hjob hthermal heven hring ha hown
    exact ⟨(exec_cmpRingTail n v 15 _ s).trans ((runM_powered _ hp).trans (by rw [inRunning_up _ _ _ hup])), htail, _, htaken, rfl, rfl,
      rfl, rfl⟩
  · subst hr
    obtain ⟨w, hwrites, hend⟩ := cmpComplete_eq (mem := s.mem) (meet := meet) hjob hverify
    refine stores_of_runW (u := (cmpComplete s.m s.mem n meet).1) (exec_cmpJobComplete n meet s) hp (Prod.ext rfl rfl) ?_
    obtain ⟨hcode, hhead⟩ := jobEnded_effect { s.m with free := s.m.free + 1 } n j
      (cmpResult { s.m with free := s.m.free + 1 } s.mem n j meet s.m.free)
    have hshown : (cmpLane (cmpComplete s.m s.mem n meet).1 n).code =
        (cmpResult { s.m with free := s.m.free + 1 } s.mem n j meet s.m.free).code := by
      rw [hend, ← hcode, ← laneCode_jobCounted, ← laneCode_jobDone]
      exact laneCode_lanesStart ..
    refine ⟨hshown, ⟨w, hwrites⟩, ?_, fun hmeet hcheck => ?_⟩
    · rw [hend, reg_congr (lanesStart_regs ..), reg_jobDone hlane _ _ (by unfold Reg.CMP_L_HEAD; omega)
        (by unfold Reg.CMP_L_HEAD Reg.CMP_DONE; omega), reg_jobCounted_head hlane, hhead]
      rfl
    · subst hmeet
      have hue := cmpResult_memUe { s.m with free := s.m.free + 1 } s.mem s.m.free hcheck
      obtain ⟨hany, hword⟩ := jobCounted_memUe (jobEnded { s.m with free := s.m.free + 1 } n j
        (cmpResult { s.m with free := s.m.free + 1 } s.mem n j .memUe s.m.free)) n hue
      have hreg : reg (cmpComplete s.m s.mem n .memUe).1 Reg.CMP_FAULT = reg (jobCounted (jobEnded { s.m with free := s.m.free + 1 } n j
          (cmpResult { s.m with free := s.m.free + 1 } s.mem n j .memUe s.m.free)) n
          (cmpResult { s.m with free := s.m.free + 1 } s.mem n j .memUe s.m.free)) Reg.CMP_FAULT := by
        rw [hend, reg_congr (lanesStart_regs ..), reg_jobDone hlane _ _ (by decide) (by decide)]
      exact ⟨hshown.trans hue, by rwa [Bit, hreg], by rwa [Bit, hreg]⟩

end Sys2Proof.Machine
end

section
/-!
SUPPORT. Metering, event recorder and key timers (R425 to R478).
-/
namespace Sys2Proof.Machine

/-! ## Pulses (R425) -/

theorem advanceTo_reached {m : Mod} {t : Nat} (h : t ≤ m.clk.elapsed) : advanceTo m (max m.clk.elapsed t) = m :=
  if_pos (max_le le_rfl h)

/-- An enabled output with credit, its last pulse two widths ago, starts a pulse at once. -/
theorem pulseStart_starts {m : Mod} {o : Nat} {c : PulseCfg} (hcfg : (mtrCfg m).pulses.lookup o = some c)
    (hon : (reg m Reg.MTR_CTRL).toNat.testBit o = true) (hcredit : 2 ^ 32 ≤ tabGet m.mtr.credits o)
    (hidle : tabGet m.mtr.pulsing o = false) (hsave : m.mtr.saving = none)
    (hgap : ∀ t, tabGet m.mtr.pulseAt o = some t → t + usec (20 * c.pw) ≤ m.clk.elapsed) :
    pulseStart m o = startTimer (pulseDrive (modMtr m fun r => { r with
      credits := tabSet r.credits o (tabGet r.credits o - 2 ^ 32), pulseAt := tabSet r.pulseAt o (some m.clk.elapsed) }) o true)
      .pulseEnd o (usec (10 * c.pw)) := by
  unfold pulseStart
  simp only [hcfg]
  rw [if_neg (by simp [hon, hidle, hsave]; omega)]
  cases hlast : tabGet m.mtr.pulseAt o with
  | none => rfl
  | some t => simp only [advanceTo_reached (hgap t hlast)]

/-- A pulse drives its line, by the polarity of its output. -/
theorem pulseDrive_effect {m : Mod} {o : Nat} {c : PulseCfg} (hcfg : (mtrCfg m).pulses.lookup o = some c) (active : Bool) :
    (pulseDrive m o active).sent = .pulse o (active != c.activeLow) :: m.sent ∧ tabGet (pulseDrive m o active).mtr.pulsing o = active ∧
      (pulseDrive m o active).mtr.credits = m.mtr.credits ∧ (pulseDrive m o active).clk = m.clk := by
  unfold pulseDrive
  simp only [hcfg]
  exact ⟨rfl, tabGet_tabSet_same .., rfl, rfl⟩

theorem pulseEnd_effect {m : Mod} {o : Nat} (hdue : Due m .pulseEnd o) :
    tabGet (pulseEnd m o).mtr.pulsing o = false ∧ timerDue (pulseEnd m o) .pulseEnd o = none := by
  rw [pulseEnd, expire_of_due hdue]
  exact ⟨tabGet_tabSet_same .., timerDue_stopTimer ..⟩

/-! ## Saves (R435, R436) -/

/-- With no write in progress a save begins with the points as they stand. -/
theorem requestSave_begins {m : Mod} (h : m.mtr.saving = none) (kind : SaveKind) :
    ∃ c, (requestSave m kind).mtr.saving = some c ∧ c.kind = kind ∧ c.pts = m.mtr.pts ∧ c.seq = m.mtr.nextSeq := by
  unfold requestSave
  simp only [h]
  exact ⟨_, rfl, rfl, rfl, rfl⟩

theorem requestSave_timers (m : Mod) (kind : SaveKind) : (requestSave m kind).timers = m.timers := by
  unfold requestSave
  repeat' split
  all_goals rfl

/-- A verified save counted, with its event for a periodic one. -/
def saveCounted (m : Mod) (c : MtrCopy) : Mod :=
  let m := bump m Reg.MTR_SAVE_CNT
  if c.kind = .periodic ∧ regBits m Reg.MTR_CTRL 8 8 = 1 then raiseEvent m 0xE Config.saveEvent.1 Config.saveEvent.2 [] else m

theorem saveCounted_mtr (m : Mod) (c : MtrCopy) : (saveCounted m c).mtr = m.mtr := by
  unfold saveCounted
  dsimp only
  split <;> simp

/-- The copy `c` in the place of the older one. -/
def copyKept (m : Mod) (c : MtrCopy) : Mod :=
  let toB := (newestCopy m).isSome && !m.mtr.newestB
  modMtr (modMtr m fun r => { r with saving := none }) fun r => { r with
    copyA := if toB then r.copyA else some c, copyB := if toB then some c else r.copyB, newestB := toB }

/-- The module past the write of the copy `c`, before the save that waits. -/
def saveVerified (m : Mod) (c : MtrCopy) (ok : Bool) : Mod :=
  if ok then saveCounted (copyKept m c) c else setFault (modMtr m fun r => { r with saving := none }) Reg.MTR_FAULT 0

theorem saveVerified_mtr (m : Mod) (c : MtrCopy) (ok : Bool) : (saveVerified m c ok).mtr.waiting = m.mtr.waiting ∧
    (saveVerified m c ok).mtr.saving = none := by
  unfold saveVerified
  split
  · rw [saveCounted_mtr]
    exact ⟨rfl, rfl⟩
  · simp [modMtr]

theorem newestCopy_congr {u m : Mod} (h : u.mtr = m.mtr) : newestCopy u = newestCopy m := by rw [newestCopy, h, newestCopy]

theorem newestCopy_saveVerified (m : Mod) (c : MtrCopy) : newestCopy (saveVerified m c true) = some c := by
  rw [saveVerified, if_pos rfl, newestCopy_congr (saveCounted_mtr ..)]
  simp only [newestCopy, copyKept, modMtr]
  split_ifs <;> rfl

theorem saveVerify_eq {m : Mod} {c : MtrCopy} (hsaving : m.mtr.saving = some c) (hkind : c.kind ≠ .lastGasp)
    (hwaiting : m.mtr.waiting = none) (ok : Bool) : saveVerify m ok = saveVerified m c ok := by
  have hwait := (saveVerified_mtr m c ok).1.trans hwaiting
  have heq : saveVerify m ok = if c.kind = .lastGasp then mtrLogFree (saveVerified m c ok) 0x05 0xFF []
      else match (saveVerified m c ok).mtr.waiting with
        | some k => beginSave (modMtr (saveVerified m c ok) fun r => { r with waiting := none }) k
        | none => saveVerified m c ok := by
    unfold saveVerify
    simp only [hsaving]
    rfl
  rw [heq, if_neg hkind, hwait]

/-! ## The log and MTR_PT_CMD (R444, R446, R450) -/

/-- A log entry leaves the points, the seal slot and what the newest copies hold. -/
theorem mtrLog_points (m : Mod) (code pt : Nat) (args : List Nat) :
    (mtrLog m code pt args).mtr.pts = m.mtr.pts ∧ (mtrLog m code pt args).mtr.sealSlot = m.mtr.sealSlot := by
  refine mtrLog_keeps (P := fun n => n.mtr.pts = m.mtr.pts ∧ n.mtr.sealSlot = m.mtr.sealSlot) (fun n i h => ?_)
    (fun _ _ _ _ h => h) (fun _ _ h => h) (fun n h => by simpa using h) ⟨rfl, rfl⟩ code pt args
  have htag : (checkTag n i).mtr = n.mtr := by
    unfold checkTag tagFail
    dsimp only
    split
    · simp [setSlot]
    · rfl
  rwa [htag]

theorem logConfig_points (m : Mod) (kind pt value : Nat) : (logConfig m kind pt value).mtr.pts = m.mtr.pts := by
  unfold logConfig
  split
  · exact (mtrLog_points ..).1
  · rfl

theorem mtrPt_congr {u m : Mod} (h : u.mtr.pts = m.mtr.pts) (pt : Nat) : mtrPt u pt = mtrPt m pt := by rw [mtrPt, h, mtrPt]

theorem mtrPt_modPt (m : Mod) (pt : Nat) (f : MtrPt → MtrPt) : mtrPt (modPt m pt f) pt = f (mtrPt m pt) := tabGet_tabMod_same ..

/-- The module at an operation of MTR_PT_CMD. -/
def ptCmdTaken (m : Mod) (op pt : Nat) : Mod :=
  setReg (closeGate m (srcOf Reg.MTR_PT_CMD)) Reg.MTR_PT_CMD (BitVec.ofNat 32 (op * 2 ^ 28 + pt % 256))

theorem ptCmdTaken_frame (m : Mod) (op pt : Nat) : (ptCmdTaken m op pt).mtr = m.mtr ∧
    sealState (ptCmdTaken m op pt) = sealState m ∧ ptLegal (ptCmdTaken m op pt) pt = ptLegal m pt := ⟨rfl, rfl, rfl⟩

section
variable {m : Mod} {pt : Nat} (hgate : gateOpen m (srcOf Reg.MTR_PT_CMD) = true)
include hgate

theorem mtrPtCmd_runs {op : Nat} (run : Mod → Mod)
    (h : ¬(sealState m = .sealed ∧ ptLegal m pt = true) ∨ (op == 2 || op == 3 || op == 4) = false) :
    mtrPtCmd m op pt 15 run = run (ptCmdTaken m op pt) := by
  obtain ⟨-, hseal, hlegal⟩ := ptCmdTaken_frame m op pt
  rw [mtrPtCmd, guardedWrite_open m _ _ hgate]
  change (if sealState (ptCmdTaken m op pt) == .sealed && ptLegal (ptCmdTaken m op pt) pt && (op == 2 || op == 3 || op == 4)
    then ptRefuse (ptCmdTaken m op pt) pt true else run (ptCmdTaken m op pt)) = _
  rw [hseal, hlegal, if_neg]
  rcases h with hfree | hop
  · intro hall
    simp only [Bool.and_eq_true, beq_iff_eq] at hall
    exact hfree hall.1
  · simp [hop]

theorem mtrPtCmd_refuses {op : Nat} (run : Mod → Mod) (hseal : sealState m = .sealed) (hlegal : ptLegal m pt = true)
    (hop : (op == 2 || op == 3 || op == 4) = true) : (mtrPtCmd m op pt 15 run).mtr = m.mtr := by
  obtain ⟨hmtr, hseal', hlegal'⟩ := ptCmdTaken_frame m op pt
  rw [mtrPtCmd, guardedWrite_open m _ _ hgate]
  change (if sealState (ptCmdTaken m op pt) == .sealed && ptLegal (ptCmdTaken m op pt) pt && (op == 2 || op == 3 || op == 4)
    then ptRefuse (ptCmdTaken m op pt) pt true else run (ptCmdTaken m op pt)).mtr = _
  rw [if_pos (by simp only [hseal', hlegal', hseal, hlegal, hop]; rfl)]
  exact (show (ptRefuse (ptCmdTaken m op pt) pt true).mtr = (ptCmdTaken m op pt).mtr by simp [ptRefuse]).trans hmtr

end

/-- The clear of a set of registers, with its log entry. -/
theorem clearSet_logged (m : Mod) (pt base code : Nat) :
    (mtrPt (if sealLogs (clearSet m pt base) then mtrLogFree (clearSet m pt base) code pt [] else clearSet m pt base) pt).regs =
      (mtrPt m pt).regs.filter fun r => r.1 / 8 * 8 ≠ base := by
  have hclear : (mtrPt (clearSet m pt base) pt).regs = (mtrPt m pt).regs.filter fun r => r.1 / 8 * 8 ≠ base :=
    congrArg MtrPt.regs (mtrPt_modPt ..)
  split
  · exact (congrArg MtrPt.regs (mtrPt_congr (mtrLog_points ..).1 pt)).trans hclear
  · exact hclear

/-- A point's flags cleared, with the entry that a broken seal asks for. -/
theorem flagsCleared_logged (m : Mod) (pt kind : Nat) (f : MtrPt → MtrPt) :
    mtrPt (if sealState (modPt m pt f) = .broken then logConfig (modPt m pt f) kind pt 0 else modPt m pt f) pt = f (mtrPt m pt) := by
  split
  · exact (mtrPt_congr (logConfig_points ..) pt).trans (mtrPt_modPt ..)
  · exact mtrPt_modPt ..

/-- The distance of an acknowledged entry from the log's free end, found from its low 32 bits. -/
theorem ackDistance {a f : Nat} (hlow : f ≤ a) (hnear : a < f + 2 ^ 32) :
    ((BitVec.ofNat 32 a).toNat + 2 ^ 32 - f % 2 ^ 32) % 2 ^ 32 = a - f := by
  have hpow : 2 ^ 32 = 4294967296 := by norm_num
  rw [BitVec.toNat_ofNat]
  rw [hpow] at hnear ⊢
  omega

/-- The log acknowledged up to the entry `d` past its free end. -/
theorem mtrLogAck_frees {m : Mod} {v : Word} {d : Nat} (hgate : gateOpen m (srcOf Reg.MTR_LOG_ACK) = true)
    (hdist : (v.toNat + 2 ^ 32 - m.mtr.logFree % 2 ^ 32) % 2 ^ 32 = d) (hlog : m.mtr.logFree + d < m.mtr.logNext) :
    (mtrLogAck m v 15).mtr.logFree = m.mtr.logFree + d + 1 := by
  rw [mtrLogAck, guardedWrite_open m _ _ hgate]
  generalize hn : setReg (closeGate m (srcOf Reg.MTR_LOG_ACK)) Reg.MTR_LOG_ACK v = n
  have hmtr : n.mtr = m.mtr := by rw [← hn]; rfl
  simp only [hmtr, hdist, if_pos hlog, modMtr]

/-! ## The seal (R478) -/

theorem checkTag_of_tag {m : Mod} {i : Nat} (h : (keySlot m i).tag = slotTag m i (keySlot m i)) : checkTag m i = m := by
  rw [checkTag]
  exact if_neg (by simp [h])

/-- The seal closed on slot `i`: its digest, the seal axis, and the two entries of the log. -/
def sealClosed (m : Mod) (i : Nat) : Mod :=
  let d := sealDigest m i
  let m := setSeal (modMtr m fun r => { r with digest := d, sealSlot := some i }) 1 2 .sealed
  let w (k : Nat) : Nat := leNat ((d.drop (8 * k)).take 8)
  mtrLog (mtrLog m 0x01 0xFF [w 0, w 1, w 2]) 0x02 0xFF [w 3, i]

theorem Bit_mtrLog {m : Mod} {b : Nat} (h : Bit m Reg.MTR_FAULT b) (code pt : Nat) (args : List Nat) :
    Bit (mtrLog m code pt args) Reg.MTR_FAULT b := by
  refine mtrLog_keeps (P := fun n => Bit n Reg.MTR_FAULT b) (fun n i hn => ?_) (fun _ _ _ _ h => h) (fun _ _ h => h)
    (fun n hn => Bit_setFault_other (by decide) (Bit_bump (by decide) (by decide) hn)) h code pt args
  unfold Bit at *
  rw [reg_checkTag n i (by decide) (by decide)]
  exact hn

theorem sealClosed_effect (m : Mod) (i : Nat) : (sealClosed m i).mode.sealSt = .sealed ∧ (sealClosed m i).mtr.sealSlot = some i ∧
    Bit (sealClosed m i) Reg.MTR_FAULT 6 := by
  unfold sealClosed
  dsimp only
  refine ⟨?_, ?_, ?_⟩
  · rw [mtrLog_mode, mtrLog_mode]
    simp [setSeal]
  · rw [(mtrLog_points ..).2, (mtrLog_points ..).2]
    simp [setSeal, modMtr]
  · exact Bit_mtrLog (Bit_mtrLog (Bit_raiseEvent (by decide) (Bit_setFault (by decide) (by decide))) ..) ..

theorem keySealCmd_seals {m : Mod} {v : Word} (hseal : v.toNat.testBit 31 = true) (hgate : gateOpen m (srcOf Reg.KEY_SEAL_CMD) = true)
    (hstate : sealState m = .unsealed) (hslot : sealSlotOk m (v.toNat % 256) = true)
    (htag : (keySlot m (v.toNat % 256)).tag = slotTag m (v.toNat % 256) (keySlot m (v.toNat % 256))) (hlive : isLive m 2 = true) :
    ∃ u, keySealCmd m v 15 = sealClosed u (v.toNat % 256) := by
  rw [keySealCmd, guardedWrite_open m _ _ hgate]
  generalize hn : setReg (closeGate m (srcOf Reg.KEY_SEAL_CMD)) Reg.KEY_SEAL_CMD (v &&& 0xFF) = n
  have hstate' : sealState n = .unsealed := by rw [← hn]; exact hstate
  have hslot' : sealSlotOk n (v.toNat % 256) = true := by rw [← hn]; exact hslot
  have hlive' : isLive n 2 = true := by rw [← hn]; exact hlive
  have htag' : checkTag n (v.toNat % 256) = n := checkTag_of_tag (by rw [← hn]; exact htag)
  simp only [hseal, htag', hstate', hslot', hlive', Bool.not_true, Bool.false_eq_true, if_false, if_true, ne_eq,
    not_true_eq_false, or_self]
  exact ⟨_, rfl⟩

/-! ## The event recorder (R455 to R462) -/

theorem eventCommit_first {m : Mod} {e : Event} {q : List Event} (hrun : m.evr.running = true) (hgap : m.evr.lostGap = 0)
    (hqueue : m.evr.queue = e :: q) (hnewest : m.evr.newest = none) :
    eventCommit m = commitRecord { m with evr := { m.evr with queue := q } } e := by
  unfold eventCommit
  simp only [hrun, hgap, hqueue, Bool.not_true, Bool.false_eq_true, if_false, ne_eq, not_true_eq_false, false_and]
  unfold commitEvent
  simp only [hnewest]

theorem commitRecord_evr (m : Mod) (e : Event) : (commitRecord m e).evr = { m.evr with
    ring := tabSet m.evr.ring (m.evr.next % ringSize) (recordBytes e m.evr.next 0)
    next := (m.evr.next + 1) % 2 ^ 64, count := min (m.evr.count + 1) ringSize, newest := some (e, 0) } := by
  unfold commitRecord
  dsimp only
  split
  · simp
  · rfl

/-- What a queued or lost event leaves of the recorder: the read buffer. -/
theorem raiseEvent_readBuffer (m : Mod) (src cls detail : Nat) (arg : Bytes) :
    let u := raiseEvent m src cls detail arg
    u.evr.readValid = m.evr.readValid ∧ u.evr.readResult = m.evr.readResult ∧ u.evr.readBuf = m.evr.readBuf := by
  have hlose (n : Mod) (e : Event) : (loseEvent n e).evr.readValid = n.evr.readValid ∧
      (loseEvent n e).evr.readResult = n.evr.readResult ∧ (loseEvent n e).evr.readBuf = n.evr.readBuf := by
    unfold loseEvent
    simp
  unfold raiseEvent pushEvent
  dsimp only
  split
  · exact ⟨rfl, rfl, rfl⟩
  · split <;> simp only [hlose, and_self]

theorem evrReadCmd_reads {m : Mod} {v : Word} (h : v.toNat % 2 = 1) :
    let r := readRecord m.evr ((reg m Reg.EVR_RD_SEQL).toNat + 2 ^ 32 * (reg m Reg.EVR_RD_SEQH).toNat)
    (evrReadCmd m v).evr.readValid = true ∧ (evrReadCmd m v).evr.readResult = r.1 ∧ (evrReadCmd m v).evr.readBuf = r.2 := by
  unfold evrReadCmd
  rw [if_pos h]
  dsimp only
  split
  · unfold setFault
    rw [(raiseEvent_readBuffer ..).1, (raiseEvent_readBuffer ..).2.1, (raiseEvent_readBuffer ..).2.2]
    simp
  · exact ⟨rfl, rfl, rfl⟩

/-! ## Key timers (R466, R469, R471) -/

theorem commissioningTimeout_ends {m : Mod} (hdue : Due m .commissioning 0) (h : m.key.store = .commissioning) :
    (commissioningTimeout m).key.store = .provisioned := by
  have hstop : (stopTimer m .commissioning 0).key.store = .commissioning := h
  rw [commissioningTimeout, expire_of_due hdue, if_pos hstop]

theorem graceExpiry_ends {m : Mod} {i : Nat} (hdue : Due m .grace i) (h : (keySlot m i).state = .grace) :
    (keySlot (graceExpiry m i) i).state = .valid ∧ (keySlot (graceExpiry m i) i).prev = [] ∧
      (keySlot (graceExpiry m i) i).cur = (keySlot m i).cur := by
  rw [graceExpiry, expire_of_due hdue]
  dsimp only
  rw [keySlot_setSlot_same]
  exact ⟨if_pos h, rfl, rfl⟩

theorem tagPass_fails {m : Mod} {i : Nat} (hlive : slotLive (keySlot m i) = true)
    (htag : (keySlot m i).tag ≠ slotTag m i (keySlot m i)) :
    (keySlot (tagPass m i) i).state = .unusable ∧ Bit (tagPass m i) Reg.KEY_FAULT 0 := by
  have hfail : tagPass m i = tagFail m i := if_pos (by simp [hlive, htag])
  rw [hfail, tagFail]
  refine ⟨?_, Bit_setFault (by decide) (by decide)⟩
  rw [keySlot_congr (m := setSlot m i { keySlot m i with state := .unusable }) (by simp), keySlot_setSlot_same]

/-! ## The obligation -/

/-- The four operations of MTR_PT_CMD on a supplied module whose block runs. -/
theorem exec_ptCmds {s : State} (hp : Powered s) {pt : Nat} (hup : blockUp s.m (srcOf Reg.MTR_PT_CMD) = true) :
    exec (.mtrClearTestSet pt 15) s = .next { s with m := mtrClearTest s.m pt 15 } ∧
    exec (.mtrClearServiceSet pt 15) s = .next { s with m := mtrClearService s.m pt 15 } ∧
    exec (.mtrClearWrap pt 15) s = .next { s with m := mtrClearWrap s.m pt 15 } ∧
    exec (.mtrClearOverLost pt 15) s = .next { s with m := mtrClearOver s.m pt 15 } := by
  have hrun (f : Mod → Mod) : runM s (fun m => inRunning m (srcOf Reg.MTR_PT_CMD) f) = .next { s with m := f s.m } := by
    rw [runM_powered _ hp, inRunning_up _ _ _ hup]
  exact ⟨(exec_mtrClearTestSet pt 15 s).trans (hrun _), (exec_mtrClearServiceSet pt 15 s).trans (hrun _),
    (exec_mtrClearWrap pt 15 s).trans (hrun _), (exec_mtrClearOverLost pt 15 s).trans (hrun _)⟩

/-- Settles O59, a timer or command at a time. -/
theorem meteringEventsAndKeysAct : Obligations.MeteringEventsAndKeysAct := by
  intro s
  refine ⟨fun hp o c hcfg hon hcredit hidle hsave hgap => ?_, fun hp o hdue => ?_, fun hp hsave => ⟨fun hdue => ?_, fun v hup hv => ?_⟩,
    fun c hsaving hkind hwaiting => ⟨⟨exec_saveVerify true s, ?_⟩, exec_saveVerify false s, ?_⟩,
    fun hp pt hup hgate => ⟨fun hfree => ?_, fun hseal hlegal => ?_⟩, fun hp a hup hgate hlow hhigh hnear => ?_,
    fun hp v i hi hv hup hgate hstate hslot htag hlive => ?_, fun hp e q hrun hgap hqueue hnewest => ?_, fun hp v hup hv => ?_,
    fun hp hdue hstore => ?_, fun hp i hdue hstate => ?_, fun hp i hlive => ⟨fun htag => ?_, fun htag => ?_⟩⟩
  · refine ⟨(exec_pulseStart o s).trans (runM_powered _ hp), ?_⟩
    rw [pulseStart_starts hcfg hon hcredit hidle hsave hgap]
    obtain ⟨hsent, hpulsing, hcredits, hclk⟩ := pulseDrive_effect (m := modMtr s.m fun r => { r with
      credits := tabSet r.credits o (tabGet r.credits o - 2 ^ 32), pulseAt := tabSet r.pulseAt o (some s.m.clk.elapsed) }) hcfg true
    refine ⟨hpulsing, (congrArg (tabGet · o) hcredits).trans (tabGet_tabSet_same ..), by simpa using hsent, ?_⟩
    rw [timerDue_startTimer, hclk]
    rfl
  · exact ⟨(exec_pulseEnd o s).trans (runM_powered _ hp), pulseEnd_effect hdue⟩
  · refine ⟨(exec_periodicSave s).trans (runM_powered _ hp), ?_⟩
    rw [periodicSave, expire_of_due hdue]
    have hidle (t : Nat) : (startTimer (stopTimer s.m .periodicSave 0) .periodicSave 0 t).mtr.saving = none := hsave
    refine ⟨requestSave_begins (hidle _) .periodic, ?_⟩
    rw [timerDue_congr (requestSave_timers ..), timerDue_startTimer]
    rfl
  · refine ⟨(exec_mtrSaveCmd v 15 s).trans ((runM_powered _ hp).trans (by rw [inRunning_up _ _ _ hup])), ?_⟩
    rw [mtrSaveCmd, hostWrite_full, if_pos hv]
    exact requestSave_begins hsave .command
  · rw [saveVerify_eq hsaving hkind hwaiting]
    exact ⟨newestCopy_saveVerified s.m c, (saveVerified_mtr s.m c true).2⟩
  · rw [saveVerify_eq hsaving hkind hwaiting]
    exact ⟨(saveVerified_mtr s.m c false).2, Bit_setFault (by decide) (by decide)⟩
  · obtain ⟨htest, hservice, hwrap, hover⟩ := exec_ptCmds hp hup (pt := pt)
    refine ⟨⟨htest, ?_⟩, ⟨hservice, ?_⟩, ⟨hwrap, ?_⟩, hover, ?_⟩
    · rw [mtrClearTest, mtrPtCmd_runs hgate _ (.inl hfree)]
      exact clearSet_logged ..
    · rw [mtrClearService, mtrPtCmd_runs hgate _ (.inl hfree)]
      exact clearSet_logged ..
    · rw [mtrClearWrap, mtrPtCmd_runs hgate _ (.inl hfree)]
      exact congrArg MtrPt.wrap (flagsCleared_logged (ptCmdTaken s.m 3 pt) pt 3 fun p => { p with wrap := 0 })
    · rw [mtrClearOver, mtrPtCmd_runs hgate _ (.inl hfree)]
      have hflags := flagsCleared_logged (ptCmdTaken s.m 4 pt) pt 4 fun p => { p with ovf := false, lost := false }
      exact ⟨congrArg MtrPt.ovf hflags, congrArg MtrPt.lost hflags⟩
  · obtain ⟨htest, hservice, hwrap, hover⟩ := exec_ptCmds hp hup (pt := pt)
    refine ⟨⟨htest, ?_⟩, ⟨hservice, ?_⟩, ⟨hwrap, ?_⟩, hover, ?_⟩
    · rw [mtrClearTest, mtrPtCmd_runs hgate _ (.inr rfl)]
      exact clearSet_logged ..
    · exact congrArg Mtr.pts (mtrPtCmd_refuses hgate _ hseal hlegal rfl)
    · exact congrArg Mtr.pts (mtrPtCmd_refuses hgate _ hseal hlegal rfl)
    · exact congrArg Mtr.pts (mtrPtCmd_refuses hgate _ hseal hlegal rfl)
  · refine ⟨(exec_mtrLogAck _ 15 s).trans ((runM_powered _ hp).trans (by rw [inRunning_up _ _ _ hup])), ?_⟩
    have hsum : s.m.mtr.logFree + (a - s.m.mtr.logFree) = a := Nat.add_sub_cancel' hlow
    exact (mtrLogAck_frees hgate (ackDistance hlow hnear) (by omega)).trans (by rw [hsum])
  · subst hi
    refine ⟨(exec_keySealCmd v 15 s).trans ((runS_powered _ hp).trans (by rw [inRunning_up _ _ _ hup])), ?_⟩
    obtain ⟨u, hsealed⟩ := keySealCmd_seals hv hgate hstate hslot htag hlive
    rw [hsealed]
    exact sealClosed_effect u _
  · refine ⟨(exec_eventCommit s).trans (runM_powered _ hp), ?_⟩
    rw [eventCommit_first hrun hgap hqueue hnewest]
    beta_reduce
    rw [commitRecord_evr]
    exact ⟨rfl, rfl, rfl, tabGet_tabSet_same ..⟩
  · refine ⟨(exec_evrRdCmd v 15 s).trans ((runM_powered _ hp).trans (by rw [inRunning_up _ _ _ hup])), ?_⟩
    rw [evrRdWrite, hostWrite_full]
    exact evrReadCmd_reads hv
  · exact ⟨(exec_commissioningTimeout s).trans (runM_powered _ hp), commissioningTimeout_ends hdue hstore⟩
  · exact ⟨(exec_graceExpiry i s).trans (runM_powered _ hp), graceExpiry_ends hdue hstate⟩
  · exact ⟨(exec_tagBackgroundPass i s).trans (runM_powered _ hp), tagPass_fails hlive htag⟩
  · exact ⟨(exec_tagBackgroundPass i s).trans (runM_powered _ hp), checkTag_of_tag htag⟩

end Sys2Proof.Machine
end
